-- ==== Sys2Proof/Word.lean ====
section
/-! DEFINITION. The word types of the BG8164 and their plainest arithmetic (R5, R6, R67, R73, R74). -/

namespace Sys2Proof

/-- One byte of memory. -/
abbrev Byte := BitVec 8
/-- A data-memory word and a g-register (R69, R140). -/
abbrev W24 := BitVec 24
/-- A register of the control-register region (R7). -/
abbrev W32 := BitVec 32
/-- The transport word of a scalar move (R67). -/
abbrev W48 := BitVec 48
/-- One accumulator lane (R69). -/
abbrev W56 := BitVec 56
/-- A row of eight 24-bit words, word i in bits [24i + 23:24i] (R74). -/
abbrev Row := BitVec 192

/-- The `len` bits of `n` from bit `lo` up, as a number. -/
def bitsOf (n lo len : Nat) : Nat := (n >>> lo) % 2 ^ len

/-- Bit `i` of a number. -/
def bitOf (n i : Nat) : Bool := n.testBit i

/-- 1 or 0. -/
def ofBool (b : Bool) : Nat := if b then 1 else 0

/-- The field [hi:lo] of a 32-bit register, as a number (R5). -/
def fieldOf (w : W32) (hi lo : Nat) : Nat := bitsOf w.toNat lo (hi + 1 - lo)

/-- A 32-bit register with its field [hi:lo] replaced. -/
def withField (w : W32) (hi lo v : Nat) : W32 :=
  BitVec.ofNat 32 (w.toNat - bitsOf w.toNat lo (hi + 1 - lo) * 2 ^ lo + (v % 2 ^ (hi + 1 - lo)) * 2 ^ lo)

/-- Little-endian bytes of a number, `n` of them (R6). -/
def toBytesLE : Nat → Nat → List Byte
  | 0, _ => []
  | n + 1, v => BitVec.ofNat 8 v :: toBytesLE n (v / 256)

/-- The number that little-endian bytes spell (R6). -/
def ofBytesLE : List Byte → Nat
  | [] => 0
  | b :: bs => b.toNat + 256 * ofBytesLE bs

/-- Big-endian bytes of a number, `n` of them (R306). -/
def toBytesBE (n v : Nat) : List Byte := (toBytesLE n v).reverse

/-- The number that big-endian bytes spell (R306). -/
def ofBytesBE (bs : List Byte) : Nat := ofBytesLE bs.reverse

/-- The quotient rounded up. -/
def ceilDiv (a b : Nat) : Nat := (a + b - 1) / b

/-- Element `i` of a list, or `d`. -/
def nth {α : Type} (l : List α) (i : Nat) (d : α) : α := l.getD i d

/-- The list with element `i` replaced; out of range it is unchanged. -/
def setNth {α : Type} (l : List α) (i : Nat) (v : α) : List α := l.set i v

end Sys2Proof
end

