-- ==== Sys2Proof/Machine/CremaState.lean ====
section
/-! DEFINITION. The state of Crema line supervision that its registers do not show (R346 to R383). Levels are in hundredths of
a decibel. -/

namespace Sys2Proof.Machine

/-- A live window or night stage under way or just ended (R351, R362): stage 0 live window, 1 stage A, 2 stage B; its first
cycle, its length in frames, and of the frames past those probed in band 13. -/
structure CrmWin where
  stage : Nat
  start : Nat
  n : Nat
  probed : Nat
  deriving DecidableEq, Repr

/-- One supervision channel: a mode command waiting for its frame boundary (op and stamp, R382); the window under way; the
window that ended at the last boundary, with its end; the probe levels of the bands, none where unprobed (R354), and the
thresholds of the frame before (R361); frames a ramp of the target touches (R357); the overload flag of the next record; counts
of consecutive open-like and short-like frames and the boundaries that last set fast-open and fast-short (R371); for each fault
the judged windows in a row that did not find it (R370); the impedance part of a sweep's record, from stage A on. -/
structure CrmChan where
  cmd : Option (Nat × Nat)
  win : Option CrmWin
  done : Option (CrmWin × Nat)
  q : List (Option Int)
  prev : List Int
  ramps : List Nat
  ovl : Bool
  openN : Nat
  shortN : Nat
  fastOpenAt : Option Nat
  fastShortAt : Option Nat
  miss : List Nat
  body : List Byte
  noProbe : Bool
  deriving DecidableEq, Repr

def CrmChan.zero : CrmChan :=
  { cmd := none, win := none, done := none, q := List.replicate 27 none, prev := [], ramps := [], ovl := false, openN := 0
    shortN := 0, fastOpenAt := none, fastShortAt := none, miss := List.replicate 12 0, body := [], noProbe := false }

/-- A reflectometry run (R373): its line, log of the records averaged, width, threshold, whether it calibrates, the cycle the
next pulse starts in, pulses done and the sums of the samples. -/
structure CrmRun where
  line : Nat
  e : Nat
  w : Nat
  rho : Nat
  cal : Bool
  next : Nat
  count : Nat
  sums : List Int
  deriving DecidableEq, Repr

/-- Crema: channels, runs of the wideband channels, and the sense-sample stamps gone by up to a cycle (R354). -/
structure Crema where
  chans : List CrmChan
  runs : List (Option CrmRun)
  stamps : Nat
  stampsAt : Nat
  deriving DecidableEq, Repr

def Crema.zero : Crema :=
  { chans := List.replicate 32 CrmChan.zero, runs := List.replicate 8 none, stamps := 0, stampsAt := 0 }

/-- What a channel measured in one frame (R349, R359, R371): the band levels of the programme and of the microphone, whether a
sample overloaded, the broadband levels of VD and I, and their mean squares. -/
structure CrmFrame where
  programme : List Int
  ambient : List Int
  overload : Bool
  vLevel : Int
  iLevel : Int
  vSq : Nat
  iSq : Nat
  deriving DecidableEq, Repr

/-- The sums of one band or tone (R365): S_vp, S_ip and S_cp with real and imaginary parts, S_vv, S_ii and S_pp. -/
structure CrmSums where
  vpRe : Int
  vpIm : Int
  ipRe : Int
  ipIm : Int
  cpRe : Int
  cpIm : Int
  vv : Nat
  ii : Nat
  pp : Nat
  deriving DecidableEq, Repr

def CrmSums.zero : CrmSums := ⟨0, 0, 0, 0, 0, 0, 0, 0, 0⟩

/-- What a window or stage measured: the sums of its bands or tones, and whether VD, VC and I all stayed below −130 dBFS
(R369). -/
structure CrmMeas where
  bands : List CrmSums
  quiet : Bool
  deriving DecidableEq, Repr

end Sys2Proof.Machine
end

