-- ==== Sys2Proof/Syntax.lean ====
section
/-! DEFINITION. The commands of the block: one constructor for each row of spec/opcode_table.json. -/

namespace Sys2Proof

/-- A control core: physical Eduno core p, or Barista pair r. -/
inductive CoreSel
  | eduno (p : Nat)
  | barista (r : Nat)
  deriving DecidableEq, Repr

/-- An initiator of the control bus and of the physical space (R17, R542). -/
inductive Ini
  | barista | host | jtag
  deriving DecidableEq, Repr

/-- A configuration request (R489): a read of dword i, a write of it, or a write of MSI-X Enable and Function Mask. -/
inductive CfgOp
  | read (i : Nat)
  | write (i : Nat) (v : W32)
  | msix (en fm : Bool)
  deriving DecidableEq, Repr

/-- A JTAG access (R459, R535): the IDCODE, a read of n bytes, a write, or halting and resuming a core or pair. -/
inductive JtagOp
  | idcode
  | read (a n : Nat)
  | write (a : Nat) (bs : List Byte)
  | halt (w : CoreSel) (v : Bool)
  deriving DecidableEq, Repr

/-- What a check code makes of a unit whose bits have changed (R543). -/
inductive Found
  | clean | correctable | uncorrectable
  deriving DecidableEq, Repr

/-- Bits of a check-code unit found changed (R543): an address in the unit, what its code makes of it from now on, and the data
bits that then differ from those written: none after a true correction, any after a wrong one or where nothing is found. -/
structure Upset where
  addr : Nat
  found : Found
  flip : Nat
  deriving DecidableEq, Repr

/-- The commands of the block. The first operand of each but the tick is the stamp `t`, the NTC value of the core cycle in which
the event becomes visible to the block that judges it (R51). -/
inductive Instr
  /-- TICK (R37): The tick; `evac` are the levels of the EVAC lands sampled at it. -/
  | tick (evac : Nat)
  /-- BUNDLE_ISSUE (R59): core `w` issues; `upset` are the check-code units whose bits have changed. -/
  | bundleIssue (t : Nat) (w : CoreSel) (upset : List Upset)
  /-- UNIT_RESULT_DELIVERY (R63). -/
  | unitResultDelivery (t : Nat) (w : CoreSel)
  /-- ACCUMULATOR_LANDING (R131). -/
  | accumulatorLanding (t : Nat) (w : CoreSel)
  /-- LOAD_DELIVERY (R184). -/
  | loadDelivery (t : Nat) (w : CoreSel)
  /-- BMOVE_END (R170). -/
  | bmoveEnd (t : Nat) (w : CoreSel)
  /-- CARAFE_LOAD_READY (R193). -/
  | carafeLoadReady (t : Nat) (w : CoreSel)
  /-- CARAFE_GRANT (R201). -/
  | carafeGrant (t : Nat) (slice : Nat) (half : Nat) (upset : List Upset)
  /-- STORE_BUFFER_PERFORMED (R195). -/
  | storeBufferPerformed (t : Nat) (w : CoreSel)
  /-- SEND_ITEM_STORED (R282). -/
  | sendItemStored (t : Nat) (p : Nat)
  /-- RECEIVE_ITEM_DELIVERED (R284): `sup`: of the supervisor set. -/
  | receiveItemDelivered (t : Nat) (p : Nat) (sup : Bool)
  /-- RECEIVE_TIMEOUT (R284). -/
  | receiveTimeout (t : Nat) (p : Nat) (sup : Bool)
  /-- ENTRY (R228). -/
  | entry (t : Nat) (w : CoreSel)
  /-- SOURCE_EVENT (R237): the signal of source `n` takes a level. -/
  | sourceEvent (t : Nat) (n : Nat) (level : Bool)
  /-- COALESCE_TIME_RELEASE (R241). -/
  | coalesceTimeRelease (t : Nat) (n : Nat)
  /-- PENDING_WRITE (R242): word `k` below 32 is shared, 32 + p the private word of core p. -/
  | pendingWrite (t : Nat) (ini : Ini) (k : Nat) (v : W32)
  /-- IN_SERVICE_COMPLETE (R239). -/
  | inServiceComplete (t : Nat) (ini : Ini) (k : Nat) (v : W32)
  /-- BARISTA_CLAIM (R248). -/
  | baristaClaim (t : Nat)
  /-- CHANNEL_ARM (R259): channel `n` below 128 is shared, 128 + 2p + i channel i of core p; `v` gives the other bits written. -/
  | channelArm (t : Nat) (ini : Ini) (n : Nat) (v : W32)
  /-- CHANNEL_DISARM (R259). -/
  | channelDisarm (t : Nat) (ini : Ini) (n : Nat) (v : W32)
  /-- COMPARE_STAGE (R263). -/
  | compareStage (t : Nat) (ini : Ini) (n : Nat) (v : W32)
  /-- COMPARE_COMMIT (R263). -/
  | compareCommit (t : Nat) (ini : Ini) (n : Nat) (v : W32)
  /-- GROUP_START (R267). -/
  | groupStart (t : Nat) (ini : Ini) (v : W32)
  /-- CHANNEL_MATCH (R261). -/
  | channelMatch (t : Nat) (n : Nat)
  /-- CHANNEL_OVERFLOW (R262). -/
  | channelOverflow (t : Nat) (n : Nat)
  /-- SNAPSHOT_NTC (R256). -/
  | snapshotNtc (t : Nat) (ini : Ini)
  /-- SNAPSHOT_SHARED_CHANNEL (R256). -/
  | snapshotSharedChannel (t : Nat) (ini : Ini) (n : Nat)
  /-- SNAPSHOT_PRIVATE_CHANNEL (R256). -/
  | snapshotPrivateChannel (t : Nat) (ini : Ini) (n : Nat)
  /-- CAPTURE_EVENT (R271): an edge of land TP[pin], stamped after its synchronisation. -/
  | captureEvent (t : Nat) (pin : Nat) (rising : Bool)
  /-- CAPTURE_READ (R272). -/
  | captureRead (t : Nat) (ini : Ini) (c : Nat)
  /-- RING_TIME_LOST (R42). -/
  | ringTimeLost (t : Nat)
  /-- DESCRIPTOR_WRITE (R278). -/
  | descriptorWrite (t : Nat) (ini : Ini) (h : Nat) (off : Nat) (v : W32)
  /-- INITIATOR_SEND (R297): register set 0 is the Barista's, 1 the host's. -/
  | initiatorSend (t : Nat) (i : Nat) (h : Nat)
  /-- INITIATOR_RECEIVE (R297). -/
  | initiatorReceive (t : Nat) (i : Nat) (h : Nat)
  /-- INITIATOR_OP_END (R297). -/
  | initiatorOpEnd (t : Nat) (i : Nat)
  /-- INPUT_PLACEMENT (R32): `samples` are the words captured for queue `h`, in the order of its block. -/
  | inputPlacement (t : Nat) (h : Nat) (samples : List W24)
  /-- SCHEDULED_FORWARD (R291): none: the outputs that no queue feeds. -/
  | scheduledForward (t : Nat) (h : Option Nat)
  /-- ITEM_AGE_TIMEOUT (R293). -/
  | itemAgeTimeout (t : Nat) (h : Nat)
  /-- HEARTBEAT_RECEIVED (R328). -/
  | heartbeatReceived (t : Nat) (p : Nat)
  /-- SUPERVISION_EXPIRY (R328). -/
  | supervisionExpiry (t : Nat) (p : Nat)
  /-- REMOTE_FAULT_RECEIVED (R328). -/
  | remoteFaultReceived (t : Nat) (p : Nat)
  /-- PORT_WRAP (R329). -/
  | portWrap (t : Nat) (p : Nat)
  /-- PORT_RETURNED (R331). -/
  | portReturned (t : Nat) (p : Nat)
  /-- RING_FRAME_RECEIVED (R310): `framed`: its 64b/66b framing was valid. -/
  | ringFrameReceived (t : Nat) (p : Nat) (framed : Bool) (bytes : List Byte)
  /-- BEACON_SEND (R332). -/
  | beaconSend (t : Nat) (p : Nat)
  /-- DELAY_REQUEST_SEND (R332). -/
  | delayRequestSend (t : Nat) (r : Nat)
  /-- EPOCH_GRANT_SEND (R455). -/
  | epochGrantSend (t : Nat) (p : Nat)
  /-- UPSTREAM_TIMEOUT (R333). -/
  | upstreamTimeout (t : Nat) (p : Nat)
  /-- ISLAND_LEADER_ELECTION (R335). -/
  | islandLeaderElection (t : Nat) (r : Nat)
  /-- TRAIN_ORIGIN (R317): `arrived`: the upstream train has come. -/
  | trainOrigin (t : Nat) (r : Nat) (west : Bool) (arrived : Bool)
  /-- GROUP_MISSING (R322). -/
  | groupMissing (t : Nat) (r : Nat) (g : Nat) (m : Nat)
  /-- UNRESERVED_FRAME_SEND (R323). -/
  | unreservedFrameSend (t : Nat) (p : Nat)
  /-- MAILBOX_SEND (R327). -/
  | mailboxSend (t : Nat) (m : Nat)
  /-- CONTROL_TRANSMIT (R344). -/
  | controlTransmit (t : Nat) (ini : Ini) (v : W32)
  /-- EDGE_FRAME_RECEIVED (R339). -/
  | edgeFrameReceived (t : Nat) (p : Nat) (bytes : List Byte)
  /-- EDGE_STREAM_TRANSMIT (R342). -/
  | edgeStreamTransmit (t : Nat) (i : Nat)
  /-- STREAM_SILENT (R345). -/
  | streamSilent (t : Nat) (i : Nat)
  /-- LIVE (R359). -/
  | crmLive (t : Nat) (ini : Ini) (c : Nat)
  /-- START_NIGHT_SWEEP (R362). -/
  | startNightSweep (t : Nat) (ini : Ini) (c : Nat)
  /-- OFF (R382). -/
  | crmOff (t : Nat) (ini : Ini) (c : Nat)
  /-- START_REFLECTOMETRY (R373). -/
  | startReflectometry (t : Nat) (ini : Ini) (b : Nat)
  /-- VELOCITY_CALIBRATION (R375). -/
  | velocityCalibration (t : Nat) (ini : Ini) (b : Nat)
  /-- ABORT_REFLECTOMETRY (R382). -/
  | abortReflectometry (t : Nat) (ini : Ini) (b : Nat)
  /-- CREMA_FRAME_END (R371): `m` is what the channel measured in the frame. -/
  | cremaFrameEnd (t : Nat) (c : Nat) (m : Machine.CrmFrame)
  /-- FAST_FAULT (R371). -/
  | fastFault (t : Nat) (c : Nat)
  /-- LIVE_WINDOW_END (R369). -/
  | liveWindowEnd (t : Nat) (c : Nat) (m : Machine.CrmMeas)
  /-- NIGHT_STAGE_A_END (R368). -/
  | nightStageAEnd (t : Nat) (c : Nat) (m : Machine.CrmMeas)
  /-- NIGHT_STAGE_B_END (R364). -/
  | nightStageBEnd (t : Nat) (c : Nat) (m : Machine.CrmMeas)
  /-- REFLECT_PULSE (R373). -/
  | reflectPulse (t : Nat) (b : Nat) (samples : List (BitVec 16))
  /-- REFLECT_RUN_END (R374). -/
  | reflectRunEnd (t : Nat) (b : Nat)
  /-- EVAC_DEBOUNCED_CHANGE (R402). -/
  | evacDebouncedChange (t : Nat) (e : Nat)
  /-- EVAC_MESSAGE_START (R403). -/
  | evacMessageStart (t : Nat) (e : Nat)
  /-- EVAC_MESSAGE_END (R404). -/
  | evacMessageEnd (t : Nat) (e : Nat)
  /-- BANK_FLIP_REQUEST (R407). -/
  | bankFlipRequest (t : Nat) (ini : Ini) (v : W32)
  /-- PLACEMENT_REQUEST (R409). -/
  | placementRequest (t : Nat) (ini : Ini) (v : W32)
  /-- PLACEMENT_COMPLETE (R409). -/
  | placementComplete (t : Nat)
  /-- MODULE_RESET_RELEASE (R515): `puf`: the margin of the device key's rebuild, none when it fails; `rng`: the entropy source passed its health tests. -/
  | moduleResetRelease (t : Nat) (puf : Option Nat) (rng : Bool)
  /-- IMAGE_CHOICE (R432): contents of the flash devices, none where no device answers. -/
  | imageChoice (t : Nat) (a : Option (List Byte)) (b : Option (List Byte))
  /-- SECTION_APPLY (R434). -/
  | sectionApply (t : Nat)
  /-- LOADER_CHECKS (R436). -/
  | loaderChecks (t : Nat)
  /-- TAMP (R439). -/
  | tamp (t : Nat)
  /-- RECOVERY_IMAGE_WRITE (R461). -/
  | recoveryImageWrite (t : Nat) (img : List Byte)
  /-- SET_GOOD_MARK (R432). -/
  | setGoodMark (t : Nat) (ini : Ini)
  /-- SET_BAD_MARK (R432). -/
  | setBadMark (t : Nat) (ini : Ini)
  /-- MARK_PROGRAMMED (R430). -/
  | markProgrammed (t : Nat)
  /-- LOCKSTEP_MISMATCH (R419). -/
  | lockstepMismatch (t : Nat) (r : Nat)
  /-- WATCHDOG_EXPIRY (R427). -/
  | watchdogExpiry (t : Nat)
  /-- WATCHDOG_SERVICE (R427). -/
  | watchdogService (t : Nat) (ini : Ini)
  /-- SHADOW_WRITE (R420). -/
  | shadowWrite (t : Nat)
  /-- RESTORE (R426). -/
  | restorePair (t : Nat) (ini : Ini)
  /-- RESTORE_COMPLETE (R426). -/
  | restoreComplete (t : Nat)
  /-- WARM_REBOOT_BOOT_COPY (R441). -/
  | warmRebootBootCopy (t : Nat) (ini : Ini)
  /-- WARM_REBOOT_STAGED (R480). -/
  | warmRebootStaged (t : Nat) (ini : Ini)
  /-- WARM_REBOOT_TAMP (R442). -/
  | warmRebootTamp (t : Nat)
  /-- QUOTE (R458). -/
  | keepQuote (t : Nat) (set : Nat) (param : Nat)
  /-- CERT (R467). -/
  | keepCert (t : Nat) (set : Nat) (param : Nat)
  /-- RANDOM (R457). -/
  | keepRandom (t : Nat) (set : Nat) (param : Nat)
  /-- SBK_INSTALL (R450). -/
  | sbkInstall (t : Nat) (set : Nat) (param : Nat)
  /-- EPOCH_PREPARE (R453). -/
  | epochPrepare (t : Nat) (set : Nat) (param : Nat)
  /-- EPOCH_ACCEPT (R454). -/
  | epochAccept (t : Nat) (set : Nat) (param : Nat)
  /-- RAISE_FLOOR (R447). -/
  | raiseFloor (t : Nat) (set : Nat) (param : Nat)
  /-- SLOT_PROGRAM (R448). -/
  | slotProgram (t : Nat) (set : Nat) (param : Nat)
  /-- SLOT_REVOKE (R448). -/
  | slotRevoke (t : Nat) (set : Nat) (param : Nat)
  /-- RESTORE_FACTORY (R465). -/
  | restoreFactory (t : Nat) (set : Nat) (param : Nat)
  /-- LOG_READ (R466). -/
  | logRead (t : Nat) (set : Nat) (param : Nat)
  /-- DEBUG_CHALLENGE (R460). -/
  | debugChallenge (t : Nat) (set : Nat) (param : Nat)
  /-- DEBUG_UNLOCK (R460). -/
  | debugUnlock (t : Nat) (set : Nat) (param : Nat)
  /-- KEEP_COMMAND_COMPLETE (R467). -/
  | keepCommandComplete (t : Nat) (set : Nat)
  /-- RESTORE_FUSE_BURN (R465). -/
  | restoreFuseBurn (t : Nat)
  /-- DRBG_RESEED (R457): `ok`: the entropy source passed its health tests. -/
  | drbgReseed (t : Nat) (ok : Bool)
  /-- SPDM_REQUEST (R456). -/
  | spdmRequest (t : Nat) (msg : List Byte)
  /-- QUERY (R456). -/
  | ideQuery (t : Nat)
  /-- KEY_PROG (R456). -/
  | keyProg (t : Nat) (set : Nat) (dir : Nat) (key : List Byte)
  /-- K_SET_GO (R456). -/
  | kSetGo (t : Nat) (set : Nat)
  /-- K_SET_STOP (R456). -/
  | kSetStop (t : Nat) (set : Nat)
  /-- TAKE_OVER (R470). -/
  | takeOver (t : Nat) (ini : Ini) (l : Nat)
  /-- RETIRE_SPARE (R472). -/
  | retireSpare (t : Nat) (ini : Ini) (j : Nat)
  /-- TAKEOVER_COPY_COMPLETE (R473). -/
  | takeoverCopyComplete (t : Nat)
  /-- AGING_MEASUREMENT (R483): monitor `i` measured delay `d`. -/
  | agingMeasurement (t : Nat) (i : Nat) (d : Nat)
  /-- COUNTER_INTERVAL_CLOSE (R485). -/
  | counterIntervalClose (t : Nat) (k : Nat)
  /-- SCRUB_LINE (R210). -/
  | scrubLine (t : Nat) (a : Nat) (upset : List Upset)
  /-- EXTERNAL_PORT_ACCESS (R538): at an offset of core `p`'s stride; `bs` are the bytes written, none for a read of `n`. -/
  | externalPortAccess (t : Nat) (ini : Ini) (p : Nat) (off : Nat) (n : Nat) (bs : Option (List Byte)) (upset : List Upset)
  /-- REGISTER_WRITE (R8). -/
  | registerWrite (t : Nat) (ini : Ini) (off : Nat) (v : W32)
  /-- JTAG_ACCESS (R542). -/
  | jtagAccess (t : Nat) (op : JtagOp)
  /-- PERST_DEASSERT (R489). -/
  | perstDeassert (t : Nat) (refclk : Bool)
  /-- LINK_UP (R490). -/
  | linkUp (t : Nat) (rate : Nat) (width : Nat) (flit : Bool)
  /-- LINK_DOWN (R502): 0 hot reset, 1 link down, 2 PERST# asserted. -/
  | linkDown (t : Nat) (kind : Nat)
  /-- FLR (R502). -/
  | flr (t : Nat)
  /-- D_STATE_CHANGE (R502). -/
  | dStateChange (t : Nat) (d3 : Bool)
  /-- CONFIG_REQUEST (R489). -/
  | configRequest (t : Nat) (op : CfgOp)
  /-- BAR0_READ (R493): `be`: all byte enables are set; `ide`: the TLP is part of the IDE stream. -/
  | bar0Read (t : Nat) (off : Nat) (n : Nat) (be : Bool) (ide : Bool)
  /-- BAR0_WRITE (R492). -/
  | bar0Write (t : Nat) (off : Nat) (bs : List Byte) (be : Bool) (ide : Bool)
  /-- BAR2_READ (R494). -/
  | bar2Read (t : Nat) (o : Nat) (n : Nat) (ide : Bool)
  /-- BAR2_WRITE (R494). -/
  | bar2Write (t : Nat) (o : Nat) (bs : List Byte) (ide : Bool)
  /-- HOST_RING_ENABLE (R497): `v` gives the other bits written. -/
  | hostRingEnable (t : Nat) (ini : Ini) (j : Nat) (v : W32)
  /-- HOST_RING_ENTRY_WRITE (R498). -/
  | hostRingEntryWrite (t : Nat) (j : Nat)
  /-- HOST_RING_PI_WRITE (R498). -/
  | hostRingPiWrite (t : Nat) (j : Nat) (v : W32) (ide : Bool)
  /-- HOST_READ_COMPLETION (R498). -/
  | hostReadCompletion (t : Nat) (j : Nat) (ok : Bool) (ep : Bool) (items : List W48)
  /-- HOST_READ_TIMEOUT (R499). -/
  | hostReadTimeout (t : Nat) (j : Nat)
  /-- MSIX_FIRE (R500). -/
  | msixFire (t : Nat) (ini : Ini) (v : W32)
  /-- MSIX_UNMASK (R501). -/
  | msixUnmask (t : Nat) (v : Nat)
  /-- IDE_INTEGRITY_FAILURE (R503). -/
  | ideIntegrityFailure (t : Nat)
  /-- INPUT_OK_CHANGE (R511): `b`: VINB, else VINA; voltages of VINA and VINB in millivolts. -/
  | inputOkChange (t : Nat) (b : Bool) (ok : Bool) (va : Nat) (vb : Nat)
  /-- INPUT_REVERSED (R512): `mv` millivolts below GND. -/
  | inputReversed (t : Nat) (b : Bool) (mv : Nat) (va : Nat) (vb : Nat)
  /-- INPUT_OVERVOLTAGE (R512). -/
  | inputOvervoltage (t : Nat) (b : Bool) (va : Nat) (vb : Nat)
  /-- INPUT_RECONNECT (R512). -/
  | inputReconnect (t : Nat) (b : Bool) (va : Nat) (vb : Nat)
  /-- VHOLD_LOW (R514): VHOLD in units of 0.25 V. -/
  | vholdLow (t : Nat) (v : Nat)
  /-- HOLDUP_EXHAUSTED (R514). -/
  | holdupExhausted (t : Nat)
  /-- MODULE_RESET (R516): the cause as PWR_STAT.last_rst codes it. -/
  | moduleReset (t : Nat) (why : Nat)
  /-- SLEEP_REQUEST (R517). -/
  | sleepRequest (t : Nat) (ini : Ini)
  /-- WAKE_EVENT (R520): the event that bit `b` of PWR_WAKE enables. -/
  | wakeEvent (t : Nat) (b : Nat)
  /-- REFA_LOST (R522). -/
  | refaLost (t : Nat)
  /-- REFA_RETURN (R522). -/
  | refaReturn (t : Nat)
  /-- REFB_LOST (R522). -/
  | refbLost (t : Nat)
  /-- REFB_RETURN (R522). -/
  | refbReturn (t : Nat)
  /-- TEMPERATURE_UPDATE (R525): the two temperatures in units of 0.25 °C as 10-bit fields. -/
  | temperatureUpdate (t : Nat) (main : Nat) (ana : Nat)
  /-- THERMAL_SHUTDOWN (R525). -/
  | thermalShutdown (t : Nat)
  /-- THERMAL_RESTART (R525). -/
  | thermalRestart (t : Nat)
  /-- LAND_SWITCH_OPEN (R508): row 1 is A; `low`: the land fell below −0.5 V. -/
  | landSwitchOpen (t : Nat) (row : Nat) (col : Nat) (low : Bool)
  /-- LAND_SWITCH_CLOSE (R508). -/
  | landSwitchClose (t : Nat) (row : Nat) (col : Nat) (level : Bool)
  /-- LAND_FAULT (R509). -/
  | landFault (t : Nat) (row : Nat) (col : Nat) (kind : Nat)
  /-- OPEN_INPUT_TEST (R509): the inputs that followed both pulls. -/
  | openInputTest (t : Nat) (lands : List (Nat × Nat))
  /-- PIN_EDGE_CLOCK (R258). -/
  | pinEdgeClock (t : Nat) (pin : Nat)
  /-- PG_RELEASE (R515). -/
  | pgRelease (t : Nat)
  deriving DecidableEq, Repr

end Sys2Proof
end

