-- ==== Sys2Proof/Config.lean ====
section
/-! DEFINITION. What an implementation of the BG8164 fixes and the spec does not give: every constant here is opaque, so
no proof can see its value, and a statement about the machine holds for every value of it. -/

namespace Sys2Proof

/-- The states of a PTP port, as IEEE 1588-2019 names them (R343; log entry 43). -/
inductive PtpState
  | initializing | faulty | disabled | listening | preMaster | master | passive | uncalibrated | slave
  deriving DecidableEq, Repr, Inhabited

/-- A free value: the `n`-th draw, of kind `k` (log entry 5). -/
opaque Config.freeNat : Nat → Nat → Nat

/-- The module's one-time programmable contents at module reset that the spec leaves to each device: serial, lifecycle,
floor, restores, revoked slots and debug key (log entry 13). -/
opaque Config.otpWord : Nat → Nat

/-- Keys in one-time programmable storage (R446, R460): the image key slots 0 to 3 and 4 the debug authority key (log entry
13). -/
opaque Config.otpKey : Nat → List Byte

/-- What the module measures at reset (log entry 16): 0 VHOLD, 1 main-die and 2 analogue-die temperature. -/
opaque Config.measured : Nat → Nat

/-- Baseline of an aging monitor in the roast record (R462, R483). -/
opaque Config.agingBase : Nat → Nat

/-- A dword of the endpoint's configuration space that nothing has written (R488), which the spec gives by reference. -/
opaque Config.cfgWord : Nat → BitVec 32

/-- Roast-record trims of Crema channel c (R462; log entry 13). -/
opaque Config.roastTrim : Nat → BitVec 32

/-- The roast record's trims of wideband channel w, in units of 0.01 dB, and its supply and converter trims in the order of R528 (R462;
log entry 13). -/
opaque Config.roastWide : Nat → BitVec 16
opaque Config.roastSupply : Nat → BitVec 16

/-- The site number that the device was given (R26; log entry 88). -/
opaque Config.site : BitVec 12

/-- One byte of the loader ROM (R414), whose contents the spec does not give. -/
opaque Config.romByte : Nat → Byte

/-- The ECDSA P-384 signature of a message by a key of the keep (R458): key number, message. -/
opaque Config.ecdsaSign : Nat → List Byte → BitVec 768

/-- The certificates the keep returns (R445, R467): 0 of DIK, 1 of KAK, whose bytes the spec does not give. -/
opaque Config.keepCert : Nat → List Byte

/-- The 256 bits of the SP 800-108 derivation of R445 that make an AES-256 key (R450, R451): label, key, data. -/
opaque Config.kdf : String → List Byte → List Nat → BitVec 256

/-- The body of a wrap, unwrap or leader notice (R312): the operation and its values, whose widths the spec does not give. -/
opaque Config.noticeBody : Nat → List Nat → List Byte

/-- The x-coordinate of the ECDH secret of KAK and a one-time public key of 96 bytes, where that key is a point (R450). -/
opaque Config.ecdhX : List Byte → Option (BitVec 384)

/-- The answer of the SPDM responder to a request (R456, R503), which the spec gives by reference. -/
opaque Config.spdmReply : List Byte → Nat → List Byte

/-- Result of a Crema computation whose rounding the spec does not state (log entry 40): kind and operands. -/
opaque Config.cremaValue : Nat → List Int → Int

/-- Events of a reflectometry trace (R374; log entry 40): trace, bytes of the baseline, pulse width and threshold give lags
in sixteenths of a sample and reflection coefficients in Q1.15, in order of lag. -/
opaque Config.reflectEvents : List Int → List Nat → Nat → Nat → List (Nat × Int)

/-- What the firmware of the active pair makes of the PTP messages of an edge port, newest first (R343; log entry 43): the state that
the best master clock algorithm gives the port, and the offset of the NTC from PTP time mapped through E48, in cycles, where the
newest message gives one. -/
opaque Config.ptpState : Nat → List (Option Nat × Bool × List Byte) → PtpState
opaque Config.ptpOffset : Nat → Nat → List (Option Nat × Bool × List Byte) → Option Int

/-- What the segment of a ring pair advertises (R36, R316; log entry 36), which reaches the device from outside: bits [5:1] of
TMR_POUR_CFG as its devices hold them, and the owning station of each group. -/
opaque Config.segmentPour : Nat → Nat
opaque Config.segmentOwner : Nat → Nat → Option Nat

end Sys2Proof
end

