-- ==== Sys2Proof/Machine/Crypto.lean ====
section
/-! DEFINITION. The standard algorithms that the spec names and does not state (log entry 90): AES-256-GCM as FIPS 197 and SP 800-38D
give it (R309, R450), SHA-384 and ECDSA P-384 verification as FIPS 180-4 and FIPS 186-5 do (R431, R446). -/

namespace Sys2Proof.Machine

/-! ### AES-256 -/

/-- The S-box, 16 values to a row, the first most significant. -/
def sboxRows : List Nat :=
  [0x637C777BF26B6FC53001672BFED7AB76, 0xCA82C97DFA5947F0ADD4A2AF9CA472C0, 0xB7FD9326363FF7CC34A5E5F171D83115,
   0x04C723C31896059A071280E2EB27B275, 0x09832C1A1B6E5AA0523BD6B329E32F84, 0x53D100ED20FCB15B6ACBBE394A4C58CF,
   0xD0EFAAFB434D338545F9027F503C9FA8, 0x51A3408F929D38F5BCB6DA2110FFF3D2, 0xCD0C13EC5F974417C4A77E3D645D1973,
   0x60814FDC222A908846EEB814DE5E0BDB, 0xE0323A0A4906245CC2D3AC629195E479, 0xE7C8376D8DD54EA96C56F4EA657AAE08,
   0xBA78252E1CA6B4C6E8DD741F4BBD8B8A, 0x703EB5664803F60E613557B986C11D9E, 0xE1F8981169D98E949B1E87E9CE5528DF,
   0x8CA1890DBFE6426841992D0FB054BB16]

def subByte (x : Nat) : Nat := nth sboxRows (x / 16) 0 / 256 ^ (15 - x % 16) % 256

/-- A product by x in GF(2⁸). -/
def xtime (x : Nat) : Nat := if x < 128 then 2 * x else (2 * x) ^^^ 0x11B

/-- The next word of the key schedule after the words so far, newest first: word number i. -/
def nextKeyWord (i : Nat) (ws : List (List Nat)) : List Nat :=
  let w := ws.headD []
  let w := if i % 8 = 0 then
      ((w.drop 1 ++ w.take 1).map subByte).mapIdx fun j b => if j = 0 then b ^^^ 2 ^ (i / 8 - 1) else b
    else if i % 8 = 4 then w.map subByte else w
  List.zipWith (· ^^^ ·) (nth ws 7 []) w

/-- The key schedule with n more words. -/
def growKeys : Nat → List (List Nat) → List (List Nat)
  | 0, ws => ws
  | n + 1, ws => growKeys n (nextKeyWord ws.length ws :: ws)

/-- The 15 round keys of 16 bytes of a 32-byte key. -/
def roundKeys (key : List Byte) : List (List Nat) :=
  let k := key.map BitVec.toNat
  let ws := (growKeys 52 ((List.range 8).reverse.map fun i => (k.drop (4 * i)).take 4)).reverse
  (List.range 15).map fun i => ((ws.drop (4 * i)).take 4).flatten

/-- SubBytes and ShiftRows: byte r + 4c comes from column c + r. -/
def subShift (st : List Nat) : List Nat :=
  (List.range 16).map fun i => subByte (nth st ((i + 4 * (i % 4)) % 16) 0)

/-- MixColumns of one column. -/
def mixCol (a : List Nat) : List Nat :=
  let x (i : Nat) : Nat := nth a (i % 4) 0
  (List.range 4).map fun i => xtime (x i) ^^^ xtime (x (i + 1)) ^^^ x (i + 1) ^^^ x (i + 2) ^^^ x (i + 3)

def mixCols (st : List Nat) : List Nat := (List.range 4).flatMap fun c => mixCol ((st.drop (4 * c)).take 4)

def xorBytes (a b : List Nat) : List Nat := List.zipWith (· ^^^ ·) a b

/-- One block of 16 bytes under the round keys. -/
def aesBlock (rks : List (List Nat)) (blk : List Nat) : List Nat :=
  let st := ((rks.drop 1).take 13).foldl (fun st rk => xorBytes (mixCols (subShift st)) rk) (xorBytes blk (nth rks 0 []))
  xorBytes (subShift st) (nth rks 14 [])

/-! ### GCM -/

/-- A product in GF(2¹²⁸), bit 127 the first: n bits of x are still to come. -/
def gfMul (x : Nat) : Nat → Nat → Nat → Nat
  | 0, _, z => z
  | n + 1, v, z =>
    gfMul x n ((v / 2) ^^^ (if v % 2 = 1 then 0xE1 * 2 ^ 120 else 0)) (if x.testBit n then z ^^^ v else z)

/-- The number that bytes spell, the first most significant. -/
def bigNat (bs : List Nat) : Nat := bs.foldl (fun a b => 256 * a + b) 0
def bigBytes (n v : Nat) : List Nat := (List.range n).map fun i => v / 256 ^ (n - 1 - i) % 256

/-- GHASH over n more blocks of some bytes, the last padded with zeros. -/
def ghash (h : Nat) : Nat → List Nat → Nat → Nat
  | 0, _, y => y
  | n + 1, bs, y =>
    let b := bs.take 16
    ghash h n (bs.drop 16) (gfMul (y ^^^ bigNat (b ++ List.replicate (16 - b.length) 0)) 128 h 0)

/-- Counter block i of a 12-byte IV: block 1 makes the tag, the text starts at block 2. -/
def gcmBlock (rks : List (List Nat)) (iv : List Byte) (i : Nat) : List Nat :=
  aesBlock rks (iv.map BitVec.toNat ++ bigBytes 4 i)

/-- The AES-256-GCM tag in 16 bytes: key, IV, additional data, sealed text (R309). -/
def gcmTag (key iv aad text : List Byte) : List Byte :=
  let rks := roundKeys key
  let h := bigNat (aesBlock rks (List.replicate 16 0))
  let y := ghash h (ceilDiv aad.length 16) (aad.map BitVec.toNat) 0
  let y := ghash h (ceilDiv text.length 16) (text.map BitVec.toNat) y
  let y := gfMul (y ^^^ (8 * aad.length * 2 ^ 64 + 8 * text.length)) 128 h 0
  (xorBytes (bigBytes 16 y) (gcmBlock rks iv 1)).map (BitVec.ofNat 8)

/-- The key stream of n blocks from block i on. -/
def gcmStream (rks : List (List Nat)) (iv : List Byte) (i n : Nat) : List Nat :=
  (List.range n).flatMap fun j => gcmBlock rks iv (i + j)

/-- AES-256-GCM sealing and opening of a text: the same stream of bytes both ways (R309). -/
def gcmCrypt (key iv text : List Byte) : List Byte :=
  List.zipWith (fun b k => b ^^^ BitVec.ofNat 8 k) text (gcmStream (roundKeys key) iv 2 (ceilDiv text.length 16))

/-! ### SHA-384 -/

def shaK1 : List Nat :=
  [0x428A2F98D728AE22, 0x7137449123EF65CD, 0xB5C0FBCFEC4D3B2F, 0xE9B5DBA58189DBBC, 0x3956C25BF348B538,
   0x59F111F1B605D019, 0x923F82A4AF194F9B, 0xAB1C5ED5DA6D8118, 0xD807AA98A3030242, 0x12835B0145706FBE,
   0x243185BE4EE4B28C, 0x550C7DC3D5FFB4E2, 0x72BE5D74F27B896F, 0x80DEB1FE3B1696B1, 0x9BDC06A725C71235,
   0xC19BF174CF692694, 0xE49B69C19EF14AD2, 0xEFBE4786384F25E3, 0x0FC19DC68B8CD5B5, 0x240CA1CC77AC9C65,
   0x2DE92C6F592B0275, 0x4A7484AA6EA6E483, 0x5CB0A9DCBD41FBD4, 0x76F988DA831153B5, 0x983E5152EE66DFAB,
   0xA831C66D2DB43210, 0xB00327C898FB213F, 0xBF597FC7BEEF0EE4, 0xC6E00BF33DA88FC2, 0xD5A79147930AA725,
   0x06CA6351E003826F, 0x142929670A0E6E70, 0x27B70A8546D22FFC, 0x2E1B21385C26C926, 0x4D2C6DFC5AC42AED,
   0x53380D139D95B3DF, 0x650A73548BAF63DE, 0x766A0ABB3C77B2A8, 0x81C2C92E47EDAEE6, 0x92722C851482353B]

def shaK2 : List Nat :=
  [0xA2BFE8A14CF10364, 0xA81A664BBC423001, 0xC24B8B70D0F89791, 0xC76C51A30654BE30, 0xD192E819D6EF5218,
   0xD69906245565A910, 0xF40E35855771202A, 0x106AA07032BBD1B8, 0x19A4C116B8D2D0C8, 0x1E376C085141AB53,
   0x2748774CDF8EEB99, 0x34B0BCB5E19B48A8, 0x391C0CB3C5C95A63, 0x4ED8AA4AE3418ACB, 0x5B9CCA4F7763E373,
   0x682E6FF3D6B2B8A3, 0x748F82EE5DEFB2FC, 0x78A5636F43172F60, 0x84C87814A1F0AB72, 0x8CC702081A6439EC,
   0x90BEFFFA23631E28, 0xA4506CEBDE82BDE9, 0xBEF9A3F7B2C67915, 0xC67178F2E372532B, 0xCA273ECEEA26619C,
   0xD186B8C721C0C207, 0xEADA7DD6CDE0EB1E, 0xF57D4F7FEE6ED178, 0x06F067AA72176FBA, 0x0A637DC5A2C898A6,
   0x113F9804BEF90DAE, 0x1B710B35131C471B, 0x28DB77F523047D84, 0x32CAAB7B40C72493, 0x3C9EBE0A15C9BEBC,
   0x431D67C49C100D4C, 0x4CC5D4BECB3E42B6, 0x597F299CFC657E2A, 0x5FCB6FAB3AD6FAEC, 0x6C44198C4A475817]

def shaInit : List Nat :=
  [0xCBBB9D5DC1059ED8, 0x629A292A367CD507, 0x9159015A3070DD17, 0x152FECD8F70E5939,
   0x67332667FFC00B31, 0x8EB44A8768581511, 0xDB0C2E0D64F98FA7, 0x47B5481DBEFA4FA4]

def rotr64 (x n : Nat) : Nat := x / 2 ^ n + x % 2 ^ n * 2 ^ (64 - n)

/-- The message schedule with n more words, newest first. -/
def growSched : Nat → List Nat → List Nat
  | 0, ws => ws
  | n + 1, ws =>
    let a := nth ws 1 0
    let b := nth ws 14 0
    let s1 := rotr64 a 19 ^^^ rotr64 a 61 ^^^ (a / 2 ^ 6)
    let s0 := rotr64 b 1 ^^^ rotr64 b 8 ^^^ (b / 2 ^ 7)
    growSched n ((s1 + nth ws 6 0 + s0 + nth ws 15 0) % 2 ^ 64 :: ws)

/-- One round of the compression on a to h, with K and W of the round. -/
def shaRound (v : List Nat) (kw : Nat × Nat) : List Nat :=
  let x (i : Nat) : Nat := nth v i 0
  let e := x 4
  let a := x 0
  let ch := (e &&& x 5) ^^^ ((2 ^ 64 - 1 - e) &&& x 6)
  let maj := (a &&& x 1) ^^^ (a &&& x 2) ^^^ (x 1 &&& x 2)
  let t1 := x 7 + (rotr64 e 14 ^^^ rotr64 e 18 ^^^ rotr64 e 41) + ch + kw.1 + kw.2
  let t2 := (rotr64 a 28 ^^^ rotr64 a 34 ^^^ rotr64 a 39) + maj
  [(t1 + t2) % 2 ^ 64, a, x 1, x 2, (x 3 + t1) % 2 ^ 64, e, x 5, x 6]

/-- The compression of n more blocks of 128 bytes. -/
def shaBlocks : Nat → List Nat → List Nat → List Nat
  | 0, _, v => v
  | n + 1, bs, v =>
    let ws := (growSched 64 ((List.range 16).reverse.map fun i => bigNat ((bs.drop (8 * i)).take 8))).reverse
    let r := (List.zip (shaK1 ++ shaK2) ws).foldl shaRound v
    shaBlocks n (bs.drop 128) (List.zipWith (fun a b => (a + b) % 2 ^ 64) v r)

/-- SHA-384 in 48 bytes (R431, R437). -/
def sha384 (bs : List Byte) : List Byte :=
  let pad := (239 - bs.length % 128) % 128
  let m := bs.map BitVec.toNat ++ [0x80] ++ List.replicate pad 0 ++ bigBytes 16 (8 * bs.length)
  (((shaBlocks (m.length / 128) m shaInit).take 6).flatMap (bigBytes 8)).map (BitVec.ofNat 8)

/-! ### ECDSA P-384 -/

def p384 : Nat := 2 ^ 384 - 2 ^ 128 - 2 ^ 96 + 2 ^ 32 - 1
def n384 : Nat := 0xFFFFFFFFFFFFFFFFFFFFFFFFFFFFFFFFFFFFFFFFFFFFFFFFC7634D81F4372DDF581A0DB248B0A77AECEC196ACCC52973
def b384 : Nat := 0xB3312FA7E23EE7E4988E056BE3F82D19181D9C6EFE8141120314088F5013875AC656398D8A2ED19D2A85C8EDD3EC2AEF
def g384 : Nat × Nat :=
  (0xAA87CA22BE8B05378EB1C71EF320AD746E1D3B628BA79B9859F741E082542A385502F25DBF55296C3A545E3872760AB7,
   0x3617DE4A96262C6F5D9E98BF9292DC29F8F41DBD289A147CE9DA3113B5F0B8C00A60B1CE1D7E819D7A431D7C90EA0E5F)

/-- b to the power whose low n bits e has, modulo m. -/
def powMod (m e : Nat) : Nat → Nat → Nat → Nat
  | 0, _, acc => acc
  | n + 1, b, acc => powMod m (e / 2) n (b * b % m) (if e % 2 = 1 then acc * b % m else acc)

/-- The inverse modulo a prime of 384 bits. -/
def invMod (m x : Nat) : Nat := powMod m (m - 2) 384 (x % m) 1

/-- The sum of two points of the curve; none is the point at infinity. -/
def addPoint : Option (Nat × Nat) → Option (Nat × Nat) → Option (Nat × Nat)
  | none, q => q
  | q, none => q
  | some (x1, y1), some (x2, y2) =>
    if x1 = x2 ∧ (y1 + y2) % p384 = 0 then none else
      let l := (if x1 = x2 then (3 * x1 * x1 + p384 - 3) * invMod p384 (2 * y1)
        else (y2 + p384 - y1) * invMod p384 (x2 + p384 - x1)) % p384
      let x3 := (l * l + 2 * p384 - x1 - x2) % p384
      some (x3, (l * (x1 + p384 - x3) + p384 - y1) % p384)

/-- A point times the number whose low n bits k has. -/
def mulPoint : Nat → Nat → Option (Nat × Nat) → Option (Nat × Nat) → Option (Nat × Nat)
  | 0, _, _, acc => acc
  | n + 1, k, q, acc => mulPoint n (k / 2) (addPoint q q) (if k % 2 = 1 then addPoint acc q else acc)

/-- Whether an ECDSA P-384 signature of 96 bytes, r then s, verifies a message under SHA-384 and a key of 96 bytes, x then y
(R431, R446, R461). -/
def ecdsaOk (key msg sig : List Byte) : Bool :=
  let x := ofBytesBE (key.take 48)
  let y := ofBytesBE (key.drop 48)
  let r := ofBytesBE (sig.take 48)
  let s := ofBytesBE (sig.drop 48)
  if key.length = 96 ∧ sig.length = 96 ∧ x < p384 ∧ y < p384 ∧ y * y % p384 = (x * x * x + (p384 - 3) * x + b384) % p384 ∧
      0 < r ∧ r < n384 ∧ 0 < s ∧ s < n384 then
    let w := invMod n384 s
    let u1 := ofBytesBE (sha384 msg) * w % n384
    let u2 := r * w % n384
    match addPoint (mulPoint 384 u1 (some g384) none) (mulPoint 384 u2 (some (x, y)) none) with
    | some q => decide (q.1 % n384 = r)
    | none => false
  else false

end Sys2Proof.Machine
end

