-- ==== Sys2Proof/Machine/AudioState.lean ====
section
/-! DEFINITION. The state of the audio paths that registers do not show: ramps, delay stages, fallback messages, transmit slots,
bank flips and placements (R384 to R412). -/

namespace Sys2Proof.Machine

/-- The state of one channel of a queue's stream (R398): gain, state (0 Normal, 1 Falling, 2 Rising), the held block, the block
that entered the stages last before a cause, and the block that entered the ramp last. -/
structure ChanRamp where
  g : Nat
  st : Nat
  held : List Int
  rel : List Int
  last : List Int
  deriving DecidableEq, Repr

def ChanRamp.zero : ChanRamp := { g := 0, st := 0, held := [], rel := [], last := [] }

/-- An EVAC pin (R402 to R404): the debounced state is in APT_EVAC_STAT.active; ticks in a row at the other level, whether its
activation has started a message, and its message: 0 none, 1 playing, 2 leaving; place of the block now forwarded, offset,
length, gain and loop. -/
structure EvPin where
  count : Nat
  used : Bool
  phase : Nat
  pos : Nat
  off : Nat
  len : Nat
  gain : Int
  loop : Bool
  deriving DecidableEq, Repr

def EvPin.zero : EvPin := { count := 0, used := false, phase := 0, pos := 0, off := 0, len := 0, gain := 0, loop := false }

/-- A placement (R409 to R411): source, logical core, address, rows, its pour, and when it runs the core it writes and the
cycle it started. -/
structure Place where
  bank : Nat
  side : Bool
  off : Nat
  l : Nat
  addr : Nat
  rows : Nat
  pour : Nat
  run : Option (Nat × Nat)
  deriving DecidableEq, Repr

/-- The audio paths: the pour that ended at the last tick, the first tick after the tamp (R438), the shed level in effect
(R479), channel ramps by 1,024 × queue + channel, pins, outputs under replacement by 8,192 × kind + target (pin and A), the
blocks of the transmit slots, newest first (the tick whose output window each fills, and its samples), the ring channels fed
(4,096 × pair + channel, and the pour), the cycle of the last NTC load, the last sample captured in each receive slot, sample
indices of the delay stages, pending flips (bank, pour, crossfade), the tick of each crossfade, placements in order, and the outputs without a
queue forwarded for a pour. -/
structure Audio where
  ended : Nat
  first : Option Nat
  shed : Nat
  ramps : List (Nat × ChanRamp)
  pins : List EvPin
  outs : List (Nat × Nat × Nat)
  tx : List (Nat × List (Nat × List Int))
  ringFed : List (Nat × Nat)
  loadAt : Option Nat
  rxLast : List (Nat × Int)
  delays : List (Nat × Nat)
  flips : List (Nat × Nat × Bool)
  xfades : List (Nat × Nat)
  places : List Place
  unfed : Option Nat
  deriving DecidableEq, Repr

def Audio.zero : Audio :=
  { ended := 0, first := none, shed := 0, ramps := [], pins := List.replicate 8 EvPin.zero, outs := [], tx := [], ringFed := []
    loadAt := none, rxLast := [], delays := [], flips := [], xfades := [], places := [], unfed := none }

end Sys2Proof.Machine
end

