-- ==== Sys2Proof/Machine/Flags.lean ====
section
/-! DEFINITION. What the Eduno function units compute and the arithmetic status each operation sets (R76 to R81, R125 to
R139). Operations compute on unbounded integers and narrow once at the end. -/

namespace Sys2Proof.Machine

/-- Bits of CORE_ASTAT an operation sets (R77, R80, R81): bit 0 alu_sat, bit 1 ext_sat, bits 5:2 acc_ovf. -/
abbrev Astat := BitVec 6

def astatNone : Astat := 0
def astatAlu : Astat := 1
def astatExt : Astat := 2
def astatAcc (k : Nat) : Astat := BitVec.ofNat 6 (4 * 2 ^ k)

/-- Sign extension of the low `w` bits of a transport word (R67). -/
def sext48 (w : Nat) (v : Nat) : W48 := BitVec.ofInt 48 (BitVec.ofNat w v).toInt

/-- Zero extension to the transport word (R67). -/
def zext48 (v : Nat) : W48 := BitVec.ofNat 48 v

/-- A signed integer clamped to `w` bits, and whether it was outside (R81). -/
def clampInt (w : Nat) (y : Int) : Int × Bool :=
  let lo : Int := -(2 ^ (w - 1) : Nat)
  let hi : Int := (2 ^ (w - 1) : Nat) - 1
  if y < lo then (lo, true) else if hi < y then (hi, true) else (y, false)

/-- Rounding half to even of the exact quotient n ÷ d (R398). -/
def rhe (n : Int) (d : Nat) : Int :=
  let q := n / (d : Int)
  let r := (n % (d : Int)).toNat
  if 2 * r < d then q else if d < 2 * r then q + 1 else if q % 2 = 0 then q else q + 1

/-- The result of an ALU operation saturating to 24 bits (R128). -/
def aluSat (y : Int) : W48 × Astat :=
  let r := clampInt 24 y
  (BitVec.ofInt 48 r.1, if r.2 then astatAlu else astatNone)

def ofCmp (b : Bool) : W48 × Astat := (if b then 1 else 0, astatNone)

/-- The ALU operations by the port offset of R105 (R127, R128). -/
def aluOp (op : Nat) (o t : W48) : W48 × Astat :=
  match op with
  | 0x01 => (o + t, astatNone)
  | 0x02 => aluSat (o.toInt + t.toInt)
  | 0x03 => (o - t, astatNone)
  | 0x04 => aluSat (o.toInt - t.toInt)
  | 0x05 => (o &&& t, astatNone)
  | 0x06 => (o ||| t, astatNone)
  | 0x07 => (o ^^^ t, astatNone)
  | 0x08 => (o &&& ~~~ t, astatNone)
  | 0x09 => (if o.toInt ≤ t.toInt then o else t, astatNone)
  | 0x0A => (if o.toInt ≤ t.toInt then t else o, astatNone)
  | 0x0B => (if o.toNat ≤ t.toNat then o else t, astatNone)
  | 0x0C => (if o.toNat ≤ t.toNat then t else o, astatNone)
  | 0x0D => (if t.toInt < 0 then -t else t, astatNone)
  | 0x0E => aluSat (if t.toInt < 0 then -t.toInt else t.toInt)
  | 0x0F => (-t, astatNone)
  | 0x10 => aluSat (-t.toInt)
  | 0x11 => ofCmp (o == t)
  | 0x12 => ofCmp (o != t)
  | 0x13 => ofCmp (decide (o.toInt < t.toInt))
  | 0x14 => ofCmp (decide (o.toInt ≤ t.toInt))
  | 0x15 => ofCmp (decide (o.toNat < t.toNat))
  | 0x16 => ofCmp (decide (o.toNat ≤ t.toNat))
  | _ => (t, astatNone)

/-- The scalar multiply of the MAC units (R130). -/
def macScalar (o t : W24) : W48 × Astat :=
  let r := clampInt 48 (2 * o.toInt * t.toInt)
  (BitVec.ofInt 48 r.1, if r.2 then astatAlu else astatNone)

/-- One lane of a row operation on an accumulator (R129): operation code c of R106, accumulator number k, the lane,
the row operand word, the trigger word and the scalar. -/
def macLane (c k : Nat) (acc : W56) (a w s : W24) : W56 × Astat :=
  let exact (y : Int) : W56 × Astat :=
    (BitVec.ofInt 56 y, if (clampInt 56 y).2 then astatAcc k else astatNone)
  match c with
  | 0 => exact (acc.toInt + a.toInt * w.toInt)
  | 1 => exact (acc.toInt - a.toInt * w.toInt)
  | 2 => (BitVec.ofInt 56 (a.toInt * w.toInt), astatNone)
  | 3 => exact (acc.toInt + w.toInt * s.toInt)
  | 4 => exact (acc.toInt - w.toInt * s.toInt)
  | _ => (0, astatNone)

/-- The rounding step of an extraction (R79): n shifted right by e > 0 under mode rnd. -/
def extRound (n : Int) (e rnd : Nat) : Int :=
  let d : Int := (2 ^ e : Nat)
  let q := n / d
  let r := n % d
  let h : Int := (2 ^ (e - 1) : Nat)
  match rnd with
  | 0 => q
  | 1 => if h ≤ r then q + 1 else q
  | 2 => if h < r then q + 1 else if r < h then q else if q % 2 = 1 then q + 1 else q
  | _ => if r = 0 then q else if q % 2 = 1 then q else q + 1

/-- The extraction of one lane under a control word (R78, R79, R80). -/
def extract (ctl : Nat) (lane : W56) : W48 × Astat :=
  let k : Int := (BitVec.ofNat 5 (bitsOf ctl 4 5)).toInt
  let wide := bitOf ctl 3
  let sat := bitOf ctl 2
  let f : Int := if wide then 47 else 23
  let w : Nat := if wide then 48 else 24
  let e := 46 - f - k
  let y := if e ≤ 0 then lane.toInt * ((2 ^ (-e).toNat : Nat) : Int) else extRound lane.toInt e.toNat (bitsOf ctl 0 2)
  let c := clampInt w y
  let z := if sat then c.1 else (BitVec.ofInt w y).toInt
  (BitVec.ofInt 48 z, if c.2 then astatExt else astatNone)

/-- Redundant sign bits, counted down from bit `i` - 1 (R135). -/
def normCount (v : W48) : Nat → Nat
  | 0 => 0
  | i + 1 => if v.toNat.testBit i = v.toNat.testBit 47 then 1 + normCount v i else 0

/-- The shifter operations by destination id minus 0x180 (R134, R135). -/
def shfOp (op : Nat) (o t : W48) : W48 × Astat :=
  let c := bitsOf t.toNat 0 6
  match op with
  | 1 => (BitVec.ofNat 48 (o.toNat * 2 ^ c), astatNone)
  | 2 => let r := clampInt 48 (o.toInt * ((2 ^ c : Nat) : Int))
         (BitVec.ofInt 48 r.1, if r.2 then astatAlu else astatNone)
  | 3 => (BitVec.ofInt 48 (o.toInt / ((2 ^ c : Nat) : Int)), astatNone)
  | 4 => (BitVec.ofNat 48 (o.toNat / 2 ^ c), astatNone)
  | _ => (BitVec.ofNat 48 (normCount t 47), astatNone)

/-- One step of unsigned restoring division (R136). -/
def divStep (d : W24) (t : W48) : W48 :=
  let c := bitsOf t.toNat 47 1
  let x := (t.toNat * 2) % 2 ^ 48
  let rr := c * 2 ^ 24 + bitsOf x 24 24
  let sub := decide (d.toNat ≤ rr)
  let r2 := if sub then rr - d.toNat else rr
  BitVec.ofNat 48 ((r2 % 2 ^ 24) * 2 ^ 24 + bitsOf x 1 23 * 2 + ofBool sub)

/-- How many of the `m` numbers from `lo` on satisfy a test that holds up to some point. -/
def countWhile (f : Nat → Bool) (lo : Nat) : Nat → Nat
  | 0 => 0
  | m + 1 => if f lo then 1 + countWhile f (lo + 1) m else 0

/-- The least k at most `fuel` with `b` ^ k times n at least `lim`. -/
def scaleUp (b lim n : Nat) : Nat → Nat
  | 0 => 0
  | fuel + 1 => if lim ≤ n then 0 else 1 + scaleUp b lim (n * b) fuel

/-- The reciprocal square root seed (R137): s is the integer nearest to 128 over the root of (m8 + 0.5) / 256. -/
def rsqSeed (t : W24) : W48 :=
  if t.toInt ≤ 0 then BitVec.ofNat 48 (255 * 2 ^ 24 + 0x7FFFFF) else
    let n := t.toNat
    let k := scaleUp 4 (2 ^ 21) n 12
    let m8 := 4 ^ k * n * 256 / 2 ^ 23
    let s := 128 + countWhile (fun s => decide ((2 * s - 1) ^ 2 * (2 * m8 + 1) < 2 ^ 25)) 129 127
    BitVec.ofNat 48 ((k + 1) * 2 ^ 24 + s * 2 ^ 15)

/-- The base-2 logarithm seed (R138): f is the integer nearest to 256 log2((m8 + 0.5) / 256). -/
def log2Seed (t : W24) : W48 :=
  if t.toInt ≤ 0 then BitVec.ofInt 48 (-(2 ^ 23 : Int)) else
    let n := t.toNat
    let k := scaleUp 2 (2 ^ 22) n 23
    let m8 := 2 ^ k * n * 256 / 2 ^ 23
    let f : Int := ((Nat.log2 ((2 * m8 + 1) ^ 512) : Int) - 4608 + 1) / 2
    BitVec.ofInt 48 ((-(256 * k : Int) + f) * 256)

/-- The base-2 exponential seed (R139): s is the integer nearest to 256 times 2 to the (φ8 + 0.5) / 256 - 1. -/
def exp2Seed (t : W24) : W48 :=
  let v := t.toInt
  let i := v / 65536
  let p8 := ((v % 65536) / 256).toNat
  let s := 128 + countWhile (fun s => decide ((2 * s - 1) ^ 512 < 2 ^ (4096 + 2 * p8 + 1))) 129 128
  BitVec.ofInt 48 ((i + 1) * 2 ^ 24 + (min s 255 : Nat) * 2 ^ 15)

/-- The special-unit operations by destination id minus 0x1A0 (R136 to R139). -/
def spuOp (op : Nat) (o : W24) (t : W48) : W48 :=
  match op with
  | 1 => divStep o t
  | 2 => rsqSeed (t.setWidth 24)
  | 3 => log2Seed (t.setWidth 24)
  | _ => exp2Seed (t.setWidth 24)

end Sys2Proof.Machine
end

