-- ==== Sys2Proof/Machine/Operands.lean ====
section
/-! DEFINITION. The Eduno bundle encoding and the port map: headers, moves, source and destination ids, classes,
privilege, trigger groups and addressing modes (R92 to R117, R140 to R143). -/

namespace Sys2Proof.Machine

/-- What a source id names (R101 to R103, R109). -/
inductive Src
  | g (i : Nat) | d (i : Nat) | a (i : Nat) | m (i : Nat) | cb (i : Nat) | cl (i : Nat) | p (i : Nat)
  | raw (k j : Nat) (hi : Bool)
  | alu (u : Nat) | mac (u : Nat) | x (i : Nat) | shf | spu | ag (p : Nat) | lsuS (p : Nat) | lsuRow (p : Nat)
  | car | qioR | qioTo | ln | lc (k : Nat) | bc | ctl (n : Nat) | imm
  deriving DecidableEq, Repr

/-- What a destination id names (R101, R102, R105 to R108, R112 to R114). -/
inductive Dst
  | g (i : Nat) | d (i : Nat) | a (i : Nat) | aHi (i : Nat) | m (i : Nat) | cb (i : Nat) | cl (i : Nat) | p (i : Nat)
  | raw (k j : Nat) (hi : Bool)
  | aluO (u : Nat) | aluT (u op : Nat)
  | macO (u : Nat) | macRa (u : Nat) | macT (u : Nat) | accT (k c : Nat)
  | shfO | shfT (op : Nat) | spuO | spuT (op : Nat)
  | lpe | jmp | call | ret | lp (k : Nat) | rep | bmove | flush | ln | bc
  | qioQ | send | rcv | eop
  | carSd | carLd (kind : Nat) | carSt (kind : Nat)
  | mode | astat | sys | tsbr | rfe | hold
  | agT (p k md : Nat) | lsuT (p n k md : Nat) | sd (p : Nat) | srow (p : Nat)
  deriving DecidableEq, Repr

/-- Sources an Eduno core assigns (R100 to R103, R109). -/
def srcOf (id : Nat) : Option Src :=
  if id < 0x20 then some (.g id)
  else if id < 0x30 then some (.d (id - 0x20))
  else if id < 0x38 then some (.a (id - 0x30))
  else if id < 0x40 then some (.m (id - 0x38))
  else if id < 0x44 then some (.cb (id - 0x40))
  else if id < 0x48 then some (.cl (id - 0x44))
  else if id < 0x50 then some (.p (id - 0x48))
  else if id < 0x70 then some (.raw ((id - 0x50) / 8) ((id - 0x50) / 2 % 4) (bitOf id 0))
  else if id < 0x80 then none
  else if id < 0x82 then some (.alu (id - 0x80))
  else if id < 0x84 then some (.mac (id - 0x82))
  else if id < 0x8C then some (.x (id - 0x84))
  else if id = 0x8C then some .shf
  else if id = 0x8D then some .spu
  else if id < 0x90 then some (.ag (id - 0x8E))
  else if id < 0x92 then some (.lsuS (id - 0x90))
  else if id < 0x94 then some (.lsuRow (id - 0x92))
  else if id = 0x94 then some .car
  else if id = 0x95 then some .qioR
  else if id = 0x96 then some .qioTo
  else if id = 0x98 then some .ln
  else if id = 0x99 then some (.lc 0)
  else if id = 0x9A then some (.lc 1)
  else if id = 0x9B then some .bc
  else if 0xA0 ≤ id ∧ id < 0xA8 then some (.ctl (id - 0xA0))
  else if id = 0x1FF then some .imm
  else none

/-- Destinations of one MAC unit by offset (R106). -/
def macDst (u off : Nat) : Option Dst :=
  if off = 0 then some (.macO u)
  else if off = 1 then some (.macRa u)
  else if off = 2 then some (.macT u)
  else if 8 ≤ off ∧ off < 0x18 ∧ off % 8 < 7 then some (.accT (2 * u + (off - 8) / 8) (off % 8))
  else none

/-- Destinations of the ports from 0x180 to 0x245 (R107, R108). -/
def portDst (id : Nat) : Option Dst :=
  match id with
  | 0x180 => some .shfO
  | 0x181 => some (.shfT 1)
  | 0x182 => some (.shfT 2)
  | 0x183 => some (.shfT 3)
  | 0x184 => some (.shfT 4)
  | 0x185 => some (.shfT 5)
  | 0x1A0 => some .spuO
  | 0x1A1 => some (.spuT 1)
  | 0x1A2 => some (.spuT 2)
  | 0x1A3 => some (.spuT 3)
  | 0x1A4 => some (.spuT 4)
  | 0x1C0 => some .lpe
  | 0x1C1 => some .jmp
  | 0x1C2 => some .call
  | 0x1C3 => some .ret
  | 0x1C4 => some (.lp 0)
  | 0x1C5 => some (.lp 1)
  | 0x1C6 => some .rep
  | 0x1C7 => some .bmove
  | 0x1C8 => some .flush
  | 0x1C9 => some .ln
  | 0x1CA => some .bc
  | 0x200 => some .qioQ
  | 0x201 => some .send
  | 0x202 => some .rcv
  | 0x203 => some .eop
  | 0x220 => some .carSd
  | 0x221 => some (.carLd 0)
  | 0x222 => some (.carLd 1)
  | 0x223 => some (.carLd 2)
  | 0x224 => some (.carSt 0)
  | 0x225 => some (.carSt 1)
  | 0x226 => some (.carSt 2)
  | 0x240 => some .mode
  | 0x241 => some .astat
  | 0x242 => some .sys
  | 0x243 => some .tsbr
  | 0x244 => some .rfe
  | 0x245 => some .hold
  | _ => none

/-- Destinations an Eduno core assigns (R100 to R102, R105 to R108, R112 to R114). -/
def dstOf (id : Nat) : Option Dst :=
  if id < 0x20 then some (.g id)
  else if id < 0x30 then some (.d (id - 0x20))
  else if id < 0x38 then some (.a (id - 0x30))
  else if id < 0x40 then some (.aHi (id - 0x38))
  else if id < 0x48 then some (.m (id - 0x40))
  else if id < 0x4C then some (.cb (id - 0x48))
  else if id < 0x50 then some (.cl (id - 0x4C))
  else if id < 0x58 then some (.p (id - 0x50))
  else if id < 0x60 then none
  else if id < 0x80 then some (.raw ((id - 0x60) / 8) ((id - 0x60) / 2 % 4) (bitOf id 0))
  else if id < 0x100 then
    let u := (id - 0x80) / 0x40
    let off := id % 0x40
    if off = 0 then some (.aluO u) else if off < 0x18 then some (.aluT u off) else none
  else if id < 0x140 then macDst 0 (id - 0x100)
  else if id < 0x180 then macDst 1 (id - 0x140)
  else if id < 0x300 then portDst id
  else if id < 0x380 then some (.agT ((id - 0x300) / 64) ((id - 0x300) / 8 % 8) (id % 8))
  else if id < 0x382 then some (.sd (id - 0x380))
  else if id < 0x384 then some (.srow (id - 0x382))
  else if id < 0x400 then none
  else if id < 0x800 then some (.lsuT ((id - 0x400) / 512) ((id - 0x400) / 64 % 8) ((id - 0x400) / 8 % 8) (id % 8))
  else none

/-- Sources a Barista core lacks: the MAC units, the accumulators and the queue I/O unit (R413). -/
def Src.eduno : Src → Bool
  | .raw _ _ _ | .mac _ | .x _ | .qioR | .qioTo => true
  | _ => false

/-- Destinations a Barista core lacks (R413). -/
def Dst.eduno : Dst → Bool
  | .raw _ _ _ | .macO _ | .macRa _ | .macT _ | .accT _ _ | .qioQ | .send | .rcv | .eop => true
  | _ => false

/-- Row-class sources (R115). -/
def Src.isRow : Src → Bool
  | .lsuRow _ => true
  | _ => false

/-- Row-class destinations (R106, R115). -/
def Dst.isRow : Dst → Bool
  | .macRa _ | .srow _ => true
  | .accT _ c => decide (c < 5)
  | _ => false

/-- Privileged sources (R84, R109). -/
def Src.priv : Src → Bool
  | .ctl n => decide (2 ≤ n)
  | _ => false

/-- Privileged destinations (R84, R108). -/
def Dst.priv : Dst → Bool
  | .mode | .tsbr | .rfe | .hold => true
  | _ => false

/-- The group of a destination of which only the highest slot acts in a bundle: the triggers of R116, and ctl.astat, whose writes
do not overwrite each other (R61). A MAC unit is one group, since a unit is triggered at most once per bundle (R61, R126;
DEDUCED, log entry 20). -/
def Dst.group : Dst → Option Nat
  | .aluT u _ => some u
  | .macT u => some (2 + u)
  | .accT k _ => some (2 + k / 2)
  | .shfT _ => some 4
  | .spuT _ => some 5
  | .jmp | .call | .ret | .lp _ | .rep | .bmove => some 6
  | .send | .rcv | .eop => some 7
  | .carLd _ | .carSt _ => some 8
  | .agT u _ _ => some (9 + u)
  | .lsuT u _ _ _ => some (9 + u)
  | .astat => some 11
  | _ => none

/-- One move of a bundle (R97, R98). -/
structure Move where
  slot : Nat
  inv : Bool
  pred : Nat
  src : Nat
  dst : Nat
  imm : Option W24
  deriving DecidableEq, Repr

/-- A fetched bundle: its header, its length in bytes and its moves (R92 to R94). -/
structure Bundle where
  header : Nat
  len : Nat
  moves : List Move
  deriving DecidableEq, Repr

/-- A decode fault: kind and slot as CORE_DFAULT records them (R124), and the recorded header. -/
structure DecodeFault where
  header : Nat
  kind : Nat
  slot : Nat
  deriving DecidableEq, Repr

/-- Number of set bits below bit `n`. -/
def popcount (v : Nat) : Nat → Nat
  | 0 => 0
  | n + 1 => popcount v n + ofBool (v.testBit n)

/-- Length of a bundle from its header (R94). -/
def bundleLen (header : Nat) : Nat :=
  2 + 3 * popcount (bitsOf header 8 8) 8 + 3 * popcount (bitsOf header 0 8) 8

/-- The move that a 24-bit word and an optional immediate spell (R97, R98). -/
def moveOf (slot w : Nat) (imm : Option W24) : Move :=
  { slot := slot, inv := bitOf w 23, pred := bitsOf w 20 3, src := bitsOf w 11 9, dst := bitsOf w 0 11, imm := imm }

/-- The moves of the slots in `slots`, read from the bytes after the header (R92). -/
def readMoves (header : Nat) : List Nat → List Byte → List Move
  | [], _ => []
  | i :: rest, bs =>
    if !bitOf header (8 + i) then readMoves header rest bs
    else if bitOf header i then
      moveOf i (ofBytesLE (bs.take 3)) (some (BitVec.ofNat 24 (ofBytesLE ((bs.drop 3).take 3)))) ::
        readMoves header rest (bs.drop 6)
    else moveOf i (ofBytesLE (bs.take 3)) none :: readMoves header rest (bs.drop 3)

/-- The undefined-move kind of one move, in the order of R124, if any (R119); `bar`: on a Barista core. -/
def moveFault (bar : Bool) (m : Move) : Option Nat :=
  match (srcOf m.src).filter (fun x => !(bar && x.eduno)), (dstOf m.dst).filter (fun x => !(bar && x.eduno)) with
  | none, _ => some 4
  | some _, none => some 5
  | some sr, some ds =>
    if m.imm.isNone && sr = .imm then some 6
    else if m.imm.isSome && sr ≠ .imm then some 7
    else if sr.isRow ≠ ds.isRow then some 8
    else none

/-- Decoding the bytes from a bundle's first byte to the end of its bank (R92 to R99, R118 to R120, R124): at most the
52 bytes a bundle can need are given. A Barista bundle holds moves in slots 0 and 1 only (R413). -/
def decodeBundle (bar : Bool) (bs : List Byte) : Except DecodeFault Bundle :=
  let header := ofBytesLE (bs.take 2)
  let present := bitsOf header 8 8
  let long := bitsOf header 0 8
  if bs.length < 2 then .error ⟨header, 3, 0⟩
  else if present = 0 then .error ⟨header, 1, 0⟩
  else if long &&& (255 - present) ≠ 0 ∨ (bar ∧ (3 < present ∨ 3 < long)) then .error ⟨header, 2, 0⟩
  else if bs.length < bundleLen header then .error ⟨header, 3, 0⟩
  else
    let ms := readMoves header [0, 1, 2, 3, 4, 5, 6, 7] (bs.drop 2)
    match ms.findSome? (fun m => (moveFault bar m).map fun k => (k, m.slot)) with
    | some (k, sl) => .error ⟨header, k, sl⟩
    | none => .ok ⟨header, bundleLen header, ms⟩

/-- The header of a list of moves in ascending slot order (R93). -/
def headerOf (ms : List Move) : Nat :=
  ms.foldl (fun h m => h + 2 ^ (8 + m.slot) + (if m.imm.isSome then 2 ^ m.slot else 0)) 0

/-- The word of a move (R97). -/
def moveWord (m : Move) : Nat := ofBool m.inv * 2 ^ 23 + m.pred * 2 ^ 20 + m.src * 2 ^ 11 + m.dst

/-- The bytes of a move (R92, R98). -/
def moveBytes (m : Move) : List Byte :=
  toBytesLE 3 (moveWord m) ++ (match m.imm with | some v => toBytesLE 3 v.toNat | none => [])

/-- The bytes of a bundle (R92). -/
def encodeBundle (ms : List Move) : List Byte :=
  toBytesLE 2 (headerOf ms) ++ ms.flatMap moveBytes

/-- A move whose fields fit the encoding: a long move names #imm (R97, R98). -/
def Move.wf (m : Move) : Bool :=
  decide (m.slot < 8) && decide (m.pred < 8) && decide (m.src < 512) && decide (m.dst < 2048)

/-- Slots strictly rising from `lo` on (R92). -/
def slotsRise : Nat → List Move → Bool
  | _, [] => true
  | lo, m :: rest => decide (lo ≤ m.slot) && slotsRise (m.slot + 1) rest

/-- A bundle that the encoding admits and decoding accepts (R92, R118, R119). -/
def bundleWf (bar : Bool) (ms : List Move) : Bool :=
  !ms.isEmpty && slotsRise 0 ms && ms.all Move.wf && ms.all (fun m => (moveFault bar m).isNone) &&
    (!bar || ms.all (fun m => decide (m.slot < 2)))

/-- The circular wrap of an address (R142). -/
def wrapAddr (b l x : W32) : W32 :=
  b + BitVec.ofInt 32 ((x - b).toInt % (l.toNat : Int))

/-- The wrap of address register k: off for a4 to a7 and for a length of 0 (R142). -/
def circ (k : Nat) (b l : W32) (x : W32) : W32 :=
  if k < 4 ∧ l ≠ 0 then wrapAddr b l x else x

/-- Effective address and updated register of a mode (R111, R141). -/
def agenOp (k md : Nat) (a m v b l : W32) : W32 × W32 :=
  let w := circ k b l
  match md with
  | 0 => (w a, w (a + m))
  | 1 => (w a, w (a + v))
  | 2 => (w (a - m), w (a - m))
  | 3 => (w (a - v), w (a - v))
  | _ => (w (a + BitVec.ofNat 32 (3 * 2 ^ (md - 4)) * v), a)

/-- Whether the mode updates its register (R111). -/
def agenUpd (md : Nat) : Bool := decide (md < 4)

/-- Bytes moved by an access kind, loads 0 to 3 and stores 4 to 7 (R113, R140). -/
def kindBytes (n : Nat) : Nat :=
  match n % 4 with
  | 0 => 3
  | 1 => 6
  | 2 => 4
  | _ => 24

/-- The pieces of an access: under circular addressing a row or d access has one piece for each word (R143). -/
def accessPieces (k n : Nat) (b l e : W32) : List (Nat × Nat) :=
  if k < 4 ∧ l ≠ 0 ∧ n % 2 = 1 then
    (List.range (kindBytes n / 3)).map fun i => ((wrapAddr b l (e + BitVec.ofNat 32 (3 * i))).toNat, 3)
  else [(e.toNat, kindBytes n)]

end Sys2Proof.Machine
end

