-- ==== Sys2Proof/Machine/CoreState.lean ====
section
/-! DEFINITION. The state of one control core: an Eduno core or a Barista pair (R69, R161, R221, R226, R228, R413). -/

namespace Sys2Proof.Machine

/-- Where a core stands (R150, R225, R437, R473): held in reset, waiting for the tick, issuing, or stopped. -/
inductive Phase
  | inReset | waiting | running | stopped
  deriving DecidableEq, Repr

/-- One set of operand latches and result ports (R103 to R108, R125, R221). -/
structure UnitSet where
  aluO : List W48
  aluR : List W48
  macO : List W24
  macRa : List Row
  macR : List W48
  x : List W48
  shfO : W48
  shfR : W48
  spuO : W24
  spuR : W48
  agR : List W32
  lsuS : List W48
  lsuRow : List Row
  sd : List W48
  srow : List Row
  lpe : BitVec 20
  qioQ : BitVec 16
  qioR : W48
  qioTo : Bool
  carSd : W48
  carR : W48
  /-- The load whose data car.r holds met an uncorrectable error: Carafe offset and slot of its trigger (R204). -/
  carErr : Option (Nat × Nat)
  deriving DecidableEq, Repr

/-- Latches and ports after core reset: the spec gives 0 for car.r (R193); the rest is the model's choice (log entry 12). -/
def UnitSet.zero : UnitSet :=
  { aluO := List.replicate 2 0, aluR := List.replicate 2 0, macO := List.replicate 2 0, macRa := List.replicate 2 0
    macR := List.replicate 2 0, x := List.replicate 8 0, shfO := 0, shfR := 0, spuO := 0, spuR := 0
    agR := List.replicate 2 0, lsuS := List.replicate 2 0, lsuRow := List.replicate 2 0, sd := List.replicate 2 0
    srow := List.replicate 2 0, lpe := 0, qioQ := 0, qioR := 0, qioTo := false, carSd := 0, carR := 0, carErr := none }

/-- What an operation in flight delivers or lands (R63, R131, R146). -/
inductive Deliver
  | alu (u : Nat) (v : W48) (f : BitVec 6)
  | mac (u : Nat) (v : W48) (f : BitVec 6)
  | shf (v : W48) (f : BitVec 6)
  | spu (v : W48)
  | ag (p : Nat) (v : W32)
  | scalar (p : Nat) (v : W48)
  | row (p : Nat) (v : Row)
  /-- Operation c on accumulator k with the row operand, the trigger row and the scalar (R129). -/
  | land (k c : Nat) (ra w : Row) (s : W24)
  /-- Extraction of accumulator k under a control word (R133). -/
  | ext (k ctl : Nat)
  deriving DecidableEq, Repr

/-- An operation in flight: the bundle number from which its effect is visible, and the unit set it delivers to. -/
structure Flight where
  due : Nat
  sup : Bool
  what : Deliver
  deriving DecidableEq, Repr

/-- A memory error due on a bundle (R184): the bundle number, kind, slot and failing address. -/
structure MemErr where
  due : Nat
  kind : Nat
  slot : Nat
  addr : W32
  deriving DecidableEq, Repr

/-- A hardware loop (R161). -/
structure Loop where
  active : Bool
  start : Nat
  stop : Nat
  count : Nat
  deriving DecidableEq, Repr

def Loop.off : Loop := { active := false, start := 0, stop := 0, count := 0 }

/-- The loop buffer (R174, R175): off, after a failed capture or with no loop; emptied and waiting for a pass to capture;
capturing the first pass of a loop, with the offset expected next; or holding the body of a loop. A body lists the offset and
the bytes of each bundle. -/
inductive LoopBuf
  | off
  | wait
  | capture (loop expect : Nat) (body : List (Nat × List Byte))
  | held (loop : Nat) (body : List (Nat × List Byte))
  deriving DecidableEq, Repr

/-- An iteration of a block-repeat move whose load has been made (R170, R171): the cycle of the move it is due to be done in,
the pieces loaded with their data, and the exception it raises then: code, kind and address. -/
structure BmIter where
  due : Nat
  pieces : List (Nat × Nat)
  data : List Byte
  fault : Option (Nat × Nat × W32)
  deriving DecidableEq, Repr

/-- A block-repeat move in progress (R168 to R171): cycle of its trigger bundle, slot, control word, unit set and mode of the
trigger, the bytes of its bundle, cycles run, elements, loads issued, address register of the next load, its iterations under
way, and the value of lsu.sd1.o. -/
structure Bmove where
  start : Nat
  slot : Nat
  ctl : Nat
  user : Bool
  bytes : List Byte
  ran : Nat
  total : Nat
  loads : Nat
  la : W32
  iters : List BmIter
  sd : W48
  deriving DecidableEq, Repr

/-- Why an entry runs (R215): code, kind, slot and address of the exception, or the ticket presented. -/
structure Cause where
  code : Nat
  kind : Nat
  slot : Nat
  baddr : W32
  ticket : Option (Nat × Nat)
  deriving DecidableEq, Repr

/-- A Carafe load (R193, R197, R199): offset, the offset its bank's active side puts it at with the old side's and the step of
a crossfade (R406, R408), kind, trigger cycle, slot, unit set, grants of its two halves with the cycle of
the last, a wait for a store entry, forwarded data, and the data read. -/
structure CarLoad where
  off : Nat
  real : Nat
  blend : Option (Nat × Nat)
  kind : Nat
  at' : Nat
  slot : Nat
  sup : Bool
  granted : List Nat
  grantAt : Nat
  entered : Nat
  fwd : Bool
  waits : Option Nat
  data : List Byte
  bad : Bool
  deriving DecidableEq, Repr

/-- A store-buffer entry (R195): a serial number, offset, kind, data, the cycle it became oldest and halves granted. -/
structure StEntry where
  id : Nat
  off : Nat
  kind : Nat
  data : List Byte
  entered : Nat
  granted : List Nat
  bad : Bool
  deriving DecidableEq, Repr

/-- A queue receive outstanding (R284): queue, trigger cycle, cycle of expiry, whether it was refused at its trigger (R286), and
whether it was started again by an exit with an item present, which it takes whatever its expiry (R230). -/
structure Rcv where
  q : Nat
  at' : Nat
  expiry : Nat
  refused : Bool
  sure : Bool
  deriving DecidableEq, Repr

/-- A request for an entry (R213, R244, R246): the level it sets, its cause, and the cycle of its presentation. -/
structure Request where
  level : Nat
  cause : Cause
  at' : Nat
  deriving DecidableEq, Repr

/-- An entry (R228, R229, R231). Its stages happen by themselves, in this order: 0 it begins, at the end of cycle 0; 1 the
withdrawal of the load and the end of the rep span, in cycle L + 1; 2 the withdrawal of the receive, at the end of that
cycle; 3 to 8 the six parts of the block, from cycle 80; 9 what cycle 86 does; 10 the handler, in cycle 96. -/
structure Entering where
  cycle0 : Nat
  /-- L, the last issue cycle, counted from cycle 0. -/
  lastIssue : Nat
  req : Request
  chained : Bool
  /-- It began in cycle 96 of another entry, whose handler's first bundle does not issue (R229). -/
  second : Bool
  stage : Nat
  claimed : Option Nat
  /-- Offset of the handler, as the vectors name it in cycle 0 (R223), and the frame checked in cycle 80. -/
  handler : Nat
  frame : W32
  /-- The running level before cycle 0 (R212). -/
  saved : Nat
  /-- The mode of the interrupted code, where the frame already holds its state (R231). -/
  umode : Option Bool
  car : Option CarLoad
  rcv : Option Rcv
  bytes : List Byte
  /-- The request that starts the second entry (R229). -/
  next : Option Request
  deriving DecidableEq, Repr

/-- An exit (R230). Its stages: 0 the withdrawals, in cycle 1; 1 to 6 the six parts of the block, from cycle 16; 7 TSBR, in
cycle 22; 8 the restored registers and mode, in cycle 40; 9 what starts again, in cycle 41; 10 the end, in cycle 48. `tsbr`
is the frame pointer in cycle 0, `frame` the T of cycle 16, `bytes` the block as it stood in cycle 0 or as read since. -/
structure Exiting where
  cycle0 : Nat
  tsbr : W32
  frame : W32
  stage : Nat
  bytes : List Byte
  deriving DecidableEq, Repr

/-- A send not yet in its store (R282): queue, item and trigger cycle. -/
structure SendEntry where
  q : Nat
  item : W48
  at' : Nat
  deriving DecidableEq, Repr

/-- A byte of program memory whose old content fetch still sees (R177, R179): address, old byte, the bundle number and the
cycle before which the old content is seen. -/
structure OldByte where
  addr : Nat
  old : Byte
  bundle : Nat
  cycle : Nat
  deriving DecidableEq, Repr

/-- One control core. -/
structure Core where
  g : List W24
  a : List W32
  m : List W32
  cb : List W32
  cl : List W32
  /-- Lane j of accumulator k at 4k + j (R71). -/
  acc : List W56
  p : BitVec 8
  ln : W48
  bc : W24
  loops : List Loop
  rstack : List Nat
  rsOvf : Bool
  lbuf : LoopBuf
  setU : UnitSet
  setS : UnitSet
  fly : List Flight
  merr : List MemErr
  bcount : Nat
  pc : Nat
  user : Bool
  /-- Pending ctl.mode changes: bundles still to run in the old mode, and whether the new mode is user (R85). -/
  modePend : List (Nat × Bool)
  /-- A pending branch target and the delay bundles left (R153). -/
  branch : Option (Nat × Nat)
  /-- Repetitions still to run of the bundle at pc (R164). -/
  rep : Option Nat
  /-- The bytes of the repeated bundle, fetched once (R164). -/
  repBytes : Option (List Byte)
  bmove : Option Bmove
  /-- The bundle at pc is resumed as a block-repeat move (R171). -/
  bmvResume : Bool
  phase : Phase
  halted : Bool
  /-- 0 to 15 a ticket level, 16 exception, 31 base (R212). -/
  level : Nat
  hold : Bool
  entering : Option Entering
  cause : W24
  baddr : W32
  tsbr : W32
  astat : BitVec 6
  lateStore : Option W32
  overrun : Option Nat
  old : List OldByte
  /-- The Carafe load in flight of each unit set (R193, R221). -/
  carU : Option CarLoad
  carS : Option CarLoad
  stbuf : List StEntry
  stNext : Nat
  rcvU : Option Rcv
  rcvS : Option Rcv
  sends : List SendEntry
  /-- Releases staged in the pour: queue and block address (R290). -/
  staged : List (Nat × W48)
  /-- The ticket each entry in progress claimed, innermost first; none for an exception or a spurious claim (R239). -/
  claims : List (Option Nat)
  /-- The pour whose program the core runs, if it runs one (R148). -/
  pour : Option Nat
  eopDone : Bool
  /-- The pour entry has begun and its first bundle has not issued (R50, R148). -/
  fresh : Bool
  onTime : Bool
  ovrForce : Bool
  /-- A tick passed while a handler ran over the wait (R151). -/
  missed : Bool
  /-- First cycle in which the next bundle may issue. -/
  readyAt : Nat
  exit : Option Exiting
  /-- The cycle in which the last bundle issued, and the CORE_ASTAT bits that operations set at its end (R9, R82). -/
  issuedAt : Nat
  astatSet : BitVec 6
  /-- The cycles of the last push that set CORE_RSTAT.ovf, of the last end-of-pour move, of the last move to ctl.hold, and of the
  last update of TSBR that is no bus write (R9, R34, R110, R224). -/
  ovfAt : Option Nat
  eopAt : Option Nat
  holdAt : Option Nat
  tsbrAt : Option Nat
  deriving DecidableEq, Repr

/-- A core after core reset (R69, R83, R159, R193, R253); `tsbr` from the reset of its frame register. What the spec leaves
open is the model's choice (log entry 12). -/
def Core.reset : Core :=
  { g := List.replicate 32 0, a := List.replicate 8 0, m := List.replicate 8 0, cb := List.replicate 4 0
    cl := List.replicate 4 0, acc := List.replicate 16 0, p := 1, ln := 0, bc := 0, loops := [Loop.off, Loop.off]
    rstack := [], rsOvf := false, lbuf := .off, setU := UnitSet.zero, setS := UnitSet.zero, fly := [], merr := []
    bcount := 0, pc := 0, user := false, modePend := [], branch := none, rep := none, repBytes := none, bmove := none, bmvResume := false
    phase := .inReset, halted := false, level := 31, hold := true, entering := none, cause := 0, baddr := 0
    tsbr := 0x0007FB00, astat := 0, lateStore := none, overrun := none, old := [], carU := none, carS := none, stbuf := []
    stNext := 0, rcvU := none, rcvS := none, sends := [], staged := [], claims := [], pour := none, eopDone := true
    fresh := false, onTime := false, ovrForce := false, missed := false, readyAt := 0, exit := none
    issuedAt := 0, astatSet := 0, ovfAt := none, eopAt := none, holdAt := none, tsbrAt := none }

end Sys2Proof.Machine
end

