-- ==== Sys2Proof/Machine/HostState.lean ====
section
/-! DEFINITION. The state of the PCI Express endpoint, the module's supplies and lands, and live service that registers do not
show (R469 to R529). -/

namespace Sys2Proof.Machine

/-- A read of host memory in flight (R498, R499): its ring, first entry and entries, the cycle it was issued, and whether what
it returns is to be discarded. -/
structure HRead where
  ring : Nat
  first : Nat
  count : Nat
  at' : Nat
  dead : Bool
  deriving DecidableEq, Repr

/-- How a request of the host was completed (R489, R491, R494). -/
inductive Cpl
  | success | unsupported | retry | abort | poisoned
  deriving DecidableEq, Repr

/-- The endpoint: PERST# asserted, Bus Master Enable, reads in flight oldest first, ring entries written to the host (address and
item) and AER log, newest first, configuration dwords written, whether the link trains, the cycle a ring was last disabled by
hardware, the completion of the last request with its data. AER codes: 1 completer abort, 2 unsupported request on a read,
3 unsupported request on a write, 4 unexpected completion, 5 completion timeout, 7 poisoned TLP. -/
structure Pcie where
  perst : Bool
  bme : Bool
  reads : List HRead
  posted : List (Nat × BitVec 48)
  aer : List Nat
  cfg : List (Nat × BitVec 32)
  training : Bool
  stopped : List (Nat × Nat)
  cpl : Cpl
  data : List Byte
  deriving DecidableEq, Repr

def Pcie.zero : Pcie :=
  { perst := true, bme := false, reads := [], posted := [], aer := [], cfg := [], training := false, stopped := [], cpl := .success, data := [] }

/-- Supplies and lands: PG released, module reset asserted, a thermal shutdown in force, the stamp of a sleep request that waits, the cycle Sleep
began, and lands whose switch is open (64 × row + column). -/
structure Power where
  pg : Bool
  resetOn : Bool
  shutdown : Bool
  sleepReq : Option Nat
  asleep : Option Nat
  openLands : List Nat
  deriving DecidableEq, Repr

/-- Supplies and lands while module reset is asserted with the rails up (R515). -/
def Power.zero : Power :=
  { pg := true, resetOn := true, shutdown := false, sleepReq := none, asleep := none, openLands := [] }

/-- Live service: takeover commands waiting (logical core and stamp), and for each health counter with an interval the pour
where the interval under way began, and the last cycle in which it counted, with its value before that cycle; the scrubber's pass:
the cycle it began in, its period as CAR_DRAM_SCRUB codes it, and the lines it has read (R210). -/
structure Service where
  spareQ : List (Nat × Nat)
  ivals : List (Nat × Nat)
  counted : List (Nat × Nat × Nat)
  scrubStart : Nat
  scrubPeriod : Nat
  scrubbed : List Nat
  deriving DecidableEq, Repr

def Service.zero : Service := { spareQ := [], ivals := [], counted := [], scrubStart := 0, scrubPeriod := 2, scrubbed := [] }

end Sys2Proof.Machine
end

