-- ==== Sys2Proof/Machine/KeepState.lean ====
section
/-! DEFINITION. The state of the Rarik keep and of booting that registers do not show (R423 to R468). -/

namespace Sys2Proof.Machine

/-- A command of a set, waiting or running (R467): op, param, its stamp, and the input and output addresses. -/
structure KeepCmd where
  op : Nat
  param : Nat
  at' : Nat
  inp : Nat
  out : Nat
  deriving DecidableEq, Repr

/-- The keep (R444 to R468): serial, public keys of the slots, debug authority key, boots failed of images A and B, log entries
oldest first (NTC, code, detail), hashes of the booted manifest and of the boot copy, image and security version, the blend
record in force and one accepted for the first tick, the pour of a restore and its fuse still to burn, the challenge
outstanding, DRBG calls since its seeding, commands of the sets and the one that runs; IDE keys by 2 × set + direction, the
set in use, and the last SPDM answer; the wideband, and the supply and converter trims in force (R463, R528). -/
structure Keep where
  serial : List Byte
  slots : List (List Byte)
  dbgKey : List Byte
  fails : List Nat
  log : List (Nat × Nat × Nat)
  manifest : List Byte
  bootCopy : List Byte
  imgVer : Nat
  secVer : Nat
  blend : Option (List Byte)
  blendNext : Option (List Byte)
  restoreAt : Option Nat
  fuseDue : Bool
  challenge : Option (List Byte)
  calls : Nat
  cmds : List (Nat × KeepCmd)
  running : Option Nat
  ideKeys : List (Nat × List Byte)
  ideSet : Option Nat
  doe : List Byte
  wideTrims : List Int
  supplyTrims : List Int
  deriving DecidableEq, Repr

def Keep.zero : Keep :=
  { serial := [], slots := List.replicate 4 [], dbgKey := [], fails := [0, 0], log := [], manifest := [], bootCopy := [], imgVer := 0
    secVer := 0, blend := none, blendNext := none, restoreAt := none, fuseDue := false, challenge := none, calls := 0, cmds := []
    running := none, ideKeys := [], ideSet := none, doe := []
    wideTrims := (List.range 8).map fun i => (Config.roastWide i).toInt
    supplyTrims := (List.range 8).map fun i => (Config.roastSupply i).toInt }

/-- A section entry of a manifest (R431). -/
structure Section where
  type : Nat
  warm : Bool
  off : Nat
  len : Nat
  dest : Nat
  digest : List Byte
  deriving DecidableEq, Repr

/-- Stages of booting (R432 to R442): the keep's self-test, the choice, sections, checks, recovery, and none. -/
inductive BootStage
  | selfTest | choice | sections | checks | ready | recovery | done
  deriving DecidableEq, Repr

/-- A boot under way: its stage, the sections still to apply, the firmware's first offset, declarations as read, whether it is
a warm reboot and from a staged image (and how many attempts have failed), its RWB writes staged, whether a boot copy has been saved at this module reset, and the
warm sections with their bytes for that copy; the mark being programmed (device and byte of the mark area); the stamp of the write that started
a warm reboot (R442). -/
structure Boot where
  stage : BootStage
  todo : List Section
  entry : Nat
  decls : List (Nat × Nat × Nat)
  warm : Bool
  fromStaged : Bool
  attempts : Nat
  staged : List (Nat × W32)
  /-- Staged values that the next tick puts into effect (R441). -/
  due : List (Nat × W32)
  saved : Bool
  copy : List Byte
  manifest : List Byte
  marking : Option (Nat × Nat)
  warmAt : Option Nat
  /-- The two flash devices from offset 0; beyond what is listed a byte reads 0xFF (log entry 14). -/
  flash : List (List Byte)
  deriving DecidableEq, Repr

def Boot.zero : Boot :=
  { stage := .selfTest, todo := [], entry := 0, decls := [], warm := false, fromStaged := false, attempts := 0, staged := [], due := [], saved := false
    copy := [], manifest := [], marking := none, warmAt := none, flash := [[], []] }

/-- Barista pairs beside their core (R423 to R428): the cycle of the fault of a takeover under way and of its pair, whether what
that pair had in service has been returned, the cycle the watchdog restarted, and the cycle of a restore's write. -/
structure Pairs where
  faultAt : Option (Nat × Nat)
  returned : Bool
  wdogAt : Option Nat
  restoreAt : Option Nat
  deriving DecidableEq, Repr

def Pairs.zero : Pairs := { faultAt := none, returned := false, wdogAt := none, restoreAt := none }

end Sys2Proof.Machine
end

