-- ==== Sys2Proof/Machine/Keyed.lean ====
section
/-! DEFINITION. Lists of key and value pairs in rising key order. -/

namespace Sys2Proof.Machine

/-- The value a key has, if it is listed. -/
def kget {α : Type} : List (Nat × α) → Nat → Option α
  | [], _ => none
  | (k, v) :: rest, a => if k = a then some v else if a < k then none else kget rest a

/-- The list with a key's value set. -/
def kput {α : Type} : List (Nat × α) → Nat → α → List (Nat × α)
  | [], a, x => [(a, x)]
  | (k, v) :: rest, a, x =>
    if a < k then (a, x) :: (k, v) :: rest
    else if k = a then (a, x) :: rest
    else (k, v) :: kput rest a x

/-- The list without a key. -/
def kdel {α : Type} : List (Nat × α) → Nat → List (Nat × α)
  | [], _ => []
  | (k, v) :: rest, a => if k = a then rest else if a < k then (k, v) :: rest else (k, v) :: kdel rest a

end Sys2Proof.Machine
end

