-- ==== Sys2Proof/Machine/RegTable.lean ====
section
/-! DEFINITION. The memory-mapped registers of the control-register region (R7, R8, R532): one name for each register
description of the spec, its offset from 0x0020_0000_0000, its indices, its fields with access code, reset value and the
values that are not reserved (R13). -/

namespace Sys2Proof

/-- The access codes (R8). -/
inductive Acc
  | ro | rw | wo | w1c | rc | rwb
  deriving DecidableEq, Repr

/-- One field: bits [hi:lo], access code, reset value, and the listed values as ranges (none listed: every value). -/
structure Field where
  hi : Nat
  lo : Nat
  acc : Acc
  rst : Nat
  legal : List (Nat × Nat)
  deriving DecidableEq, Repr

/-- One register description: offset of its first instance, two index ranges with their strides, and its fields. -/
structure RegRow where
  base : Nat
  n1 : Nat
  s1 : Nat
  n2 : Nat
  s2 : Nat
  fields : List Field
  deriving DecidableEq, Repr

/-- The register descriptions, by name. -/
inductive RegName
  | sysId | sysRev | sysSerialLo | sysSerialHi | sysFeat0 | sysFeat1 | sysFeat2 | sysFeat3
  | sysFeat4 | sysFeat5 | sysFeat6 | sysFeat7 | sysRsvdSticky | sysRsvdAddr | sysTamp | sysTampViol | sysSpareCmd
  | sysSpareStat | sysSpareMap | sysShed | sysCfail | sysLclass | orlMask | orlPend | orlInsvc
  | orlCoal | orlBclaim | orlCfg | orlPmask | orlPpend | orlPinsvc | orlPpria | orlPprib
  | orlPpric | orlHold | tmrSnapCmd | tmrSnapLo | tmrSnapHi | tmrGstart | tmrGrpStepl | tmrGrpSteph
  | tmrGrpCfg | tmrPinDir | tmrPinOut | tmrPinIn | tmrCapCfg | tmrCapLo | tmrCapHi | tmrCapStat
  | tmrPourCfg | tmrPourStat | tmrCtl | tmrCmpl | tmrCmph | tmrStat | tmrPctl | tmrPcmpl
  | tmrPcmph | tmrPstat | runErr | runIop | runIdl | runIdh | runIst | carErrStat
  | carErrAddr | carPartBase | carPartLim | carPartAcc | carDramScrub | carDramErr | carDramErrAddr | carBankA
  | carBankB | carBankLen | carFlipCmd | carPlaceSrc | carPlaceDst | carPlaceCmd | carPlaceStat | zwrCfg
  | zwrSeg | zwrTrain | zwrBudget | zwrRxstore | zwrTxstore | zwrTlead | zwrPstat | zwrTstat
  | zwrErr | zwrCrx | zwrCtxCmd | zwrGown | zwrPtpeLo | zwrPtpeHi | zwrEmacl | zwrEmach
  | zwrEip | zwrRoute | zwrMbox | crmCtl | crmCmd | crmCmdst | crmWbCfg | crmWbVf
  | crmWbArea | crmWbLen | crmWbStat | crmChCfg | crmChAmb | crmChScale | crmChRef | crmChTap
  | crmChThr | crmChLive | crmChNight | crmChUltra | crmChDly | crmChStat | crmChTrim | aptStat
  | aptEvacStat | aptFms | aptPortCfg | aptEvacCfg | aptEvout | aptDlyQ | aptDlyTab | barStat
  | barCfg | barWdogCfg | barWdogSvc | barWarm | barWarmImg | barBcopy | barBoot | barBootCmd
  | barCmd | barTsbr | barTsblim | barHvecExc | barHvecTkt | barWin | rkpStat | rkpOtp
  | rkpEpoch | rkpGen | rkpBlend | rkpCmd | rkpInLo | rkpInHi | rkpOutLo | rkpOutHi
  | rkpCst | pcxLcfg | pcxLstat | pcxGstat | pcxGaddr | pcxMsixFire | pcxH0wm | pcxMir
  | pcxApBase | pcxApCtl | pcxHrCfg | pcxHrAddrl | pcxHrAddrh | pcxHrPi | pcxHrCi | pcxHrStat
  | pwrStat | pwrTemp | pwrSleep | pwrWake | pwrLf | hltAlarm | hltAgeCfg | hltAge
  | hltCntCfg | hltCntVal | hltCntLast | hltCntThr | coreFeat0 | coreFeat1 | coreFeat2 | coreFeat3
  | coreAstat | coreDfault | coreDfaddr | coreCfg | coreRstat | corePbank | coreHvec | coreTsbr
  | coreTsblim | coreXstat | coreMpuBase | coreMpuLim
  deriving DecidableEq, Repr

/-- A field whose every value is listed or meaningful. -/
abbrev fd (hi lo : Nat) (a : Acc) (r : Nat) : Field := ⟨hi, lo, a, r, []⟩

/-- The description of each register, as its table in the spec gives it. -/
def regRow : RegName → RegRow
  | .sysId => ⟨0x0, 1, 0x0, 1, 0x0, [fd 31 20 .ro 0x5a3, fd 19 16 .ro 1, fd 15 0 .ro 0x8164]⟩   -- SYS_ID
  | .sysRev => ⟨0x4, 1, 0x0, 1, 0x0, [fd 15 8 .ro 2, fd 7 0 .ro 0]⟩   -- SYS_REV
  | .sysSerialLo => ⟨0x8, 1, 0x0, 1, 0x0, [fd 31 0 .ro 0]⟩   -- SYS_SERIAL_LO
  | .sysSerialHi => ⟨0xC, 1, 0x0, 1, 0x0, [fd 31 0 .ro 0]⟩   -- SYS_SERIAL_HI
  | .sysFeat0 => ⟨0x10, 1, 0x0, 1, 0x0, [fd 31 24 .ro 0x44, fd 23 16 .ro 0x40, fd 15 12 .ro 8, fd 11 8 .ro 4, fd 7 4 .ro 2]⟩   -- SYS_FEAT0
  | .sysFeat1 => ⟨0x14, 1, 0x0, 1, 0x0, [fd 31 24 .ro 0x20, fd 23 20 .ro 8, fd 19 16 .ro 4, fd 15 8 .ro 8, fd 7 4 .ro 1, fd 3 3 .ro 1, fd 2 2 .ro 1]⟩   -- SYS_FEAT1
  | .sysFeat2 => ⟨0x18, 1, 0x0, 1, 0x0, [fd 31 27 .ro 0x10, fd 26 16 .ro 0x400, fd 15 10 .ro 0x20, fd 9 5 .ro 0x10, fd 4 0 .ro 0x10]⟩   -- SYS_FEAT2
  | .sysFeat3 => ⟨0x1C, 1, 0x0, 1, 0x0, [fd 31 24 .ro 0x80, fd 23 20 .ro 2, fd 19 14 .ro 0x20, fd 13 8 .ro 0x20, fd 7 4 .ro 8, fd 3 3 .ro 1]⟩   -- SYS_FEAT3
  | .sysFeat4 => ⟨0x20, 1, 0x0, 1, 0x0, [fd 31 28 .ro 4, fd 27 20 .ro 0x40, fd 19 16 .ro 0xc, fd 15 12 .ro 0xf, fd 11 11 .ro 1, fd 10 10 .ro 1, fd 9 9 .ro 1]⟩   -- SYS_FEAT4
  | .sysFeat5 => ⟨0x24, 1, 0x0, 1, 0x0, [fd 31 26 .ro 0x20, fd 25 22 .ro 8, fd 21 17 .ro 0x1b, fd 16 12 .ro 0x10, fd 11 6 .ro 0x20, fd 5 2 .ro 8, fd 1 1 .ro 1, fd 0 0 .ro 1]⟩   -- SYS_FEAT5
  | .sysFeat6 => ⟨0x28, 1, 0x0, 1, 0x0, [fd 31 28 .ro 6, fd 27 24 .ro 8, fd 23 20 .ro 0xb, fd 19 19 .ro 1, fd 18 18 .ro 1, fd 17 17 .ro 1, fd 16 16 .ro 1, fd 11 8 .ro 4, fd 7 7 .ro 1, fd 6 6 .ro 1, fd 5 5 .ro 1, fd 4 4 .ro 1]⟩   -- SYS_FEAT6
  | .sysFeat7 => ⟨0x2C, 1, 0x0, 1, 0x0, []⟩   -- SYS_FEAT7
  | .sysRsvdSticky => ⟨0x40, 1, 0x0, 1, 0x0, [fd 3 2 .ro 0, fd 1 1 .w1c 0, fd 0 0 .w1c 0]⟩   -- SYS_RSVD_STICKY
  | .sysRsvdAddr => ⟨0x44, 1, 0x0, 1, 0x0, [fd 31 2 .ro 0]⟩   -- SYS_RSVD_ADDR
  | .sysTamp => ⟨0x50, 1, 0x0, 1, 0x0, [fd 0 0 .rwb 0]⟩   -- SYS_TAMP
  | .sysTampViol => ⟨0x54, 1, 0x0, 1, 0x0, [fd 31 8 .ro 0, fd 3 2 .ro 0, fd 1 1 .w1c 0, fd 0 0 .w1c 0]⟩   -- SYS_TAMP_VIOL
  | .sysSpareCmd => ⟨0x60, 1, 0x0, 1, 0x0, [⟨7, 6, .wo, 0, [(0, 2)]⟩, fd 5 0 .wo 0]⟩   -- SYS_SPARE_CMD
  | .sysSpareStat => ⟨0x64, 1, 0x0, 1, 0x0, [fd 27 24 .ro 0, fd 23 23 .ro 0, fd 22 20 .ro 0, fd 19 17 .ro 0, fd 16 16 .w1c 0]⟩   -- SYS_SPARE_STAT
  | .sysSpareMap => ⟨0x68, 1, 0x0, 1, 0x0, [fd 31 31 .ro 0, fd 29 24 .ro 0, fd 23 23 .ro 0, fd 21 16 .ro 0, fd 15 15 .ro 0, fd 13 8 .ro 0, fd 7 7 .ro 0, fd 5 0 .ro 0]⟩   -- SYS_SPARE_MAP
  | .sysShed => ⟨0x6C, 1, 0x0, 1, 0x0, [fd 2 0 .rw 0]⟩   -- SYS_SHED
  | .sysCfail => ⟨0x70, 3, 0x4, 1, 0x0, [fd 31 0 .ro 0]⟩   -- SYS_CFAILk
  | .sysLclass => ⟨0x80, 8, 0x4, 1, 0x0, [fd 30 28 .rwb 0, fd 26 24 .rwb 0, fd 22 20 .rwb 0, fd 18 16 .rwb 0, fd 14 12 .rwb 0, fd 10 8 .rwb 0, fd 6 4 .rwb 0, fd 2 0 .rwb 0]⟩   -- SYS_LCLASSk
  | .orlMask => ⟨0x10100, 32, 0x4, 1, 0x0, [fd 31 0 .rw 0xffffffff]⟩   -- ORL_MASKk
  | .orlPend => ⟨0x10200, 32, 0x4, 1, 0x0, [fd 31 0 .rw 0]⟩   -- ORL_PENDk
  | .orlInsvc => ⟨0x10300, 32, 0x4, 1, 0x0, [fd 31 0 .w1c 0]⟩   -- ORL_INSVCk
  | .orlCoal => ⟨0x10400, 16, 0x4, 1, 0x0, [⟨31, 24, .rw, 1, [(1, 255)]⟩, fd 15 0 .rw 0]⟩   -- ORL_COALj
  | .orlBclaim => ⟨0x10500, 1, 0x0, 1, 0x0, [fd 19 16 .rc 0, fd 10 0 .rc 0x7ff]⟩   -- ORL_BCLAIM
  | .orlCfg => ⟨0x11000, 1024, 0x4, 1, 0x0, [fd 17 14 .rw 0, ⟨13, 7, .rw, 0x40, [(0, 64)]⟩, fd 6 3 .rw 0, ⟨2, 0, .rw, 2, [(0, 4)]⟩]⟩   -- ORL_CFGn
  | .orlPmask => ⟨0x12000, 68, 0x40, 1, 0x0, [fd 31 16 .rw 0xffff, fd 3 0 .rw 0xf]⟩   -- ORL_PMASKp
  | .orlPpend => ⟨0x12004, 68, 0x40, 1, 0x0, [fd 31 16 .rw 0, fd 3 0 .rw 0]⟩   -- ORL_PPENDp
  | .orlPinsvc => ⟨0x12008, 68, 0x40, 1, 0x0, [fd 31 16 .w1c 0, fd 3 0 .w1c 0]⟩   -- ORL_PINSVCp
  | .orlPpria => ⟨0x12010, 68, 0x40, 1, 0x0, [fd 15 0 .rw 0]⟩   -- ORL_PPRIAp
  | .orlPprib => ⟨0x12018, 68, 0x40, 1, 0x0, [fd 31 0 .rw 0]⟩   -- ORL_PPRIBp
  | .orlPpric => ⟨0x1201C, 68, 0x40, 1, 0x0, [fd 31 0 .rw 0]⟩   -- ORL_PPRICp
  | .orlHold => ⟨0x12020, 68, 0x40, 1, 0x0, [fd 12 8 .ro 0x1f, fd 0 0 .rw 1]⟩   -- ORL_HOLDp
  | .tmrSnapCmd => ⟨0x20000, 1, 0x0, 1, 0x0, [⟨9, 8, .wo, 0, [(0, 2)]⟩, ⟨7, 0, .wo, 0, [(0, 135)]⟩]⟩   -- TMR_SNAP_CMD
  | .tmrSnapLo => ⟨0x20010, 3, 0x10, 1, 0x0, [fd 31 0 .ro 0]⟩   -- TMR_SNAPs_LO
  | .tmrSnapHi => ⟨0x20014, 3, 0x10, 1, 0x0, [fd 31 0 .ro 0]⟩   -- TMR_SNAPs_HI
  | .tmrGstart => ⟨0x20040, 1, 0x0, 1, 0x0, [fd 7 0 .wo 0]⟩   -- TMR_GSTART
  | .tmrGrpStepl => ⟨0x20080, 8, 0x10, 1, 0x0, [fd 31 0 .rw 0]⟩   -- TMR_GRPg_STEPL
  | .tmrGrpSteph => ⟨0x20084, 8, 0x10, 1, 0x0, [fd 15 0 .rw 0]⟩   -- TMR_GRPg_STEPH
  | .tmrGrpCfg => ⟨0x20088, 8, 0x10, 1, 0x0, [fd 0 0 .rw 0]⟩   -- TMR_GRPg_CFG
  | .tmrPinDir => ⟨0x20100, 1, 0x0, 1, 0x0, [fd 31 0 .rw 0]⟩   -- TMR_PIN_DIR
  | .tmrPinOut => ⟨0x20104, 1, 0x0, 1, 0x0, [fd 31 0 .rw 0]⟩   -- TMR_PIN_OUT
  | .tmrPinIn => ⟨0x20108, 1, 0x0, 1, 0x0, [fd 31 0 .ro 0]⟩   -- TMR_PIN_IN
  | .tmrCapCfg => ⟨0x20200, 32, 0x10, 1, 0x0, [fd 7 7 .rw 0, fd 6 5 .rw 0, fd 4 0 .rw 0]⟩   -- TMR_CAPc_CFG
  | .tmrCapLo => ⟨0x20204, 32, 0x10, 1, 0x0, [fd 31 0 .ro 0]⟩   -- TMR_CAPc_LO
  | .tmrCapHi => ⟨0x20208, 32, 0x10, 1, 0x0, [fd 31 0 .ro 0]⟩   -- TMR_CAPc_HI
  | .tmrCapStat => ⟨0x2020C, 32, 0x10, 1, 0x0, [fd 2 2 .w1c 0, fd 1 1 .ro 0, fd 0 0 .ro 0]⟩   -- TMR_CAPc_STAT
  | .tmrPourCfg => ⟨0x20F00, 1, 0x0, 1, 0x0, [⟨5, 4, .rwb, 1, [(0, 2)]⟩, ⟨3, 1, .rwb, 2, [(0, 4)]⟩, fd 0 0 .rwb 0]⟩   -- TMR_POUR_CFG
  | .tmrPourStat => ⟨0x20F04, 1, 0x0, 1, 0x0, [fd 31 24 .ro 0x7f, fd 23 8 .ro 0, fd 3 3 .w1c 0, fd 2 2 .w1c 0, fd 1 0 .ro 0]⟩   -- TMR_POUR_STAT
  | .tmrCtl => ⟨0x21000, 128, 0x20, 1, 0x0, [fd 31 31 .rw 0, fd 30 30 .rw 0, fd 29 29 .rw 0, ⟨28, 27, .rw, 0, [(0, 2)]⟩, fd 26 26 .rw 0, fd 25 23 .rw 0, fd 22 18 .rw 0, fd 17 16 .rw 0, fd 15 14 .rw 0, fd 13 13 .rw 0, fd 12 0 .rw 0]⟩   -- TMR_CTLn
  | .tmrCmpl => ⟨0x21004, 128, 0x20, 1, 0x0, [fd 31 0 .rw 0]⟩   -- TMR_CMPLn
  | .tmrCmph => ⟨0x21008, 128, 0x20, 1, 0x0, [fd 15 0 .rw 0]⟩   -- TMR_CMPHn
  | .tmrStat => ⟨0x2100C, 128, 0x20, 1, 0x0, [fd 2 2 .ro 0, fd 1 1 .w1c 0, fd 0 0 .w1c 0]⟩   -- TMR_STATn
  | .tmrPctl => ⟨0x22000, 136, 0x20, 1, 0x0, [fd 31 31 .rw 0, fd 30 30 .rw 0, fd 29 29 .rw 0, ⟨28, 27, .rw, 0, [(0, 1)]⟩, fd 13 13 .rw 0, fd 12 0 .rw 0]⟩   -- TMR_PCTL
  | .tmrPcmpl => ⟨0x22004, 136, 0x20, 1, 0x0, [fd 31 0 .rw 0]⟩   -- TMR_PCMPL
  | .tmrPcmph => ⟨0x22008, 136, 0x20, 1, 0x0, [fd 15 0 .rw 0]⟩   -- TMR_PCMPH
  | .tmrPstat => ⟨0x2200C, 136, 0x20, 1, 0x0, [fd 2 2 .ro 0, fd 1 1 .w1c 0, fd 0 0 .w1c 0]⟩   -- TMR_PSTAT
  | .runErr => ⟨0x30010, 1, 0x0, 1, 0x0, [fd 31 16 .ro 0, fd 11 8 .ro 0, fd 1 1 .w1c 0, fd 0 0 .w1c 0]⟩   -- RUN_ERR
  | .runIop => ⟨0x30100, 2, 0x10, 1, 0x0, [fd 31 31 .wo 0, fd 15 0 .wo 0]⟩   -- RUN_IOPs
  | .runIdl => ⟨0x30104, 2, 0x10, 1, 0x0, [fd 31 0 .rw 0]⟩   -- RUN_IDLs
  | .runIdh => ⟨0x30108, 2, 0x10, 1, 0x0, [fd 15 0 .rw 0]⟩   -- RUN_IDHs
  | .runIst => ⟨0x3010C, 2, 0x10, 1, 0x0, [fd 7 7 .ro 0, fd 6 4 .ro 0]⟩   -- RUN_ISTs
  | .carErrStat => ⟨0x40010, 1, 0x0, 1, 0x0, [fd 31 16 .rc 0, fd 11 4 .ro 0, fd 3 3 .ro 0, fd 1 1 .w1c 0, fd 0 0 .w1c 0]⟩   -- CAR_ERR_STAT
  | .carErrAddr => ⟨0x40014, 1, 0x0, 1, 0x0, [fd 24 3 .ro 0]⟩   -- CAR_ERR_ADDR
  | .carPartBase => ⟨0x40100, 32, 0x10, 1, 0x0, [fd 24 12 .rwb 0]⟩   -- CAR_PART_BASEn
  | .carPartLim => ⟨0x40104, 32, 0x10, 1, 0x0, [fd 24 12 .rwb 0, fd 0 0 .rwb 0]⟩   -- CAR_PART_LIMn
  | .carPartAcc => ⟨0x40108, 32, 0x10, 1, 0x0, [fd 15 8 .rwb 0, fd 7 0 .rwb 0]⟩   -- CAR_PART_ACCn
  | .carDramScrub => ⟨0x40400, 1, 0x0, 1, 0x0, [⟨2, 0, .rw, 2, [(0, 4)]⟩]⟩   -- CAR_DRAM_SCRUB
  | .carDramErr => ⟨0x40410, 1, 0x0, 1, 0x0, [fd 31 16 .rc 0, fd 7 4 .ro 0, fd 1 1 .w1c 0, fd 0 0 .w1c 0]⟩   -- CAR_DRAM_ERR
  | .carDramErrAddr => ⟨0x40414, 1, 0x0, 1, 0x0, [fd 26 0 .ro 0]⟩   -- CAR_DRAM_ERR_ADDR
  | .carBankA => ⟨0x40800, 64, 0x10, 1, 0x0, [fd 24 12 .rwb 0, fd 0 0 .rwb 0]⟩   -- CAR_BANKk_A
  | .carBankB => ⟨0x40804, 64, 0x10, 1, 0x0, [fd 24 12 .rwb 0]⟩   -- CAR_BANKk_B
  | .carBankLen => ⟨0x40808, 64, 0x10, 1, 0x0, [fd 18 18 .ro 0, fd 17 17 .ro 0, fd 16 16 .ro 0, fd 12 0 .rwb 0]⟩   -- CAR_BANKk_LEN
  | .carFlipCmd => ⟨0x40C00, 1, 0x0, 1, 0x0, [fd 31 16 .wo 0, fd 15 15 .wo 0, fd 5 0 .wo 0]⟩   -- CAR_FLIP_CMD
  | .carPlaceSrc => ⟨0x40C10, 1, 0x0, 1, 0x0, [fd 31 26 .rw 0, fd 25 25 .rw 0, fd 24 0 .rw 0]⟩   -- CAR_PLACE_SRC
  | .carPlaceDst => ⟨0x40C14, 1, 0x0, 1, 0x0, [fd 31 26 .rw 0, fd 18 0 .rw 0]⟩   -- CAR_PLACE_DST
  | .carPlaceCmd => ⟨0x40C18, 1, 0x0, 1, 0x0, [fd 31 16 .wo 0, fd 15 0 .wo 0]⟩   -- CAR_PLACE_CMD
  | .carPlaceStat => ⟨0x40C1C, 1, 0x0, 1, 0x0, [fd 10 10 .w1c 0, fd 9 9 .w1c 0, fd 8 8 .w1c 0, fd 7 7 .w1c 0, fd 6 0 .ro 0]⟩   -- CAR_PLACE_STAT
  | .zwrCfg => ⟨0x50000, 1, 0x0, 1, 0x0, [fd 5 4 .rwb 0, fd 3 3 .rwb 0, fd 2 2 .rwb 0, fd 1 1 .rwb 0, fd 0 0 .rwb 0]⟩   -- ZWR_CFG
  | .zwrSeg => ⟨0x50010, 2, 0x20, 1, 0x0, [fd 31 20 .rwb 0, fd 19 14 .rwb 0, fd 13 8 .rwb 0, fd 7 4 .rwb 0]⟩   -- ZWR_SEGr
  | .zwrTrain => ⟨0x50014, 2, 0x20, 1, 0x0, [fd 24 16 .rwb 0, fd 15 0 .rwb 0]⟩   -- ZWR_TRAINr
  | .zwrBudget => ⟨0x50018, 2, 0x20, 1, 0x0, [fd 31 16 .rwb 0x10, fd 15 0 .rwb 0]⟩   -- ZWR_BUDGETr
  | .zwrRxstore => ⟨0x5001C, 2, 0x20, 1, 0x0, [fd 24 12 .rwb 0]⟩   -- ZWR_RXSTOREr
  | .zwrTxstore => ⟨0x50020, 2, 0x20, 1, 0x0, [fd 24 12 .rwb 0]⟩   -- ZWR_TXSTOREr
  | .zwrTlead => ⟨0x50024, 2, 0x20, 1, 0x0, [fd 31 31 .rwb 1, fd 29 24 .rwb 0, fd 23 23 .rwb 0, fd 21 16 .rwb 0, fd 15 15 .rwb 0, fd 13 8 .rwb 0, fd 7 7 .rwb 0, fd 5 0 .rwb 0]⟩   -- ZWR_TLEADr
  | .zwrPstat => ⟨0x50100, 4, 0x4, 1, 0x0, [fd 31 16 .ro 0, fd 7 7 .ro 0, fd 6 6 .ro 0, fd 5 3 .ro 0, fd 2 2 .ro 0, fd 1 1 .w1c 0]⟩   -- ZWR_PSTATp
  | .zwrTstat => ⟨0x50120, 2, 0x4, 1, 0x0, [fd 31 26 .ro 0, fd 25 25 .ro 0, fd 24 17 .ro 0xff, fd 16 16 .ro 0]⟩   -- ZWR_TSTATr
  | .zwrErr => ⟨0x50130, 1, 0x0, 1, 0x0, [fd 31 14 .ro 0, fd 13 12 .ro 0, fd 11 8 .ro 0, fd 1 1 .w1c 0, fd 0 0 .w1c 0]⟩   -- ZWR_ERR
  | .zwrCrx => ⟨0x50140, 1, 0x0, 1, 0x0, [fd 19 12 .rwb 0, fd 11 6 .ro 0, fd 5 0 .rw 0]⟩   -- ZWR_CRX
  | .zwrCtxCmd => ⟨0x50144, 1, 0x0, 1, 0x0, [fd 1 1 .wo 0, fd 0 0 .wo 0]⟩   -- ZWR_CTX_CMD
  | .zwrGown => ⟨0x50200, 2, 0x100, 64, 0x4, [fd 31 31 .rwb 0, fd 29 24 .rwb 0, fd 23 23 .rwb 0, fd 21 16 .rwb 0, fd 15 15 .rwb 0, fd 13 8 .rwb 0, fd 7 7 .rwb 0, fd 5 0 .rwb 0]⟩   -- ZWR_GOWNr_w
  | .zwrPtpeLo => ⟨0x50400, 1, 0x0, 1, 0x0, [fd 31 0 .rw 0]⟩   -- ZWR_PTPE_LO
  | .zwrPtpeHi => ⟨0x50404, 1, 0x0, 1, 0x0, [fd 31 0 .rw 0]⟩   -- ZWR_PTPE_HI
  | .zwrEmacl => ⟨0x50410, 2, 0x10, 1, 0x0, [fd 31 0 .rwb 0]⟩   -- ZWR_EMACL
  | .zwrEmach => ⟨0x50414, 2, 0x10, 1, 0x0, [fd 15 0 .rwb 0]⟩   -- ZWR_EMACH
  | .zwrEip => ⟨0x50418, 2, 0x10, 1, 0x0, [fd 31 0 .rwb 0]⟩   -- ZWR_EIP
  | .zwrRoute => ⟨0x54000, 2, 0x4000, 4096, 0x4, [fd 31 31 .rwb 0, fd 6 6 .rwb 0, fd 5 0 .rwb 0]⟩   -- ZWR_ROUTEr_s
  | .zwrMbox => ⟨0x5C000, 4096, 0x4, 1, 0x0, [fd 31 31 .rwb 0, fd 30 30 .rwb 0, fd 29 12 .rwb 0, fd 11 0 .rwb 0]⟩   -- ZWR_MBOXm
  | .crmCtl => ⟨0x60000, 1, 0x0, 1, 0x0, [fd 24 12 .rwb 0, fd 0 0 .rwb 0]⟩   -- CRM_CTL
  | .crmCmd => ⟨0x60010, 1, 0x0, 1, 0x0, [⟨31, 28, .wo, 0, [(1, 6)]⟩, fd 10 8 .wo 0, fd 4 0 .wo 0]⟩   -- CRM_CMD
  | .crmCmdst => ⟨0x60014, 1, 0x0, 1, 0x0, [fd 2 0 .ro 0]⟩   -- CRM_CMDST
  | .crmWbCfg => ⟨0x60800, 8, 0x20, 1, 0x0, [fd 31 27 .rw 0, ⟨26, 22, .rw, 0xc, [(0, 16)]⟩, ⟨21, 16, .rw, 6, [(2, 32)]⟩, fd 15 8 .rw 0xd, fd 7 0 .rw 6]⟩   -- CRM_WBw_CFG
  | .crmWbVf => ⟨0x60804, 8, 0x20, 1, 0x0, [fd 16 16 .rw 0, fd 15 0 .rw 0xa8f6]⟩   -- CRM_WBw_VF
  | .crmWbArea => ⟨0x60808, 8, 0x20, 1, 0x0, [fd 24 12 .rwb 0]⟩   -- CRM_WBw_AREA
  | .crmWbLen => ⟨0x6080C, 8, 0x20, 1, 0x0, [fd 15 0 .rw 0]⟩   -- CRM_WBw_LEN
  | .crmWbStat => ⟨0x60810, 8, 0x20, 1, 0x0, [fd 2 2 .w1c 0, fd 1 1 .w1c 0, fd 0 0 .ro 0]⟩   -- CRM_WBw_STAT
  | .crmChCfg => ⟨0x61000, 32, 0x40, 1, 0x0, [fd 31 31 .rwb 0, fd 30 30 .rwb 0, fd 29 29 .rwb 0, fd 12 0 .rwb 0]⟩   -- CRM_CHc_CFG
  | .crmChAmb => ⟨0x61004, 32, 0x40, 1, 0x0, [fd 31 31 .rwb 0, fd 24 16 .rwb 0, fd 7 0 .rw 0]⟩   -- CRM_CHc_AMB
  | .crmChScale => ⟨0x61008, 32, 0x40, 1, 0x0, [fd 31 16 .rwb 0, fd 15 0 .rwb 0]⟩   -- CRM_CHc_SCALE
  | .crmChRef => ⟨0x6100C, 32, 0x40, 1, 0x0, [fd 31 0 .rw 0]⟩   -- CRM_CHc_REF
  | .crmChTap => ⟨0x61010, 32, 0x40, 1, 0x0, [fd 31 16 .rw 0, fd 9 0 .rw 0]⟩   -- CRM_CHc_TAP
  | .crmChThr => ⟨0x61014, 32, 0x40, 1, 0x0, [fd 31 28 .rw 4, ⟨27, 24, .rw, 4, [(1, 15)]⟩, fd 23 20 .rw 2, fd 19 16 .rw 1, fd 15 10 .rw 0x10, fd 9 0 .rw 0xa]⟩   -- CRM_CHc_THR
  | .crmChLive => ⟨0x61018, 32, 0x40, 1, 0x0, [fd 27 24 .rw 0, ⟨12, 0, .rw, 0x400, [(64, 8191)]⟩]⟩   -- CRM_CHc_LIVE
  | .crmChNight => ⟨0x6101C, 32, 0x40, 1, 0x0, [fd 31 24 .rw 0x6e, ⟨23, 18, .rw, 0xa, [(6, 63)]⟩, ⟨13, 0, .rw, 0x753, [(1, 11250)]⟩]⟩   -- CRM_CHc_NIGHT
  | .crmChUltra => ⟨0x61020, 32, 0x40, 1, 0x0, [⟨23, 18, .rw, 0x1e, [(12, 63)]⟩, ⟨13, 0, .rw, 0x177, [(0, 11250)]⟩]⟩   -- CRM_CHc_ULTRA
  | .crmChDly => ⟨0x61024, 32, 0x40, 1, 0x0, [fd 31 16 .rwb 0x3e8, fd 9 0 .rwb 0]⟩   -- CRM_CHc_DLY
  | .crmChStat => ⟨0x61028, 32, 0x40, 1, 0x0, [fd 31 30 .ro 0, fd 29 18 .ro 0, fd 17 2 .ro 0, fd 1 1 .w1c 0, fd 0 0 .w1c 0]⟩   -- CRM_CHc_STAT
  | .crmChTrim => ⟨0x6102C, 32, 0x40, 1, 0x0, [fd 31 24 .ro 0, fd 23 16 .ro 0, fd 15 8 .ro 0, fd 7 0 .ro 0]⟩   -- CRM_CHc_TRIM
  | .aptStat => ⟨0x70010, 1, 0x0, 1, 0x0, [fd 31 16 .w1c 0, fd 15 0 .w1c 0]⟩   -- APT_STAT
  | .aptEvacStat => ⟨0x70014, 1, 0x0, 1, 0x0, [fd 15 8 .ro 0, fd 7 0 .ro 0]⟩   -- APT_EVAC_STAT
  | .aptFms => ⟨0x70020, 1, 0x0, 1, 0x0, [fd 28 16 .rwb 0, ⟨8, 0, .rwb, 0, [(0, 256)]⟩]⟩   -- APT_FMS
  | .aptPortCfg => ⟨0x70100, 16, 0x10, 1, 0x0, [fd 9 9 .rwb 0, fd 8 8 .rwb 0, fd 7 7 .rwb 0, fd 6 6 .rwb 0, fd 5 5 .rwb 0, fd 4 4 .rwb 0, fd 3 3 .rwb 0, ⟨2, 0, .rwb, 4, [(0, 4)]⟩]⟩   -- APT_PORTn_CFG
  | .aptEvacCfg => ⟨0x70200, 8, 0x10, 1, 0x0, [fd 31 31 .rwb 0, fd 30 30 .rwb 0, ⟨15, 8, .rwb, 8, [(1, 255)]⟩, fd 5 0 .rwb 0]⟩   -- APT_EVACe_CFG
  | .aptEvout => ⟨0x71000, 8, 0x100, 64, 0x4, [fd 31 31 .rwb 0, fd 29 29 .rwb 0, fd 12 0 .rwb 0]⟩   -- APT_EVOUTe_j
  | .aptDlyQ => ⟨0x72000, 256, 0x8, 1, 0x0, [fd 31 31 .rwb 0, fd 15 0 .rwb 0]⟩   -- APT_DLYs_Q
  | .aptDlyTab => ⟨0x72004, 256, 0x8, 1, 0x0, [fd 28 0 .rwb 0]⟩   -- APT_DLYs_TAB
  | .barStat => ⟨0x80000, 1, 0x0, 1, 0x0, [fd 31 24 .ro 0, fd 19 16 .ro 0, fd 8 8 .ro 0, fd 7 7 .ro 1, fd 6 6 .ro 0, fd 5 5 .ro 0, fd 4 4 .ro 0, fd 3 3 .ro 0, fd 2 2 .ro 0, fd 1 1 .ro 1, fd 0 0 .ro 0]⟩   -- BAR_STAT
  | .barCfg => ⟨0x80010, 1, 0x0, 1, 0x0, [⟨16, 8, .rwb, 0, [(0, 256)]⟩, ⟨5, 1, .rwb, 0x10, [(0, 16)]⟩, fd 0 0 .rwb 0]⟩   -- BAR_CFG
  | .barWdogCfg => ⟨0x80020, 1, 0x0, 1, 0x0, [⟨15, 0, .rwb, 0x2710, [(1, 65535)]⟩]⟩   -- BAR_WDOG_CFG
  | .barWdogSvc => ⟨0x80024, 1, 0x0, 1, 0x0, [fd 7 0 .wo 0]⟩   -- BAR_WDOG_SVC
  | .barWarm => ⟨0x80030, 1, 0x0, 1, 0x0, [fd 31 16 .wo 0, fd 0 0 .wo 0]⟩   -- BAR_WARM
  | .barWarmImg => ⟨0x80034, 1, 0x0, 1, 0x0, [fd 20 0 .rw 0]⟩   -- BAR_WARM_IMG
  | .barBcopy => ⟨0x80038, 1, 0x0, 1, 0x0, [fd 11 0 .rwb 0]⟩   -- BAR_BCOPY
  | .barBoot => ⟨0x80040, 1, 0x0, 1, 0x0, [fd 31 0 .ro 0]⟩   -- BAR_BOOT
  | .barBootCmd => ⟨0x80044, 1, 0x0, 1, 0x0, [fd 31 16 .wo 0, ⟨1, 0, .wo, 0, [(1, 2)]⟩]⟩   -- BAR_BOOT_CMD
  | .barCmd => ⟨0x80048, 1, 0x0, 1, 0x0, [fd 0 0 .wo 0]⟩   -- BAR_CMD
  | .barTsbr => ⟨0x80050, 1, 0x0, 1, 0x0, [fd 31 0 .rw 0x7fb00]⟩   -- BAR_TSBR
  | .barTsblim => ⟨0x80054, 1, 0x0, 1, 0x0, [fd 31 0 .rwb 0x7e600]⟩   -- BAR_TSBLIM
  | .barHvecExc => ⟨0x80058, 1, 0x0, 1, 0x0, [fd 19 0 .rwb 0xffe00]⟩   -- BAR_HVEC_EXC
  | .barHvecTkt => ⟨0x8005C, 1, 0x0, 1, 0x0, [fd 19 0 .rwb 0xfff00]⟩   -- BAR_HVEC_TKT
  | .barWin => ⟨0x80080, 8, 0x4, 1, 0x0, [fd 19 0 .rw 0]⟩   -- BAR_WINw
  | .rkpStat => ⟨0x90000, 1, 0x0, 1, 0x0, [fd 25 24 .ro 0, fd 23 16 .ro 0, fd 7 7 .ro 0, fd 6 6 .ro 0, fd 5 5 .ro 0, fd 4 4 .ro 0, fd 3 3 .ro 0, fd 2 2 .ro 0, fd 0 0 .ro 0]⟩   -- RKP_STAT
  | .rkpOtp => ⟨0x90004, 1, 0x0, 1, 0x0, [fd 31 23 .ro 0, fd 22 16 .ro 0, fd 15 12 .ro 0, fd 11 8 .ro 0, fd 7 6 .ro 0, fd 5 5 .ro 0, fd 1 0 .ro 0]⟩   -- RKP_OTP
  | .rkpEpoch => ⟨0x90010, 2, 0x4, 1, 0x0, [fd 31 0 .ro 0xffffffff]⟩   -- RKP_EPOCHr
  | .rkpGen => ⟨0x90018, 2, 0x4, 1, 0x0, [fd 31 16 .ro 0, fd 15 0 .ro 0]⟩   -- RKP_GENr
  | .rkpBlend => ⟨0x90020, 1, 0x0, 1, 0x0, [fd 20 0 .rwb 0]⟩   -- RKP_BLEND
  | .rkpCmd => ⟨0x90100, 3, 0x20, 1, 0x0, [⟨31, 24, .wo, 0, [(1, 3), (16, 18), (32, 34), (48, 49), (64, 65)]⟩, fd 15 0 .wo 0]⟩   -- RKP_CMDs
  | .rkpInLo => ⟨0x90104, 3, 0x20, 1, 0x0, [fd 31 0 .rw 0]⟩   -- RKP_IN_LO
  | .rkpInHi => ⟨0x90108, 3, 0x20, 1, 0x0, [fd 15 0 .rw 0]⟩   -- RKP_IN_HI
  | .rkpOutLo => ⟨0x9010C, 3, 0x20, 1, 0x0, [fd 31 0 .rw 0]⟩   -- RKP_OUT_LO
  | .rkpOutHi => ⟨0x90110, 3, 0x20, 1, 0x0, [fd 15 0 .rw 0]⟩   -- RKP_OUT_HI
  | .rkpCst => ⟨0x90114, 3, 0x20, 1, 0x0, [fd 7 7 .ro 0, fd 3 0 .ro 0]⟩   -- RKP_CSTs
  | .pcxLcfg => ⟨0xA0000, 1, 0x0, 1, 0x0, [fd 4 4 .rwb 0, ⟨3, 1, .rwb, 5, [(0, 5)]⟩, fd 0 0 .rwb 1]⟩   -- PCX_LCFG
  | .pcxLstat => ⟨0xA0004, 1, 0x0, 1, 0x0, [fd 11 11 .ro 0, fd 10 10 .ro 0, fd 9 9 .ro 0, fd 8 6 .ro 0, fd 5 2 .ro 0, fd 1 0 .ro 0]⟩   -- PCX_LSTAT
  | .pcxGstat => ⟨0xA0010, 1, 0x0, 1, 0x0, [fd 1 1 .w1c 0, fd 0 0 .w1c 0]⟩   -- PCX_GSTAT
  | .pcxGaddr => ⟨0xA0014, 1, 0x0, 1, 0x0, [fd 31 0 .ro 0]⟩   -- PCX_GADDR
  | .pcxMsixFire => ⟨0xA0020, 1, 0x0, 1, 0x0, [fd 9 0 .wo 0]⟩   -- PCX_MSIX_FIRE
  | .pcxH0wm => ⟨0xA0100, 16, 0x4, 1, 0x0, [fd 31 0 .rwb 0]⟩   -- PCX_H0WMk
  | .pcxMir => ⟨0xA0200, 32, 0x4, 1, 0x0, [fd 31 0 .rwb 0]⟩   -- PCX_MIRk
  | .pcxApBase => ⟨0xA0300, 16, 0x8, 1, 0x0, [fd 27 0 .rwb 0]⟩   -- PCX_APa_BASE
  | .pcxApCtl => ⟨0xA0304, 16, 0x8, 1, 0x0, [⟨25, 16, .rwb, 0, [(0, 512)]⟩, fd 2 2 .rwb 0, fd 1 1 .rwb 0, fd 0 0 .rwb 0]⟩   -- PCX_APa_CTL
  | .pcxHrCfg => ⟨0xA0400, 16, 0x20, 1, 0x0, [fd 31 31 .rw 0, fd 30 30 .rw 0, ⟨24, 20, .rw, 4, [(4, 16)]⟩, fd 15 0 .rw 0]⟩   -- PCX_HRj_CFG
  | .pcxHrAddrl => ⟨0xA0404, 16, 0x20, 1, 0x0, [fd 31 12 .rw 0]⟩   -- PCX_HR_ADDRL
  | .pcxHrAddrh => ⟨0xA0408, 16, 0x20, 1, 0x0, [fd 31 0 .rw 0]⟩   -- PCX_HR_ADDRH
  | .pcxHrPi => ⟨0xA040C, 16, 0x20, 1, 0x0, [fd 31 0 .rw 0]⟩   -- PCX_HR_PI
  | .pcxHrCi => ⟨0xA0410, 16, 0x20, 1, 0x0, [fd 31 0 .rw 0]⟩   -- PCX_HR_CI
  | .pcxHrStat => ⟨0xA0414, 16, 0x20, 1, 0x0, [fd 6 4 .ro 0, fd 3 0 .ro 0]⟩   -- PCX_HRj_STAT
  | .pwrStat => ⟨0xB0000, 1, 0x0, 1, 0x0, [fd 26 24 .ro 0, fd 23 23 .ro 0, fd 22 22 .ro 0, fd 21 21 .ro 0, fd 20 20 .ro 0, fd 19 19 .ro 0, fd 15 8 .ro 0, fd 7 7 .ro 0, fd 6 6 .ro 0, fd 5 5 .ro 0, fd 4 4 .ro 0, fd 3 3 .ro 0, fd 2 2 .ro 0, fd 1 1 .ro 0, fd 0 0 .ro 0]⟩   -- PWR_STAT
  | .pwrTemp => ⟨0xB0004, 1, 0x0, 1, 0x0, [fd 25 16 .ro 0, fd 9 0 .ro 0]⟩   -- PWR_TEMP
  | .pwrSleep => ⟨0xB0010, 1, 0x0, 1, 0x0, [fd 31 16 .wo 0, fd 0 0 .wo 0]⟩   -- PWR_SLEEP
  | .pwrWake => ⟨0xB0014, 1, 0x0, 1, 0x0, [fd 11 11 .rw 0, fd 10 10 .rw 0, fd 9 9 .rw 0, fd 8 1 .rw 0, fd 0 0 .rw 1]⟩   -- PWR_WAKE
  | .pwrLf => ⟨0xB0020, 1, 0x0, 1, 0x0, [fd 31 26 .ro 0, fd 25 20 .ro 0, fd 19 16 .ro 0, fd 1 1 .w1c 0, fd 0 0 .w1c 0]⟩   -- PWR_LF
  | .hltAlarm => ⟨0xC0010, 1, 0x0, 1, 0x0, [fd 31 0 .w1c 0]⟩   -- HLT_ALARM
  | .hltAgeCfg => ⟨0xC0020, 1, 0x0, 1, 0x0, [fd 31 16 .rw 0x1f4, fd 15 0 .rw 0x12c]⟩   -- HLT_AGE_CFG
  | .hltAge => ⟨0xC0100, 32, 0x4, 1, 0x0, [fd 31 30 .ro 0, fd 15 0 .ro 0]⟩   -- HLT_AGEi
  | .hltCntCfg => ⟨0xC1000, 32, 0x10, 1, 0x0, [⟨31, 24, .rw, 0, [(0, 22)]⟩, fd 23 12 .rw 0xfff, fd 11 0 .rw 0]⟩   -- HLT_CNTn_CFG
  | .hltCntVal => ⟨0xC1004, 32, 0x10, 1, 0x0, [fd 31 0 .ro 0]⟩   -- HLT_CNTn_VAL
  | .hltCntLast => ⟨0xC1008, 32, 0x10, 1, 0x0, [fd 31 0 .ro 0]⟩   -- HLT_CNTn_LAST
  | .hltCntThr => ⟨0xC100C, 32, 0x10, 1, 0x0, [fd 31 0 .rw 0]⟩   -- HLT_CNTn_THR
  | .coreFeat0 => ⟨0x400000, 68, 0x10000, 1, 0x0, [fd 31 24 .ro 2, fd 23 16 .ro 1, fd 15 12 .ro 8, fd 11 8 .ro 2, fd 7 4 .ro 4]⟩   -- CORE_FEAT0
  | .coreFeat1 => ⟨0x400004, 68, 0x10000, 1, 0x0, [fd 31 22 .ro 0x200, fd 21 14 .ro 0x80, fd 13 8 .ro 0x20, fd 7 3 .ro 0x10]⟩   -- CORE_FEAT1
  | .coreFeat2 => ⟨0x400008, 68, 0x10000, 1, 0x0, [fd 16 16 .ro 1, fd 15 15 .ro 1, fd 14 14 .ro 1, fd 13 13 .ro 1, fd 12 12 .ro 1, fd 11 11 .ro 1, fd 10 10 .ro 1, fd 9 9 .ro 1, fd 8 8 .ro 1, fd 7 7 .ro 1, fd 6 6 .ro 1, fd 5 5 .ro 1, fd 4 4 .ro 1, fd 3 3 .ro 1, fd 2 2 .ro 1, fd 1 1 .ro 1, fd 0 0 .ro 1]⟩   -- CORE_FEAT2
  | .coreFeat3 => ⟨0x40000C, 68, 0x10000, 1, 0x0, [fd 31 28 .ro 1, fd 27 24 .ro 2, fd 23 20 .ro 3, fd 19 16 .ro 6, fd 15 12 .ro 2]⟩   -- CORE_FEAT3
  | .coreAstat => ⟨0x400020, 68, 0x10000, 1, 0x0, [fd 5 2 .w1c 0, fd 1 1 .w1c 0, fd 0 0 .w1c 0]⟩   -- CORE_ASTAT
  | .coreDfault => ⟨0x400030, 68, 0x10000, 1, 0x0, [fd 31 16 .ro 0, fd 14 12 .ro 0, fd 11 8 .ro 0, fd 1 1 .w1c 0, fd 0 0 .w1c 0]⟩   -- CORE_DFAULT
  | .coreDfaddr => ⟨0x400034, 68, 0x10000, 1, 0x0, [fd 16 16 .ro 0, fd 15 0 .ro 0]⟩   -- CORE_DFADDR
  | .coreCfg => ⟨0x400040, 68, 0x10000, 1, 0x0, [fd 1 1 .rw 1, fd 0 0 .rw 0]⟩   -- CORE_CFG
  | .coreRstat => ⟨0x400044, 68, 0x10000, 1, 0x0, [fd 7 7 .w1c 0, fd 4 0 .ro 0]⟩   -- CORE_RSTAT
  | .corePbank => ⟨0x400048, 68, 0x10000, 1, 0x0, [fd 1 1 .rw 0, fd 0 0 .ro 0]⟩   -- CORE_PBANK
  | .coreHvec => ⟨0x400050, 68, 0x10000, 1, 0x0, [fd 31 16 .rwb 0xff00, fd 15 0 .rwb 0xfe00]⟩   -- CORE_HVEC
  | .coreTsbr => ⟨0x400054, 68, 0x10000, 1, 0x0, [fd 31 0 .rw 0x7fb00]⟩   -- CORE_TSBR
  | .coreTsblim => ⟨0x400058, 68, 0x10000, 1, 0x0, [fd 31 0 .rwb 0x7e600]⟩   -- CORE_TSBLIM
  | .coreXstat => ⟨0x40005C, 68, 0x10000, 1, 0x0, [fd 4 2 .ro 0, fd 0 0 .ro 0]⟩   -- CORE_XSTAT
  | .coreMpuBase => ⟨0x400100, 68, 0x10000, 16, 0x8, [fd 19 6 .rwb 0]⟩   -- CORE_MPU_BASEn
  | .coreMpuLim => ⟨0x400104, 68, 0x10000, 16, 0x8, [fd 19 6 .rwb 0, fd 2 2 .rwb 0, fd 1 1 .rwb 0, fd 0 0 .rwb 0]⟩   -- CORE_MPU_LIMn

/-- The registers of each block (R532). -/
def blockRegs : Nat → List RegName
  | 0 => [.sysId, .sysRev, .sysSerialLo, .sysSerialHi, .sysFeat0, .sysFeat1, .sysFeat2, .sysFeat3, .sysFeat4, .sysFeat5, .sysFeat6, .sysFeat7, .sysRsvdSticky, .sysRsvdAddr, .sysTamp, .sysTampViol, .sysSpareCmd, .sysSpareStat, .sysSpareMap, .sysShed, .sysCfail, .sysLclass]
  | 1 => [.orlMask, .orlPend, .orlInsvc, .orlCoal, .orlBclaim, .orlCfg, .orlPmask, .orlPpend, .orlPinsvc, .orlPpria, .orlPprib, .orlPpric, .orlHold]
  | 2 => [.tmrSnapCmd, .tmrSnapLo, .tmrSnapHi, .tmrGstart, .tmrGrpStepl, .tmrGrpSteph, .tmrGrpCfg, .tmrPinDir, .tmrPinOut, .tmrPinIn, .tmrCapCfg, .tmrCapLo, .tmrCapHi, .tmrCapStat, .tmrPourCfg, .tmrPourStat, .tmrCtl, .tmrCmpl, .tmrCmph, .tmrStat, .tmrPctl, .tmrPcmpl, .tmrPcmph, .tmrPstat]
  | 3 => [.runErr, .runIop, .runIdl, .runIdh, .runIst]
  | 4 => [.carErrStat, .carErrAddr, .carPartBase, .carPartLim, .carPartAcc, .carDramScrub, .carDramErr, .carDramErrAddr, .carBankA, .carBankB, .carBankLen, .carFlipCmd, .carPlaceSrc, .carPlaceDst, .carPlaceCmd, .carPlaceStat]
  | 5 => [.zwrCfg, .zwrSeg, .zwrTrain, .zwrBudget, .zwrRxstore, .zwrTxstore, .zwrTlead, .zwrPstat, .zwrTstat, .zwrErr, .zwrCrx, .zwrCtxCmd, .zwrGown, .zwrPtpeLo, .zwrPtpeHi, .zwrEmacl, .zwrEmach, .zwrEip, .zwrRoute, .zwrMbox]
  | 6 => [.crmCtl, .crmCmd, .crmCmdst, .crmWbCfg, .crmWbVf, .crmWbArea, .crmWbLen, .crmWbStat, .crmChCfg, .crmChAmb, .crmChScale, .crmChRef, .crmChTap, .crmChThr, .crmChLive, .crmChNight, .crmChUltra, .crmChDly, .crmChStat, .crmChTrim]
  | 7 => [.aptStat, .aptEvacStat, .aptFms, .aptPortCfg, .aptEvacCfg, .aptEvout, .aptDlyQ, .aptDlyTab]
  | 8 => [.barStat, .barCfg, .barWdogCfg, .barWdogSvc, .barWarm, .barWarmImg, .barBcopy, .barBoot, .barBootCmd, .barCmd, .barTsbr, .barTsblim, .barHvecExc, .barHvecTkt, .barWin]
  | 9 => [.rkpStat, .rkpOtp, .rkpEpoch, .rkpGen, .rkpBlend, .rkpCmd, .rkpInLo, .rkpInHi, .rkpOutLo, .rkpOutHi, .rkpCst]
  | 10 => [.pcxLcfg, .pcxLstat, .pcxGstat, .pcxGaddr, .pcxMsixFire, .pcxH0wm, .pcxMir, .pcxApBase, .pcxApCtl, .pcxHrCfg, .pcxHrAddrl, .pcxHrAddrh, .pcxHrPi, .pcxHrCi, .pcxHrStat]
  | 11 => [.pwrStat, .pwrTemp, .pwrSleep, .pwrWake, .pwrLf]
  | 12 => [.hltAlarm, .hltAgeCfg, .hltAge, .hltCntCfg, .hltCntVal, .hltCntLast, .hltCntThr]
  | 64 => [.coreFeat0, .coreFeat1, .coreFeat2, .coreFeat3, .coreAstat, .coreDfault, .coreDfaddr, .coreCfg, .coreRstat, .corePbank, .coreHvec, .coreTsbr, .coreTsblim, .coreXstat, .coreMpuBase, .coreMpuLim]
  | _ => []

/-- The reset value of one instance of a register. -/
def RegRow.reset (r : RegRow) : Nat := r.fields.foldr (fun f a => a + f.rst * 2 ^ f.lo) 0

/-- Which instance of a register an offset names, if one. -/
def RegRow.find (r : RegRow) (off : Nat) : Option (Nat × Nat) :=
  if off < r.base then none else
    let d := off - r.base
    let i := if r.s1 = 0 then 0 else min (d / r.s1) (r.n1 - 1)
    let e := d - r.s1 * i
    let j := if r.s2 = 0 then 0 else min (e / r.s2) (r.n2 - 1)
    if e = r.s2 * j then some (i, j) else none

/-- The register that an offset of the region names, if one (R14): block 64 + p is the CORE block of core p (R534). -/
def lookupReg (off : Nat) : Option (RegName × Nat × Nat) :=
  let b := off / 0x10000
  let k := if 64 ≤ b ∧ b < 132 then 64 else b
  (blockRegs k).findSome? fun n => ((regRow n).find off).map fun ij => (n, ij.1, ij.2)

/-- The offset of a register instance. -/
def regOff (n : RegName) (i j : Nat) : Nat := (regRow n).base + (regRow n).s1 * i + (regRow n).s2 * j

end Sys2Proof
end

