-- ==== Sys2Proof/Machine/RingState.lean ====
section
/-! DEFINITION. The state of the Zwiust ring and the Ethernet edge that its registers do not show (R303 to R345, R451, R452). -/

namespace Sys2Proof.Machine

/-- A key epoch: its number, the SBK generation that serves it, and the pour at which it starts (R451 to R453). -/
structure Epoch where
  num : Nat
  gen : Nat
  start : Nat
  deriving DecidableEq, Repr

/-- What the keep holds for one pair (R450, R452): SBK generations, newest first (number, first epoch, key), and the
previous, current and next epochs. -/
structure RingKeys where
  gens : List (Nat × Nat × List Byte)
  prev : Option Epoch
  cur : Option Epoch
  next : Option Epoch
  deriving DecidableEq, Repr

/-- The latest beacon of a port (R314, R333): its stamp, leader, steps and island flag. -/
structure Beacon where
  at' : Nat
  leader : Nat
  steps : Nat
  island : Bool
  deriving DecidableEq, Repr

/-- One port (R328 to R333): stamps of the last heartbeat, of its state's start, of the last verified link frame; the latest
beacon; t1 of a delay request outstanding; the measured delay in cycles; stamps of the last beacon, request and grant sent;
the cycle from which the line is free again after the last frame of unreserved time (R323). -/
structure RPort where
  lastBeat : Nat
  since : Nat
  linkOk : Option Nat
  beacon : Option Beacon
  req : Option Nat
  delay : Int
  beaconSent : Option Nat
  reqSent : Option Nat
  grantSent : Option Nat
  free : Nat
  deriving DecidableEq, Repr

def RPort.zero : RPort :=
  { lastBeat := 0, since := 0, linkOk := none, beacon := none, req := none, delay := 0, beaconSent := none
    reqSent := none, grantSent := none, free := 0 }

/-- A frame header (R307), with the reserved bits of W0 and W2 that a forwarding station leaves as they are (R308). -/
structure Hdr where
  typ : Nat
  ver : Nat
  west : Bool
  wrap : Bool
  hops : Nat
  res0 : Nat
  len : Nat
  src : Nat
  epoch : Nat
  aux : Nat
  dst : Nat
  scope : Nat
  res2 : Nat
  stamp : Nat
  ctr : Nat
  deriving DecidableEq, Repr

/-- A frame that waits for unreserved time (R323): class 0 transit control, 1 local control, 2 transit best-effort, 3 local
best-effort; the direction it is to leave in; whether it came through the gateway; header and payload (a transit frame's as
received, a local one's in the clear); the tag of a transit frame; and whether it is the Barista's transmit entry. -/
structure Held where
  cls : Nat
  west : Bool
  cross : Bool
  hdr : Hdr
  payload : List Byte
  tag : List Byte
  ctx : Bool
  deriving DecidableEq, Repr

/-- One pair: the next counter for each epoch and direction (2 × epoch + direction), tokens in wire bytes (control east and
west, best-effort east and west), recorded origin offsets, accepted groups (group and stamp), westbound copies accepted (group,
stamp and cycle), groups in a ramp, frames the head holds (ring cycle, group, direction) and frames waiting for unreserved time, forwarded realm frames (source, counter, pour), the pour of the last duplicate address, the
ring cycle of the last train sent in each direction, and whether the station has joined, is in an island, and follows an
upstream port (0 east, 1 west). -/
structure RPair where
  ctrs : List (Nat × Nat)
  tokens : List Nat
  origins : List (Option Nat)
  rx : List (Nat × Nat)
  fresh : List (Nat × Nat × Nat)
  missing : List Nat
  head : List (Nat × Nat × Bool × List Byte)
  held : List Held
  flood : List (Nat × Nat × Nat)
  dupAt : Option Nat
  trains : List (Option Nat)
  joined : Bool
  island : Bool
  upstream : Option Nat
  deriving DecidableEq, Repr

def RPair.zero : RPair :=
  { ctrs := [], tokens := List.replicate 4 0, origins := [none, none], rx := [], fresh := [], missing := [], head := [], held := []
    flood := [], dupAt := none, trains := [none, none], joined := false, island := false, upstream := none }

/-- What leaves on a port: a ring frame between a start block of type 0x78 and a terminate block, its bytes from the octets of the
start block on (R305); such a frame that an error block ends (R308); an Ethernet frame of the Barista; or a media packet of an edge
stream (first RTP timestamp and samples, channel by channel within each sample). -/
inductive WireOut
  | ring (port t : Nat) (bytes : List Byte)
  | cut (port t : Nat) (bytes : List Byte)
  | eth (port t : Nat) (bytes : List Byte)
  | rtp (stream t ts : Nat) (samples : List (BitVec 24))
  deriving DecidableEq, Repr

/-- A frame of reserved time on its way to its slot (R318): the cycle it leaves in, its port, its bytes, and whether it is whole. -/
structure Slotted where
  at' : Nat
  port : Nat
  bytes : List Byte
  whole : Bool
  deriving DecidableEq, Repr

/-- A PTP port (R343): its state, and its messages, newest first: the NTC stamp of an event message, whether the device sent it, and
its bytes. -/
structure PtpPort where
  state : PtpState
  log : List (Option Nat × Bool × List Byte)
  deriving DecidableEq, Repr

/-- The ring and the edge. `slots` are the frames of reserved time that have not left yet. Edge samples are kept by 4,096 × media index + edge channel; streams by their last packet and
whether their silence has been told; `e48lo` is a low half of E48 not yet in effect (R342). -/
structure Ring where
  ports : List RPort
  pairs : List RPair
  keys : List RingKeys
  out : List WireOut
  slots : List Slotted
  ptp : List PtpPort
  ctxBusy : Bool
  edgeRx : List (Nat × BitVec 24)
  edgeTx : List (Nat × BitVec 24)
  streams : List (Nat × Nat × Bool)
  streamNext : List (Nat × Nat)
  mailed : List (Nat × Nat)
  e48lo : BitVec 32
  deriving DecidableEq, Repr

def Ring.zero : Ring :=
  { ports := List.replicate 4 RPort.zero, pairs := List.replicate 2 RPair.zero
    keys := List.replicate 2 { gens := [], prev := none, cur := none, next := none }, out := [], slots := []
    ptp := List.replicate 2 { state := .initializing, log := [] }, ctxBusy := false
    edgeRx := [], edgeTx := [], streams := [], streamNext := [], mailed := [], e48lo := 0 }

end Sys2Proof.Machine
end

