-- ==== Sys2Proof/Machine/State.lean ====
section
/-! DEFINITION. The state of the BG8164 as plain data. -/

namespace Sys2Proof.Machine

/-- Why the machine stops. -/
inductive Fault
  /-- An input beyond the ratings of R512 and R523 (raised by INPUT_REVERSED and INPUT_OVERVOLTAGE): the spec gives no behaviour. Safe. -/
  | beyondRatings
  deriving DecidableEq, Repr

/-- Why a command has no meaning. -/
inductive Refusal
  /-- A row that has no meaning yet; raised by exec alone. Safe. -/
  | notModelled (mnemonic : String)
  deriving DecidableEq, Repr

/-- What an initiator's last access returned: the data, and whether it completed with an error response (R7, R531). -/
structure Resp where
  data : List Byte
  err : Bool
  deriving DecidableEq, Repr

/-- A shared source of the order rail (R237 to R241): the sampled level, the span of consecutive high cycles last pulsed, a
falling edge still to come, the held count c, the window end, the asynchronous edge latch, and the cycle in which a latch gave its
event (R240). -/
structure SrcSt where
  level : Bool
  span : Option (Nat × Nat)
  fall : Option Nat
  count : Nat
  winEnd : Option Nat
  latch : Bool
  latchAt : Option Nat
  deriving DecidableEq, Repr

def SrcSt.idle : SrcSt := { level := false, span := none, fall := none, count := 0, winEnd := none, latch := false, latchAt := none }

/-- A timer channel (R258 to R264): its count, the last cycle whose increment the count includes, the compare in effect,
the staged low half; the cycles of the last arming, the last commit, the last tick or pin edge it counts, and the last write of
arm = 0; and the cycle at whose end it is judged. Channels 0 to 127 are shared, 128 + 2p + i is channel i of core p. -/
structure Chan where
  count : Nat
  base : Nat
  cmp : Nat
  stage : Nat
  armAt : Option Nat
  commitAt : Option Nat
  incAt : Option Nat
  offAt : Option Nat
  todo : Option Nat
  deriving DecidableEq, Repr

def Chan.zero : Chan :=
  { count := 0, base := 0, cmp := 0, stage := 0, armAt := none, commitAt := none, incAt := none, offAt := none, todo := none }

/-- The values and flags of a capture unit (R272): V, S, new, pend and ovr. -/
structure CapVals where
  v : Nat
  s : Nat
  new : Bool
  pend : Bool
  ovr : Bool
  deriving DecidableEq, Repr

/-- A capture unit (R272): its values, H, the cycle of its last capture read, and its last event with the values before. -/
structure Capt where
  vals : CapVals
  h : Nat
  readAt : Option Nat
  lastEv : Option (Nat × CapVals)
  deriving DecidableEq, Repr

def Capt.zero : Capt :=
  { vals := { v := 0, s := 0, new := false, pend := false, ovr := false }, h := 0, readAt := none, lastEv := none }

/-- The state of a queue that its descriptor does not show (R281 to R293): items taken in this pour, the count at the tick,
for each queued item the cycle it became an item and whether it has been reported aged, the committed releases not yet copied
(pour and block address), and the store slot the Runner wrote last. -/
structure QueueSt where
  taken : Nat
  atTick : Nat
  born : List (Nat × Bool)
  committed : List (Nat × W48)
  lastSlot : Option Nat
  /-- The pours last forwarded from it and placed from it (R291, R292). -/
  fwd : Option Nat
  placed : Option Nat
  /-- The last enabling found the descriptor invalid; the cycle in which en is then cleared (R279). -/
  bad : Bool
  clearAt : Option Nat
  deriving DecidableEq, Repr

def QueueSt.empty : QueueSt :=
  { taken := 0, atTick := 0, born := [], committed := [], lastSlot := none, fwd := none
    placed := none, bad := false, clearAt := none }

/-- A register write waiting for the tick or the cycle at which it takes effect (R43, R160, R391, R485). -/
structure Deferred where
  off : Nat
  val : W32
  stamp : Nat
  /-- none: at the first tick after its stamp; some c: at cycle c. -/
  at' : Option Nat
  deriving DecidableEq, Repr

/-- A queue operation of the Barista or the host in progress (R297): queue, receive or send, the item sent, and for a send the
result of its judgement. -/
structure IOp where
  q : Nat
  recv : Bool
  item : W48
  result : Nat
  deriving DecidableEq, Repr

/-- A spare-core takeover in progress (R473): logical core, failing core, spare, first pour, pour of the map change, and
whether the copy is complete. -/
structure Takeover where
  l : Nat
  p : Nat
  s : Nat
  t0 : Nat
  m : Nat
  copied : Bool
  deriving DecidableEq, Repr

/-- The state. -/
structure State where
  pending : List Instr
  ntc : Nat
  tickMin : Option Nat
  lastTick : Option Nat
  stretch : Option (Nat × Nat)
  freeSeq : Nat
  regs : List (Nat × W32)
  /-- Bits of write-1-to-clear and read-clear registers that hardware set last, by offset: cycle and bits (R9). -/
  hwSet : List (Nat × Nat × Nat)
  /-- A cycle, and the values that registers had before writes on the control bus in it, by offset. -/
  regWas : Nat × List (Nat × W32)
  deferred : List Deferred
  mem : List Host.Cell
  memErr : List (Nat × Bool)
  /-- Bytes that the external ports, and that core stores, overwrote in one cycle: the cycle, and address and old byte of each
  (R185). -/
  extOld : Nat × List (Nat × Byte)
  coreOld : Nat × List (Nat × Byte)
  /-- Shadow writes still to repeat: standby pair, SRAM offset, bytes and cycle of the write (R420). -/
  shadowQ : List (Nat × Nat × List Byte × Nat)
  resps : List (Nat × Resp)
  cores : List Core
  baristas : List Core
  map : List (Option Nat)
  srcs : List (Nat × SrcSt)
  privSpan : List (Nat × Nat)
  /-- Per slice half (2 × slice + half): the requester granted last and the round of that grant (R201). -/
  carLast : List (Nat × Nat × Nat)
  chans : List (Nat × Chan)
  capts : List (Nat × Capt)
  /-- The level that is outside on each timer land, and the lands that an outside driver forces against the device's (R271). -/
  tpExt : BitVec 32
  tpForce : BitVec 32
  /-- Changes of TMR_PIN_OUT and TMR_PIN_DIR, newest first: cycle, OUT and DIR from that cycle on (R269). -/
  tpHist : List (Nat × W32 × W32)
  /-- The last channel action on each pin: cycle and rank (R270). -/
  pinActs : List (Nat × Nat × Nat)
  /-- The cycle of the last start of each group, and of its last start at a tick under key 8 + g (R267, R268). -/
  grpAt : List (Nat × Nat)
  /-- Snapshots of channel counts in a cycle not yet over: set, channel and cycle (R256). -/
  snaps : List (Nat × Nat × Nat)
  queues : List (Nat × QueueSt)
  iops : List (Nat × IOp)
  takeover : Option Takeover
  msixEn : Bool
  msixFm : Bool
  msix : List (Nat × Nat)
  msixPend : List Nat
  msixOut : List (Nat × Nat)
  ring : Ring
  /-- The offset of ring time at which a stretch is due (R41), until the tick that computes it. -/
  stretchOff : Option Int
  /-- The cycle in which ring time was lost, until Holdover starts in the next one (R42). -/
  lossAt : Option Nat
  crema : Crema
  audio : Audio
  keep : Keep
  boot : Boot
  pairs : Pairs
  pcie : Pcie
  power : Power
  service : Service
  /-- The site number of the device's identity record, which nothing here acts on (R26). -/
  site : BitVec 12
  deriving DecidableEq, Repr

/-- Registers whose value at reset their table does not give: the Barista windows (R414), the one-time programmable values
(R462, R537; log entry 13), the trims, and what the module measures (log entry 16). -/
def resetRegs : List (Nat × W32) :=
  let put (l : List (Nat × W32)) (n : RegName) (i v : Nat) : List (Nat × W32) := kput l (regOff n i 0) (BitVec.ofNat 32 v)
  let l := [0x200, 0x300, 0x100, 0x110, 0, 1, 2, 3].zipIdx.foldl (fun l x => put l .barWin x.2 x.1) []
  let l := (List.range 32).foldl (fun l c => put l .crmChTrim c (Config.roastTrim c).toNat) l
  let l := put (put l .sysSerialLo 0 (Config.otpWord 0)) .sysSerialHi 0 (Config.otpWord 1)
  let l := put l .rkpOtp 0 (Config.otpWord 2 - bitsOf (Config.otpWord 2) 2 3 * 4)
  let l := put l .pwrStat 0 (256 * (Config.measured 0 % 256))
  put l .pwrTemp 0 (0x10000 * (Config.measured 1 % 1024) + Config.measured 2 % 1024)

/-- The keep at reset, with what its one-time programmable storage holds (log entry 13). -/
def resetKeep : Keep :=
  { Keep.zero with
    serial := toBytesLE 8 (Config.otpWord 0 % 2 ^ 32 + 2 ^ 32 * Config.otpWord 1)
    slots := (List.range 4).map Config.otpKey
    dbgKey := Config.otpKey 4 }

/-- The machine right after reset. -/
def State.reset : State :=
  { pending := [], ntc := 0, tickMin := none, lastTick := none, stretch := none, freeSeq := 0
    regs := resetRegs, hwSet := [], regWas := (0, []), deferred := [], mem := [], memErr := [], extOld := (0, []), coreOld := (0, [])
    shadowQ := [], resps := [], cores := List.replicate 68 Core.reset, baristas := List.replicate 2 Core.reset
    map := (List.range 64).map some, srcs := [], privSpan := [], carLast := [], chans := [], capts := [], tpExt := 0, tpForce := 0
    tpHist := [], pinActs := [], grpAt := [], snaps := [], queues := [], iops := [], takeover := none, msixEn := false
    msixFm := false, msix := [], msixPend := [], msixOut := [], ring := Ring.zero, stretchOff := none, lossAt := none
    crema := Crema.zero, audio := Audio.zero, keep := resetKeep, boot := Boot.zero, pairs := Pairs.zero
    pcie := Pcie.zero, power := Power.zero, service := Service.zero, site := Config.site }

end Sys2Proof.Machine
end

