-- ==== Sys2Proof/Machine/Ops.lean ====
section
/-! DEFINITION. The named operations over state: keyed lists, registers, memory, free values, cores and time. -/

namespace Sys2Proof.Machine

/-! ### Memory: (address, byte) pairs, addresses strictly rising, no byte 0 listed (log entry 4) -/

/-- What an address that is not listed reads as (log entry 4: DESIGN CHOICE). -/
def memDefault : Byte := 0

/-- One byte. -/
def memGet (m : List Host.Cell) (a : Nat) : Byte := (kget m a).getD memDefault

/-- A byte written; writing the default removes the entry. -/
def memSet (m : List Host.Cell) (a : Nat) (b : Byte) : List Host.Cell :=
  if b = memDefault then kdel m a else kput m a b

/-- Bytes from an address up. -/
def memRead (m : List Host.Cell) (a : Nat) : Nat → List Byte
  | 0 => []
  | n + 1 => memGet m a :: memRead m (a + 1) n

/-- Bytes written from an address up. -/
def memWrite (m : List Host.Cell) : Nat → List Byte → List Host.Cell
  | _, [] => m
  | a, b :: bs => memWrite (memSet m a b) (a + 1) bs

/-- The canonical form from `lo` on. -/
def wfFrom : Nat → List Host.Cell → Bool
  | _, [] => true
  | lo, (k, v) :: rest => decide (lo ≤ k) && decide (v ≠ memDefault) && wfFrom (k + 1) rest

/-- The canonical form of memory. -/
def Memory.wf (m : List Host.Cell) : Bool := wfFrom 0 m

/-- A little-endian number in memory (R6). -/
def memNat (m : List Host.Cell) (a n : Nat) : Nat := ofBytesLE (memRead m a n)

/-! ### Registers -/

/-- The value a register instance holds: the one written last, or its reset value. -/
def State.reg (s : State) (n : RegName) (i : Nat := 0) (j : Nat := 0) : W32 :=
  (kget s.regs (regOff n i j)).getD (BitVec.ofNat 32 (regRow n).reset)

/-- The register instance set by hardware. -/
def State.setReg (s : State) (n : RegName) (v : W32) (i : Nat := 0) (j : Nat := 0) : State :=
  { s with regs := kput s.regs (regOff n i j) v }

/-- A field [hi:lo] of a register. -/
def State.fld (s : State) (n : RegName) (hi lo : Nat) (i : Nat := 0) (j : Nat := 0) : Nat :=
  fieldOf (s.reg n i j) hi lo

/-- A field [hi:lo] set by hardware. -/
def State.setFld (s : State) (n : RegName) (hi lo v : Nat) (i : Nat := 0) (j : Nat := 0) : State :=
  s.setReg n (withField (s.reg n i j) hi lo v) i j

/-- One bit of a register. -/
def State.bit (s : State) (n : RegName) (b : Nat) (i : Nat := 0) (j : Nat := 0) : Bool := bitOf (s.reg n i j).toNat b

/-- One bit set by hardware. -/
def State.setBit (s : State) (n : RegName) (b : Nat) (v : Bool) (i : Nat := 0) (j : Nat := 0) : State :=
  s.setFld n b b (ofBool v) i j

/-- Hardware sets bits of a register in cycle t; a clear by software in the same cycle leaves them set (R9). -/
def State.raise (s : State) (t : Nat) (n : RegName) (bits : Nat) (i : Nat := 0) (j : Nat := 0) : State :=
  let off := regOff n i j
  let old := match kget s.hwSet off with | some (c, b) => if c = t then b else 0 | none => 0
  let s' := s.setReg n (BitVec.ofNat 32 ((s.reg n i j).toNat ||| bits)) i j
  { s' with hwSet := kput s'.hwSet off (t, old ||| bits) }

/-- The bits of a register that hardware set in cycle t (R9). -/
def State.hwBits (s : State) (t off : Nat) : Nat :=
  match kget s.hwSet off with | some (c, b) => if c = t then b else 0 | none => 0

/-- The value of a register before what is noted of cycle t: writes on the control bus, and events of a read-clear count. -/
def State.regOld (s : State) (t : Nat) (n : RegName) (i : Nat := 0) (j : Nat := 0) : W32 :=
  match kget s.regWas.2 (regOff n i j) with
  | some v => if s.regWas.1 = t then v else s.reg n i j
  | none => s.reg n i j

def State.fldOld (s : State) (t : Nat) (n : RegName) (hi lo : Nat) (i : Nat := 0) (j : Nat := 0) : Nat :=
  fieldOf (s.regOld t n i j) hi lo

/-- The value of a register is noted before it changes in cycle t; the first of a cycle stands. -/
def State.noteReg (s : State) (t off : Nat) (v : W32) : State :=
  let l := if s.regWas.1 = t then s.regWas.2 else []
  { s with regWas := (t, if (kget l off).isSome then l else kput l off v) }

/-- The value noted for a register in cycle t is replaced. -/
def State.setNote (s : State) (t off : Nat) (v : W32) : State :=
  { s with regWas := (t, kput (if s.regWas.1 = t then s.regWas.2 else []) off v) }

/-- A first-event record in cycle t: while bit 0 (valid) is clear the word is taken and valid set, else multi (bit 1). A clear
of valid in the event's cycle leaves it set (R9); whether the event then finds valid still 1 is decided by the order of the queue
(log entry 66). -/
def State.record (s : State) (t : Nat) (n : RegName) (w : W32) (i : Nat := 0) : State :=
  if s.bit n 0 i then s.raise t n 3 i
  else (s.setReg n (BitVec.ofNat 32 ((w.toNat / 4 * 4) + (s.reg n i).toNat / 2 % 2 * 2)) i).raise t n 1 i

/-! ### Free values -/

/-- A free value of `w` bits: the next draw, with the counter advanced (log entry 5). -/
def State.free (s : State) (kind w : Nat) : Nat × State :=
  (Config.freeNat kind s.freeSeq % 2 ^ w, { s with freeSeq := s.freeSeq + 1 })

/-! ### Cores -/

/-- A core of the device; an index that names none gives the reset core. -/
def State.core (s : State) : CoreSel → Core
  | .eduno p => nth s.cores p Core.reset
  | .barista r => nth s.baristas r Core.reset

/-- The core replaced. -/
def State.setCore (s : State) (w : CoreSel) (c : Core) : State :=
  match w with
  | .eduno p => { s with cores := setNth s.cores p c }
  | .barista r => { s with baristas := setNth s.baristas r c }

/-- Whether a selector names a core of the device (R24, R413). -/
def selValid : CoreSel → Bool
  | .eduno p => decide (p < 68)
  | .barista r => decide (r < 2)

def selIsBar : CoreSel → Bool
  | .eduno _ => false
  | .barista _ => true

/-- The physical core that holds logical core l (R28). -/
def State.physOf (s : State) (l : Nat) : Option Nat := nth s.map l none

/-- The logical core that physical core p holds, if any (R28). -/
def logicalOf (m : List (Option Nat)) (p : Nat) : Option Nat :=
  (List.range m.length).find? fun l => nth m l none = some p

def State.lcoreOf (s : State) (p : Nat) : Option Nat := logicalOf s.map p

/-- The active Barista pair (BAR_STAT.active). -/
def State.activePair (s : State) : Nat := s.fld .barStat 0 0

/-- Whether a pair has failed (BAR_STAT.fail0, fail1). -/
def State.pairFailed (s : State) (r : Nat) : Bool := s.bit .barStat (2 + r)

/-- Whether there is a working active pair (R428). -/
def State.pairWorks (s : State) : Bool := !s.pairFailed s.activePair

/-- Whether the device is tamped (SYS_TAMP). -/
def State.tamped (s : State) : Bool := s.bit .sysTamp 0

/-- Rank of a running level: base below level 0, exception above 15 (R212). -/
def levelRank (l : Nat) : Nat := if l = 31 then 0 else l + 1

/-- A unit set of a core by mode (R221). -/
def unitsFor (c : Core) (sup : Bool) : UnitSet := if sup then c.setS else c.setU
def setUnits (c : Core) (sup : Bool) (u : UnitSet) : Core := if sup then { c with setS := u } else { c with setU := u }

/-! ### Time -/

/-- Core cycles in one pour (R36): rate 48, 96 or 192 kHz, size 1 to 16 samples. -/
def State.pourLen (s : State) : Nat :=
  32000 / 2 ^ (s.fld .tmrPourCfg 5 4) * 2 ^ (s.fld .tmrPourCfg 3 1)

/-- Samples in one pour (R36). -/
def State.pourSize (s : State) : Nat := 2 ^ (s.fld .tmrPourCfg 3 1)

/-- The pour of an event stamped t (R37). The cycles that a stretch adds belong to the pour that it lengthens (R41). -/
def State.pourAt (s : State) (t : Nat) : Nat :=
  match s.stretch, s.lastTick with
  | some _, some l => min t (l + s.pourLen - 1) / s.pourLen
  | _, _ => t / s.pourLen

/-- The current pour. -/
def State.pour (s : State) : Nat := s.pourAt s.ntc

/-- TMR_POUR_CFG as the first tick will have it (R43). -/
def withPourCfg (s : State) : State :=
  if s.lastTick.isSome then s else
    match (s.deferred.filter fun d => decide (d.off = regOff .tmrPourCfg 0 0)).getLast? with
    | some d => s.setReg .tmrPourCfg d.val
    | none => s

/-- A cycle of the old grid as the new grid numbers it, when old cycle `o` becomes `n`: what lies d cycles away still does. -/
def moved (o n x : Nat) : Nat := x + n - o

/-- The cycles that a core holds, the expiry of its receives apart. -/
def moveCore (f : Nat → Nat) (c : Core) : Core :=
  let load (l : CarLoad) : CarLoad := { l with at' := f l.at', grantAt := f l.grantAt, entered := f l.entered }
  let rcv (r : Rcv) : Rcv := { r with at' := f r.at' }
  { c with
    old := c.old.map fun b => { b with cycle := f b.cycle }
    bmove := c.bmove.map fun b => { b with start := f b.start }
    entering := c.entering.map fun e => { e with cycle0 := f e.cycle0, car := e.car.map load, rcv := e.rcv.map rcv }
    exit := c.exit.map fun x => { x with cycle0 := f x.cycle0 }
    carU := c.carU.map load, carS := c.carS.map load
    stbuf := c.stbuf.map fun e => { e with entered := f e.entered }
    rcvU := c.rcvU.map rcv, rcvS := c.rcvS.map rcv
    sends := c.sends.map fun x => { x with at' := f x.at' }
    readyAt := f c.readyAt, issuedAt := f c.issuedAt
    ovfAt := c.ovfAt.map f, eopAt := c.eopAt.map f, holdAt := c.holdAt.map f, tsbrAt := c.tsbrAt.map f }

/-! ### Queues -/

def State.queue (s : State) (h : Nat) : QueueSt := (kget s.queues h).getD QueueSt.empty
def State.setQueue (s : State) (h : Nat) (q : QueueSt) : State := { s with queues := kput s.queues h q }

/-- Physical address of a queue descriptor (R273). -/
def qdAddr (h : Nat) : Nat := 0x003000000000 + 32 * h

/-- Word w (byte offset) of a descriptor (R277). -/
def State.qdWord (s : State) (h off : Nat) : W32 := BitVec.ofNat 32 (memNat s.mem (qdAddr h + off) 4)

/-- A descriptor word written by the Runner. -/
def State.setQdWord (s : State) (h off : Nat) (v : W32) : State :=
  { s with mem := memWrite s.mem (qdAddr h + off) (toBytesLE 4 v.toNat) }

def State.qdFld (s : State) (h off hi lo : Nat) : Nat := fieldOf (s.qdWord h off) hi lo
def State.setQdFld (s : State) (h off hi lo v : Nat) : State :=
  s.setQdWord h off (withField (s.qdWord h off) hi lo v)

/-! ### Keys of the keep -/

/-- An ECDSA P-384 signature in 96 bytes (R458). -/
def ecdsaSign (key : Nat) (bs : List Byte) : List Byte := toBytesBE 96 (Config.ecdsaSign key bs).toNat

/-- An AES-256 key from a derivation (R445, R451). -/
def kdf (label : String) (key : List Byte) (data : List Nat) : List Byte := toBytesBE 32 (Config.kdf label key data).toNat

/-! ### Answers to initiators -/

def iniNum : Ini → Nat
  | .barista => 0
  | .host => 1
  | .jtag => 2

/-- The answer of an initiator's access. -/
def State.answer (s : State) (i : Ini) (data : List Byte) (err : Bool) : State :=
  { s with resps := kput s.resps (iniNum i) ⟨data, err⟩ }

end Sys2Proof.Machine
end

