-- ==== Sys2Proof/Machine/Rail.lean ====
section
/-! DEFINITION. The order rail: sensing, coalescing, pending and service, presentation, claim and completion (R233 to R253),
the MSI-X mirror of releases (R500, R501), and the health counters (R484 to R486). -/

namespace Sys2Proof.Machine

/-! ### Sources -/

def State.src (s : State) (n : Nat) : SrcSt := (kget s.srcs n).getD SrcSt.idle
def State.setSrc (s : State) (n : Nat) (x : SrcSt) : State := { s with srcs := kput s.srcs n x }

/-- The sense of a shared source: fixed rising for sources 0 to 63 and 768 to 1023 (R234, R237). -/
def srcSense (s : State) (n : Nat) : Nat := if n < 64 ∨ 768 ≤ n then 2 else s.fld .orlCfg 2 0 n

/-- The shared sources that have an input (R234, R265, R296, R345, R381, R412, R468, R487, R504, R529). -/
def srcHasInput (n : Nat) : Bool :=
  [(0, 12), (64, 195), (200, 270), (272, 274), (384, 457), (512, 538), (576, 599), (640, 649), (704, 712), (736, 736)].any
    fun r => decide (r.1 ≤ n ∧ n ≤ r.2)

/-- Level-sensed sources (R237). -/
def srcIsLevel (s : State) (n : Nat) : Bool := decide (srcSense s n < 2)

def srcPrio (s : State) (n : Nat) : Nat := s.fld .orlCfg 6 3 n
def srcTarget (s : State) (n : Nat) : Nat := s.fld .orlCfg 13 7 n
def srcMasked (s : State) (n : Nat) : Bool := s.bit .orlMask (n % 32) (n / 32)
def srcInsvc (s : State) (n : Nat) : Bool := s.bit .orlInsvc (n % 32) (n / 32)

/-- The sampled value of a source in the present cycle: its level, or a span of pulses that covers the cycle (R237). -/
def srcSampled (s : State) (n : Nat) : Bool :=
  (s.src n).level || (match (s.src n).span with | some (a, b) => decide (a ≤ s.ntc ∧ s.ntc ≤ b) | none => false)

/-- The pending bit of a shared source (R238). -/
def srcPending (s : State) (n : Nat) : Bool :=
  if srcIsLevel s n then !srcInsvc s n && (srcSampled s n == (srcSense s n == 0))
  else s.bit .orlPend (n % 32) (n / 32)

/-- Shared sources that can be pending: those with a pending bit set, and those configured as level sources. -/
def srcCandidates (s : State) : List Nat :=
  ((List.range 32).flatMap fun k =>
    let w := (s.reg .orlPend k).toNat
    if w = 0 then [] else ((List.range 32).filter fun i => w.testBit i).map fun i => 32 * k + i) ++
  (s.regs.filterMap fun e =>
    if 0x11000 ≤ e.1 ∧ e.1 < 0x12000 ∧ srcIsLevel s ((e.1 - 0x11000) / 4) then some ((e.1 - 0x11000) / 4) else none)

/-- The word of ORL_PENDk as a read shows it (R238). -/
def pendWord (s : State) (k : Nat) : W32 :=
  BitVec.ofNat 32 ((List.range 32).foldl (fun a i => a + (if srcPending s (32 * k + i) then 2 ^ i else 0)) 0)

/-- The priority of private source n of core p (R233, R253): sources 4 to 15 are reserved. -/
def privPrio (s : State) (p n : Nat) : Nat :=
  if n < 4 then s.fld .orlPpria (4 * n + 3) (4 * n) p
  else if n < 24 then s.fld .orlPprib (4 * (n - 16) + 3) (4 * (n - 16)) p
  else s.fld .orlPpric (4 * (n - 24) + 3) (4 * (n - 24)) p

/-- Whether a shared source is pending, not masked and not in service (R244). -/
def srcReady (s : State) (n : Nat) : Bool := srcPending s n && !srcMasked s n && !srcInsvc s n

/-- Whether a private source is pending, not masked and not in service (R244). -/
def privReady (s : State) (p n : Nat) : Bool :=
  s.bit .orlPpend n p && !s.bit .orlPmask n p && !s.bit .orlPinsvc n p

/-- The better of two tickets (number, priority): the higher priority, then the lower number (R244). -/
def betterTicket (a b : Option (Nat × Nat)) : Option (Nat × Nat) :=
  match a, b with
  | none, y => y
  | x, none => x
  | some x, some y =>
    if x.2 < y.2 ∨ (x.2 = y.2 ∧ y.1 < x.1) then some y else some x

/-- The best of the tickets above a running level (R244). -/
def bestTicket (level : Nat) (l : List (Nat × Nat)) : Option (Nat × Nat) :=
  (l.filter fun x => decide (levelRank level < x.2 + 1)).foldl (fun a x => betterTicket a (some x)) none

/-- Eligible tickets of physical core p, its hold bit apart (R244, R245). -/
def coreTickets (s : State) (p : Nat) : List (Nat × Nat) :=
  ((srcCandidates s).filter fun n =>
    srcReady s n && decide (srcTarget s n < 64) && (s.physOf (srcTarget s n) == some p)).map (fun n => (n, srcPrio s n)) ++
  (if s.reg .orlPpend p = 0 then [] else
    (((List.range 32).filter fun n => decide (n < 4 ∨ 16 ≤ n) && privReady s p n).map fun n => (1024 + n, privPrio s p n)))

/-- The running level of the active pair for presentation: the highest priority in service, or base (R248). -/
def pairLevel (s : State) : Nat :=
  ((List.range 32).flatMap fun k =>
    let w := (s.reg .orlInsvc k).toNat
    if w = 0 then [] else ((List.range 32).filter fun i => w.testBit i).map fun i => 32 * k + i).foldl
      (fun a n => if srcTarget s n = 0x40 ∧ levelRank a < srcPrio s n + 1 then srcPrio s n else a) 31

/-- The ticket presented to the active pair, chosen afresh (R244, R248). -/
def pairTicket (s : State) : Option (Nat × Nat) :=
  if !s.pairWorks then none else
  bestTicket (pairLevel s)
    (((srcCandidates s).filter fun n => srcReady s n && decide (srcTarget s n = 0x40)).map fun n => (n, srcPrio s n))

/-! ### Presentation -/

/-- Core cycles that n repetitions take, at most 64 issue cycles (R165, R228, R417). -/
def spanLen (w : CoreSel) (n : Nat) : Nat := min n 64 * (if selIsBar w then 2 else 1)

/-- The running level in cycle t, which presentation and ORL_HOLDp.level use (R212): that of an entry from its cycle 0. -/
def levelAt (c : Core) (t : Nat) : Nat :=
  match c.entering with
  | some e => if e.stage = 0 ∧ e.cycle0 ≤ t then e.req.level else c.level
  | none => c.level

/-- The request a core takes when nothing synchronous falls in the cycle (R213, R214). -/
def coreRequest (s : State) (w : CoreSel) (c : Core) : Option (Nat × Cause) :=
  if c.hold then none
  else if levelRank c.level < 17 ∧ c.lateStore.isSome then
    some (16, ⟨0x0B, 0, 0, c.lateStore.getD 0, none⟩)
  else if levelRank c.level < 17 ∧ c.overrun.isSome then
    some (16, ⟨0x0C, 0, 0, BitVec.ofNat 32 (c.overrun.getD 0), none⟩)
  else
    match w with
    | .eduno p => (bestTicket c.level (coreTickets s p)).map fun x => (x.2, ⟨0x10, 0, 0, 0, some x⟩)
    | .barista r =>
      if r = s.activePair then
        (pairTicket s).bind fun x => if levelRank c.level < x.2 + 1 then some (x.2, ⟨0x10, 0, 0, 0, some x⟩) else none
      else none

/-- Whether a request goes before another (R214, R244): an exception before a ticket, a late store before an overrun, then the
higher priority, then the lower number. -/
def goesBefore (a b : Nat × Cause) : Bool :=
  match a.2.ticket, b.2.ticket with
  | none, none => decide (a.2.code < b.2.code)
  | none, some _ => true
  | some _, none => false
  | some x, some y => decide (y.2 < x.2 ∨ (x.2 = y.2 ∧ x.1 < y.1))

/-- The request that stands when presentation in cycle t finds `new`: a request of an earlier cycle is never withdrawn, and one
that goes before it replaces it (R246, R247; log entry 61). -/
def standing (t : Nat) (old : Option Request) (new : Option (Nat × Cause)) : Option Request :=
  match old, new with
  | some o, some n => if o.at' = t ∨ goesBefore n (o.level, o.cause) then some ⟨n.1, n.2, t⟩ else some o
  | some o, none => if o.at' = t then none else some o
  | none, n => n.map fun n => ⟨n.1, n.2, t⟩

/-- The asynchronous exception an entry takes is no longer pending. -/
def clearTaken (c : Core) (code : Nat) : Core :=
  if code = 0x0B then { c with lateStore := none } else if code = 0x0C then { c with overrun := none } else c

/-- The entry that a request starts in cycle t (R228): an exit still in its 48 cycles is chained (R231). -/
def startEntry (w : CoreSel) (c : Core) (t : Nat) (r : Request) : Core :=
  let l := match c.rep with | some n => spanLen w (if t < c.readyAt then n else n - 1) | none => 0
  { c with
    entering := some {
      cycle0 := match c.exit with | some x => max t (x.cycle0 + 1) | none => t
      lastIssue := if c.exit.isSome then 0 else l
      req := r, chained := c.exit.isSome, second := false, stage := 0, claimed := none, handler := 0, frame := 0, saved := c.level, umode := none
      car := none, rcv := none, bytes := [], next := none } }

/-- Presentation to one core in cycle t (R244 to R247). In a cycle in which an entry has been taken it is made afresh, so that the
commands of one cycle may come in any order; a synchronous exception and the entry of a takeover stand. From cycle 1 of an
entry on it chooses the request of the second entry (R229). -/
def presentCore (s : State) (w : CoreSel) (t : Nat) : State :=
  let c := s.core w
  if (c.phase = .running ∨ c.phase = .waiting) ∧ !c.halted then
    match c.entering with
    | none =>
      match standing t none (coreRequest s w c) with
      | some r => s.setCore w (startEntry w c t r)
      | none => s
    | some e =>
      if 0 < e.stage then
        s.setCore w { c with entering := some { e with next := standing t e.next (coreRequest s w c) } }
      else if e.req.cause.code < 0x0B ∨ e.req.cause.code = 0x0D then s
      else
        s.setCore w { c with entering := (standing t (some e.req) (coreRequest s w c)).map fun r => { e with req := r, cycle0 := max t e.cycle0 } }
  else s

/-- Presentation to the target of a shared source (R245, R248). -/
def presentTarget (s : State) (n t : Nat) : State :=
  if srcTarget s n = 0x40 then presentCore s (.barista s.activePair) t
  else match s.physOf (srcTarget s n) with
    | some p => presentCore s (.eduno p) t
    | none => s

/-- Presentation to every core. -/
def presentAll (s : State) (t : Nat) : State :=
  presentCore ((List.range 68).foldl (fun s p => presentCore s (.eduno p) t) s) (.barista s.activePair) t

/-! ### MSI-X (R500, R501) -/

/-- Word w (0 to 3) of MSI-X table entry v; the vector control word resets to masked. -/
def msixWord (s : State) (v w : Nat) : Nat := (kget s.msix (4 * v + w)).getD (if w = 3 then 1 else 0)

/-- A vector that is due: discarded while MSI-X is off, held while masked or with no right to send (log entry 31), else sent
(R499, R501). -/
def msixDue (s : State) (v : Nat) : State :=
  if !s.msixEn then s
  else if s.msixFm || !s.pcie.bme || bitOf (msixWord s v 3) 0 then
    (if s.msixPend.contains v then s else { s with msixPend := v :: s.msixPend })
  else { s with msixOut := (msixWord s v 0 + 2 ^ 32 * msixWord s v 1, msixWord s v 2) :: s.msixOut }

/-- Vector n mirrors shared source n (R500). -/
def mirror (s : State) (n : Nat) : State := if s.bit .pcxMir (n % 32) (n / 32) then msixDue s n else s

/-! ### Events -/

/-- A release of an edge source in cycle t (R241): pending is set and the mirror sends. -/
def release (s : State) (n t : Nat) : State := mirror (s.raise t .orlPend (2 ^ (n % 32)) (n / 32)) n

/-- The coalescing count and time that apply to a source in cycle t (R241): a change of profile, or of a profile, applies from the
next cycle. Profile 0 is fixed. -/
def coalesceOf (s : State) (n t : Nat) : Nat × Nat :=
  let j := s.fldOld t .orlCfg 17 14 n
  if j = 0 then (1, 0) else (s.fldOld t .orlCoal 31 24 j, s.fldOld t .orlCoal 15 0 j)

/-- The release by time of a window that has ended by cycle t (R241). -/
def windowEnd (s : State) (n t : Nat) : State :=
  match (s.src n).winEnd with
  | some e => if e ≤ t then release (s.setSrc n { s.src n with winEnd := none, count := 0 }) n e else s
  | none => s

/-- An event of an edge source stamped t (R241): in the cycle in which its latch gave one there is no other (R240). -/
def srcEvent (s : State) (n t : Nat) : State :=
  if (s.src n).latchAt = some t then s else
  let s := windowEnd s n t
  let x := s.src n
  let nt := coalesceOf s n t
  let win := match x.winEnd with | some e => some e | none => if 0 < nt.2 then some (t + 1536 * nt.2) else none
  if nt.1 ≤ x.count + 1 then release (s.setSrc n { x with count := 0, winEnd := none }) n t
  else s.setSrc n { x with count := x.count + 1, winEnd := win }

/-- A falling edge stamped f is one event of a falling or both-edges source (R237); a level source's sample then returns to its
level. -/
def fallEdge (s : State) (n f : Nat) : State :=
  let s := s.setSrc n { s.src n with fall := none }
  if srcIsLevel s n then (if srcPending s n then presentTarget (if srcSense s n = 1 then mirror s n else s) n f else s)
  else if srcSense s n = 3 ∨ srcSense s n = 4 then presentTarget (srcEvent s n f) n f else s

/-- Falling edges that have come by cycle t (R236). -/
def settleFalls (s : State) (t : Nat) : State :=
  s.srcs.foldl (fun s e => match e.2.fall with | some f => if f ≤ t then fallEdge s e.1 f else s | none => s) s

/-- Whether a source's edges are latched while the core clock is stopped (R240, R529; log entry 34). -/
def wakeCapable (n : Nat) : Bool := (704 ≤ n && n ≤ 707) || n == 712

/-- A pulse or an edge of a source while the core clock is stopped (R240). -/
def latchEdge (s : State) (n : Nat) : State := if wakeCapable n then s.setSrc n { s.src n with latch := true } else s

/-- A one-cycle pulse of shared source n in cycle t: pulses of consecutive cycles make one high span (R237, R265). -/
def pulse (s : State) (n t : Nat) : State :=
  if s.power.asleep.isSome then latchEdge s n else
  let x := s.src n
  let cont : Bool := match x.span with | some (_, b) => decide (t ≤ b + 1) | none => false
  let span := match x.span with | some (a, b) => if cont then (a, max b t) else (t, t) | none => (t, t)
  let s := s.setSrc n { x with span := some span, fall := some (span.2 + 1) }
  if srcIsLevel s n then presentTarget (if srcPending s n && !cont then mirror s n else s) n t
  else if cont ∨ srcSense s n = 3 then s
  else presentTarget (srcEvent s n t) n t

/-- A source's signal takes a level in cycle t (R237, R238). -/
def setLevel (s : State) (n : Nat) (v : Bool) (t : Nat) : State :=
  let x := s.src n
  let was := srcPending s n
  let s' := s.setSrc n { x with level := v }
  if s.power.asleep.isSome then
    (if srcIsLevel s n then s'.setSrc n { s'.src n with latch := srcPending s' n && (x.latch || !was) }
     else if x.level = v then s' else if srcSense s n = 4 ∨ (srcSense s n = 2 ∧ v) ∨ (srcSense s n = 3 ∧ !v) then latchEdge s' n else s')
  else if srcIsLevel s n then presentTarget (if !was && srcPending s' n then mirror s' n else s') n t
  else if x.level = v then s'
  else if srcSense s n = 4 ∨ (srcSense s n = 2 ∧ v) ∨ (srcSense s n = 3 ∧ !v) then presentTarget (srcEvent s' n t) n t
  else s'

/-- A pulse of private source n of core p in cycle t: an edge unless it extends the last span (R236, R237). -/
def privPulse (s : State) (p n t : Nat) : State :=
  let k := 32 * p + n
  let cont : Bool := match kget s.privSpan k with | some b => decide (t ≤ b + 1) | none => false
  let s := { s with privSpan := kput s.privSpan k t }
  if cont then s else presentCore (s.raise t .orlPpend (2 ^ n) p) (.eduno p) t

/-! ### Health counters (R484 to R486) -/

/-- One counter meets `m` events of a code with an index. -/
def countOne (s : State) (t code idx m n : Nat) : State :=
  let f := s.fld .hltCntCfg 23 12 n
  if s.fld .hltCntCfg 31 24 n = code ∧ (f = 0xFFF ∨ f = idx) then
    let old := (s.reg .hltCntVal n).toNat
    let new := min (old + m) 0xFFFFFFFF
    let thr := (s.reg .hltCntThr n).toNat
    let before : Nat := match kget s.service.counted n with | some x => if x.1 = t then x.2 else old | none => old
    let s : State := { s.setReg .hltCntVal (BitVec.ofNat 32 new) n with service := { s.service with counted := kput s.service.counted n (t, before) } }
    if s.fld .hltCntCfg 11 0 n = 0 ∧ thr ≠ 0 ∧ old < thr ∧ thr ≤ new then
      pulse (s.raise t .hltAlarm (2 ^ n)) 736 t
    else s
  else s

/-- `m` events of a code with an index in cycle t. -/
def countEvents (s : State) (t code idx m : Nat) : State :=
  if m = 0 then s else (List.range 32).foldl (fun s n => countOne s t code idx m n) s

def countEvent (s : State) (t code idx : Nat) : State := countEvents s t code idx 1

/-! ### Claim and completion -/

/-- The in-service bit set and, for an edge source, the pending bit cleared (R239), unless it was set in this cycle (R251). -/
def takeShared (s : State) (n t : Nat) : State :=
  let s := s.setBit .orlInsvc (n % 32) true (n / 32)
  if srcIsLevel s n || bitOf (s.hwBits t (regOff .orlPend (n / 32) 0)) (n % 32) then s
  else s.setBit .orlPend (n % 32) false (n / 32)

/-- The same for a private source. -/
def takePrivate (s : State) (p n t : Nat) : State :=
  let s := s.setBit .orlPinsvc n true p
  if bitOf (s.hwBits t (regOff .orlPpend p 0)) n then s else s.setBit .orlPpend n false p

/-- The claim of a core's entry (R249, R250): the ticket, or 2047. -/
def claimCore (s : State) (p ticket t : Nat) : Nat × State :=
  if ticket < 1024 then
    if srcReady s ticket && decide (srcTarget s ticket < 64) && (s.physOf (srcTarget s ticket) == some p) then
      (ticket, countEvent (takeShared s ticket t) t 0x0A p)
    else (2047, countEvent s t 0x0B p)
  else if privReady s p (ticket - 1024) then
    (ticket, countEvent (takePrivate s p (ticket - 1024) t) t 0x0A p)
  else (2047, countEvent s t 0x0B p)

/-- Completion of a shared source: in service ends, and a level source is sampled again (R239). -/
def completeShared (s : State) (n t : Nat) : State :=
  let s' := s.setBit .orlInsvc (n % 32) false (n / 32)
  let s' := if srcInsvc s n && srcIsLevel s' n && srcPending s' n then mirror s' n else s'
  presentTarget s' n t

/-- Completion of the ticket that an entry of core p claimed (R239). -/
def completeTicket (s : State) (p n t : Nat) : State :=
  if n < 1024 then completeShared s n t
  else if n < 1056 then presentCore (s.setBit .orlPinsvc (n - 1024) false p) (.eduno p) t
  else s

/-- A read of ORL_BCLAIM by the Barista (R248, R249): the value read. -/
def barClaim (s : State) (t : Nat) : W32 × State :=
  match pairTicket s with
  | some (n, q) => (BitVec.ofNat 32 (q * 2 ^ 16 + n), countEvent (takeShared s n t) t 0x0A 0x100)
  | none => (0x7FF, countEvent s t 0x0B 0x100)

/-- Every shared source in service with a target that `f` accepts is completed; edge sources are set pending again (R423,
R473). -/
def returnService (s : State) (f : Nat → Bool) (t : Nat) : State :=
  ((List.range 32).flatMap fun k =>
    let w := (s.reg .orlInsvc k).toNat
    if w = 0 then [] else ((List.range 32).filter fun i => w.testBit i).map fun i => 32 * k + i).foldl
      (fun s n => if f (srcTarget s n) then
        completeShared (if srcIsLevel s n then s else s.setBit .orlPend (n % 32) true (n / 32)) n t else s) s

/-! ### Writes of the shared registers (R238, R242, R247, R253) -/

/-- The bits of word k that belong to edge sources. -/
def edgeBits (s : State) (k : Nat) : Nat :=
  (List.range 32).foldl (fun a i => if srcIsLevel s (32 * k + i) then a else a + 2 ^ i) 0

/-- PENDING_WRITE of ORL_PENDk in cycle t: a set of the same cycle stands (R253). -/
def pendWrite (s : State) (k : Nat) (v : W32) (t : Nat) : State :=
  let on := v.toNat &&& edgeBits s k
  let s := s.setReg .orlPend (BitVec.ofNat 32 (s.hwBits t (regOff .orlPend k 0))) k
  presentAll (s.raise t .orlPend on k) t

/-- The same for the private sources of core p. -/
def privPendWrite (s : State) (p : Nat) (v : W32) (t : Nat) : State :=
  let s := s.setReg .orlPpend (BitVec.ofNat 32 (s.hwBits t (regOff .orlPpend p 0))) p
  presentCore (s.raise t .orlPpend v.toNat p) (.eduno p) t

/-- IN_SERVICE_COMPLETE: a write of ORL_INSVCk completes the sources of its 1 bits (R239). -/
def insvcWrite (s : State) (k : Nat) (v : W32) (t : Nat) : State :=
  (List.range 32).foldl (fun s i =>
    if bitOf v.toNat i && srcInsvc s (32 * k + i) then completeShared s (32 * k + i) t else s) s

/-- The same for the private sources of core p. -/
def privInsvcWrite (s : State) (p : Nat) (v : W32) (t : Nat) : State :=
  presentCore (s.setReg .orlPinsvc (s.reg .orlPinsvc p &&& ~~~v) p) (.eduno p) t

/-! ### Passing of time -/

/-- The pour entry of a core in cycle t (R148, R149, R151): a bank change is made at a tick only, from CORE_PBANK.next as it
stood before the cycle, and none in a warm reboot (R29). -/
def pourEntry (s : State) (p t : Nat) (tick : Bool) : State :=
  let s := if tick && !s.boot.warm then s.setFld .corePbank 0 0 (s.fldOld t .corePbank 1 1 p) p else s
  let c := s.core (.eduno p)
  s.setCore (.eduno p) { c with
    loops := [Loop.off, Loop.off], rstack := [], lbuf := .wait, modePend := [], user := true, pc := 0, branch := none
    rep := none, repBytes := none, bmvResume := false, phase := .running, pour := some (s.pourAt t), eopDone := false
    fresh := true, onTime := false, missed := false, readyAt := t }

/-- The claim of cycle 40, after every write and update of the cycle (R228, R249). -/
def claimEntry (s : State) (p t : Nat) : State :=
  match (s.core (.eduno p)).entering with
  | none => s
  | some e =>
    match e.req.cause.ticket, e.claimed with
    | some (n, _), none =>
      let r := claimCore s p n t
      let c := r.2.core (.eduno p)
      r.2.setCore (.eduno p) { c with entering := c.entering.map fun e => { e with claimed := some r.1 } }
    | _, _ => s

end Sys2Proof.Machine
end

