-- ==== Sys2Proof/Machine/Timers.lean ====
section
/-! DEFINITION. Timers, pins, capture units and snapshots (R254 to R272). -/

namespace Sys2Proof.Machine

/-! ### Channels -/

def State.chan (s : State) (n : Nat) : Chan := (kget s.chans n).getD Chan.zero
def State.setChan (s : State) (n : Nat) (c : Chan) : State := { s with chans := kput s.chans n c }

/-- The control word of a channel (TMR_CTLn, TMR_PCTLpi). -/
def chanCtl (s : State) (n : Nat) : W32 := if n < 128 then s.reg .tmrCtl n else s.reg .tmrPctl (n - 128)
def setChanCtl (s : State) (n : Nat) (v : W32) : State :=
  if n < 128 then s.setReg .tmrCtl v n else s.setReg .tmrPctl v (n - 128)
def chanStat (s : State) (n : Nat) : W32 := if n < 128 then s.reg .tmrStat n else s.reg .tmrPstat (n - 128)
def setAtOnce (s : State) (n : Nat) (v : Bool) : State :=
  if n < 128 then s.setBit .tmrStat 2 v n else s.setBit .tmrPstat 2 v (n - 128)
def raiseStat (s : State) (n t bits : Nat) : State :=
  if n < 128 then s.raise t .tmrStat bits n else s.raise t .tmrPstat bits (n - 128)

def chanArmed (s : State) (n : Nat) : Bool := bitOf (chanCtl s n).toNat 31
def chanClk (s : State) (n : Nat) : Nat := fieldOf (chanCtl s n) 28 27
def chanDiv (s : State) (n : Nat) : Nat := fieldOf (chanCtl s n) 12 0 + 1

/-- Whether a channel's count increments in cycle t (R258, R264). -/
def chanCounts (s : State) (n t : Nat) : Bool :=
  let c := s.chan n
  chanArmed s n && (if chanClk s n = 0 then decide (t % chanDiv s n = 0 ∧ c.base < t) else c.incAt == some t)

/-- The count as it stands at the end of cycle t (R258): prescaled counting is tied to the NTC. -/
def chanCount (s : State) (n t : Nat) : Nat :=
  let c := s.chan n
  if !chanArmed s n then c.count
  else if chanClk s n = 0 then (c.count + (t / chanDiv s n - c.base / chanDiv s n)) % 2 ^ 48
  else if c.incAt = some t then (c.count + 1) % 2 ^ 48
  else c.count

/-- The source of a channel pulses in cycle t (R265). -/
def chanPulse (s : State) (n t : Nat) : State :=
  if n < 128 then pulse s (64 + n) t else privPulse s ((n - 128) / 2) ((n - 128) % 2) t

/-! ### Pins (R269, R270) -/

/-- OUT and DIR as they stood before cycle t. -/
def pinsBefore (h : List (Nat × W32 × W32)) (t : Nat) : W32 × W32 :=
  match h.find? (fun e => decide (e.1 < t)) with
  | some e => e.2
  | none => (0, 0)

/-- OUT and DIR change in cycle t; changes that no land still waits for are dropped. -/
def setPins (s : State) (out dir : W32) (t : Nat) : State :=
  let old := s.tpHist.filter fun e => decide (e.1 ≠ t)
  let keep := old.takeWhile (fun e => decide (t < e.1 + 17))
  let rest := (old.drop keep.length).take 1
  { (s.setReg .tmrPinOut out).setReg .tmrPinDir dir with tpHist := (t, out, dir) :: keep ++ rest }

/-- What the device drives on land TPi in cycle t, if it drives it: 16 cycles behind OUT and DIR (R269). -/
def pinDriven (s : State) (t i : Nat) : Option Bool :=
  let od := pinsBefore s.tpHist (t - 15)
  if bitOf od.2.toNat i then some (bitOf od.1.toNat i) else none

/-- Level of land TPi in cycle t: what prevails on it (R271). A land whose protection switch is open reads 0 (R508). -/
def pinLand (s : State) (t i : Nat) : Bool :=
  if s.power.openLands.contains (64 * 14 + (7 + i)) then false
  else match pinDriven s t i with
    | some v => if bitOf s.tpForce.toNat i then bitOf s.tpExt.toNat i else v
    | none => bitOf s.tpExt.toNat i

/-- The outside level of land TPi from cycle t on: against what the device drives it prevails (R271). -/
def landLevel (s : State) (i : Nat) (v : Bool) (t : Nat) : State :=
  { s with
    tpExt := BitVec.ofNat 32 (withField s.tpExt i i (ofBool v)).toNat
    tpForce := BitVec.ofNat 32 (withField s.tpForce i i (ofBool (pinDriven s t i == some (!v)))).toNat }

/-- TMR_PIN_IN as sampled in cycle t. -/
def pinIn (s : State) (t : Nat) : W32 :=
  BitVec.ofNat 32 ((List.range 32).foldl (fun a i => a + (if pinLand s t i then 2 ^ i else 0)) 0)

/-- A channel action on its pin in cycle t: 1 set, 2 clear, 3 toggle; the lowest rank of a cycle wins (R269, R270). -/
def pinAction (s : State) (n act : Nat) (ovf : Bool) (t : Nat) : State :=
  let pin := fieldOf (chanCtl s n) 22 18
  let rank := 2 * n + ofBool ovf
  let beaten := match kget s.pinActs pin with | some (c, r) => decide (c = t ∧ r < rank) | none => false
  if act = 0 ∨ 128 ≤ n ∨ beaten = true then s else
    let before := bitOf (pinsBefore s.tpHist t).1.toNat pin
    let v := match act with | 1 => true | 2 => false | _ => !before
    setPins { s with pinActs := kput s.pinActs pin (t, rank) }
      (withField (s.reg .tmrPinOut) pin pin (ofBool v)) (s.reg .tmrPinDir) t

/-- A write of TMR_PIN_OUT in cycle t: a channel action on a bit in the same cycle wins (R270). -/
def writePinOut (s : State) (v : W32) (t : Nat) : State :=
  let keep := s.pinActs.foldl (fun a e => if e.2.1 = t then a + 2 ^ e.1 else a) 0
  let old := (s.reg .tmrPinOut).toNat
  setPins s (BitVec.ofNat 32 ((v.toNat &&& (0xFFFFFFFF - keep)) ||| (old &&& keep))) (s.reg .tmrPinDir) t

/-! ### Match, overflow and arming -/

/-- A match in cycle t (R261). -/
def matchChan (s : State) (n t : Nat) (atOnce : Bool) : State :=
  let s := setChanCtl s n (withField (chanCtl s n) 31 31 0)
  let s := setAtOnce (raiseStat s n t 1) n atOnce
  chanPulse (pinAction s n (fieldOf (chanCtl s n) 17 16) false t) n t

/-- An overflow in cycle t (R262). -/
def overflowChan (s : State) (n t : Nat) : State :=
  let s := raiseStat s n t 2
  let s := pinAction s n (fieldOf (chanCtl s n) 15 14) true t
  if bitOf (chanCtl s n).toNat 13 then chanPulse s n t else s

/-- Whether a compare is met at an arming or a commit (R260). -/
def atOnceMatch (cmp count : Nat) : Bool :=
  let d := (cmp + 2 ^ 48 - count) % 2 ^ 48
  decide (d = 0 ∨ 2 ^ 47 ≤ d)

/-- The cycle at whose end a channel next does something by itself: it is judged, or it overflows or matches on clock 0b00. -/
def chanNext (s : State) (n : Nat) : Option Nat :=
  let c := s.chan n
  match c.todo with
  | some x => some x
  | none =>
    if chanArmed s n ∧ chanClk s n = 0 then
      let d := (c.cmp + 2 ^ 48 - c.count) % 2 ^ 48
      some ((c.base / chanDiv s n + min (if d = 0 then 2 ^ 48 else d) (2 ^ 48 - c.count)) * chanDiv s n)
    else none

/-- The end of cycle t for a channel: every load, increment and commit of the cycle is in, the overflow comes, the compare is judged
(R260 to R262), and a write of arm = 0 takes effect unless the cycle armed the channel (R264). -/
def settleChan (s : State) (n t : Nat) : State :=
  let c := s.chan n
  let up := chanCounts s n t
  let v := chanCount s n t
  let once : Bool := c.armAt == some t || c.commitAt == some t
  let s := s.setChan n { c with count := v, base := if chanClk s n = 0 then max c.base t else c.base, incAt := none, todo := none }
  let s := if up ∧ v = 0 then overflowChan s n t else s
  let s :=
    if !chanArmed s n then s
    else if once then (if atOnceMatch c.cmp v then matchChan s n t true else s)
    else if up ∧ v = c.cmp then matchChan s n t false else s
  if c.offAt = some t ∧ c.armAt ≠ some t then setChanCtl s n (withField (chanCtl s n) 31 31 0) else s

/-- An arming in cycle t with a load of the count; the compare is judged at the end of the cycle (R258 to R260, R264). -/
def armChan (s : State) (n t load : Nat) : State :=
  setChanCtl (s.setChan n { s.chan n with count := load, base := t, armAt := some t, incAt := none, todo := some t }) n
    (withField (chanCtl s n) 31 31 1)

/-- The load of an arming by write or tick in cycle t (R259). -/
def armLoad (s : State) (n t : Nat) : Nat := if bitOf (chanCtl s n).toNat 30 then 0 else chanCount s n (t - 1)

/-- A tick or a pin edge in cycle t that a channel counts: not in a cycle in which it is armed or its clock is set (R258, R264). -/
def stepChan (s : State) (n clk t : Nat) : State :=
  let c := s.chan n
  if chanArmed s n ∧ chanClk s n = clk ∧ c.armAt ≠ some t ∧ c.base ≠ t then
    s.setChan n { c with incAt := some t, todo := some t } else s

/-- The writable bits of a channel's control word: private channels have no group, pin and pin-edge fields (R266). -/
def ctlMask (n : Nat) (w : W32) : W32 :=
  if n < 128 then (if fieldOf w 28 27 = 3 then withField w 28 27 0 else w)
  else withField (withField w 26 14 0) 28 27 (if 2 ≤ fieldOf w 28 27 then 0 else fieldOf w 28 27)

/-- A write of a channel's control word in cycle t (R259, R264): a new clock or prescaler counts from the next cycle on, arm = 0
waits for what the cycle still brings, and arm = 1 arms a channel once in a cycle. -/
def ctlWrite (s : State) (n : Nat) (w : W32) (t : Nat) : State :=
  let w := ctlMask n w
  let c := s.chan n
  let armed := chanArmed s n
  let was := armed && c.offAt != some t
  let old := chanCtl s n
  let moved := fieldOf w 28 27 ≠ fieldOf old 28 27 ∨ fieldOf w 12 0 ≠ fieldOf old 12 0
  let s := s.setChan n { c with
    count := if c.armAt = some t then c.count else chanCount s n (t - 1)
    base := if moved then t else max c.base (t - 1)
    incAt := if moved then none else c.incAt }
  let s := setChanCtl s n (withField w 31 31 (ofBool armed))
  if bitOf w.toNat 31 then (if was ∨ c.armAt = some t then s else armChan s n t (armLoad s n t))
  else if armed ∧ c.armAt ≠ some t then s.setChan n { s.chan n with offAt := some t, todo := some t }
  else s

/-- CMPL stages the low half of the compare (R263). -/
def stageCompare (s : State) (n : Nat) (v : W32) : State := s.setChan n { s.chan n with stage := v.toNat }

/-- CMPH commits the compare, which is judged at the end of the cycle while the channel is armed (R260, R263). -/
def commitCompare (s : State) (n : Nat) (v : W32) (t : Nat) : State :=
  let c := s.chan n
  s.setChan n { c with
    count := if c.armAt = some t then c.count else chanCount s n (t - 1), base := max c.base (t - 1)
    cmp := (v.toNat % 2 ^ 16) * 2 ^ 32 + c.stage, commitAt := some t, todo := some t }

/-! ### Groups (R267, R268) -/

/-- The members of group g in ascending channel number. -/
def groupMembers (s : State) (g : Nat) : List Nat :=
  (List.range 128).filter fun n => bitOf (chanCtl s n).toNat 26 && decide (fieldOf (chanCtl s n) 25 23 = g)

/-- The count that the member of rank k starts from (R267). -/
def groupLoad (k step : Nat) : Nat := (2 ^ 48 - k * step % 2 ^ 48) % 2 ^ 48

/-- The members armed with their staggered counts, from rank 0 on. -/
def armMembers (s : State) (t step : Nat) (ms : List Nat) : State :=
  ms.zipIdx.foldl (fun s x => armChan s x.1 t (groupLoad x.2 step)) s

/-- A start of group g in cycle t; two starts of one cycle make one (R267). -/
def startGroup (s : State) (g t : Nat) : State :=
  if kget s.grpAt g = some t then s else
    let ms := groupMembers s g
    let step := (s.reg .tmrGrpStepl g).toNat + 2 ^ 32 * (s.reg .tmrGrpSteph g).toNat
    armMembers { s with grpAt := kput s.grpAt g t } t step ms

/-- TMR_GSTART: bit g starts group g (R267). -/
def startGroups (s : State) (v : W32) (t : Nat) : State :=
  (List.range 8).foldl (fun s g => if bitOf v.toNat g then startGroup s g t else s) s

/-! ### The tick (R258, R259, R267) -/

/-- Channels whose control word has been written. -/
def writtenChans (s : State) : List Nat :=
  s.regs.filterMap fun e =>
    if 0x21000 ≤ e.1 ∧ e.1 < 0x22000 ∧ (e.1 - 0x21000) % 0x20 = 0 then some ((e.1 - 0x21000) / 0x20)
    else if 0x22000 ≤ e.1 ∧ e.1 < 0x23100 ∧ (e.1 - 0x22000) % 0x20 = 0 then some (128 + (e.1 - 0x22000) / 0x20)
    else none

/-- One channel at a tick in cycle t: arming, or an increment of clock 0b01. -/
def tickChan (t : Nat) (s : State) (n : Nat) : State :=
  if bitOf (chanCtl s n).toNat 29 then
    (if (s.chan n).armAt = some t then s else armChan s n t (armLoad s n t))
  else stepChan s n 1 t

/-- The timers at a tick in cycle t. A group whose on_tick was set before this cycle starts, and the bit clears (R267, R268). -/
def timersTick (s : State) (t : Nat) : State :=
  let s := (List.range 8).foldl (fun s g =>
    if s.fldOld t .tmrGrpCfg 0 0 g = 1 then
      let s := startGroup s g t
      { s.setBit .tmrGrpCfg 0 false g with grpAt := kput s.grpAt (8 + g) t }
    else s) s
  (writtenChans s).foldl (tickChan t) s

/-- The counts stop before cycle `old`, which becomes cycle `new`: counting resumes in the first cycle from there on that qualifies
(R254, R255, R258). -/
def rebaseChans (s : State) (old new : Nat) : State :=
  (writtenChans s).foldl (fun s n =>
    let c := s.chan n
    s.setChan n { c with
      count := if old ≤ c.base then c.count else chanCount s n (old - 1), base := if old ≤ c.base then new else new - 1 }) s

/-- What every channel does at the end of cycle t. -/
def settleChans (s : State) (t : Nat) : State :=
  (writtenChans s).foldl (fun s n => if chanNext s n = some t then settleChan s n t else s) s

/-! ### Snapshots (R256, R257) -/

/-- The count of a channel copied into snapshot set i, as it stands at the end of cycle t. -/
def snapChan (s : State) (i n t : Nat) : State :=
  let v := chanCount s n t
  (s.setReg .tmrSnapLo (BitVec.ofNat 32 v) i).setReg .tmrSnapHi (BitVec.ofNat 32 (v / 2 ^ 32)) i

/-- A snapshot command of initiator set i in cycle t; reserved index values act as 0 (R13). A count is copied again when the cycle is
over, since it includes an increment that the cycle still brings (R256). -/
def snapshot (s : State) (i kind idx t : Nat) : State :=
  let s := { s with snaps := s.snaps.filter fun e => decide (e.1 ≠ i) }
  let chan (n : Nat) : State := { snapChan s i n t with snaps := (i, n, t) :: s.snaps }
  match kind with
  | 1 => chan (if idx < 128 then idx else 0)
  | 2 => chan (128 + (if idx < 136 then idx else 0))
  | _ => (s.setReg .tmrSnapLo (BitVec.ofNat 32 t) i).setReg .tmrSnapHi (BitVec.ofNat 32 (t / 2 ^ 32)) i

/-- The snapshots of cycle t are final. -/
def snapsEnd (s : State) (t : Nat) : State :=
  (s.snaps.filter fun e => decide (e.2.2 ≤ t)).foldl (fun s e => snapChan s e.1 e.2.1 e.2.2)
    { s with snaps := s.snaps.filter fun e => decide (t < e.2.2) }

/-! ### Capture units (R271, R272) -/

def State.capt (s : State) (c : Nat) : Capt := (kget s.capts c).getD Capt.zero

/-- Values of a capture unit set, with the flags shown by TMR_CAPc_STAT. -/
def setCapt (s : State) (c : Nat) (x : Capt) : State :=
  let s := { s with capts := kput s.capts c x }
  s.setReg .tmrCapStat (BitVec.ofNat 32 (ofBool x.vals.new + 2 * ofBool x.vals.pend + 4 * ofBool x.vals.ovr)) c

/-- The values with the flag ovr as the status register now holds it (software may have cleared it). -/
def captVals (s : State) (c : Nat) : CapVals := { (s.capt c).vals with ovr := s.bit .tmrCapStat 2 c }

/-- An event with value x when no capture read is stamped in its cycle (R272). -/
def captStep (a : CapVals) (x : Nat) : CapVals :=
  let a := { a with ovr := a.ovr || a.new || a.pend }
  if a.pend then a else { a with v := x, new := true }

/-- A capture event of unit c stamped t: its value is the stamp minus 6 (R271, R272). -/
def captEvent (s : State) (c t : Nat) : State :=
  let u := s.capt c
  let a := captVals s c
  let x := t - 6
  let b := if u.readAt = some t then { a with s := x, pend := true } else captStep a x
  let s := setCapt s c { u with vals := b, lastEv := some (t, a) }
  let s := if u.readAt ≠ some t ∧ (a.new ∨ a.pend) then s.raise t .tmrCapStat 4 c else s
  if s.bit .tmrCapCfg 7 c then pulse s (64 + c) t else s

/-- A capture read of unit c in cycle t: the value returned (R272). An event stamped in the same cycle follows it. -/
def captRead (s : State) (c t : Nat) : W32 × State :=
  let u := s.capt c
  let ev := match u.lastEv with | some (e, a) => if e = t then some a else none | none => none
  let a := ev.getD (captVals s c)
  let a := if a.pend then { a with v := a.s, pend := false } else a
  let h := a.v / 2 ^ 32
  let a := { a with new := false }
  let b := match ev with | some _ => { a with s := t - 6, pend := true } | none => a
  (BitVec.ofNat 32 a.v,
    (setCapt s c { u with vals := b, h := h, readAt := some t }).setReg .tmrCapHi (BitVec.ofNat 32 h) c)

/-- Whether capture unit c takes an edge of a pin (R271). -/
def captTakes (s : State) (c pin : Nat) (rising : Bool) : Bool :=
  decide (s.fld .tmrCapCfg 4 0 c = pin) &&
    (match s.fld .tmrCapCfg 6 5 c with | 1 => rising | 2 => !rising | 3 => true | _ => false)

/-- An edge of land TP[pin] sampled in cycle t, at every capture unit that watches it. -/
def pinEdge (s : State) (pin : Nat) (rising : Bool) (t : Nat) : State :=
  let s := landLevel s pin rising t
  (List.range 32).foldl (fun s c => if captTakes s c pin rising then captEvent s c t else s) s

/-- A rising edge of land TP[pin] at the pin-edge clocks (R258). -/
def pinClock (s : State) (pin t : Nat) : State :=
  (writtenChans s).foldl (fun s n =>
    if n < 128 ∧ fieldOf (chanCtl s n) 22 18 = pin then stepChan s n 2 t else s) (landLevel s pin true t)

end Sys2Proof.Machine
end

