-- ==== Sys2Proof/Machine/Mem.lean ====
section
/-! DEFINITION. Memories behind check codes: units, errors met by reads and writes, and their records (R182 to R187, R203 to
R205, R208 to R211, R538, R540, R543). -/

namespace Sys2Proof.Machine

def carBase : Nat := 0x001000000000
def coreBase : Nat := 0x001100000000
def sramBase : Nat := 0x001200000000
def regBase : Nat := 0x002000000000
def qdBase : Nat := 0x003000000000
def streamBase : Nat := 0x003000200000

/-- The listed ranges of the physical space (R530). -/
inductive Region
  | dram | carafe | core | sram | regs | qdesc | stream | reserved
  deriving DecidableEq, Repr

def regionOf (a : Nat) : Region :=
  if a < 0x200000000 then .dram
  else if a < carBase then .reserved
  else if a < carBase + 0x2000000 then .carafe
  else if a < coreBase then .reserved
  else if a < coreBase + 0x4400000 then .core
  else if a < sramBase then .reserved
  else if a < sramBase + 0x200000 then .sram
  else if a < regBase then .reserved
  else if a < regBase + 0x2000000 then .regs
  else if a < qdBase then .reserved
  else if a < streamBase then .qdesc
  else if a < streamBase + 0x8000 then .stream
  else .reserved

/-- The region of `n` bytes, reserved when they do not all lie in one (R531). -/
def rangeRegion (a n : Nat) : Region :=
  let r := regionOf a
  if r = regionOf (a + (n - 1)) then r else .reserved

/-- Physical core and offset in its stride (R182). -/
def coreOf (a : Nat) : Nat := a % 0x100000000 / 0x100000
def coreOff (a : Nat) : Nat := a % 0x100000

/-- The check-code unit that holds a byte: first address and bytes (R184, R187, R203, R208; Barista SRAM: log entry 21). -/
def unitOf (a : Nat) : Nat × Nat :=
  match regionOf a with
  | .core => if coreOff a < 0x80000 then (a - coreOff a % 3, 3) else (a - a % 4, 4)
  | .sram => (a - a % 0x100000 % 3, 3)
  | _ => (a - a % 8, 8)

/-- First addresses of the units that `n` bytes touch. -/
def unitsOf (a : Nat) : Nat → List Nat
  | 0 => []
  | n + 1 =>
    let u := (unitOf a).1
    let rest := unitsOf (a + 1) n
    if rest.head? = some u then rest else u :: rest

/-- Whether a unit is in error, and uncorrectably (R543). -/
def unitErr (s : State) (u : Nat) : Option Bool := kget s.memErr u

/-- Bits of one unit change (R543): its data, and what its check code makes of it from then on. -/
def upset (s : State) (x : Upset) : State :=
  let u := unitOf x.addr
  let data := (BitVec.ofNat (8 * u.2) (memNat s.mem u.1 u.2)) ^^^ BitVec.ofNat (8 * u.2) x.flip
  { s with
    mem := memWrite s.mem u.1 (toBytesLE u.2 data.toNat)
    memErr := match x.found with
      | .clean => kdel s.memErr u.1
      | .correctable => kput s.memErr u.1 false
      | .uncorrectable => kput s.memErr u.1 true }

/-- The changes of bits that a command names. -/
def upsets (s : State) (l : List Upset) : State := l.foldl upset s

/-- Who makes an access (CAR_ERR_STAT.requester, CAR_DRAM_ERR.source). -/
inductive MemWho
  | core (p : Nat) | runner | barista | host | jtag | scrub
  deriving DecidableEq, Repr

def carRequester : MemWho → Nat
  | .core p => p
  | .runner => 0xF0
  | .barista => 0xF1
  | .host => 0xF2
  | .jtag => 0xF3
  | .scrub => 0xF0

def dramSource : MemWho → Nat
  | .scrub => 0
  | .barista => 2
  | .host => 3
  | .jtag => 4
  | _ => 1

/-- The requester number of an initiator at a Carafe slice, a core's apart (R202). -/
def carNumber : MemWho → Option Nat
  | .runner => some 17
  | .barista => some 18
  | .host => some 19
  | .jtag => some 20
  | _ => none

/-- The slice half that holds an offset (R199). -/
def carHalf (off : Nat) : Nat := 2 * (off / 0x400000) + off / 8 % 2

/-- A request of each unit takes the next free round of its half from that of cycle t on (R200; log entry 62). -/
def takeRounds (s : State) (t num : Nat) (us : List Nat) : State :=
  { s with carLast := us.foldl (fun l u =>
      let h := carHalf (u % 0x2000000)
      let free := match kget l h with | some (_, r) => r + 1 | none => 0
      kput l h (num, max (t / 2) free)) s.carLast }

/-- The rounds that an initiator's access takes: none outside the Carafe. -/
def carRounds (s : State) (t : Nat) (w : MemWho) (us : List Nat) : State :=
  match carNumber w with
  | some n => if us.any fun u => decide (regionOf u = .carafe) then takeRounds s t n us else s
  | none => s

/-- A correctable error: corrected, written back and counted (R184, R187, R203, R211). -/
def corrected (s : State) (t u : Nat) : State :=
  let s := { s with memErr := kdel s.memErr u }
  match regionOf u with
  | .dram =>
    let s := s.noteReg t (regOff .carDramErr 0 0) (s.reg .carDramErr)
    countEvent (s.setFld .carDramErr 31 16 (min (s.fld .carDramErr 31 16 + 1) 0xFFFF)) t 0x05 (u / 256 % 8)
  | .carafe =>
    let s := s.noteReg t (regOff .carErrStat 0 0) (s.reg .carErrStat)
    countEvent (s.setFld .carErrStat 31 16 (min (s.fld .carErrStat 31 16 + 1) 0xFFFF)) t 0x04 (u % 0x2000000 / 0x400000)
  | .core => countEvent s t 0x03 (coreOf u)
  | _ => s

/-- An uncorrectable error in the Carafe is recorded and raises source 2 (R204, R205). -/
def carafeUe (s : State) (t : Nat) (w : MemWho) (u : Nat) (late : Bool) : State :=
  let s := if s.bit .carErrStat 0 then s.raise t .carErrStat 3
    else ((s.setFld .carErrStat 11 4 (carRequester w)).setFld .carErrStat 3 3 (ofBool late)).setReg .carErrAddr
      (BitVec.ofNat 32 (u % 0x2000000)) |>.raise t .carErrStat 1
  pulse s 2 t

/-- An uncorrectable error in the DRAM is recorded and raises source 3; an initiator that meets the scrubber's error in its cycle
is the one recorded (R211). -/
def dramUe (s : State) (t : Nat) (w : MemWho) (u : Nat) : State :=
  let twin := decide (s.reg .carDramErrAddr = BitVec.ofNat 32 (u / 64)) && bitOf (s.hwBits t (regOff .carDramErr 0 0)) 0 &&
    decide ((w = .scrub) ≠ (s.fld .carDramErr 7 4 = 0))
  let s := if twin then s.setFld .carDramErr 7 4 (max (s.fld .carDramErr 7 4) (dramSource w))
    else if s.bit .carDramErr 0 then s.raise t .carDramErr 3
    else ((s.setFld .carDramErr 7 4 (dramSource w)).setReg .carDramErrAddr (BitVec.ofNat 32 (u / 64))).raise t .carDramErr 1
  pulse s 3 t

/-- An uncorrectable error met by an access other than a core's own (R204, R211, R538). -/
def uncorrectable (s : State) (t : Nat) (w : MemWho) (u : Nat) : State :=
  match regionOf u with
  | .dram => dramUe s t w u
  | .carafe => carafeUe s t w u false
  | .core => pulse (countEvent s t 0x16 (coreOf u)) 12 t
  | _ => s

/-- Units corrected by an access. -/
def correctUnits (s : State) (t : Nat) (us : List Nat) : State :=
  us.foldl (fun s u => if unitErr s u = some false then corrected s t u else s) s

/-- Uncorrectable units among some. -/
def badUnits (s : State) (us : List Nat) : List Nat := us.filter fun u => unitErr s u = some true

/-- A read by an initiator: the data as read, and whether an uncorrectable error was met. -/
def readPhys (s : State) (t : Nat) (w : MemWho) (a n : Nat) : List Byte × Bool × State :=
  let us := unitsOf a n
  let bad := badUnits s us
  let s := correctUnits (carRounds s t w us) t us
  let s := bad.foldl (fun s u => uncorrectable s t w u) s
  (memRead s.mem a n, !bad.isEmpty, s)

/-- Whether a write of `n` bytes at `a` covers unit u whole. -/
def coversUnit (a n u : Nat) : Bool := decide (a ≤ u ∧ u + (unitOf u).2 ≤ a + n)

/-- A whole write of a unit repairs it (R543); a partial one corrects a correctable error. -/
def repairUnits (s : State) (t a n : Nat) (us : List Nat) : State :=
  us.foldl (fun s u =>
    if coversUnit a n u then { s with memErr := kdel s.memErr u }
    else if unitErr s u = some false then corrected s t u else s) s

/-- The bytes of a write that fall outside some units. -/
def writeSkipping (m : List Host.Cell) (skip : List Nat) : Nat → List Byte → List Host.Cell
  | _, [] => m
  | a, b :: bs => writeSkipping (if skip.contains (unitOf a).1 then m else memSet m a b) skip (a + 1) bs

/-- A write by an initiator: a partly covered unit with an uncorrectable error is left unchanged (R538, R540); whether any
was. -/
def writePhys (s : State) (t : Nat) (w : MemWho) (a : Nat) (bs : List Byte) : Bool × State :=
  let us := unitsOf a bs.length
  let bad := (badUnits s us).filter fun u => !coversUnit a bs.length u
  let s := repairUnits (carRounds s t w us) t a bs.length us
  let s := { s with mem := writeSkipping s.mem bad a bs }
  (!bad.isEmpty, bad.foldl (fun s u => uncorrectable s t w u) s)

/-- A core's memories and CORE registers take no writes while a takeover holds the core (R473). -/
def coreHeld (s : State) (p : Nat) : Bool :=
  match s.takeover with | some k => decide (p = k.p ∨ p = k.s) | none => false

/-- Whether a write to a core's memories is ignored: the Runner's placements into the spare after the copy are not (R473). -/
def writeHeld (s : State) (w : MemWho) (p : Nat) : Bool :=
  coreHeld s p && !(match s.takeover with | some k => k.copied && decide (w = .runner ∧ p = k.s) | none => false)

/-- The logical core that a physical core serves for queues: after a takeover's copy the spare serves it (R473). -/
def servedBy (s : State) (p : Nat) : Option Nat :=
  match s.takeover with
  | some k => if p = k.p then none else if k.copied ∧ p = k.s then some k.l else s.lcoreOf p
  | none => s.lcoreOf p

/-- The physical core that placements and landings for a logical core go to (R32, R285, R473). -/
def landCore (s : State) (l : Nat) : Option Nat :=
  match s.takeover with
  | some k => if l = k.l then (if k.copied then some k.s else none) else s.physOf l
  | none => s.physOf l

/-- Bytes of the stride that hold memory (R182, R183). -/
def coreByte (off : Nat) : Bool := decide (off < 0x7FFFE ∨ (0x80000 ≤ off ∧ off < 0xA0000))

/-- Old bytes of the executing bank that fetch still sees after another initiator's write (R179). -/
def oldByCycle (s : State) (p a : Nat) (n t : Nat) (act : Nat) : List OldByte :=
  ((List.range n).filter fun i => decide (coreOff (a + i) / 0x10000 = 8 + act ∧ coreOf (a + i) = p)).map fun i =>
    { addr := a + i, old := memGet s.mem (a + i), bundle := 0, cycle := t + 4 }

/-- The runs of bytes of an external access that hold memory: bytes outside read 0 and ignore writes (R182, R183). -/
def coreMask (a : Nat) (bs : List Byte) : List Byte :=
  bs.mapIdx fun i b => if coreByte (coreOff (a + i)) then b else 0

/-- Old bytes noted in cycle t: the first note of a byte in a cycle stands (R185). -/
def noteOld (rec : Nat × List (Nat × Byte)) (m : List Host.Cell) (t a n : Nat) : Nat × List (Nat × Byte) :=
  let l := if rec.1 = t then rec.2 else []
  (t, (List.range n).foldl (fun l i =>
    if l.any (fun e => decide (e.1 = a + i)) then l else (a + i, memGet m (a + i)) :: l) l)

/-- Bytes from `a` on with the bytes overwritten in cycle t as they stood before it (R185). -/
def asBefore (rec : Nat × List (Nat × Byte)) (t a : Nat) (bs : List Byte) : List Byte :=
  if rec.1 = t then bs.mapIdx fun i b =>
    match rec.2.find? fun e => decide (e.1 = a + i) with | some e => e.2 | none => b
  else bs

/-- The bytes of an external write with those that a core store wrote in the same cycle kept (R185). -/
def coreWins (s : State) (t a : Nat) (bs : List Byte) : List Byte :=
  if s.coreOld.1 = t then bs.mapIdx fun i b =>
    if s.coreOld.2.any fun e => decide (e.1 = a + i) then memGet s.mem (a + i) else b
  else bs

/-- A write through the external port of a core memory (R185, R538). -/
def extWrite (s : State) (t : Nat) (w : MemWho) (a : Nat) (bs : List Byte) : Bool × State :=
  let p := coreOf a
  if writeHeld s w p then (false, s.raise t .sysSpareStat 0x10000)
  else
    let old := oldByCycle s p a bs.length t (s.fld .corePbank 0 0 p)
    let s := { s with extOld := noteOld s.extOld s.mem t a bs.length }
    let r := writePhys s t w a (coreWins s t a (coreMask a bs))
    let c := r.2.core (.eduno p)
    (r.1, r.2.setCore (.eduno p) { c with old := c.old.filter (fun o => decide (t < o.cycle ∨ c.bcount < o.bundle)) ++ old })

/-- A read through the external port of a core memory (R185, R538). -/
def extRead (s : State) (t : Nat) (w : MemWho) (a n : Nat) : List Byte × Bool × State :=
  let r := readPhys s t w a n
  (coreMask a (asBefore s.coreOld t a r.1), r.2)

end Sys2Proof.Machine
end

