-- ==== Sys2Proof/Machine/Carafe.lean ====
section
/-! DEFINITION. The Carafe port of a control core, its store buffer, and the arbitration of a slice half (R190 to R207). -/

namespace Sys2Proof.Machine

/-- Bytes of a Carafe access by kind: w, d, l (R140, R191). -/
def carBytes (kind : Nat) : Nat := match kind with | 0 => 3 | 1 => 6 | _ => 4

/-- The pieces of an access, one for each 8-byte unit: offset and length (R199). -/
def carPieces (off n : Nat) : List (Nat × Nat) :=
  let first := min n (8 - off % 8)
  if first < n then [(off, first), (off + first, n - first)] else [(off, n)]

/-- Whether a slice is local to a core (R190, R27); a Barista core enters with age 0 (R201). -/
def sliceLocal (w : CoreSel) (slice : Nat) : Bool :=
  match w with
  | .eduno p => if p < 64 then decide (p / 8 = slice) else decide (slice / 2 = p - 64)
  | .barista _ => true

/-- The requester number of a core at a slice (R202). -/
def requester (w : CoreSel) (slice : Nat) : Nat :=
  match w with
  | .barista _ => 18
  | .eduno p =>
    let home := if p < 64 then p / 8 else 2 * (p - 64)
    if sliceLocal w slice then (if p < 64 then p % 8 else 8)
    else 10 + (if home < slice then home else home - 1)

/-- The cluster whose rights judge a core (R206). -/
def judgedCluster (s : State) (p : Nat) : Nat :=
  match s.lcoreOf p with
  | some l => l / 8
  | none => if p < 64 then p / 8 else 2 * (p - 64)

/-- Whether the partitions allow an access of one unit (R207). -/
def partitionAllows (s : State) (cluster off n : Nat) (store : Bool) : Bool :=
  match (List.range 32).find? fun i =>
      s.bit .carPartLim 0 i && decide (4096 * s.fld .carPartBase 24 12 i ≤ off) &&
      decide (off < 4096 * s.fld .carPartLim 24 12 i + 4096) with
  | none => false
  | some i =>
    decide (off + n ≤ 4096 * s.fld .carPartLim 24 12 i + 4096) &&
      s.bit .carPartAcc ((if store then 0 else 8) + cluster) i

/-- Carafe offset of a side of a bank in the Carafe. -/
def bankBase (s : State) (k : Nat) (side : Bool) : Nat :=
  4096 * (if side then s.fld .carBankB 24 12 k else s.fld .carBankA 24 12 k)

/-- The enabled bank whose home range shares a byte with an access (R406). -/
def bankHit (s : State) (off n : Nat) : Option Nat :=
  (List.range 64).find? fun k => s.bit .carBankA 0 k &&
    decide (bankBase s k false < off + n ∧ off < bankBase s k false + 4096 * s.fld .carBankLen 12 0 k)

/-- Whether a bank allows an access: a load wholly inside its home range (R406). -/
def bankAllows (s : State) (off n : Nat) (store : Bool) : Bool :=
  match bankHit s off n with
  | none => true
  | some k => !store && decide (bankBase s k false ≤ off ∧
      off + n ≤ bankBase s k false + 4096 * s.fld .carBankLen 12 0 k)

/-- Where a core's load triggered in cycle t reads: the active side, and in a crossfade pour the old side with the step j (R406
to R408). A Barista core is not redirected (DEDUCED, log entry 51). -/
def bankRedirect (s : State) (w : CoreSel) (off n kind t : Nat) : Nat × Option (Nat × Nat) :=
  match w, bankHit s off n with
  | .eduno _, some k =>
    let act := s.bit .carBankLen 16 k
    let at' (side : Bool) : Nat := off - bankBase s k false + bankBase s k side
    (at' act, match kget s.audio.xfades k with
      | some b => if kind < 2 then some (at' (!act), min 255 (256 * (t - b) / s.pourLen)) else none
      | none => none)
  | _, _ => (off, none)

/-- The exception kind of a Carafe access at its trigger: 0 unmapped, 1 protection (R192, R207, R406, R413). -/
def carCheck (s : State) (w : CoreSel) (off n : Nat) (store : Bool) : Option Nat :=
  if 0x2000000 < off + n then some 0
  else match w with
    | .barista _ => none
    | .eduno p =>
      if bankAllows s off n store && (carPieces off n).all fun x => partitionAllows s (judgedCluster s p) x.1 x.2 store then none
      else some 1

/-- Whether two byte ranges share a byte, and whether the first holds the second whole. -/
def overlaps (a n b m : Nat) : Bool := decide (a < b + m ∧ b < a + n)
def holds (a n b m : Nat) : Bool := decide (a ≤ b ∧ b + m ≤ a + n)

/-- The Carafe load in flight of a unit set (R193, R221). -/
def loadOf (c : Core) (sup : Bool) : Option CarLoad := if sup then c.carS else c.carU
def setLoad (c : Core) (sup : Bool) (l : Option CarLoad) : Core := if sup then { c with carS := l } else { c with carU := l }

/-- A Carafe load triggered in cycle t (R193, R197): it replaces an earlier one, and it is compared with the store buffer,
the youngest overlapping entry deciding. -/
def carLoadStart (s : State) (w : CoreSel) (off kind slot : Nat) (sup : Bool) (t : Nat) : State :=
  let c := s.core w
  let n := carBytes kind
  let b := bankRedirect s w off n kind t
  let base : CarLoad := { off := off, real := b.1, blend := b.2, kind := kind, at' := t, slot := slot, sup := sup, granted := [], grantAt := t
                          entered := t, fwd := false, waits := none, data := List.replicate n 0, bad := false }
  match c.stbuf.reverse.find? fun e => overlaps e.off (carBytes e.kind) off n with
  | none => s.setCore w (setLoad c sup (some base))
  | some e =>
    if holds e.off (carBytes e.kind) off n then
      s.setCore w (setLoad c sup (some { base with fwd := true, data := (e.data.drop (off - e.off)).take n }))
    else
      let s := s.setCore w (setLoad c sup (some { base with waits := some e.id }))
      match w with
      | .eduno p => countEvent s t 0x06 p
      | .barista _ => s

/-- A Carafe store enters the store buffer (R195); the standby pair's stores are ignored (R421). -/
def carStoreStart (s : State) (w : CoreSel) (off kind : Nat) (v : W48) (t : Nat) : State :=
  let c := s.core w
  let ignored := match w with | .barista r => decide (r ≠ s.activePair) | .eduno _ => false
  if ignored then s else
    s.setCore w { c with stNext := c.stNext + 1
                         stbuf := c.stbuf ++ [{ id := c.stNext, off := off, kind := kind
                                                data := toBytesLE (carBytes kind) v.toNat, entered := t, granted := []
                                                bad := false }] }

/-- Replacing part of a byte list. -/
def splice (l : List Byte) (at' : Nat) (part : List Byte) : List Byte :=
  l.take at' ++ part ++ l.drop (at' + part.length)

def memWhoOf : CoreSel → MemWho
  | .eduno p => .core p
  | .barista _ => .barista

/-- Piece i of the load of a unit set of a core is granted in cycle t: its bytes are read in that round (R200, R203, R204). -/
def grantLoad (s : State) (w : CoreSel) (sup : Bool) (i t : Nat) : State :=
  match loadOf (s.core w) sup with
  | none => s
  | some ld =>
    match (carPieces ld.real (carBytes ld.kind))[i]? with
    | none => s
    | some (o, n) =>
      if ld.granted.contains i then s else
        let r := readPhys s t (memWhoOf w) (carBase + o) n
        r.2.2.setCore w (setLoad (r.2.2.core w) sup (some { ld with
          granted := i :: ld.granted, grantAt := t, data := splice ld.data (o - ld.real) r.1, bad := ld.bad || r.2.1 }))

/-- Piece i of the oldest store-buffer entry of a core is granted in cycle t: its bytes are written, or its unit is left
unchanged (R200, R203, R204). -/
def grantStore (s : State) (w : CoreSel) (i t : Nat) : State :=
  match (s.core w).stbuf with
  | [] => s
  | e :: rest =>
    match (carPieces e.off (carBytes e.kind))[i]? with
    | none => s
    | some (o, n) =>
      if e.granted.contains i then s else
        let us := unitsOf (carBase + o) n
        let bad := (badUnits s us).filter fun u => !coversUnit (carBase + o) n u
        let s := repairUnits s t (carBase + o) n us
        let s := { s with mem := writeSkipping s.mem bad (carBase + o) ((e.data.drop (o - e.off)).take n) }
        let s := bad.foldl (fun s u => carafeUe s t (memWhoOf w) u true) s
        s.setCore w { s.core w with stbuf := { e with granted := i :: e.granted, bad := e.bad || !bad.isEmpty } :: rest }

/-- A request waiting at a slice half: core, load of a unit set or store, piece, requester and age (R201, R202). -/
structure CarReq where
  who : CoreSel
  load : Option Bool
  piece : Nat
  num : Nat
  age : Nat
  entered : Nat
  deriving DecidableEq, Repr

/-- The pieces of an access that wait at a half. -/
def waitingPieces (off n half : Nat) (granted : List Nat) : List Nat :=
  (List.range 2).filter fun i =>
    match (carPieces off n)[i]? with
    | some (o, _) => decide (carHalf o = half) && !granted.contains i
    | none => false

/-- The requests of one core at a half in cycle t. -/
def coreReqs (s : State) (half t : Nat) (w : CoreSel) : List CarReq :=
  let c := s.core w
  let slice := half / 2
  let mk (load : Option Bool) (entered i : Nat) : CarReq :=
    ⟨w, load, i, requester w slice, t / 2 - entered / 2 + (if sliceLocal w slice then 0 else 3), entered⟩
  [true, false].flatMap (fun sup =>
    match loadOf c sup with
    | some ld =>
      if ld.fwd ∨ ld.waits.isSome ∨ t < ld.entered then [] else
        (waitingPieces ld.real (carBytes ld.kind) half ld.granted).map (mk (some sup) ld.entered)
    | none => []) ++
  (match c.stbuf with
   | e :: _ => if t < e.entered then [] else (waitingPieces e.off (carBytes e.kind) half e.granted).map (mk none e.entered)
   | [] => [])

/-- Every request at a half. -/
def halfReqs (s : State) (half t : Nat) : List CarReq :=
  ((List.range 68).map CoreSel.eduno ++ [CoreSel.barista s.activePair]).flatMap (coreReqs s half t)

/-- Of one requester's requests the one that entered first is offered; a load before a store of the same cycle (R202). -/
def offered (l : List CarReq) : Option CarReq :=
  l.foldl (fun a r => match a with
    | none => some r
    | some b => if r.entered < b.entered ∨ (r.entered = b.entered ∧ r.load.isSome ∧ b.load.isNone) then some r else a) none

/-- The oldest request with an age of 16 or more; among equals the lower requester number (R201). -/
def oldestReq (l : List CarReq) : Option CarReq :=
  (l.filter fun r => decide (16 ≤ r.age)).foldl (fun a r => match a with
    | none => some r
    | some b => if b.age < r.age ∨ (r.age = b.age ∧ r.num < b.num) then some r else a) none

/-- The grant of a round at a half (R201): the request granted, if any waits. -/
def arbitrate (s : State) (half t : Nat) : Option CarReq :=
  let rs := halfReqs s half t
  let offers := (List.range 21).filterMap fun n => offered (rs.filter fun r => decide (r.num = n))
  match oldestReq offers with
  | some r => some r
  | none =>
    let start := match kget s.carLast half with | some (n, _) => n + 1 | none => 0
    ((List.range 21).map fun i => (start + i) % 21).findSome? fun n => offers.find? fun r => decide (r.num = n)

/-- One arbitration round of a half in cycle t: at most one grant a round (R200, R201). -/
def carafeGrant (s : State) (half t : Nat) : State :=
  let round := t / 2
  let done := match kget s.carLast half with | some (_, r) => decide (round ≤ r) | none => false
  if done = true then s else
    match arbitrate s half t with
    | none => s
    | some r =>
      let s := { s with carLast := kput s.carLast half (r.num, round) }
      match r.load with
      | some sup => grantLoad s r.who sup r.piece t
      | none => grantStore s r.who r.piece t

/-- The least time from trigger to data ready: 2 forwarded, 6 local, 14 remote (R55, R197). -/
def loadLatency (w : CoreSel) (ld : CarLoad) : Nat :=
  if ld.fwd then 2
  else if (carPieces ld.real (carBytes ld.kind)).all fun x => sliceLocal w (x.1 / 0x400000) then 6 else 14

/-- car.r as a load of a kind delivers it (R191). -/
def carValue (kind : Nat) (data : List Byte) : W48 :=
  let v := ofBytesLE data
  match kind with
  | 0 => sext48 24 v
  | _ => zext48 v

/-- The words of a crossfaded load (R408): o + rhe((v − o) × j ÷ 256), old and new word by word. -/
def blendWords (j : Nat) : Nat → List Byte → List Byte → List Byte
  | 0, _, _ => []
  | n + 1, o, v =>
    let a := (BitVec.ofNat 24 (ofBytesLE (o.take 3))).toInt
    let b := (BitVec.ofNat 24 (ofBytesLE (v.take 3))).toInt
    toBytesLE 3 (BitVec.ofInt 24 (a + rhe ((b - a) * (j : Int)) 256)).toNat ++ blendWords j n (o.drop 3) (v.drop 3)

/-- A load whose pieces have all been read, with the blend of a crossfade pour (R408). -/
def carBlend (s : State) (w : CoreSel) (ld : CarLoad) (t : Nat) : CarLoad × State :=
  match ld.blend with
  | none => (ld, s)
  | some (o, j) =>
    let n := carBytes ld.kind
    let r := readPhys s t (memWhoOf w) (carBase + o) n
    ({ ld with data := blendWords j (n / 3) r.1 ld.data, bad := ld.bad || r.2.1, blend := none }, r.2.2)

/-- The data of a unit set's load reaches its result port (R193, R204, R408). -/
def carDeliver (s : State) (w : CoreSel) (sup : Bool) (t : Nat) : State :=
  match loadOf (s.core w) sup with
  | none => s
  | some ld =>
    let b := if ld.fwd then (ld, s) else carBlend s w ld t
    let c := b.2.core w
    let u := unitsFor c sup
    let u := { u with carR := carValue ld.kind b.1.data, carErr := if b.1.bad then some (ld.off, ld.slot) else none }
    b.2.setCore w (setUnits (setLoad c sup none) sup u)

/-- Whether every piece of a load is granted, or it is forwarded. -/
def loadGranted (ld : CarLoad) : Bool :=
  ld.fwd || (List.range (carPieces ld.real (carBytes ld.kind)).length).all fun i => ld.granted.contains i

/-- A piece that no CARAFE_GRANT has granted is granted as its access ends, in the next free round of its half (log entry 62). -/
def grantNow (s : State) (w : CoreSel) (off n i t : Nat) (granted : List Nat) (f : State → State) : State :=
  match (carPieces off n)[i]? with
  | some (o, m) => if granted.contains i then s else f (takeRounds s t (requester w (o / 0x400000)) (unitsOf (carBase + o) m))
  | none => s

/-- Whether a load's data can be ready in cycle t (R55, R197). -/
def loadMayEnd (w : CoreSel) (t : Nat) (ld : CarLoad) : Bool := ld.waits.isNone && decide (ld.entered + loadLatency w ld ≤ t)

/-- The data of a unit set's load becomes ready in cycle t (R193, R197, R204). -/
def loadReady (s : State) (w : CoreSel) (sup : Bool) (ld : CarLoad) (t : Nat) : State :=
  let n := carBytes ld.kind
  let one (i : Nat) (s : State) : State := grantNow s w ld.real n i t ld.granted fun s => grantLoad s w sup i t
  carDeliver (if ld.fwd then s else one 1 (one 0 s)) w sup t

/-- CARAFE_LOAD_READY: of a core's loads that can be ready, the one that entered first. -/
def carafeLoadReady (s : State) (w : CoreSel) (t : Nat) : State :=
  let c := s.core w
  match c.carU.filter (loadMayEnd w t), c.carS.filter (loadMayEnd w t) with
  | some a, some b => if a.entered ≤ b.entered then loadReady s w false a t else loadReady s w true b t
  | some a, none => loadReady s w false a t
  | none, some b => loadReady s w true b t
  | none, none => s

/-- The least time of a store: 6 local, 14 remote (R55, R195). -/
def storeLatency (w : CoreSel) (e : StEntry) : Nat :=
  if (carPieces e.off (carBytes e.kind)).all fun x => sliceLocal w (x.1 / 0x400000) then 6 else 14

/-- The oldest store-buffer entry is performed and freed in cycle t (R195, R197, R204, R219). -/
def storePerformed (s : State) (w : CoreSel) (t : Nat) : State :=
  match (s.core w).stbuf with
  | [] => s
  | e :: _ =>
    if t < e.entered + storeLatency w e then s else
      let one (i : Nat) (s : State) : State :=
        grantNow s w e.off (carBytes e.kind) i t e.granted fun s => grantStore s w i t
      let s := one 1 (one 0 s)
      let c := s.core w
      match c.stbuf with
      | [] => s
      | e :: rest =>
        let rest := match rest with | f :: r => { f with entered := t } :: r | [] => []
        let freed (l : CarLoad) : CarLoad := if l.waits = some e.id then { l with waits := none, entered := t } else l
        let late := if e.bad ∧ c.lateStore.isNone then some (BitVec.ofNat 32 e.off) else c.lateStore
        presentCore (s.setCore w { c with
          stbuf := rest, carU := c.carU.map freed, carS := c.carS.map freed, lateStore := late }) w t

end Sys2Proof.Machine
end

