-- ==== Sys2Proof/Machine/Runner.lean ====
section
/-! DEFINITION. Runner queues: descriptors, sends, receives, the queue operations of the Barista and the host, events, errors
and the Runner's part of the tick (R273 to R297). -/

namespace Sys2Proof.Machine

/-! ### Descriptor fields (R277) -/

/-- A queue found invalid takes no operation from the write of en on (R279, R281). -/
def qEn (s : State) (h : Nat) : Bool := bitOf (s.qdWord h 4).toNat 31 && !(s.queue h).bad
def qKind (s : State) (h : Nat) : Nat := s.qdFld h 4 30 29
def qOwnerHost (s : State) (h : Nat) : Bool := bitOf (s.qdWord h 4).toNat 28
def qShed (s : State) (h : Nat) : Nat := s.qdFld h 4 27 25
def qSrc (s : State) (h : Nat) : Nat := s.qdFld h 4 21 16
def qBsize (s : State) (h : Nat) : Nat := s.qdFld h 4 10 0
def qProducer (s : State) (h : Nat) : Nat := s.qdFld h 0 31 16
def qConsumer (s : State) (h : Nat) : Nat := s.qdFld h 0 15 0
def qStore (s : State) (h : Nat) : Nat := (s.qdWord h 8).toNat * 256
def qCapacity (s : State) (h : Nat) : Nat := s.qdFld h 0xC 31 16
def qCredits (s : State) (h : Nat) : Nat := s.qdFld h 0xC 15 0
def qWatermark (s : State) (h : Nat) : Nat := s.qdFld h 0x10 31 16
def qTimeout (s : State) (h : Nat) : Nat := s.qdFld h 0x10 15 0
def qQuota (s : State) (h : Nat) : Nat := s.qdFld h 0x14 31 16
def qCredLeft (s : State) (h : Nat) : Nat := s.qdFld h 0x14 15 0
def qLslot (s : State) (h : Nat) : Nat := s.qdFld h 0x18 31 31
def qLanding (s : State) (h : Nat) : Nat := s.qdFld h 0x18 18 0
def qCount (s : State) (h : Nat) : Nat := s.qdFld h 0x1C 31 16
def qHead (s : State) (h : Nat) : Nat := s.qdFld h 0x1C 15 0

/-- Class and index of an endpoint (R274). -/
def epClass (e : Nat) : Nat := e / 4096
def epIndex (e : Nat) : Nat := e % 4096

/-- Handles of the queues that have been enabled. -/
def queueHandles (s : State) : List Nat := (s.queues.map Prod.fst).filter fun h => qEn s h

/-- Bytes of one slot of a queue's store (R275). -/
def slotBytes (s : State) (h : Nat) : Nat := if qKind s h = 0 then 8 else 3 * qBsize s h

/-- An error record of the Runner, with the pulse of its source (R293, R294, R296). -/
def runErr (s : State) (t h kind : Nat) : State :=
  let s := s.record t .runErr (BitVec.ofNat 32 (h * 2 ^ 16 + kind * 2 ^ 8))
  pulse s (if kind = 1 ∨ kind = 6 then 192 else if kind = 2 ∨ kind = 3 then 193 else if kind = 4 then 194 else 195) t

/-- An error of a queue's store or block sets err and raises its event (R293, R294). -/
def queueErr (s : State) (t h kind : Nat) : State :=
  let s := runErr (s.setQdFld h 0x18 28 28 1) t h kind
  if bitOf (s.qdWord h 4).toNat 24 then pulse s (192 + qSrc s h) t else s

/-! ### Enabling (R275, R279) -/

/-- A class and an index that name an endpoint (R274, R340, R350). -/
def epValid (e : Nat) : Bool :=
  match epClass e with
  | 0 => decide (epIndex e < 64)
  | 1 | 2 => decide (epIndex e = 0)
  | 3 | 4 | 5 => true
  | 6 => decide (epIndex e < 512)
  | 7 => decide (epIndex e < 96 ∨ epIndex e = 256)
  | _ => false

/-- The producer and consumer classes that each kind joins (R275). -/
def kindJoins (kind pc cc : Nat) : Bool :=
  match kind with
  | 0 => [0, 1, 2, 5, 7].contains pc && [0, 1, 2, 5].contains cc
  | 1 => pc == 0 && cc == 0
  | _ => [0, 3, 4, 6, 7].contains pc && [0, 3, 4, 6].contains cc

/-- Whether a Crema endpoint joins a kind: a sense path a scheduled queue, the record stream a message queue (R350). -/
def cremaJoins (kind e : Nat) : Bool := decide (epClass e ≠ 7 ∨ ((kind = 0) = (epIndex e = 256)))

/-- Whether a descriptor is invalid (R279). -/
def qInvalid (s : State) (h : Nat) : Bool :=
  let k := qKind s h
  let w := (s.qdWord h 4).toNat
  decide (k = 3) || !epValid (qProducer s h) || !epValid (qConsumer s h) ||
  !kindJoins k (epClass (qProducer s h)) (epClass (qConsumer s h)) || !cremaJoins k (qProducer s h) ||
  decide (qCapacity s h = 0) || decide (qCredits s h = 0) ||
  decide (k = 2 ∧ (qCapacity s h ≠ 2 ∨ qCredits s h ≠ 1)) ||
  decide (k ≠ 0 ∧ (qBsize s h = 0 ∨ 1024 < qBsize s h)) ||
  ((bitOf w 24 || bitOf w 23 || bitOf w 22) && decide (qSrc s h < 8))

/-- The check made when en is set: an invalid queue is recorded, and disabled again in the next cycle; a primed queue's items become
items now (R279, R293). Before the first tick no pour has a count to compare with (R295). -/
def enableQueue (s : State) (t h : Nat) : State :=
  if qInvalid s h then runErr (s.setQueue h { QueueSt.empty with bad := true, clearAt := some (t + 1) }) t h 1
  else s.setQueue h { QueueSt.empty with atTick := if s.lastTick.isNone then 0 else qCount s h, born := List.replicate (qCount s h) (t, false) }

/-- en of an invalid queue is cleared in the cycle after the write that set it (R279). -/
def clearEn (s : State) (h : Nat) : State :=
  (s.setQdFld h 4 31 31 0).setQueue h { s.queue h with clearAt := none }

/-! ### Events -/

/-- count rises to watermark (R293). -/
def watermarkEvent (s : State) (t h : Nat) : State :=
  if bitOf (s.qdWord h 4).toNat 22 ∧ qWatermark s h ≠ 0 ∧ qCount s h = qWatermark s h then
    if epClass (qConsumer s h) = 0 then
      match s.physOf (epIndex (qConsumer s h)) with
      | some p => privPulse s p 2 t
      | none => s
    else pulse s (192 + qSrc s h) t
  else s

/-- An item becomes an item at the tail (R281, R293). -/
def appendItem (s : State) (t h : Nat) : State :=
  let q := s.queue h
  let s := s.setQdFld h 0x1C 31 16 (qCount s h + 1)
  watermarkEvent (s.setQueue h { q with born := q.born ++ [(t, false)] }) t h

/-- The slot behind the last item. -/
def tailSlot (s : State) (h : Nat) : Nat := (qHead s h + qCount s h) % max 1 (qCapacity s h)

/-- The refusal of an operation: the flag, private source 3 for a core, and the count (R281, R297). -/
def refuse (s : State) (t h who : Nat) : State :=
  let s := countEvent (s.setQdFld h 0x18 30 30 1) t 0x08 who
  if who < 68 then privPulse s who 3 t else s

/-- The oldest item leaves the queue. -/
def dropItem (s : State) (h : Nat) : State :=
  let q := s.queue h
  let s := s.setQdFld h 0x1C 31 16 (qCount s h - 1)
  let s := s.setQdFld h 0x1C 15 0 ((qHead s h + 1) % max 1 (qCapacity s h))
  s.setQueue h { q with born := q.born.drop 1, taken := q.taken + 1 }

/-- Sends accepted and not yet in the store (R281). -/
def inTransit (s : State) (h : Nat) : Nat :=
  s.cores.foldl (fun a c => a + (c.sends.filter fun e => e.q = h).length) 0 +
  (s.iops.filter fun e => e.2.q = h ∧ !e.2.recv ∧ e.2.result = 0).length

/-- Whether an item is a valid block reference of a queue (R276). -/
def blockRefOk (s : State) (h : Nat) (item : W48) : Bool :=
  let a := item.toNat % 2 ^ 32
  decide (a % 3 = 0 ∧ a + 3 * qBsize s h ≤ 524286)

/-! ### Operations from a core -/

/-- Whether a send by physical core p with `n` entries in its send buffer is refused (R281). A release that replaces one of its pour
needs no credit of its own (R290; log entry 75). -/
def sendRefused (s : State) (p h n : Nat) (again : Bool) (item : W48) : Bool :=
  !qEn s h ||
  !(match s.lcoreOf p with | some l => decide (qProducer s h = l) | none => false) ||
  (decide (qKind s h ≠ 0) && !blockRefOk s h item) ||
  (decide (qCredLeft s h = 0) && !(again && decide (qKind s h = 2))) ||
  (decide (qKind s h ≠ 2) && decide (qCapacity s h ≤ qCount s h + inTransit s h)) ||
  (decide (qKind s h ≠ 2) && decide (8 ≤ n))

/-- A send in cycle t by physical core p (R281, R282, R290). -/
def coreSend (s : State) (p h : Nat) (item : W48) (t : Nat) : State :=
  let c := s.core (.eduno p)
  let again := c.staged.any fun e => decide (e.1 = h)
  if sendRefused s p h c.sends.length again item then refuse s t h p
  else
    let s := if again && decide (qKind s h = 2) then s else s.setQdFld h 0x14 15 0 (qCredLeft s h - 1)
    if qKind s h = 2 then
      s.setCore (.eduno p) { c with staged := c.staged.filter (fun e => decide (e.1 ≠ h)) ++ [(h, item)] }
    else s.setCore (.eduno p) { c with sends := c.sends ++ [⟨h, item, t⟩] }

/-- Data words of a block read from the producer's data memory; every word 0 on an uncorrectable error (R294). -/
def readBlock (s : State) (t h p addr n : Nat) : List Byte × State :=
  let r := extRead s t .runner (coreBase + 0x100000 * p + addr) n
  if r.2.1 then (List.replicate n 0, queueErr r.2.2 t h 3) else (r.1, r.2.2)

/-- A slot of a store read; 0 on an uncorrectable error (R294). -/
def readSlot (s : State) (t h slot : Nat) : List Byte × State :=
  let n := slotBytes s h
  let r := readPhys s t .runner (qStore s h + n * slot) n
  if r.2.1 then (List.replicate n 0, queueErr r.2.2 t h 2) else (r.1, r.2.2)

/-- A slot of a store written (R540). -/
def writeSlot (s : State) (t h slot : Nat) (bs : List Byte) : State :=
  let r := writePhys s t .runner (qStore s h + slotBytes s h * slot) bs
  if r.1 then queueErr r.2 t h 2 else r.2

/-- The oldest send of core p reaches its store (R281, R282). -/
def sendStored (s : State) (p t : Nat) : State :=
  let c := s.core (.eduno p)
  match c.sends with
  | [] => s
  | e :: rest =>
    let s := s.setCore (.eduno p) { c with sends := rest }
    if qKind s e.q = 0 then
      appendItem (writeSlot s t e.q (tailSlot s e.q) (toBytesLE 8 e.item.toNat)) t e.q
    else
      let r := readBlock s t e.q p (e.item.toNat % 2 ^ 32) (slotBytes s e.q)
      appendItem (writeSlot r.2 t e.q (tailSlot r.2 e.q) r.1) t e.q

/-- Whether a queue takes a message item from a port endpoint of its producer (R281). -/
def portTakes (s : State) (h e : Nat) : Bool :=
  qEn s h && decide (qProducer s h = e) && decide (qKind s h = 0) && decide (qCredLeft s h ≠ 0) &&
    decide (qCount s h + inTransit s h < qCapacity s h)

/-- A message item that a port endpoint sends reaches its store (R281). -/
def portSend (s : State) (t h : Nat) (item : W48) : State :=
  let s := s.setQdFld h 0x14 15 0 (qCredLeft s h - 1)
  appendItem (writeSlot s t h (tailSlot s h) (toBytesLE 8 item.toNat)) t h

/-- Whether a receive by physical core p on a queue is refused (R286). -/
def recvRefused (s : State) (p h : Nat) : Bool :=
  !qEn s h || !(match servedBy s p with | some l => decide (qConsumer s h = l) | none => false) || decide (qKind s h = 2)

/-- The receive outstanding in a unit set (R287). -/
def rcvOf (c : Core) (sup : Bool) : Option Rcv := if sup then c.rcvS else c.rcvU
def setRcv (c : Core) (sup : Bool) (r : Option Rcv) : Core := if sup then { c with rcvS := r } else { c with rcvU := r }

/-- A receive with a timeout started in cycle t; a refused one ends in the next cycle as a timeout (R284, R286, R287). -/
def coreReceive (s : State) (p h timeout : Nat) (sup : Bool) (t : Nat) : State :=
  let c := s.core (.eduno p)
  if recvRefused s p h then
    refuse (s.setCore (.eduno p) (setRcv c sup (some ⟨h, t, t + 1, true, false⟩))) t h p
  else s.setCore (.eduno p) (setRcv c sup (some ⟨h, t, t + timeout, false, false⟩))

/-- A block's landing and the address delivered (R285). -/
def landBlock (s : State) (t h p : Nat) (bs : List Byte) : W48 × State :=
  let a := qLanding s h + bs.length * qLslot s h
  let r := extWrite s t .runner (coreBase + 0x100000 * p + a) bs
  let s := if r.1 then runErr r.2 t h 2 else r.2
  (BitVec.ofNat 48 a, s.setQdFld h 0x18 31 31 (1 - qLslot s h))

/-- Whether the outstanding receive of core p can take an item in cycle t (R284, R286, R289, R301): its queue has one, and every send
that the core made before it has been stored. -/
def rcvHasItem (s : State) (p : Nat) (r : Rcv) : Bool :=
  !r.refused && !recvRefused s p r.q && decide (qCount s r.q ≠ 0) &&
    (s.core (.eduno p)).sends.all fun e => decide (r.at' ≤ e.at')

/-- The receive `r` of a unit set ends with the oldest item (R284, R285). -/
def rcvTake (s : State) (p : Nat) (sup : Bool) (r : Rcv) (t : Nat) : State :=
  let b := readSlot s t r.q (qHead s r.q)
  let s := dropItem b.2 r.q
  let d := if qKind s r.q = 0 then (BitVec.ofNat 48 (ofBytesLE (b.1.take 6)), s) else landBlock s t r.q p b.1
  let c := d.2.core (.eduno p)
  let u := unitsFor c sup
  d.2.setCore (.eduno p) (setRcv (setUnits c sup { u with qioR := d.1, qioTo := false }) sup none)

/-- RECEIVE_ITEM_DELIVERED: the outstanding receive of a unit set ends with an item, in its expiry cycle at the latest, but for one
that found an item as an exit started it again (R230, R284). -/
def receiveDelivered (s : State) (p : Nat) (sup : Bool) (t : Nat) : State :=
  match rcvOf (s.core (.eduno p)) sup with
  | none => s
  | some r => if r.at' ≤ t ∧ (t ≤ r.expiry ∨ r.sure) ∧ rcvHasItem s p r then rcvTake s p sup r t else s

/-- RECEIVE_TIMEOUT: the outstanding receive of a unit set expires (R284). An item that stands in the queue in the expiry cycle wins
(R52; log entry 74). -/
def receiveTimeout (s : State) (p : Nat) (sup : Bool) (t : Nat) : State :=
  let c := s.core (.eduno p)
  match rcvOf c sup with
  | none => s
  | some r =>
    if t < max r.at' r.expiry then s
    else if (t = r.expiry ∨ r.sure) ∧ rcvHasItem s p r then rcvTake s p sup r t
    else
      let u := unitsFor c sup
      s.setCore (.eduno p) (setRcv (setUnits c sup { u with qioR := 0, qioTo := true }) sup none)

/-- The end-of-pour move commits the staged releases of the pour, unless an overrun of the core is in force (R50, R290). -/
def commitReleases (s : State) (p t : Nat) : State :=
  let c := s.core (.eduno p)
  let s := s.setCore (.eduno p) { c with staged := [] }
  if c.ovrForce then s else
    c.staged.foldl (fun s e => s.setQueue e.1 { s.queue e.1 with
      committed := (s.pourAt t, e.2) :: (s.queue e.1).committed.filter (fun x => decide (s.pourAt t = x.1 + 1)) }) s

/-- What an end-of-pour move stamped in the cycle of a tick committed is discarded: the tick wins (R34, R50). -/
def dropCommitted (s : State) (p m : Nat) : State :=
  match s.lcoreOf p with
  | some l => (queueHandles s).foldl (fun s h => if qProducer s h = l then
      s.setQueue h { s.queue h with committed := (s.queue h).committed.filter fun x => decide (x.1 ≠ m) } else s) s
  | none => s

/-! ### The Barista and the host as endpoints (R297) -/

/-- The endpoint of register set i: the active Barista pair or the host. -/
def initEndpoint (i : Nat) : Nat := if i = 0 then 0x1000 else 0x2000

/-- The judgement of a send by register set i (R297). -/
def initSendResult (s : State) (i h : Nat) : Nat :=
  if !qEn s h then 2
  else if qProducer s h ≠ initEndpoint i then 3
  else if qKind s h ≠ 0 then 6
  else if qCredLeft s h = 0 then 4
  else if qCapacity s h ≤ qCount s h + inTransit s h then 5
  else 0

/-- A send by register set i starts in cycle t (R297). -/
def initSend (s : State) (i h t : Nat) : State :=
  if s.bit .runIst 7 i then s else
    let r := initSendResult s i h
    let item := BitVec.ofNat 48 ((s.reg .runIdl i).toNat + 2 ^ 32 * (s.reg .runIdh i).toNat)
    let s := { s.setBit .runIst 7 true i with iops := kput s.iops i ⟨h, false, item, r⟩ }
    if r = 0 then s.setQdFld h 0x14 15 0 (qCredLeft s h - 1) else refuse s t h (0x100 + i)

/-- A receive by register set i starts (R297). -/
def initReceive (s : State) (i h : Nat) : State :=
  if s.bit .runIst 7 i then s else
    { s.setBit .runIst 7 true i with iops := kput s.iops i ⟨h, true, 0, 0⟩ }

/-- The operation of register set i ends in cycle t (R297). -/
def initOpEnd (s : State) (i t : Nat) : State :=
  match kget s.iops i with
  | none => s
  | some o =>
    let s := { s with iops := kdel s.iops i }
    let fin (s : State) (r : Nat) : State := (s.setBit .runIst 7 false i).setFld .runIst 6 4 r i
    if o.recv then
      let r := if !qEn s o.q then 2 else if qConsumer s o.q ≠ initEndpoint i then 3 else if qKind s o.q ≠ 0 then 6
        else if qCount s o.q = 0 then 1 else 0
      if r = 0 then
        let b := readSlot s t o.q (qHead s o.q)
        let s := dropItem b.2 o.q
        let v := ofBytesLE (b.1.take 6)
        let s := (s.setReg .runIdl (BitVec.ofNat 32 v) i).setReg .runIdh (BitVec.ofNat 32 (v / 2 ^ 32)) i
        fin { s with hwSet := kput (kput s.hwSet (regOff .runIdl i 0) (t, 0xFFFFFFFF)) (regOff .runIdh i 0) (t, 0xFFFFFFFF) } 0
      else if r = 1 then fin s 1
      else fin (refuse s t o.q (0x100 + i)) r
    else if o.result = 0 then
      fin (appendItem (writeSlot s t o.q (tailSlot s o.q) (toBytesLE 8 o.item.toNat)) t o.q) 0
    else fin s o.result

/-! ### Ages, descriptor writes, and the tick -/

/-- The oldest item not yet reported reaches its age limit (R293). -/
def itemAge (s : State) (h t : Nat) : State :=
  let q := s.queue h
  let lim := 1536 * qTimeout s h
  let i := (q.born.takeWhile fun b => b.2).length
  match q.born[i]? with
  | some (b, false) =>
    if qEn s h ∧ lim ≠ 0 ∧ b + lim ≤ t then
      let s := (s.setQueue h { q with born := q.born.set i (b, true) }).setQdFld h 0x18 29 29 1
      if bitOf (s.qdWord h 4).toNat 23 then pulse s (192 + qSrc s h) t else s
    else s
  | _ => s

/-- Whether boot code may write what is protected: in boot state and not tamped (R22, R439). -/
def bootOpen (s : State) : Bool := s.bit .barStat 7 && !s.tamped

/-- Whether a descriptor write is allowed (R278); `full`: JTAG with debug access full (R459). -/
def descWriteOk (s : State) (i : Ini) (full : Bool) (h off : Nat) : Bool :=
  if off = 0x10 then
    match i with
    | .barista => !qOwnerHost s h
    | .host => qOwnerHost s h
    | .jtag => full
  else decide (i = .barista) && bootOpen s && !qEn s h

/-- A write to word `off` of descriptor h in cycle t (R278, R279). -/
def descWrite (s : State) (i : Ini) (full : Bool) (h off : Nat) (v : W32) (t : Nat) : State :=
  if descWriteOk s i full h off then
    let s := s.setQdWord h off v
    if off = 4 ∧ bitOf v.toNat 31 then enableQueue s t h else s
  else runErr s t h 6

/-- The Runner at a tick: quota misses, refilled credits, discarded releases (R283, R290, R295). -/
def runnerTick (s : State) (t : Nat) : State :=
  let s := (queueHandles s).foldl (fun s h =>
    let q := s.queue h
    let c := qConsumer s h
    let s := if epClass c = 0 ∧ 1 ≤ qQuota s h ∧ q.taken < min (qQuota s h) q.atTick then
        countEvent (runErr s t h 5) t 0x09 (epIndex c) else s
    (s.setQdFld h 0x14 15 0 (qCredits s h)).setQueue h { q with taken := 0, atTick := qCount s h }) s
  { s with cores := s.cores.map fun c => { c with staged := [] } }

end Sys2Proof.Machine
end

