-- ==== Sys2Proof/Machine/CoreOps.lean ====
section
/-! DEFINITION. What a control core does with its own registers: results in flight, fetch, sources, destinations (R58 to
R72, R101 to R117, R131, R146, R177 to R187). -/

namespace Sys2Proof.Machine

/-! ### Results in flight -/

/-- Word i of a row (R74). -/
def rowWord (r : Row) (i : Nat) : W24 := BitVec.ofNat 24 (bitsOf r.toNat (24 * i) 24)

/-- One lane of a landing: lane j of accumulator k (R129, R131). -/
def landLane (k c : Nat) (ra w : Row) (s : W24) (co : Core) (j : Nat) : Core :=
  let i := 4 * (k / 2) + j
  let r := macLane c k (nth co.acc (4 * k + j) 0) (rowWord ra i) (rowWord w i) s
  { co with acc := setNth co.acc (4 * k + j) r.1, astat := co.astat ||| r.2 }

/-- One lane of an extraction (R133). -/
def extLane (k ctl : Nat) (sup : Bool) (co : Core) (j : Nat) : Core :=
  let r := extract ctl (nth co.acc (4 * k + j) 0)
  let u := unitsFor co sup
  let co := setUnits co sup { u with x := setNth u.x (4 * (k / 2) + j) r.1 }
  { co with astat := co.astat ||| r.2 }

/-- An operation in flight delivers its result or lands (R63, R131, R146, R221). -/
def deliver (c : Core) (f : Flight) : Core :=
  let u := unitsFor c f.sup
  let put (u : UnitSet) : Core := setUnits c f.sup u
  match f.what with
  | .alu n v fl => let c := put { u with aluR := setNth u.aluR n v }; { c with astat := c.astat ||| fl }
  | .mac n v fl => let c := put { u with macR := setNth u.macR n v }; { c with astat := c.astat ||| fl }
  | .shf v fl => let c := put { u with shfR := v }; { c with astat := c.astat ||| fl }
  | .spu v => put { u with spuR := v }
  | .ag n v => put { u with agR := setNth u.agR n v }
  | .scalar n v => put { u with lsuS := setNth u.lsuS n v }
  | .row n v => put { u with lsuRow := setNth u.lsuRow n v }
  | .land k op ra w s => [0, 1, 2, 3].foldl (landLane k op ra w s) c
  | .ext k ctl => [0, 1, 2, 3].foldl (extLane k ctl f.sup) c

/-- The operations in flight that a test names deliver, in trigger order; the bits they set in CORE_ASTAT are noted with those
set at the end of the last bundle when `mark` says so (R9, R82). -/
def deliverAll (mark : Bool) (now : Flight → Bool) (c : Core) : Core :=
  let r := (c.fly.filter now).foldl deliver { c with fly := c.fly.filter fun f => !now f, astat := 0 }
  { r with astat := c.astat ||| r.astat, astatSet := if mark then c.astatSet ||| r.astat else c.astatSet }

/-- Every operation in flight that `sel` names and that is due by bundle number `b` delivers: those of earlier bundles, then those
that ended with the last bundle. Where the spec states no cycle for a flag, it is the one of the delivery (log entry 64). -/
def settleSel (sel : Deliver → Bool) (b : Nat) (c : Core) : Core :=
  deliverAll true (fun f => sel f.what && decide (f.due ≤ b)) (deliverAll false (fun f => sel f.what && decide (f.due < b)) c)

def selAll : Deliver → Bool := fun _ => true

/-- Landings on accumulators, extractions included (R131). -/
def selLanding : Deliver → Bool
  | .land .. | .ext .. => true
  | _ => false

/-- Loads (R146). -/
def selLoad : Deliver → Bool
  | .scalar .. | .row .. => true
  | _ => false

/-- Results of the other units. -/
def selUnit (d : Deliver) : Bool := !selLanding d && !selLoad d

/-- Every operation in flight completes (R66, R228). -/
def settleAllOps (c : Core) : Core := deliverAll false (fun _ => true) c

/-- A clear of CORE_ASTAT bits by the control bus in cycle t: what operations set in that cycle stays (R9, R82). -/
def clearAstat (c : Core) (mask : BitVec 6) (t : Nat) : Core :=
  let c := deliverAll false (fun f => decide (f.due < c.bcount)) c
  if c.issuedAt = t then { c with astat := (c.astat &&& ~~~mask) ||| (c.astat &&& c.astatSet) }
  else let c := deliverAll false (fun f => decide (f.due ≤ c.bcount)) c; { c with astat := c.astat &&& ~~~mask }

/-! ### Fetch -/

/-- Offsets of a core are 16 bits wide, of a Barista core 20 (R95, R418). -/
def offBits (w : CoreSel) : Nat := if selIsBar w then 20 else 16

/-- Physical address of offset 0 of the memory a core executes from (R180, R182, R413). -/
def fetchBase (s : State) (w : CoreSel) : Nat :=
  match w with
  | .eduno p => coreBase + 0x100000 * p + 0x80000 + 0x10000 * s.fld .corePbank 0 0 p
  | .barista r => sramBase + 0x100000 * r

/-- Address of a bundle as ctl.baddr reports it (R215, R418). -/
def bundleAddr (s : State) (w : CoreSel) (off : Nat) : W32 :=
  match w with
  | .eduno p => BitVec.ofNat 32 (0x80000 + 0x10000 * s.fld .corePbank 0 0 p + off)
  | .barista _ => BitVec.ofNat 32 off

/-- A byte as fetch sees it in cycle t (R177, R179). -/
def fetchByte (s : State) (c : Core) (t a : Nat) : Byte :=
  match c.old.find? fun o => decide (o.addr = a) && (decide (c.bcount < o.bundle) || decide (t < o.cycle)) with
  | some o => o.old
  | none => memGet s.mem a

/-- Whether a byte that fetch sees in cycle t is an old one. -/
def staleByte (c : Core) (t a : Nat) : Bool :=
  c.old.any fun o => decide (o.addr = a) && (decide (c.bcount < o.bundle) || decide (t < o.cycle))

/-- The body the loop buffer holds while its loop is active (R174). -/
def heldBody (c : Core) : List (Nat × List Byte) :=
  match c.lbuf with
  | .held k b => if (nth c.loops k Loop.off).active then b else []
  | _ => []

/-- The bytes at the core's next bundle, at most the 50 a bundle can have, and whether they come without a fetch:
from the loop buffer or as a repetition (R164, R174, R176). -/
def fetchBytes (s : State) (w : CoreSel) (c : Core) (t : Nat) : List Byte × Bool :=
  match c.repBytes, (heldBody c).find? fun e => decide (e.1 = c.pc) with
  | some b, _ => (b, true)
  | none, some e => (e.2, true)
  | none, none =>
    ((List.range (min 50 (2 ^ offBits w - c.pc))).map fun i => fetchByte s c t (fetchBase s w + c.pc + i), false)

/-! ### Sources -/

/-- The control-unit sources (R109). -/
def readCtl (s : State) (w : CoreSel) (c : Core) (n : Nat) : W48 :=
  match n with
  | 0 => zext48 (ofBool c.user)
  | 1 => zext48 c.astat.toNat
  | 2 => zext48 c.tsbr.toNat
  | 3 => zext48 c.cause.toNat
  | 4 => zext48 c.baddr.toNat
  | 5 => zext48 (ofBool c.hold)
  | 6 => match w with | .eduno p => zext48 p | .barista r => zext48 (Config.freeNat 1 r)
  | _ => match w with | .eduno p => zext48 ((s.lcoreOf p).getD 0x7F) | .barista _ => zext48 0x7F

/-- A scalar source as a transport word (R67, R72, R103). -/
def readSrc (s : State) (w : CoreSel) (c : Core) (imm : Option W24) (x : Src) : W48 :=
  let u := unitsFor c (!c.user)
  match x with
  | .g i => sext48 24 (nth c.g i 0).toNat
  | .d i => zext48 ((nth c.g (2 * i) 0).toNat + 2 ^ 24 * (nth c.g (2 * i + 1) 0).toNat)
  | .a i => zext48 (nth c.a i 0).toNat
  | .m i => sext48 32 (nth c.m i 0).toNat
  | .cb i => zext48 (nth c.cb i 0).toNat
  | .cl i => zext48 (nth c.cl i 0).toNat
  | .p i => zext48 (ofBool (bitOf c.p.toNat i))
  | .raw k j hi =>
    let v := (nth c.acc (4 * k + j) 0).toNat
    if hi then sext48 8 (v / 2 ^ 48) else zext48 v
  | .alu n => nth u.aluR n 0
  | .mac n => nth u.macR n 0
  | .x i => nth u.x i 0
  | .shf => u.shfR
  | .spu => u.spuR
  | .ag n => zext48 (nth u.agR n 0).toNat
  | .lsuS n => nth u.lsuS n 0
  | .lsuRow _ => 0
  | .car => u.carR
  | .qioR => u.qioR
  | .qioTo => zext48 (ofBool u.qioTo)
  | .ln => c.ln
  | .lc k => zext48 (nth c.loops k Loop.off).count
  | .bc => zext48 c.bc.toNat
  | .ctl n => readCtl s w c n
  | .imm => sext48 24 (imm.getD 0).toNat

/-- A row source (R115). -/
def readRow (c : Core) (x : Src) : Row :=
  match x with
  | .lsuRow n => nth (unitsFor c (!c.user)).lsuRow n 0
  | _ => 0

/-! ### Destinations -/

/-- A move with its guard true, its ids resolved and its value read (R59). -/
structure LiveMove where
  slot : Nat
  src : Src
  dst : Dst
  v : W48
  r : Row
  deriving DecidableEq, Repr

/-- The guard of a move (R99). -/
def guardOf (c : Core) (m : Move) : Bool := bitOf c.p.toNat m.pred != m.inv

/-- The moves of a bundle with true guards, with the values their sources hold before the bundle. -/
def liveMoves (s : State) (w : CoreSel) (c : Core) (ms : List Move) : List LiveMove :=
  (ms.filter (guardOf c)).filterMap fun m =>
    match srcOf m.src, dstOf m.dst with
    | some x, some d => some ⟨m.slot, x, d, readSrc s w c m.imm x, readRow c x⟩
    | _, _ => none

/-- The moves that act: of the triggers of one group only the one in the highest slot (R61, R116). -/
def winners (ms : List LiveMove) : List LiveMove :=
  ms.filter fun m =>
    match m.dst.group with
    | none => true
    | some g => ms.all fun o => decide (o.slot ≤ m.slot) || decide (o.dst.group ≠ some g)

/-- Address and update of an address-generator or access trigger from the registers before the bundle (R59, R141). -/
def agenOf (c : Core) (k md : Nat) (v : W48) : W32 × W32 :=
  agenOp k md (nth c.a k 0) (nth c.m k 0) (v.setWidth 32) (nth c.cb k 0) (nth c.cl k 0)

/-- A destination takes its value in step 3 of R59 (R61, R67, R70, R72, R117). `c0` is the core before the bundle; `ret` the
return offset of a call in link mode. -/
def writeDst (c0 : Core) (ret : Option Nat) (c : Core) (m : LiveMove) : Core :=
  let sup := !c0.user
  let u := unitsFor c sup
  let put (u : UnitSet) : Core := setUnits c sup u
  let v24 : W24 := m.v.setWidth 24
  let v32 : W32 := m.v.setWidth 32
  match m.dst with
  | .g i => { c with g := setNth c.g i v24 }
  | .d i => { c with g := setNth (setNth c.g (2 * i) v24) (2 * i + 1) (BitVec.ofNat 24 (m.v.toNat / 2 ^ 24)) }
  | .a i => { c with a := setNth c.a i v32 }
  | .aHi i => { c with a := setNth c.a i (withField (nth c.a i 0) 31 24 (m.v.toNat % 256)) }
  | .m i => { c with m := setNth c.m i v32 }
  | .cb i => { c with cb := setNth c.cb i v32 }
  | .cl i => { c with cl := setNth c.cl i v32 }
  | .p i =>
    if i = 0 then c
    else
      let others := c.p.toNat - ofBool (bitOf c.p.toNat i) * 2 ^ i
      { c with p := BitVec.ofNat 8 (others + ofBool (bitOf m.v.toNat 0) * 2 ^ i) }
  | .raw k j hi =>
    let l := (nth c.acc (4 * k + j) 0).toNat
    let x := if hi then l % 2 ^ 48 + (m.v.toNat % 256) * 2 ^ 48 else l / 2 ^ 48 * 2 ^ 48 + m.v.toNat
    { c with acc := setNth c.acc (4 * k + j) (BitVec.ofNat 56 x) }
  | .aluO n => put { u with aluO := setNth u.aluO n m.v }
  | .macO n => put { u with macO := setNth u.macO n v24 }
  | .macRa n => put { u with macRa := setNth u.macRa n m.r }
  | .shfO => put { u with shfO := m.v }
  | .spuO => put { u with spuO := v24 }
  | .lpe => put { u with lpe := m.v.setWidth 20 }
  | .ln => { c with ln := m.v }
  | .bc => { c with bc := v24 }
  | .qioQ => put { u with qioQ := m.v.setWidth 16 }
  | .carSd => put { u with carSd := m.v }
  | .sd n => put { u with sd := setNth u.sd n m.v }
  | .srow n => put { u with srow := setNth u.srow n m.r }
  | .astat => { c with astat := c.astat &&& ~~~ (m.v.setWidth 6) }
  | .tsbr => { c with tsbr := v32 }
  | .hold => { c with hold := bitOf m.v.toNat 0 }
  | .call => match ret with | some x => { c with ln := zext48 x } | none => c
  | .agT _ k md => if agenUpd md then { c with a := setNth c.a k (agenOf c0 k md m.v).2 } else c
  | .lsuT _ _ k md => if agenUpd md then { c with a := setNth c.a k (agenOf c0 k md m.v).2 } else c
  | _ => c

/-- The operation that a computing trigger starts with the latches of its unit set after step 3: the bundles until its
effect is visible, and the effect (R58, R59, R125). -/
def unitStart (c : Core) (c0 : Core) (m : LiveMove) : Option (Nat × Deliver) :=
  let u := unitsFor c (!c0.user)
  match m.dst with
  | .aluT n op => let r := aluOp op (nth u.aluO n 0) m.v; some (1, .alu n r.1 r.2)
  | .macT n => let r := macScalar (nth u.macO n 0) (m.v.setWidth 24); some (3, .mac n r.1 r.2)
  | .accT k op =>
    if op = 6 then some (3, .ext k (bitsOf m.v.toNat 0 9))
    else some (3, .land k op (nth u.macRa (k / 2) 0) m.r (nth u.macO (k / 2) 0))
  | .shfT op => let r := shfOp op u.shfO m.v; some (1, .shf r.1 r.2)
  | .spuT op => some (6, .spu (spuOp op u.spuO m.v))
  | .agT n k md => some (1, .ag n (agenOf c0 k md m.v).1)
  | _ => none

/-- The operations in flight after the triggers of a bundle. -/
def startUnits (c0 : Core) (ms : List LiveMove) (c : Core) : Core :=
  { c with fly := c.fly ++ ms.filterMap fun m =>
      (unitStart c c0 m).map fun d => { due := c0.bcount + d.1, sup := !c0.user, what := d.2 } }

end Sys2Proof.Machine
end

