-- ==== Sys2Proof/Machine/Crema.lean ====
section
/-! DEFINITION. Crema line supervision: commands, frames, windows and sweeps, faults, records and reflectometry (R346 to R383). -/

namespace Sys2Proof.Machine

/-- Cycles in a Crema frame (R351). -/
def crmFrame : Nat := 8192000

def State.crm (s : State) (c : Nat) : CrmChan := nth s.crema.chans c CrmChan.zero
def State.setCrm (s : State) (c : Nat) (x : CrmChan) : State :=
  { s with crema := { s.crema with chans := setNth s.crema.chans c x } }
def State.crmRun (s : State) (w : Nat) : Option CrmRun := nth s.crema.runs w none
def State.setCrmRun (s : State) (w : Nat) (x : Option CrmRun) : State :=
  { s with crema := { s.crema with runs := setNth s.crema.runs w x } }

/-- The mode in force (R382): 0 Off, 1 Live, 2 Night. -/
def crmMode (s : State) (c : Nat) : Nat := s.fld .crmChStat 31 30 c
def crmFaults (s : State) (c : Nat) : Nat := s.fld .crmChStat 29 18 c

/-! ### The probe (R354 to R357) -/

/-- One step of the chip register: x³¹ + x²⁸ + 1 (R354; the direction of the shift DEDUCED, log entry 52). -/
def crmLfsr (r : Nat) : Nat := r / 2 + (if bitOf r 0 = bitOf r 28 then 0 else 2 ^ 30)

/-- The chip register of channel c after n stamps. -/
def crmReg (c : Nat) : Nat → Nat
  | 0 => 1 + c * 2 ^ 16
  | n + 1 => crmLfsr (crmReg c n)

/-- The chip of a register (R354). -/
def crmChip (r : Nat) : Int := if bitOf r 0 then 1 else -1

/-- Sense-sample stamps gone by at cycle t since module reset (R354). -/
def crmStamps (s : State) (t : Nat) : Nat := s.crema.stamps + (t / 8000 - s.crema.stampsAt / 8000)

/-- The NTC is loaded with a new value: stamps go on from it. -/
def crmRebase (s : State) (t new : Nat) : State :=
  { s with crema := { s.crema with stamps := crmStamps s t, stampsAt := new } }

/-- Whether band b can be probed (R356): at 48 kHz band 26 is left out of a mix point. -/
def crmBandOk (s : State) (c b : Nat) : Bool := s.bit .crmChCfg 30 c || decide (s.fld .tmrPourCfg 5 4 ≠ 0 ∨ b ≠ 26)

/-- A probe level: capped at −20 dBFS, and none below −120 dBFS (R354, R361, R362). -/
def crmLevel (s : State) (c b : Nat) (x : Int) : Option Int :=
  let x := min x (-2000)
  if crmBandOk s c b ∧ -12000 ≤ x then some x else none

/-- The probe sample that an output sample stamped t carries at the mix point of channel c (R355): a sum of filtered chips,
whose arithmetic the spec does not state (log entry 40). -/
def crmProbe (s : State) (c t : Nat) : Int :=
  let q := (s.crm c).q
  if q.all (fun x => x.isNone) then 0 else
    Config.cremaValue 10 ([(c : Int), (crmStamps s (t - 4096) : Nat), (s.fld .tmrPourCfg 5 4 : Nat)] ++
      q.map fun x => x.getD (-20000))

/-- The channel whose mix point is an output: kind 0 TDM slot, 1 ring channel (R355). -/
def crmTarget (s : State) (kind target : Nat) : Option Nat :=
  if !s.bit .crmCtl 0 then none else
  (List.range 32).find? fun c => s.bit .crmChCfg 31 c && decide (s.fld .crmChCfg 29 29 c = kind) &&
    decide (s.fld .crmChCfg 12 0 c = target) && decide (crmMode s c ≠ 0)

/-! ### Records (R377 to R381) -/

def crmBase (s : State) : Nat := carBase + 4096 * s.fld .crmCtl 24 12

/-- The item of a record is sent (R380). -/
def crmAnnounce (s : State) (c item t : Nat) : State :=
  match (queueHandles s).find? fun h => decide (qProducer s h = 0x7100 ∧ qKind s h = 0) with
  | none => s
  | some h =>
    if portTakes s h 0x7100 then portSend s t h (BitVec.ofNat 48 item)
    else countEvent (s.setQdFld h 0x18 30 30 1) t 0x11 c

/-- A channel record is written and announced (R377, R378, R380, R381): `flags` are its own, beside the faults in force. -/
def crmRecord (s : State) (c mode stop n probed flags : Nat) (body : List Byte) (t : Nat) : State :=
  let sq := (s.fld .crmChStat 17 2 c + 1) % 2 ^ 16
  let fl := crmFaults s c + flags + (if (s.crm c).ovl then 0x100 else 0)
  let bs := toBytesLE 4 (0x01000000 + c * 2 ^ 19 + mode * 2 ^ 17 + sq) ++ toBytesLE 8 stop ++
    toBytesLE 4 (n * 2 ^ 16 + probed) ++ toBytesLE 4 fl ++ body ++ List.replicate 12 0
  let s := (writePhys s t .runner (crmBase s + 192 * (2 * c + sq % 2)) bs).2
  let s := s.setCrm c { s.crm c with ovl := false }
  let s := (s.setFld .crmChStat 17 2 sq c).raise t .crmChStat 2 c
  crmAnnounce (pulse s (384 + c) t) c (c + mode * 2 ^ 5 + sq * 2 ^ 7 + fl * 2 ^ 23) t

/-- The impedance fields of a record without an estimate: the spec gives them no value (log entry 40). -/
def crmNoBody (c stop n : Nat) : List Byte :=
  (List.range n).map fun i => BitVec.ofInt 8 (Config.cremaValue 11 [(c : Int), (stop : Int), (i : Int)])

/-- A window or sweep is cut at cycle t (R382): its record is written at once without a judgement. -/
def crmCut (s : State) (c t : Nat) : State :=
  let x := s.crm c
  match x.win with
  | none => s
  | some w =>
    if t ≤ w.start then s.setCrm c { x with win := none } else
      let body := if w.stage = 2 then x.body ++ crmNoBody c t 40 else crmNoBody c t 160
      let s := crmRecord s c (if w.stage = 0 then 1 else 2) t
        (if w.stage = 2 then s.fld .crmChNight 13 0 c else min (ceilDiv (t - w.start) crmFrame) w.n) w.probed 0x400 body t
      s.setCrm c { s.crm c with win := none }

/-! ### Estimates and faults (R365 to R370) -/

/-- |S|² of a sum. -/
def sq2 (re im : Int) : Nat := (re * re + im * im).toNat

/-- The quality of a band (R366): the free value where the spec's ratios have no value (log entry 40). -/
def crmQuality (x : CrmSums) : Nat :=
  let v := sq2 x.vpRe x.vpIm
  let i := sq2 x.ipRe x.ipIm
  if x.pp = 0 then 0
  else if x.vv = 0 ∨ x.ii = 0 then (Config.cremaValue 8 [(x.vv : Int), (x.ii : Int), (x.pp : Int)]).toNat % 64
  else min (63 * v / (x.vv * x.pp)) (63 * i / (x.ii * x.pp)) % 64

/-- Whether k × |Z(13)|² × b < a × limit² in units of 1/256 Ω: the ratio of R365 compared by its cross products. -/
def zBelow (vfs ifs : Nat) (x : CrmSums) (limit scale : Nat) : Bool :=
  decide ((25600 * vfs) ^ 2 * sq2 x.vpRe x.vpIm * scale ^ 2 < limit ^ 2 * ifs ^ 2 * sq2 x.ipRe x.ipIm)

def zAbove (vfs ifs : Nat) (x : CrmSums) (limit scale : Nat) : Bool :=
  decide (limit ^ 2 * ifs ^ 2 * sq2 x.ipRe x.ipIm < (25600 * vfs) ^ 2 * sq2 x.vpRe x.vpIm * scale ^ 2)

/-- The tap count estimate (R367): Re(1 ÷ Z) × Z_tap, rounded, 0 to 1,023; a free value where Z is 0. -/
def crmTaps (vfs ifs ztap : Nat) (x : CrmSums) : Nat :=
  let num : Int := (ifs * ztap : Nat) * (x.ipRe * x.vpRe + x.ipIm * x.vpIm)
  let den := 100 * vfs * sq2 x.vpRe x.vpIm
  if den = 0 then (Config.cremaValue 9 [num]).toNat % 1024
  else (min (max ((2 * num + (den : Int)) / (2 * (den : Int))) 0) 1023).toNat

/-- The mean of Re(S_cp ÷ S_vp) over the bands used, doubled, as a fraction with a positive denominator: k of R368. -/
def crmK (l : List CrmSums) : Int × Nat :=
  let f := l.foldl (fun (a : Int × Nat) x =>
    let d := sq2 x.vpRe x.vpIm
    (a.1 * (d : Nat) + (x.cpRe * x.vpRe + x.cpIm * x.vpIm) * (a.2 : Nat), a.2 * d)) (0, 1)
  (2 * f.1, f.2 * l.length)

/-- The bands that measure insulation (R368). -/
def crmInsBands (m : CrmMeas) : List CrmSums := (m.bands.take 3).filter fun x => decide (8 ≤ crmQuality x)

/-- Insulation (R368): whether measured, whether above the range, the numerator and denominator of R_ins in kΩ, and whether the
leak is on conductor B. -/
structure CrmIns where
  measured : Bool
  above : Bool
  num : Nat
  den : Nat
  onB : Bool
  deriving DecidableEq, Repr

def crmIns (s : State) (c : Nat) (m : CrmMeas) : CrmIns :=
  let bs := crmInsBands m
  let k := crmK bs
  let a := k.1.natAbs
  if bs.isEmpty then ⟨false, false, 0, 1, false⟩
  else if 1000 * a < k.2 then ⟨true, true, 0, 1, decide (0 < k.1)⟩
  else ⟨true, false, s.fld .crmChDly 31 16 c * (k.2 - a), 2 * a, decide (0 < k.1)⟩

/-- What a judgement finds (R369): the faults found, and whether the no-probe flag is set. -/
def crmJudge (s : State) (c : Nat) (m : CrmMeas) (stageA : Bool) : Nat × Bool :=
  let x := m.bands.getD 13 CrmSums.zero
  let vfs := s.fld .crmChScale 31 16 c
  let ifs := s.fld .crmChScale 15 0 c
  let zref := (s.reg .crmChRef c).toNat
  let v := sq2 x.vpRe x.vpIm
  let i := sq2 x.ipRe x.ipIm
  let q := crmQuality x
  let n := crmTaps vfs ifs (s.fld .crmChTap 31 16 c) x
  let nexp := s.fld .crmChTap 9 0 c
  let chg := s.fld .crmChThr 23 20 c
  let ins := crmIns s c m
  let short := decide (x.ii * x.pp ≤ 4 * i) &&
    (zBelow vfs ifs x (zref * s.fld .crmChThr 31 28 c) 16 || zBelow vfs ifs x 512 1 || decide (50 * v < x.vv * x.pp))
  let open' := decide (x.vv * x.pp ≤ 4 * v) &&
    (zAbove vfs ifs x (zref * s.fld .crmChThr 27 24 c) 1 || decide (50 * i < x.ii * x.pp))
  let good := decide (s.fld .crmChThr 15 10 c ≤ q)
  let noProbe := !good && !short && !open'
  let change := !short && !open' && good &&
    (zBelow vfs ifs x (zref * (20 - chg)) 20 || zAbove vfs ifs x (zref * (20 + chg)) 20)
  let taps := good && decide (nexp ≠ 0) &&
    decide ((s.fld .crmChThr 19 16 c : Int) < ((n : Int) - (nexp : Int)).natAbs)
  let earth := stageA && ins.measured && !ins.above && decide (ins.num < 10 * s.fld .crmChThr 9 0 c * ins.den)
  let sense := m.quiet && m.bands.any fun b => decide (0 < b.pp)
  (ofBool short + 2 * ofBool open' + 4 * ofBool change + 8 * ofBool taps + 16 * ofBool earth + 0x200 * ofBool sense, noProbe)

/-- The faults in force change (R372). -/
def crmSetFaults (s : State) (c new t : Nat) : State :=
  if crmFaults s c = new then s
  else pulse ((s.setFld .crmChStat 29 18 new c).raise t .crmChStat 1 c) (416 + c) t

/-- One fault after a judged live window (R370): found puts it in force, the second miss in a row ends it. -/
def crmFault (found force : Bool) (miss : Nat) : Bool × Nat :=
  if found then (true, 0) else if force ∧ miss = 0 then (true, 1) else (false, 0)

/-- Whether a fast fault stays after a judged window (R371, R372). -/
def crmFastStays (found : Bool) (set : Option Nat) (stop : Nat) : Bool := found || set == some stop

/-- The faults in force after a judged live window, and the counts of misses (R370, R371). -/
def crmLiveFaults (s : State) (c found stop : Nat) : Nat × List Nat :=
  let x := s.crm c
  let f := crmFaults s c
  let rs := [0, 1, 2, 3, 9].map fun b => (b, crmFault (bitOf found b) (bitOf f b) (nth x.miss b 0))
  let fastShort := bitOf f 5 && crmFastStays (bitOf found 0) x.fastShortAt stop
  let fastOpen := bitOf f 6 && crmFastStays (bitOf found 1) x.fastOpenAt stop
  (rs.foldl (fun a r => a + (if r.2.1 then 2 ^ r.1 else 0)) 0 + (if bitOf f 4 then 16 else 0) +
     32 * ofBool fastShort + 64 * ofBool fastOpen,
   rs.foldl (fun l r => setNth l r.1 r.2.2) x.miss)

/-- A signed field of `w` bits. -/
def sfield (w : Nat) (x : Int) : Nat := (BitVec.ofInt w x).toNat

/-- The four bytes of a band or tone (R378): dB and angle as Crema computes them (log entry 40), and the quality. -/
def crmBandBytes (vfs ifs : Nat) (x : CrmSums) : List Byte :=
  let z : List Int := [(vfs : Int), (ifs : Int), x.vpRe, x.vpIm, x.ipRe, x.ipIm]
  toBytesLE 4 (sfield 16 (Config.cremaValue 1 z) * 2 ^ 16 + sfield 10 (Config.cremaValue 2 z) * 2 ^ 6 + crmQuality x)

/-- The fields 0x14 to 0x8B of a record (R378). -/
def crmBody (s : State) (c : Nat) (m : CrmMeas) (stageA : Bool) : List Byte :=
  let x := m.bands.getD 13 CrmSums.zero
  let vfs := s.fld .crmChScale 31 16 c
  let ifs := s.fld .crmChScale 15 0 c
  let z : List Int := [(vfs : Int), (ifs : Int), x.vpRe, x.vpIm, x.ipRe, x.ipIm]
  let ins := crmIns s c m
  let insWord := if !stageA ∨ !ins.measured then sfield 24 (Config.cremaValue 5 z)
    else (if ins.above then 0xFFFFFF else sfield 24 (Config.cremaValue 6 [(ins.num : Int), (ins.den : Int)])) +
      ofBool ins.onB * 2 ^ 24 + 2 ^ 25
  toBytesLE 4 (min (Config.cremaValue 3 z).toNat 0xFFFFFFFF) ++ toBytesLE 2 (sfield 16 (Config.cremaValue 4 z)) ++
    toBytesLE 2 (crmTaps vfs ifs (s.fld .crmChTap 31 16 c) x) ++ toBytesLE 4 insWord ++
    (List.range 27).flatMap fun b => crmBandBytes vfs ifs (m.bands.getD b CrmSums.zero)

/-! ### Commands (R382) -/

/-- The result of a command (CRM_CMDST). -/
def crmResult (s : State) (op wb ch : Nat) : Nat :=
  let line := s.fld .crmWbCfg 31 27 wb
  if !s.bit .crmCtl 0 then 4
  else if op ≤ 3 then (if s.bit .crmChCfg 31 ch then 0 else 1)
  else if op = 6 then 0
  else if s.bit .crmWbStat 0 wb then 2
  else if crmMode s line ≠ 0 then 3
  else 0

/-- A reflectometry record (R379). -/
def crmRunRecord (s : State) (w : Nat) (r : CrmRun) (vf : Nat) (events : List (Nat × Nat × Nat)) (upd cut : Bool) (t : Nat) :
    State :=
  let ev := (events.flatMap fun e => toBytesLE 4 (e.1 * 2 ^ 16 + e.2.1) ++ toBytesLE 4 (e.2.2 * 2 ^ 16))
  let bs := toBytesLE 4 (0x01000000 + w * 2 ^ 19 + 3 * 2 ^ 17 + r.line * 2 ^ 10) ++ toBytesLE 8 t ++
    toBytesLE 4 (r.e * 2 ^ 16 + vf) ++
    toBytesLE 4 (events.length + 8 * ofBool r.cal + 16 * ofBool upd + 32 * ofBool (s.bit .crmWbVf 16 w)) ++ ev
  let s := (writePhys s t .runner (crmBase s + 0x3000 + 192 * w) (bs ++ List.replicate (192 - bs.length) 0)).2
  let s := (s.setBit .crmWbStat 0 false w).raise t .crmWbStat (if cut then 6 else 2) w
  pulse (s.setCrmRun w none) (448 + w) t

/-- A run is cut (R382): it reports no events. -/
def crmCutRun (s : State) (w t : Nat) : State :=
  match s.crmRun w with
  | none => s
  | some r => crmRunRecord s w r (s.fld .crmWbVf 15 0 w) [] false true t

/-- A command of CRM_CMD in cycle t (R373, R375, R382): a mode command waits for the next frame boundary. Op 0 is none. -/
def crmCommand (s : State) (op wb ch t : Nat) : State :=
  if op = 0 then s else
  let r := crmResult s op wb ch
  let s := s.setFld .crmCmdst 2 0 r
  if r ≠ 0 then s
  else if op ≤ 3 then s.setCrm ch { s.crm ch with cmd := some (op, t) }
  else if op = 6 then crmCutRun s wb t
  else
    (s.setBit .crmWbStat 0 true wb).setCrmRun wb
      (some { line := s.fld .crmWbCfg 31 27 wb, e := s.fld .crmWbCfg 26 22 wb, w := s.fld .crmWbCfg 21 16 wb
              rho := s.fld .crmWbCfg 15 8 wb, cal := decide (op = 5), next := (t / 256000 + 1) * 256000, count := 0
              sums := List.replicate 1024 0 })

/-! ### Frame boundaries (R351, R382, R383) -/

/-- Stage B runs: it has frames, and its path carries 40 kHz (R362, R363). -/
def crmUltra (s : State) (c : Nat) : Bool :=
  decide (s.fld .crmChUltra 13 0 c ≠ 0) && (s.bit .crmChCfg 30 c || decide (s.fld .tmrPourCfg 5 4 ≠ 0))

/-- A live window from cycle t on, with the length now configured. -/
def crmLiveWin (s : State) (c t : Nat) : CrmWin := ⟨0, t, s.fld .crmChLive 12 0 c, 0⟩

/-- The hearing thresholds of R353. -/
def crmTf : List Int :=
  [4400, 3750, 3150, 2650, 2210, 1790, 1440, 1140, 860, 620, 440, 300, 220, 240, 350, 170, -130, -420, -600, -540, -150,
   600, 1260, 1390, 1230, 1230, 1230]

/-- The probe levels of stage A (R362). -/
def crmNightLevels (s : State) (c : Nat) : List (Option Int) :=
  (List.range 27).map fun b =>
    crmLevel s c b (nth crmTf b 0 - 100 * (s.fld .crmChNight 31 24 c : Int) - 100 * (s.fld .crmChNight 23 18 c : Int))

def crmSilent : List (Option Int) := List.replicate 27 none

/-- The frame that ends at boundary t counts as probed in band 13 (R357, R378). -/
def crmCount (s : State) (c t : Nat) : State :=
  let x := s.crm c
  let hit := (nth x.q 13 none).isSome && !x.ramps.contains (t / crmFrame - 1)
  s.setCrm c { x with win := x.win.map (fun w => { w with probed := w.probed + ofBool (hit && decide (w.start < t ∧ w.stage ≠ 2)) })
                      ramps := x.ramps.filter fun f => decide (t / crmFrame ≤ f) }

/-- A window or stage whose last frame ends at boundary t gives way to the next (R362, R364, R369). -/
def crmRoll (s : State) (c t : Nat) : State :=
  let x := s.crm c
  match x.win with
  | none => s
  | some w =>
    if t < w.start + w.n * crmFrame then s
    else
      let x := { x with done := some (w, t) }
      if w.stage = 0 then s.setCrm c { x with win := some (crmLiveWin s c t) }
      else if w.stage = 1 ∧ crmUltra s c then
        s.setCrm c { x with win := some ⟨2, t, s.fld .crmChUltra 13 0 c, w.probed⟩, q := crmSilent }
      else (s.setCrm c { x with win := none, q := crmSilent }).setFld .crmChStat 31 30 0 c

/-- A mode command takes effect at boundary t (R382). -/
def crmApply (s : State) (c op t : Nat) : State :=
  let s := crmCut s c t
  let s := (List.range 8).foldl (fun s w =>
    match s.crmRun w with | some r => if r.line = c then crmCutRun s w t else s | none => s) s
  let x := { s.crm c with cmd := none, prev := [], openN := 0, shortN := 0 }
  match op with
  | 1 => (s.setCrm c { x with win := some (crmLiveWin s c t), q := crmSilent }).setFld .crmChStat 31 30 1 c
  | 2 => (s.setCrm c { x with win := some ⟨1, t, s.fld .crmChNight 13 0 c, 0⟩, q := crmNightLevels s c }).setFld
           .crmChStat 31 30 2 c
  | _ => (s.setCrm c { x with win := none, q := crmSilent }).setFld .crmChStat 31 30 0 c

/-- Channel c at frame boundary t. -/
def crmChanBoundary (t : Nat) (s : State) (c : Nat) : State :=
  let s := crmRoll (crmCount s c t) c t
  match (s.crm c).cmd with
  | some (op, at') => if at' < t then crmApply s c op t else s
  | none => s

/-- Every channel at frame boundary t. -/
def crmBoundary (s : State) (t : Nat) : State := (List.range 32).foldl (crmChanBoundary t) s

/-- A cut of everything in progress at cycle t (R352, R383): live windows start again at the next boundary, sweeps end. -/
def crmCutAll (s : State) (t : Nat) : State :=
  let s := (List.range 32).foldl (fun s c =>
    match (s.crm c).win with
    | none => s
    | some w =>
      let s := if w.start < t then crmCut s c t else s
      if w.stage = 0 then s.setCrm c { s.crm c with win := some (crmLiveWin s c (ceilDiv t crmFrame * crmFrame)) }
      else if w.start < t then (s.setCrm c { s.crm c with q := crmSilent }).setFld .crmChStat 31 30 0 c
      else s) s
  (List.range 8).foldl (fun s w => crmCutRun s w t) s

/-- Channels that are no longer enabled are Off (CRM_CTL.en, CRM_CHc_CFG.en). -/
def crmDisabled (s : State) : State :=
  (List.range 32).foldl (fun s c =>
    if crmMode s c ≠ 0 ∧ (!s.bit .crmCtl 0 ∨ !s.bit .crmChCfg 31 c) then
      (s.setCrm c { s.crm c with win := none, q := crmSilent, cmd := none }).setFld .crmChStat 31 30 0 c
    else s) s

/-! ### Live frames (R359 to R361, R371) -/

/-- The masker of a band (R359). -/
def crmMasker (s : State) (c b : Nat) (m : CrmFrame) : Int :=
  let g := (BitVec.ofNat 8 (s.fld .crmChAmb 7 0 c)).toInt * 100
  let p := m.programme.getD b (-20000)
  if s.bit .crmChAmb 31 c then Config.cremaValue 0 [p, m.ambient.getD b (-20000) + g] else p

/-- The masking threshold of a band (R360). -/
def crmThreshold (ms : List Int) (b : Nat) : Int :=
  Config.cremaValue 0 (ms.mapIdx fun j x =>
    x - 1000 - (if j ≤ b then 1000 * ((b - j : Nat) : Int) else 2500 * ((j - b : Nat) : Int)))

/-- The thresholds of a frame. -/
def crmThresholds (s : State) (c : Nat) (m : CrmFrame) : List Int :=
  let ms := (List.range 27).map fun b => crmMasker s c b m
  (List.range 27).map (crmThreshold ms)

/-- The probe levels of the next frame (R361). -/
def crmNext (s : State) (c : Nat) (cur prev : List Int) : List (Option Int) :=
  (List.range 27).map fun b =>
    let x := nth cur b 0
    crmLevel s c b (min x (prev.getD b x) - 1200 - 100 * (s.fld .crmChLive 27 24 c : Int))

/-- Whether a frame is open-like and short-like (R371). -/
def crmFast (s : State) (c : Nat) (m : CrmFrame) : Bool × Bool :=
  let v := (25600 * s.fld .crmChScale 31 16 c) ^ 2 * m.vSq
  let i := s.fld .crmChScale 15 0 c ^ 2 * m.iSq
  let z := (s.reg .crmChRef c).toNat
  (decide (-4000 ≤ m.vLevel) && decide ((z * s.fld .crmChThr 27 24 c) ^ 2 * i < v),
   decide (-4000 ≤ m.iLevel) && decide (256 * v < (z * s.fld .crmChThr 31 28 c) ^ 2 * i))

/-- Whether the frame that ended at boundary b was a Live frame of channel c. -/
def crmWasLive (s : State) (c b : Nat) : Bool :=
  crmMode s c == 1 && (match (s.crm c).win with | some w => decide (w.stage = 0 ∧ w.start < b) | none => false) ||
  (crmMode s c == 1 && (match (s.crm c).done with | some (w, e) => decide (w.stage = 0 ∧ e = b) | none => false))

/-- CREMA_FRAME_END: what channel c measured in the frame that ended at the last boundary (R349, R361, R371). -/
def crmFrameEnd (s : State) (c : Nat) (m : CrmFrame) (t : Nat) : State :=
  let b := t / crmFrame * crmFrame
  if crmMode s c = 0 then s else
    let s := if m.overload then
        pulse (countEvent (s.setCrm c { s.crm c with ovl := true }) t 0x12 c) 456 t else s
    if !crmWasLive s c b then s else
      let x := s.crm c
      let cur := crmThresholds s c m
      let f := crmFast s c m
      s.setCrm c { x with
        q := crmNext s c cur (if x.prev.isEmpty then cur else x.prev), prev := cur
        openN := if f.1 && !m.overload then x.openN + 1 else 0
        shortN := if f.2 && !m.overload then x.shortN + 1 else 0 }

/-- FAST_FAULT: sixteen open-like or short-like frames in a row (R371). -/
def fastFault (s : State) (c t : Nat) : State :=
  let b := t / crmFrame * crmFrame
  let x := s.crm c
  let o := decide (16 ≤ x.openN)
  let h := decide (16 ≤ x.shortN)
  let s := s.setCrm c { x with fastOpenAt := if o then some b else x.fastOpenAt, fastShortAt := if h then some b else x.fastShortAt }
  crmSetFaults s c (crmFaults s c ||| (32 * ofBool h + 64 * ofBool o)) t

/-- LIVE_WINDOW_END: the window of channel c that ended is judged and its record written (R369, R370, R378). -/
def liveWindowEnd (s : State) (c : Nat) (m : CrmMeas) (t : Nat) : State :=
  match (s.crm c).done with
  | some (w, stop) =>
    if w.stage ≠ 0 then s else
      let s := s.setCrm c { s.crm c with done := none }
      let j := crmJudge s c m false
      let s := if j.2 then s else
        let f := crmLiveFaults s c j.1 stop
        crmSetFaults (s.setCrm c { s.crm c with miss := f.2 }) c f.1 t
      crmRecord s c 1 stop w.n w.probed (if j.2 then 0x80 else 0) (crmBody s c m false ++ List.replicate 40 0) t
  | none => s

/-- The record of a sweep (R364, R378). -/
def crmSweepRecord (s : State) (c stop n probed : Nat) (tones : List Byte) (omitted : Bool) (t : Nat) : State :=
  let x := s.crm c
  let s := crmRecord s c 2 stop n probed (ofBool x.noProbe * 0x80 + ofBool omitted * 0x800) (x.body ++ tones) t
  s.setCrm c { s.crm c with body := [], noProbe := false }

/-- NIGHT_STAGE_A_END: stage A of a sweep is judged; its findings replace the faults in force (R368 to R370). Without a stage B
the sweep ends (R362, R363). -/
def nightStageAEnd (s : State) (c : Nat) (m : CrmMeas) (t : Nat) : State :=
  match (s.crm c).done with
  | some (w, stop) =>
    if w.stage ≠ 1 then s else
      let j := crmJudge s c m true
      let s := s.setCrm c { s.crm c with done := none, body := crmBody s c m true, noProbe := j.2, miss := List.replicate 12 0 }
      let s := crmSetFaults s c (j.1 + (crmFaults s c &&& 0x60)) t
      match (s.crm c).win with
      | some b => if b.stage = 2 then s.setCrm c { s.crm c with win := some { b with probed := w.probed } }
                  else s
      | none => crmSweepRecord s c stop w.n w.probed (List.replicate 40 0)
                  (decide (s.fld .crmChUltra 13 0 c ≠ 0) && !crmUltra s c) t
  | none => s

/-- NIGHT_STAGE_B_END: the sweep writes its record (R364, R378). -/
def nightStageBEnd (s : State) (c : Nat) (m : CrmMeas) (t : Nat) : State :=
  match (s.crm c).done with
  | some (w, stop) =>
    if w.stage ≠ 2 then s else
      let s := s.setCrm c { s.crm c with done := none }
      let tones := (List.range 10).flatMap fun k =>
        crmBandBytes (s.fld .crmChScale 31 16 c) (s.fld .crmChScale 15 0 c) (m.bands.getD k CrmSums.zero)
      crmSweepRecord s c stop (s.fld .crmChNight 13 0 c) w.probed tones false t
  | none => s

/-! ### Reflectometry (R373 to R376) -/

/-- REFLECT_PULSE: a pulse and its 1,024 samples (R373). -/
def reflectPulse (s : State) (w : Nat) (samples : List (BitVec 16)) (t : Nat) : State :=
  match s.crmRun w with
  | some r =>
    if t < r.next ∨ 2 ^ r.e ≤ r.count then s else
      s.setCrmRun w (some { r with count := r.count + 1, next := r.next + 256000
                                   sums := r.sums.mapIdx fun i x => x + (samples.getD i 0).toInt })
  | none => s

/-- One word of the averaged trace, in Q1.23 (R373); its rounding is not stated (log entry 40). -/
def traceWord (e : Nat) (x : Int) : BitVec 24 :=
  if x * 256 % (2 ^ e : Nat) = 0 then BitVec.ofInt 24 (x * 256 / (2 ^ e : Nat)) else BitVec.ofInt 24 (Config.cremaValue 7 [x, (e : Int)])

def crmArea (s : State) (w : Nat) : Nat := carBase + 4096 * s.fld .crmWbArea 24 12 w

/-- The distance of an event in decimetres (R374); a free value where it does not fit its field. -/
def eventDistance (vf d : Nat) : Nat :=
  let num := 10 * vf * 299792458 * d
  let den := 65536 * 16 * 6144000 * 2
  let x := (2 * num + den) / (2 * den)
  if x < 65536 then x else (Config.cremaValue 12 [(x : Int)]).toNat % 65536

/-- The velocity factor of a calibration (R375). -/
def calibrated (len d : Nat) : Nat :=
  let num := 65536 * 2 * len * 16 * 6144000
  let den := 10 * 299792458 * max d 1
  min (max ((2 * num + den) / (2 * den)) 26215) 65535

/-- REFLECT_RUN_END: the trace is written, analysed and reported (R373 to R375, R379). The correlation's events are an opaque
function of the trace, the baseline, the pulse width and the threshold (log entry 40). -/
def reflectRunEnd (s : State) (w t : Nat) : State :=
  match s.crmRun w with
  | some r =>
    if r.count < 2 ^ r.e ∨ t < r.next then s else
      let trace := r.sums.map (traceWord r.e)
      let s := (writePhys s t .runner (crmArea s w) (trace.flatMap fun x => toBytesLE 3 x.toNat)).2
      let base := if s.bit .crmWbVf 16 w then readPhys s t .runner (crmArea s w + 0x1000) 3072 else ([], false, s)
      let s := base.2.2
      let vf := s.fld .crmWbVf 15 0 w
      let found := (Config.reflectEvents (trace.map BitVec.toInt) (base.1.map BitVec.toNat) r.w r.rho).take 4
      let events := found.map fun e => (e.1 % 65536, eventDistance vf (e.1 % 65536), sfield 16 e.2)
      let last := found.getLast?
      let s' := match last with
        | some e => if r.cal then
            let v := s.setFld .crmWbVf 15 0 (calibrated (s.fld .crmWbLen 15 0 w) (e.1 % 65536)) w
            { v with hwSet := kput v.hwSet (regOff .crmWbVf w 0) (t, 0xFFFF) } else s
        | none => s
      crmRunRecord s' w r vf events (r.cal && last.isSome) false t
  | none => s

end Sys2Proof.Machine
end

