-- ==== Sys2Proof/Machine/Ring.lean ====
section
/-! DEFINITION. The Zwiust ring: frames, ports, wraps, time, trains, unreserved traffic, mailboxes and control frames (R303 to
R338, R344, R345). Ports are numbered as ZWR_PSTATp: 0 ZE0, 1 ZW0, 2 ZE1, 3 ZW1. -/

namespace Sys2Proof.Machine

/-! ### The pieces of state -/

def State.rport (s : State) (p : Nat) : RPort := nth s.ring.ports p RPort.zero
def State.setRport (s : State) (p : Nat) (x : RPort) : State := { s with ring := { s.ring with ports := setNth s.ring.ports p x } }
def State.rpair (s : State) (r : Nat) : RPair := nth s.ring.pairs r RPair.zero
def State.setRpair (s : State) (r : Nat) (x : RPair) : State := { s with ring := { s.ring with pairs := setNth s.ring.pairs r x } }
def State.rkeys (s : State) (r : Nat) : RingKeys :=
  nth s.ring.keys r { gens := [], prev := none, cur := none, next := none }
def State.setRkeys (s : State) (r : Nat) (x : RingKeys) : State := { s with ring := { s.ring with keys := setNth s.ring.keys r x } }

/-- Something leaves on a port, unless REFB is absent (R522). -/
def State.emit (s : State) (o : WireOut) : State :=
  if s.bit .pwrStat 20 then s else { s with ring := { s.ring with out := o :: s.ring.out } }

/-- The octets of a ring frame's start block (R305): 0x55 six times, then the delimiter. -/
def startOctets : List Byte := [0x55, 0x55, 0x55, 0x55, 0x55, 0x55, 0xD9]

/-- A ring frame leaves on a port in cycle t (R305). -/
def State.emitFrame (s : State) (port t : Nat) (bytes : List Byte) : State := s.emit (.ring port t (startOctets ++ bytes))

def segOf (s : State) (r : Nat) : Nat := s.fld .zwrSeg 31 20 r
def staOf (s : State) (r : Nat) : Nat := s.fld .zwrSeg 19 14 r
def stationsOf (s : State) (r : Nat) : Nat := s.fld .zwrSeg 13 8 r + 1
def ringDelay (s : State) (r : Nat) : Nat := s.fld .zwrSeg 7 4 r
def groupsOf (s : State) (r : Nat) : Nat := s.fld .zwrTrain 24 16 r
/-- The station's own ring address on a pair (R304). -/
def ownAddr (s : State) (r : Nat) : Nat := 64 * segOf s r + staOf s r
def edgeOn (s : State) (p : Nat) : Bool := decide (2 ≤ p) && s.bit .zwrCfg (2 + p)
/-- Whether a pair forms a ring (R303, R339). -/
def pairOn (s : State) (r : Nat) : Bool := s.bit .zwrCfg r && !(r == 1 && decide (s.fld .zwrCfg 5 4 ≠ 0))
def isGateway (s : State) : Bool := s.bit .zwrCfg 3 && pairOn s 1

/-- Port states as ZWR_PSTATp.state codes them (R331). -/
def portState (s : State) (p : Nat) : Nat := s.fld .zwrPstat 5 3 p
def portWrapped (s : State) (p : Nat) : Bool := s.bit .zwrPstat 2 p

/-- A record in ZWR_ERR (R310, R345). -/
def ringErr (s : State) (t src port kind : Nat) : State :=
  s.record t .zwrErr (BitVec.ofNat 32 (src % 2 ^ 18 * 2 ^ 14 + port % 4 * 2 ^ 12 + kind * 2 ^ 8))

/-- A port takes a state in cycle t (R331, R345). -/
def setPortState (s : State) (p st t : Nat) : State :=
  if portState s p = st then s else
    let s := (s.setFld .zwrPstat 5 3 st p).raise t .zwrPstat 2 p
    pulse (s.setRport p { s.rport p with since := t }) (256 + p) t

/-- The state of a port after a write of ZWR_CFG in cycle t (R303, R331, R339): a port whose pair becomes enabled begins in
Lost (log entry 41). -/
def configPort (s : State) (p t : Nat) : State :=
  if edgeOn s p then setPortState s p 5 t
  else if !pairOn s (p / 2) then setPortState (s.setBit .zwrPstat 2 false p) p 0 t
  else if portState s p = 0 ∨ portState s p = 5 then setPortState s p 2 t
  else s

/-! ### Frames (R304 to R309, R451) -/

/-- The header words of 24 bytes (R306, R307). -/
def parseHdr (bs : List Byte) : Hdr :=
  let w (i : Nat) : Nat := ofBytesBE ((bs.drop (4 * i)).take 4)
  { typ := bitsOf (w 0) 28 4, ver := bitsOf (w 0) 24 4, west := bitOf (w 0) 23, wrap := bitOf (w 0) 22
    hops := bitsOf (w 0) 15 7, res0 := bitsOf (w 0) 11 4, len := bitsOf (w 0) 0 11, src := bitsOf (w 1) 14 18, epoch := bitsOf (w 1) 12 2
    aux := bitsOf (w 1) 0 12, dst := bitsOf (w 2) 14 18, scope := bitsOf (w 2) 12 2, res2 := bitsOf (w 2) 0 12, stamp := w 3
    ctr := w 4 * 2 ^ 32 + w 5 }

/-- The 24 bytes of a header (R306, R307). -/
def hdrBytes (h : Hdr) : List Byte :=
  toBytesBE 4 (h.typ * 2 ^ 28 + h.ver * 2 ^ 24 + ofBool h.west * 2 ^ 23 + ofBool h.wrap * 2 ^ 22 + h.hops * 2 ^ 15 +
    h.res0 * 2 ^ 11 + h.len) ++
  toBytesBE 4 (h.src * 2 ^ 14 + h.epoch * 2 ^ 12 + h.aux) ++ toBytesBE 4 (h.dst * 2 ^ 14 + h.scope * 2 ^ 12 + h.res2) ++
  toBytesBE 4 h.stamp ++ toBytesBE 8 h.ctr

/-- The 12 bytes of the IV (R309). -/
def frameIv (h : Hdr) : List Byte := toBytesBE 12 (h.src * 2 ^ 78 + ofBool h.west * 2 ^ 77 + h.ctr)

/-- The additional authenticated data: the header with wrap and hops taken as 0 (R309). -/
def frameAad (hdr : List Byte) : List Byte :=
  let w0 := ofBytesBE (hdr.take 4)
  toBytesBE 4 (w0 - bitsOf w0 15 8 * 2 ^ 15) ++ hdr.drop 4

/-- The SBK of a generation. -/
def sbkOf (k : RingKeys) (g : Nat) : Option (List Byte) := (k.gens.find? fun x => decide (x.1 = g)).map fun x => x.2.2

/-- The link key of a generation and the key of an epoch (R451). -/
def linkKey (s : State) (r g : Nat) : Option (List Byte) := (sbkOf (s.rkeys r) g).map fun b => kdf "ZW LINK" b [segOf s r]
def epochKey (s : State) (r : Nat) (e : Epoch) : Option (List Byte) :=
  (sbkOf (s.rkeys r) e.gen).map fun b => kdf "ZW EPOCH" b [segOf s r, e.num]

/-- The epoch that a stamp falls in (R337). -/
def epochAt (k : RingKeys) (pour : Nat) : Option Epoch :=
  match k.next, k.cur, k.prev with
  | some n, some c, p => if n.start ≤ pour then some n else if pour < c.start then (match p with | some x => some x | none => some c) else some c
  | none, some c, some p => if pour < c.start then some p else some c
  | none, some c, none => some c
  | _, none, _ => none

/-- A frame sealed by the keep (R307, R309, R451), where it holds the key. `pour`: the pour its stamp names. -/
def sealFrame (s : State) (r pour : Nat) (h : Hdr) (payload : List Byte) : Option (List Byte) × State :=
  let k := s.rkeys r
  match (if h.typ = 4 then k.cur else epochAt k pour) with
  | none => (none, s)
  | some e =>
    match (if h.typ = 4 then linkKey s r e.gen else epochKey s r e) with
    | none => (none, s)
    | some key =>
      let x := s.rpair r
      let slot := 2 * e.num + ofBool h.west
      let ctr := (kget x.ctrs slot).getD 0
      let h := { h with
        epoch := e.num % 4, ctr := ctr, len := payload.length, stamp := pour % 2 ^ 32, ver := 1, res0 := 0, res2 := 0 }
      let hb := hdrBytes h
      let ct := gcmCrypt key (frameIv h) payload
      (some (hb ++ ct ++ gcmTag key (frameIv h) (frameAad hb) ct), s.setRpair r { x with ctrs := kput x.ctrs slot (ctr + 1) })

/-- A frame sealed and sent on a port in cycle t. -/
def sealSend (s : State) (r port t pour : Nat) (h : Hdr) (payload : List Byte) : State :=
  match sealFrame s r pour h payload with
  | (some bs, s) => s.emitFrame port t bs
  | (none, s) => s

/-- A port's direction: even ports are east (R303). -/
def portWest (p : Nat) : Bool := decide (p % 2 = 1)
def portOf (r : Nat) (west : Bool) : Nat := 2 * r + ofBool west

/-- Whether scheduled frames and unreserved frames can leave on a port (R331). -/
def portUp (s : State) (p : Nat) : Bool := decide (portState s p = 1)
def portLive (s : State) (p : Nat) : Bool := decide (portState s p = 1 ∨ portState s p = 3 ∨ portState s p = 4)

/-- A header with the station's own address, for a frame of the present pour. -/
def ownHdr (s : State) (r typ : Nat) (west : Bool) : Hdr :=
  { typ := typ, ver := 1, west := west, wrap := false, hops := 0, res0 := 0, len := 0, src := ownAddr s r, epoch := 0
    aux := 0, dst := 0, scope := 1, res2 := 0, stamp := 0, ctr := 0 }

/-! ### Waiting frames (R323, R324, R326, R329) -/

/-- Wire length of a payload (R305). -/
def wireLen (n : Nat) : Nat := (n + 64 + 7) / 8 * 8

/-- The direction of fewer hops to a station (R326). -/
def fewerHops (s : State) (r sta : Nat) : Bool :=
  let n := stationsOf s r
  decide ((staOf s r + n - sta) % n < (sta + n - staOf s r) % n)

/-- The station of pair r to which a unicast address is sent (R338): none without a valid route, and the other pair when the
route says so. -/
def hopTo (s : State) (r dst : Nat) : Option (Bool × Nat) :=
  if dst / 64 = segOf s r then some (false, dst % 64)
  else if s.bit .zwrRoute 31 r (dst / 64) then some (s.bit .zwrRoute 6 r (dst / 64), s.fld .zwrRoute 5 0 r (dst / 64))
  else none

/-- A frame joins those waiting on pair r. -/
def holdFrame (s : State) (r : Nat) (f : Held) : State :=
  let x := s.rpair r
  s.setRpair r { x with held := x.held ++ [f] }

/-- Frames of the gateway that wait on pair r. -/
def crossing (s : State) (r : Nat) : Nat := ((s.rpair r).held.filter fun f => f.cross).length

/-- A gateway frame enters pair r, or is discarded (R338). -/
def crossTo (s : State) (t r port : Nat) (h : Hdr) (payload : List Byte) : State :=
  if 64 ≤ crossing s r then pulse (ringErr s t h.src port 6) 267 t else
    let west := if h.scope = 0 then (match hopTo s r h.dst with | some (_, g) => fewerHops s r g | none => false) else false
    if h.scope = 0 ∧ (hopTo s r h.dst).isNone then countEvent s t 0x0F 2
    else holdFrame s r { cls := if h.typ = 2 then 1 else 3, west := west, cross := true
                         hdr := { h with src := ownAddr s r, hops := 0, wrap := false, west := west }
                         payload := payload, tag := [], ctx := false }

/-- A local control or best-effort frame made on pair r enters the waiting frames, or its route's other pair (R326, R338). Realm scope
is for control frames only (R304): a best-effort frame with it stays on its segment. A control frame longer than R312 lets one be is
not sent (log entry 87). -/
def sendLocal (s : State) (t r : Nat) (ctx : Bool) (h : Hdr) (payload : List Byte) : State :=
  let cls := if h.typ = 3 then 3 else 1
  let put (west : Bool) : State :=
    holdFrame s r { cls := cls, west := west, cross := false, hdr := { h with src := ownAddr s r, west := west, hops := 0, wrap := false }
                    payload := payload, tag := [], ctx := ctx }
  if h.typ = 2 ∧ 512 < payload.length then s
  else if h.scope = 2 ∧ h.typ = 2 ∧ isGateway s then crossTo (put false) t (1 - r) (2 * r) h payload
  else if h.scope ≠ 0 then put false
  else match hopTo s r h.dst with
    | some (false, g) => put (fewerHops s r g)
    | some (true, _) => if isGateway s then crossTo s t (1 - r) (2 * r) h payload else countEvent s t 0x0F 2
    | none => countEvent s t 0x0F 2

/-- The port on which a waiting frame leaves: a wrapped port turns it (R329). -/
def effPort (s : State) (r : Nat) (f : Held) : Nat :=
  let p := portOf r f.west
  if portWrapped s p then portOf r (!f.west) else p

/-- Index of a class's tokens. -/
def tokenIx (f : Held) (west : Bool) : Nat := (if f.cls = 3 then 2 else 0) + ofBool west

/-- Whether a waiting frame may leave: a local one takes tokens (R324). -/
def hasTokens (s : State) (r : Nat) (f : Held) : Bool :=
  f.cls % 2 = 0 || decide (wireLen f.payload.length ≤ nth (s.rpair r).tokens (tokenIx f f.west) 0)

/-- The frame that leaves a port next (R323): class by class, and within a class the first that is ready. -/
def nextHeld (s : State) (port : Nat) : Option Held :=
  let r := port / 2
  let ready := (s.rpair r).held.filter fun f => decide (effPort s r f = port)
  [0, 1, 2, 3].findSome? fun c =>
    match ready.find? fun f => decide (f.cls = c) with
    | some f => if hasTokens s r f then some f else none
    | none => none

/-- The tokens that a frame takes (R324). -/
def takeTokens (x : RPair) (f : Held) : RPair :=
  if f.cls % 2 = 0 then x else
    let i := tokenIx f f.west
    { x with tokens := setNth x.tokens i (nth x.tokens i 0 - wireLen f.payload.length) }

/-- The offset of an outgoing link's origin from its tick (R317); 4,096 where none is recorded (log entry 47). -/
def originOf (s : State) (r : Nat) (west : Bool) : Nat :=
  if staOf s r = 0 then 4096 else (nth (s.rpair r).origins (ofBool west) none).getD 4096

/-- Lengths within a ring cycle are counted in parts of a cycle, 1,000,000 to one: a period of 532.48 ns, its slot of 348.16 ns, and
one wire byte of 0.32 ns (R305, R315). -/
def periodParts : Nat := 817889280
def slotParts : Nat := 534773760
def byteParts : Nat := 491520

/-- Whether a frame of a wire length started in cycle t ends before the link's next slot begins (R315, R323): in the window of a
period, or in the unreserved time after period K − 1. -/
def fitsWindow (s : State) (port t len : Nat) : Bool :=
  let r := port / 2
  let k := groupsOf s r
  let pour := 1000000 * s.pourLen
  let pos := 1000000 * ((t + s.pourLen - originOf s r (portWest port) % s.pourLen) % s.pourLen)
  let stop := pos + len * byteParts
  decide (k = 0) ||
    (if pos / periodParts < k then
      decide (slotParts ≤ pos % periodParts) &&
        (if pos / periodParts + 1 < k then decide (stop ≤ (pos / periodParts + 1) * periodParts) else decide (stop ≤ pour))
     else decide (stop ≤ pour))

/-- UNRESERVED_FRAME_SEND: at a frame boundary in unreserved time the next waiting frame leaves a port (R323, R324, R329, R336). -/
def unreservedSend (s : State) (port t : Nat) : State :=
  let r := port / 2
  if !portUp s port ∨ !(s.rpair r).joined ∨ t < (s.rport port).free then s else
    match nextHeld s port with
    | none => s
    | some f =>
      let len := wireLen f.payload.length
      if fitsWindow s port t len = false then s else
      let x := s.rpair r
      let s := s.setRpair r (takeTokens { x with held := x.held.erase f } f)
      let s := s.setRport port { s.rport port with free := t + ceilDiv (len * byteParts) 1000000 }
      let s := { s with ring := { s.ring with ctxBusy := s.ring.ctxBusy && !f.ctx } }
      let wrap := f.hdr.wrap || decide (effPort s r f ≠ portOf r f.west)
      let h := { f.hdr with wrap := wrap }
      if f.cls % 2 = 0 then s.emitFrame port t (hdrBytes h ++ f.payload ++ f.tag)
      else sealSend s r port t (s.pourAt t) h f.payload

/-! ### The control receive ring (R344) -/

/-- SRAM address of the receive ring in the active pair. -/
def crxBase (s : State) : Nat := sramBase + 0x100000 * s.activePair + 4096 * s.fld .zwrCrx 19 12

/-- An entry is written, or the frame is discarded and counted (R344, R486). -/
def crxWrite (s : State) (t : Nat) (edge : Bool) (port : Nat) (frame : List Byte) : State :=
  let wr := s.fld .zwrCrx 11 6
  if edge ∧ 1532 < frame.length then countEvent s t 0x0F 4
  else if (wr + 1) % 64 = s.fld .zwrCrx 5 0 then countEvent s t 0x0F 0
  else
    let d := ofBool edge * 2 ^ 31 + ofBool (edge && decide (port = 3)) * 2 ^ 16 + frame.length
    let r := writePhys s t .barista (crxBase s + 1536 * wr) (toBytesLE 4 d ++ frame)
    pulse (r.2.setFld .zwrCrx 11 6 ((wr + 1) % 64)) 270 t

/-- The payload of a control frame that the ring makes (R312). -/
def noticePayload (op : Nat) (vals : List Nat) : List Byte :=
  let body := Config.noticeBody op vals
  toBytesBE 4 (op * 2 ^ 24 + body.length) ++ body

/-- A control frame that the ring makes goes round the segment (R312). -/
def announce (s : State) (t r op : Nat) (vals : List Nat) : State :=
  sendLocal s t r false (ownHdr s r 2 false) (noticePayload op vals)

/-- A wrap or unwrap notice goes to the active pair and round the segment (R329, R331). -/
def notice (s : State) (t r op : Nat) (vals : List Nat) : State :=
  let payload := noticePayload op vals
  let h := { ownHdr s r 2 false with len := payload.length, stamp := s.pourAt t % 2 ^ 32 }
  announce (crxWrite s t false 0 (hdrBytes h ++ payload)) t r op vals

/-! ### Supervision, wraps and port states (R328 to R331) -/

/-- A port enters Lost (R328, R331). -/
def enterLost (s : State) (p t : Nat) : State :=
  if portState s p = 0 ∨ portState s p = 5 then s else setPortState s p 2 t

/-- HEARTBEAT_RECEIVED: a valid block that is no remote fault (R328, R331; log entry 42). -/
def heartbeat (s : State) (p t : Nat) : State :=
  if portState s p = 0 ∨ portState s p = 5 then s else
    let s := (s.setRport p { s.rport p with lastBeat := t }).setFld .zwrPstat 7 6 1 p
    if portState s p = 2 then setPortState s p 3 t else s

/-- SUPERVISION_EXPIRY: 384 cycles without a heartbeat (R328). -/
def supervisionExpiry (s : State) (p t : Nat) : State :=
  if t < (s.rport p).lastBeat + 384 then s else enterLost (s.setBit .zwrPstat 6 false p) p t

/-- REMOTE_FAULT_RECEIVED (R328). -/
def remoteFault (s : State) (p t : Nat) : State :=
  if portState s p = 0 ∨ portState s p = 5 then s else
    enterLost ((s.setRport p { s.rport p with lastBeat := t }).setFld .zwrPstat 7 6 3 p) p t

/-- PORT_WRAP: 96 cycles after Lost (R329). -/
def portWrap (s : State) (p t : Nat) : State :=
  if portState s p ≠ 2 ∨ portWrapped s p ∨ t < (s.rport p).since + 96 then s else
    let s := s.setBit .zwrPstat 2 true p
    pulse (notice s t (p / 2) 1 [staOf s (p / 2), p, ofBool (s.bit .zwrPstat 7 p)]) 260 t

/-- PORT_RETURNED: 1 ms of heartbeats and a verified link frame (R331). -/
def portReturned (s : State) (p t : Nat) : State :=
  match (s.rport p).linkOk with
  | some l => if portState s p = 3 ∧ (s.rport p).since + 1536000 ≤ l then setPortState s p 4 t else s
  | none => s

/-- The unwrap at a tick, unless supervision expires in that cycle (R331). -/
def unwrapAt (s : State) (p t : Nat) : State :=
  if portState s p ≠ 4 ∨ t ≤ (s.rport p).since then s
  else if (s.rport p).lastBeat + 384 ≤ t then supervisionExpiry s p t
  else
    let s := setPortState (s.setBit .zwrPstat 2 false p) p 1 t
    pulse (notice s t (p / 2) 2 [staOf s (p / 2), p, s.pourAt t]) 261 t

/-! ### Time (R38, R332 to R335) -/

/-- The tick-source state (R38): 0 Free, 1 Locked, 2 Holdover, 3 Slewing. -/
def tickSource (s : State) : Nat := s.fld .tmrPourStat 1 0
def setTickSource (s : State) (v : Nat) : State := s.setFld .tmrPourStat 1 0 v

/-- Holdover, in cycle t, with no step of the NTC (R38). The device is an island (R39). -/
def holdover (s : State) (t : Nat) : State :=
  let s := { s with lossAt := none }
  if tickSource s = 1 ∨ tickSource s = 3 then
    [0, 1].foldl (fun s r =>
      if pairOn s r ∧ !(s.rpair r).island then pulse (s.setRpair r { s.rpair r with island := true }) 263 t else s)
      { setTickSource s 2 with stretchOff := none }
  else s

/-- RING_TIME_LOST: Holdover starts in the next cycle, so that a tick in this one is taken on the grid in use before (R42). -/
def ringTimeLost (s : State) (t : Nat) : State :=
  if tickSource s = 1 ∨ tickSource s = 3 then { s with lossAt := some t } else s

/-- Ring time with an offset in cycles is judged (R38, R40, R41): 20 ns are 30 cycles. A stretch that waits for its tick stands when a
later offset met in Locked or Slewing is within 1,536 cycles; in Free or Holdover it is dropped (log entry 79). -/
def judgeOffset (s : State) (off : Int) : State :=
  if s.bit .tmrPourCfg 0 then s
  else if 1536 < off.natAbs then (if s.stretch.isSome then s else { s with stretchOff := some off })
  else if tickSource s = 0 ∨ tickSource s = 2 then setTickSource { s with stretchOff := none } 3
  else if tickSource s = 3 ∧ off.natAbs ≤ 30 then setTickSource s 1
  else s

/-- The place of a station among the candidates of pair r; 4 when it is none (R333). -/
def leaderRank (s : State) (r sta : Nat) : Nat :=
  ((List.range 4).find? fun i =>
    s.bit .zwrTlead (31 - 8 * i) r && decide (s.fld .zwrTlead (29 - 8 * i) (24 - 8 * i) r = sta)).getD 4

/-- Whether an edge port follows PTP time (R334, R343): it is in the SLAVE state. -/
def followsPtp (s : State) (p : Nat) : Bool :=
  edgeOn s p && (match s.ring.ptp[p - 2]? with | some x => decide (x.state = .slave) | none => false)

/-- Whether this station is an eligible candidate of pair r (R334). -/
def eligible (s : State) (r : Nat) : Bool :=
  decide (leaderRank s r (staOf s r) < 4) &&
    (s.bit .zwrCfg 2 || (isGateway s && (s.rpair (1 - r)).upstream.isSome && decide (tickSource s = 1)) ||
      followsPtp s 2 || followsPtp s 3)

/-- A port's beacon that still counts in cycle t (R333). -/
def liveBeacon (s : State) (p t : Nat) : Option Beacon :=
  ((s.rport p).beacon).filter fun b => decide (t < b.at' + 384000) && decide (b.steps < 255)

/-- Whether beacon a is the better choice than b (R333). -/
def betterBeacon (s : State) (r : Nat) (a b : Beacon) : Bool :=
  let ka := (ofBool a.island, leaderRank s r a.leader, a.steps)
  let kb := (ofBool b.island, leaderRank s r b.leader, b.steps)
  decide (ka.1 < kb.1 ∨ (ka.1 = kb.1 ∧ (ka.2.1 < kb.2.1 ∨ (ka.2.1 = kb.2.1 ∧ ka.2.2 < kb.2.2))))

/-- The port a station can follow: 0 east, 1 west; equal choices fall east (R333). -/
def bestUpstream (s : State) (r t : Nat) : Option (Nat × Beacon) :=
  match liveBeacon s (2 * r) t, liveBeacon s (2 * r + 1) t with
  | some e, some w => if betterBeacon s r w e then some (1, w) else some (0, e)
  | some e, none => some (0, e)
  | none, some w => some (1, w)
  | none, none => none

/-- Upstream and leader are chosen again (R333 to R335). A station that becomes leader announces it (R312; log entry 86). -/
def chooseUpstream (s : State) (r t : Nat) : State :=
  let x := s.rpair r
  let own := eligible s r
  let best := bestUpstream s r t
  let lead : Bool := own && (match best with
    | some (_, b) => b.island || decide (leaderRank s r (staOf s r) ≤ leaderRank s r b.leader)
    | none => true)
  let oldUp := x.upstream
  let oldLeader := s.fld .zwrTstat 31 26 r
  let led : Bool := decide (oldLeader = staOf s r ∧ s.fld .zwrTstat 24 17 r = 0) && !s.bit .zwrTstat 25 r
  let wasIsland := x.island
  let s :=
    if lead then
      (s.setReg .zwrTstat (BitVec.ofNat 32 (staOf s r * 2 ^ 26)) r).setRpair r { x with upstream := none, island := false }
    else match best with
      | some (u, b) =>
        (s.setReg .zwrTstat (BitVec.ofNat 32 (b.leader * 2 ^ 26 + min (b.steps + 1) 255 * 2 ^ 17 + u * 2 ^ 16)) r).setRpair r
          { x with upstream := some u, island := b.island }
      | none =>
        if s.bit .zwrTstat 25 r then s
        else ringTimeLost ((s.setReg .zwrTstat (BitVec.ofNat 32 (255 * 2 ^ 17)) r).setRpair r
          { x with upstream := none, island := true }) t
  let s := if lead ∧ led = false then announce s t r 3 [staOf s r, 0, 0] else s
  let s := if (s.rpair r).upstream ≠ oldUp ∨ s.fld .zwrTstat 31 26 r ≠ oldLeader then pulse s 262 t else s
  if (s.rpair r).island ≠ wasIsland then pulse s 263 t else s

/-- UPSTREAM_TIMEOUT of a port (R333, R335). -/
def upstreamTimeout (s : State) (p t : Nat) : State :=
  match (s.rport p).beacon with
  | some b =>
    if b.at' + 384000 ≤ t then chooseUpstream (s.setRport p { s.rport p with beacon := none }) (p / 2) t else s
  | none => if pairOn s (p / 2) then chooseUpstream s (p / 2) t else s

/-- ISLAND_LEADER_ELECTION: the lowest-numbered station of an island leads it (R335). -/
def islandElection (s : State) (r t : Nat) : State :=
  let x := s.rpair r
  let lower : Bool := [2 * r, 2 * r + 1].any fun p =>
    match liveBeacon s p t with | some b => decide (b.leader < staOf s r) | none => false
  if !x.island ∨ lower = true ∨ s.bit .zwrTstat 25 r then s else
    let was := s.fld .zwrTstat 31 26 r
    let s := s.setReg .zwrTstat (BitVec.ofNat 32 (staOf s r * 2 ^ 26 + 2 ^ 25)) r
    let s := announce (s.setRpair r { x with upstream := none }) t r 3 [staOf s r, 0, 1]
    if was ≠ staOf s r then pulse s 262 t else s

/-- The payload of a link frame (R314). -/
def linkPayload (s : State) (r sub t : Nat) (rest : List Nat) : List Byte :=
  let w0 := sub * 2 ^ 24 + tickSource s * 2 ^ 22 + ofBool (s.rpair r).island * 2 ^ 21 + s.fld .zwrTstat 31 26 r * 2 ^ 14 +
    s.fld .zwrTstat 24 17 r * 2 ^ 6
  toBytesBE 4 w0 ++ toBytesBE 8 t ++ rest.flatMap (toBytesBE 4)

/-- A link frame leaves a port in cycle t (R307, R314). -/
def sendLink (s : State) (p sub t : Nat) (rest : List Nat) : State :=
  let r := p / 2
  sealSend s r p t (s.pourAt t) { ownHdr s r 4 (portWest p) with scope := 3 } (linkPayload s r sub t rest)

/-- A number in two words. -/
def words64 (v : Nat) : List Nat := [v / 2 ^ 32 % 2 ^ 32, v % 2 ^ 32]

/-- BEACON_SEND (R332). -/
def beaconSend (s : State) (p t : Nat) : State :=
  let due := match (s.rport p).beaconSent with | some b => decide (b + 96000 ≤ t) | none => true
  if portLive s p ∧ due = true then
    sendLink (s.setRport p { s.rport p with beaconSent := some t }) p 1 t [0, 0, 0, 0, 0]
  else s

/-- DELAY_REQUEST_SEND of pair r on its upstream port (R332). -/
def delayRequestSend (s : State) (r t : Nat) : State :=
  match (s.rpair r).upstream with
  | none => s
  | some u =>
    let p := 2 * r + u
    let due := match (s.rport p).reqSent with | some b => decide (b + 1536000 ≤ t) | none => true
    if portLive s p ∧ due = true then
      sendLink (s.setRport p { s.rport p with reqSent := some t, req := some t }) p 2 t [0, 0, 0, 0, 0]
    else s

/-- EPOCH_GRANT_SEND (R455). -/
def grantSend (s : State) (p t : Nat) : State :=
  let k := s.rkeys (p / 2)
  let x := s.rport p
  let due := match x.grantSent with
    | some b => decide (b + 15360000 ≤ t) || (decide (portState s p = 3) && decide (b < x.since))
    | none => true
  match k.cur with
  | some c =>
    if portLive s p ∧ due = true then
      let ng := match k.next with | some n => n.gen | none => c.gen
      let e := match k.next with | some n => n.start | none => 2 ^ 64 - 1
      sendLink (s.setRport p { x with grantSent := some t }) p 4 t ([c.num, c.gen * 2 ^ 16 + ng] ++ words64 e ++ [0])
    else s
  | none => s

/-- A granted epoch is installed by a keep that holds none (R455); the next epoch is the number after the current one (log
entry 44). -/
def installGrant (s : State) (r : Nat) (w : Nat → Nat) : State :=
  let k := s.rkeys r
  if k.cur.isSome then s else
    let e := w 5 * 2 ^ 32 + w 6
    s.setRkeys r { k with
      cur := some { num := w 3, gen := w 4 / 2 ^ 16, start := 0 }
      next := if e = 2 ^ 64 - 1 then none else some { num := w 3 + 1, gen := w 4 % 2 ^ 16, start := e } }

/-- δ in whole nanoseconds, rounded (R332). -/
def delayNs (cyc : Int) : Nat := ((cyc * 250 + 192) / 384).toNat

/-- A verified link frame received on a port in cycle t (R331, R332, R455). -/
def linkReceived (s : State) (p t : Nat) (payload : List Byte) : State :=
  let r := p / 2
  let w (i : Nat) : Nat := ofBytesBE ((payload.drop (4 * i)).take 4)
  let tx : Nat := w 1 * 2 ^ 32 + w 2
  let s := s.setRport p { s.rport p with linkOk := some t }
  let x := s.rport p
  match bitsOf (w 0) 24 8 with
  | 1 =>
    let b : Beacon := { at' := t, leader := bitsOf (w 0) 14 6, steps := bitsOf (w 0) 6 8, island := bitOf (w 0) 21 }
    let s := chooseUpstream (s.setRport p { x with beacon := some b }) r t
    if (s.rpair r).upstream = some (p % 2) then judgeOffset s ((t : Int) - ((tx : Int) + x.delay)) else s
  | 2 => sendLink s p 3 t (words64 t ++ words64 tx ++ [0])
  | 3 =>
    match x.req with
    | some t1 =>
      if t1 = w 5 * 2 ^ 32 + w 6 then
        let t2 : Int := ((w 3 * 2 ^ 32 + w 4 : Nat) : Int)
        let d : Int := (((t : Int) - t1) - ((tx : Int) - t2)) / 2
        let s := (s.setRport p { x with req := none, delay := d }).setFld .zwrPstat 31 16 (delayNs d) p
        if s.fld .zwrTrain 15 0 r < delayNs d then pulse (ringErr s t 0 p 5) 266 t else s
      else s
    | none => s
  | 4 => installGrant s r w
  | _ => s

/-! ### Scheduled frames (R311, R317 to R322) -/

/-- Channels in a group (R311). -/
def groupChans (s : State) : Nat := 256 / s.pourSize

/-- The valid owner of a group (R316). -/
def groupOwner (s : State) (r g : Nat) : Option Nat :=
  let i := g % 4
  if s.bit .zwrGown (8 * i + 7) r (g / 4) then some (s.fld .zwrGown (8 * i + 5) (8 * i) r (g / 4)) else none

/-- Groups this station owns. -/
def ownedGroups (s : State) (r : Nat) : List Nat :=
  (List.range (groupsOf s r)).filter fun g => groupOwner s r g = some (staOf s r)

/-- Physical address of a group's block in the receive store (log entry 45). -/
def rxAddr (s : State) (r g u : Nat) : Nat :=
  carBase + 4096 * s.fld .zwrRxstore 24 12 r + 1024 * ((u % (ringDelay s r + 1)) * groupsOf s r + g)

/-- Physical address of an owned group's block of pour n in the transmit store (R291; log entry 45). -/
def txAddr (s : State) (r i n : Nat) : Nat := carBase + 4096 * s.fld .zwrTxstore 24 12 r + 1024 * (2 * i + n % 2)

/-- The sample words of a block with the island bit of the sender (R311). -/
def markIsland : Nat → List Byte → List Byte
  | 0, bs => bs
  | n + 1, bs =>
    match bs with
    | b0 :: b1 :: b2 :: b3 :: rest => (b0 ||| 0x10) :: b1 :: b2 :: b3 :: markIsland n rest
    | _ => bs

/-- The words of a block whose channel had a source in pour n (R311): v = 0 and audio bits 0 for the others. -/
def fedWords (s : State) (r g n : Nat) (bs : List Byte) : List Byte :=
  let f := groupChans s
  (List.range 256).flatMap fun i =>
    if kget s.audio.ringFed (4096 * r + g * f + i % f) = some n then (bs.drop (4 * i)).take 4 else [0, 0, 0, 0]

/-- The cycle in which a frame of period k has left whole, on a link whose ring cycle began in cycle t (R315). -/
def slotEnd (t k : Nat) : Nat := t + (k * periodParts + slotParts) / 1000000

/-- A frame waits for its slot (R318). -/
def State.slot (s : State) (x : Slotted) : State := { s with ring := { s.ring with slots := s.ring.slots ++ [x] } }

/-- A frame leaves in its slot, where its port carries scheduled frames (R318, R331). They are never wrapped (R329). -/
def leaveSlot (s : State) (x : Slotted) : State :=
  let s := { s with ring := { s.ring with slots := s.ring.slots.erase x } }
  if portUp s x.port ∧ !portWrapped s x.port then
    s.emit (if x.whole then .ring x.port x.at' (startOctets ++ x.bytes) else .cut x.port x.at' (startOctets ++ x.bytes))
  else s

/-- One owned group is sent in its slot of ring cycle m in one direction (R311, R318). -/
def sendGroup (s : State) (r m t : Nat) (west : Bool) (gi : Nat × Nat) : State :=
  let rd := readPhys s t .runner (txAddr s r gi.2 (m - 1)) 1024
  let words := fedWords s r gi.1 (m - 1) rd.1
  let payload := if (s.rpair r).island then markIsland 256 words else words
  match sealFrame rd.2.2 r (m + ringDelay s r) { ownHdr s r 1 west with aux := gi.1 } payload with
  | (some bs, s) => s.slot { at' := slotEnd t gi.1, port := portOf r west, bytes := bs, whole := true }
  | (none, s) => s

/-- Frames the train head held for a ring cycle leave in the same slots (R318). -/
def sendHead (s : State) (r m t : Nat) (west : Bool) : State :=
  let x := s.rpair r
  let due := x.head.filter fun f => decide (f.1 ≤ m) && f.2.2.1 == west
  let s := s.setRpair r { x with head := x.head.filter fun f => !(decide (f.1 ≤ m) && f.2.2.1 == west) }
  due.foldl (fun s f => s.slot { at' := slotEnd t f.2.1, port := portOf r west, bytes := f.2.2.2, whole := true }) s

/-- The station's own forwarding delay of 180 ns, in cycles (R55, R317). -/
def hopCycles : Nat := 276

/-- The least offset from tick(m) at which the train of ring cycle m can begin on an outgoing link (R317): 4,096 cycles, and 180 ns
for each station it has passed. -/
def leastOrigin (s : State) (r : Nat) (west : Bool) : Nat :=
  4096 + (if west then (stationsOf s r - staOf s r) % stationsOf s r else staOf s r) * 180 * 1536 / 1000

/-- TRAIN_ORIGIN: the train of a ring cycle begins on the outgoing link of one direction in cycle t (R317, R318, R336).
`arrived`: an incoming train set the origin, and its offset from tick(m) is recorded: m is the last ring cycle whose train can have
come so far (log entry 47). -/
def trainOrigin (s : State) (r : Nat) (west arrived : Bool) (t : Nat) : State :=
  let x := s.rpair r
  let d := ofBool west
  let came : Bool := arrived && decide (staOf s r ≠ 0)
  let least := if came then leastOrigin s r west else originOf s r west
  let m := (t - least) / s.pourLen
  if !pairOn s r ∨ nth x.trains d none = some m ∨ t < least then s else
    let s := s.setRpair r { x with
      origins := if came then setNth x.origins d (some (t - m * s.pourLen)) else x.origins
      trains := setNth x.trains d (some m) }
    let s := if staOf s r = 0 then sendHead s r m t west else s
    if x.joined ∧ 0 < m then
      ((ownedGroups s r).zipIdx).foldl (fun s gi => sendGroup s r m t west gi) s
    else s

/-- Pours by which the train head delays a frame (R318). -/
def headLag (s : State) (r : Nat) : Nat :=
  ceilDiv ((stationsOf s r * (180 + s.fld .zwrTrain 15 0 r) * 1000 + 348160) * 1536) (1000000 * s.pourLen)

/-- Tags of the sample words of a block (R311, R486): how many have v = 0, ramp, va and isl. -/
def tagCounts : Nat → List Byte → Nat × Nat × Nat × Nat
  | 0, _ => (0, 0, 0, 0)
  | n + 1, bs =>
    let b := (bs.headD 0).toNat
    let r := tagCounts n (bs.drop 4)
    (r.1 + ofBool (!bitOf b 7), r.2.1 + ofBool (bitOf b 6), r.2.2.1 + ofBool (bitOf b 5), r.2.2.2 + ofBool (bitOf b 4))

/-- The copy of a group is written into the receive store (R319). -/
def writeGroup (s : State) (t r g u : Nat) (payload : List Byte) : State :=
  let w := writePhys s t .runner (rxAddr s r g u) payload
  if w.1 then runErr w.2 t 0 2 else w.2

/-- An acceptable copy of a group (R320 to R322): the first is written, the second compared; of two in one cycle the eastbound copy is
kept. A first copy that comes later than tick(u) − 4,096 is not accepted: the group counts as missing. -/
def groupReceived (s : State) (p t : Nat) (h : Hdr) (u : Nat) (payload : List Byte) : State :=
  let r := p / 2
  let x := s.rpair r
  if groupsOf s r ≤ h.aux then s
  else if x.rx.contains (h.aux, u) then
    if memRead s.mem (rxAddr s r h.aux u) 1024 = payload then s
    else
      let s := ringErr s t h.src p 8
      if !h.west ∧ x.fresh.contains (h.aux, u, t) then writeGroup s t r h.aux u payload else s
  else if u * s.pourLen < t + 4096 then s
  else
    let s := writeGroup s t r h.aux u payload
    let fresh := x.fresh.filter fun e => decide (e.2.2 = t)
    let s := s.setRpair r { x with
      rx := (h.aux, u) :: x.rx, missing := x.missing.filter fun g => decide (g ≠ h.aux)
      fresh := if h.west then (h.aux, u, t) :: fresh else fresh }
    let n := tagCounts 256 payload
    countEvents (countEvents (countEvents (countEvents s t 0x0E 0 n.1) t 0x0E 1 n.2.1) t 0x0E 2 n.2.2.1) t 0x0E 3 n.2.2.2

/-- GROUP_MISSING: no copy of group g stamped for pour m by tick(m) − 4,096 (R322). -/
def groupMissing (s : State) (r g m t : Nat) : State :=
  let x := s.rpair r
  let owner := groupOwner s r g
  if t + 4096 < m * s.pourLen ∨ groupsOf s r ≤ g ∨ owner.isNone ∨ owner = some (staOf s r) ∨ x.rx.contains (g, m) ∨
      !pairOn s r then s else
    let s := s.setRpair r { x with missing := if x.missing.contains g then x.missing else g :: x.missing }
    pulse (countEvent (ringErr s t 0 (2 * r) 4) t 0x0D r) 265 t

/-! ### Frame receipt (R308, R310, R321, R327, R338, R344, R482) -/

/-- The items of a best-effort frame (R313). -/
def frameItems (payload : List Byte) : List W48 :=
  let n := min ((payload.drop 3).headD 0).toNat 84
  (List.range n).map fun i => BitVec.ofNat 48 (ofBytesBE ((payload.drop (4 + 6 * i)).take 6))

/-- One item for local mailbox m (R327). -/
def mailItem (t port src m : Nat) (s : State) (item : W48) : State :=
  match (queueHandles s).find? fun h => decide (qProducer s h = 0x5000 + m) with
  | some h =>
    if portTakes s h (0x5000 + m) then
      portSend s t h item
    else countEvent (ringErr (s.setQdFld h 0x18 30 30 1) t src port 7) t 0x0F 1
  | none => countEvent (ringErr s t src port 7) t 0x0F 1

/-- A verified control or best-effort frame for this station (R312, R327, R344). -/
def deliverFrame (s : State) (p t : Nat) (h : Hdr) (payload : List Byte) : State :=
  if h.typ = 2 then
    let op := (payload.headD 0).toNat
    if 6 ≤ op ∧ op < 0x80 then countEvent s t 0x0F 3
    else crxWrite s t false p (hdrBytes h ++ payload)
  else
    let m := ofBytesBE (payload.take 4) / 2 ^ 20
    (frameItems payload).foldl (mailItem t p h.src m) s

/-- A transit frame is held for its outgoing port: at most four at a port (R323; log entry 46). -/
def transit (s : State) (p : Nat) (h : Hdr) (ct tag : List Byte) : State :=
  let r := p / 2
  let out := portOf r (!portWest p)
  let n := ((s.rpair r).held.filter fun f => decide (f.cls % 2 = 0) && decide (effPort s r f = out)).length
  if 126 < h.hops + 1 ∨ 4 ≤ n then s
  else holdFrame s r { cls := if h.typ = 2 then 0 else 2, west := !portWest p, cross := false, hdr := { h with hops := h.hops + 1 }
                       payload := ct, tag := tag, ctx := false }

/-- A scheduled frame whose hops would exceed N − 1 is discarded by every station (R318). -/
def hopsSpent (s : State) (r : Nat) (h : Hdr) : Bool := decide (h.typ = 1 ∧ stationsOf s r ≤ h.hops + 1 ∧ h.src ≠ ownAddr s r)

/-- A scheduled frame stamped for pour u passes through (R308, R318): 180 ns after receipt, or at the head in the same slot of ring
cycle m + h, where m = u − d. Where it is found malformed, its copy ends with an error block; the head has not begun to send it. -/
def forwardScheduled (s : State) (p t u : Nat) (h : Hdr) (whole : Bool) (rest : List Byte) : State :=
  let r := p / 2
  let out := portOf r (!portWest p)
  if h.src = ownAddr s r ∨ hopsSpent s r h = true then s
  else
    let bytes := hdrBytes { h with hops := h.hops + 1 } ++ rest
    if staOf s r = 0 then
      let x := s.rpair r
      if whole then s.setRpair r { x with head := x.head ++ [(u - ringDelay s r + headLag s r, h.aux, !portWest p, bytes)] } else s
    else s.slot { at' := t + hopCycles, port := out, bytes := bytes, whole := whole }

/-- Keys that can have sealed a frame stamped for pour u (R310, R337, R451, R455): of the current epoch, of the previous one while the
keep still holds it, and of the announced one for a stamp from its start on; of any generation for a link frame at a station without
an epoch. -/
def frameKeys (s : State) (r u : Nat) (h : Hdr) : List (List Byte) :=
  let k := s.rkeys r
  let next := k.next.toList.filter fun e => decide (e.start ≤ u)
  let es := (k.cur.toList ++ k.prev.toList ++ next).filter fun e => decide (e.num % 4 = h.epoch)
  if h.typ = 4 then
    if k.cur.isNone then k.gens.filterMap fun g => linkKey s r g.1 else es.filterMap fun e => linkKey s r e.gen
  else es.filterMap (epochKey s r)

/-- The pour a stamp names, near the present pour (R307). -/
def stampPour (s : State) (t stamp : Nat) : Nat :=
  let c := s.pourAt t
  let d := (stamp + 2 ^ 32 - c % 2 ^ 32) % 2 ^ 32
  if d < 2 ^ 31 then c + d else c + d - 2 ^ 32

/-- Whether a header's len is the payload received and one that its type can have (R307, R311, R312, R314; log entry 87). -/
def lenOk (h : Hdr) (n : Nat) : Bool :=
  decide (44 ≤ n ∧ h.len + 40 = n ∧ h.len % 4 = 0 ∧ h.len ≤ 1024) &&
    (match h.typ with | 1 => decide (h.len = 1024) | 2 => decide (h.len ≤ 512) | 4 => decide (h.len = 32) | _ => true)

/-- The first check of R310 that a frame fails: its number and kind, or the plaintext. `framed`: its blocks and the octets of its start
block were right (R305). -/
def checkFrame (s : State) (p t : Nat) (framed : Bool) (bs : List Byte) : Except (Nat × Nat) (List Byte) :=
  let r := p / 2
  let h := parseHdr bs
  let ct := (bs.drop 24).take (bs.length - 40)
  let tag := bs.drop (bs.length - 16)
  let keys := frameKeys s r (stampPour s t h.stamp) h
  if !framed ∨ lenOk h bs.length = false then .error (1, 1)
  else if h.ver ≠ 1 ∨ h.typ = 0 ∨ 4 < h.typ then .error (2, 2)
  else if keys.isEmpty then .error (3, 9)
  else
    match keys.find? fun key => decide (gcmTag key (frameIv h) (frameAad (bs.take 24)) ct = tag) with
    | none => .error (4, 0xA)
    | some key =>
      let u := stampPour s t h.stamp
      let c := s.pourAt t
      if (h.typ = 1 ∧ ¬(c < u ∧ u ≤ c + ringDelay s r)) ∨ (h.typ = 4 ∧ ¬(u ≤ c + 1 ∧ c ≤ u + 1)) then .error (5, 3)
      else .ok (gcmCrypt key (frameIv h) ct)

/-- A discarded frame is recorded and counted (R310, R345, R486). -/
def discardFrame (s : State) (p t src check kind : Nat) : State :=
  let s := countEvent (ringErr s t src p kind) t 0x0C (check * 4 + p)
  if check = 2 then pulse s 269 t else if check = 3 ∨ check = 4 then pulse s 264 t else s

/-- Whether a unicast address is this station's, on the pair of arrival or, at a gateway, on its other segment (R304, R338). -/
def ownUnicast (s : State) (r dst : Nat) : Bool :=
  decide (dst = ownAddr s r) || (isGateway s && decide (dst = ownAddr s (1 - r)))

/-- Whether a frame is addressed to this station on pair r (R304). -/
def forMe (s : State) (r : Nat) (h : Hdr) : Bool :=
  match h.typ, h.scope with
  | 1, _ => true
  | 4, _ => true
  | _, 0 => ownUnicast s r h.dst
  | _, 1 => true
  | 2, 2 => true
  | _, _ => false

/-- A duplicate of the station's own address (R482): pulsed at most once a pour. -/
def duplicateCheck (s : State) (p t : Nat) (h : Hdr) : State :=
  let r := p / 2
  let x := s.rpair r
  let k := s.rkeys r
  let sent := match (k.cur.toList ++ k.prev.toList ++ k.next.toList).find? fun e => decide (e.num % 4 = h.epoch) with
    | some e => (kget x.ctrs (2 * e.num + ofBool h.west)).getD 0
    | none => 0
  if h.src = ownAddr s r ∧ h.typ ≠ 4 ∧ sent ≤ h.ctr ∧ x.dupAt ≠ some (s.pourAt t) then
    pulse (s.setRpair r { x with dupAt := some (s.pourAt t) }) 11 t
  else s

/-- A realm frame floods through the gateway once (R338). -/
def floodFrame (s : State) (p t : Nat) (h : Hdr) (payload : List Byte) : State :=
  let r := p / 2
  let x := s.rpair r
  if !isGateway s then s else
    let c := s.pourAt t
    if x.flood.any fun f => decide (f.1 = h.src ∧ f.2.1 = h.ctr ∧ c ≤ f.2.2 + 16) then s
    else crossTo (s.setRpair r { x with flood := (h.src, h.ctr, c) :: x.flood.filter fun f => decide (c ≤ f.2.2 + 16) }) t (1 - r) p h payload

/-- What becomes of a well-formed control or best-effort frame besides its delivery here (R304, R308, R326, R338). -/
def passOn (s : State) (p t : Nat) (h : Hdr) (ct tag : List Byte) (plain : Option (List Byte)) : State :=
  let r := p / 2
  if h.src = ownAddr s r then s
  else match h.scope with
    | 0 =>
      if ownUnicast s r h.dst = true then s
      else match hopTo s r h.dst with
        | none => countEvent s t 0x0F 2
        | some (true, _) =>
          (match plain with
           | some pl => if isGateway s then crossTo s t (1 - r) p h pl else countEvent s t 0x0F 2
           | none => s)
        | some (false, g) => if g = staOf s r then countEvent s t 0x0F 2 else transit s p h ct tag
    | 1 => transit s p h ct tag
    | 2 =>
      let s := transit s p h ct tag
      (match plain with | some pl => if h.typ = 2 then floodFrame s p t h pl else s | none => s)
    | _ => s

/-- RING_FRAME_RECEIVED on a port in cycle t (R305, R308, R310): the octets of the start block, header, payload and tag as they came
off the wire; `coded`: its blocks were right, from a start block of type 0x78 to a terminate block. -/
def frameReceived (s : State) (p : Nat) (coded : Bool) (wire : List Byte) (t : Nat) : State :=
  let r := p / 2
  let framed := coded && decide (wire.take 7 = startOctets)
  let bs := wire.drop 7
  let h := parseHdr bs
  let st := portState s p
  let open' : Bool := decide (st = 1) || (decide (st = 3 ∨ st = 4) && decide (h.typ = 4))
  if !pairOn s r ∨ open' = false then s else
    let ct := (bs.drop 24).take (bs.length - 40)
    let tag := bs.drop (bs.length - 16)
    let chk := checkFrame s p t framed bs
    let wellFormed : Bool := match chk with | .error (c, _) => decide (2 < c) | .ok _ => true
    let plain := match chk with | .ok pl => some pl | .error _ => none
    let s := if wellFormed ∧ plain.isSome then duplicateCheck s p t h else s
    let mine := forMe s r h && decide (h.src ≠ ownAddr s r) && !hopsSpent s r h
    let begun : Bool := decide (h.typ = 1 ∧ h.ver = 1 ∧ 24 ≤ bs.length)
    let s := if begun then forwardScheduled s p t (stampPour s t h.stamp) h wellFormed (bs.drop 24)
      else if wellFormed ∧ h.typ ≠ 4 then passOn s p t h ct tag plain
      else s
    match chk with
    | .error (c, k) => if mine ∨ c ≤ 2 then discardFrame s p t h.src c k else s
    | .ok pl =>
      if !mine then s
      else if h.typ = 1 then groupReceived s p t h (stampPour s t h.stamp) pl
      else if h.typ = 4 then linkReceived s p t pl
      else deliverFrame s p t h pl

/-! ### PTP messages (R343) -/

/-- E48 (R342). -/
def e48 (s : State) : Nat := (s.reg .zwrPtpeLo).toNat + 2 ^ 32 * (s.reg .zwrPtpeHi).toNat

/-- A media packet's place in a frame (R339, R341): source and destination address, UDP ports, tag, and the RTP packet. -/
structure UdpFrame where
  tci : Nat
  sip : Nat
  dip : Nat
  sport : Nat
  dport : Nat
  data : List Byte
  deriving DecidableEq, Repr

/-- An Ethernet frame read as IPv4 and UDP, if it is one. -/
def parseUdp (bs : List Byte) : Option UdpFrame :=
  let be (l : List Byte) (o n : Nat) : Nat := ofBytesBE ((l.drop o).take n)
  let tagged := decide (be bs 12 2 = 0x8100)
  let tci := if tagged then be bs 14 2 else 0
  let l := if tagged then bs.drop 16 else bs.drop 12
  let ip := l.drop 2
  let ihl := 4 * (be ip 0 1 % 16)
  let udp := ip.drop ihl
  if be l 0 2 = 0x0800 ∧ be ip 0 1 / 16 = 4 ∧ be ip 9 1 = 17 ∧ 8 ≤ udp.length then
    some { tci := tci, sip := be ip 12 4, dip := be ip 16 4, sport := be udp 0 2, dport := be udp 2 2
           data := (udp.drop 8).take (be udp 4 2 - 8) }
  else none

/-- A PTP message on an edge port in cycle t (R343): the ring hardware stamps an event message, which is on UDP port 319. The best
master clock algorithm and the content of messages are the firmware's of the active pair: the port takes the state that it gives
(source 272 or 273), and in the SLAVE state on a realm time source the time it gives is ring time (log entry 43). -/
def ptpMessage (s : State) (p t : Nat) (sent : Bool) (u : UdpFrame) : State :=
  let q := p - 2
  match s.ring.ptp[q]? with
  | none => s
  | some x =>
    let log := (if u.dport = 319 then some t else none, sent, u.data) :: x.log
    let st := Config.ptpState q log
    let s := { s with ring := { s.ring with ptp := setNth s.ring.ptp q { state := st, log := log } } }
    let s := if st = x.state then s else pulse s (272 + q) t
    match Config.ptpOffset q (e48 s) log with
    | some off => if st = .slave ∧ s.bit .zwrCfg 2 then judgeOffset s off else s
    | none => s

/-- A UDP frame that is a PTP message (R343). -/
def UdpFrame.isPtp (u : UdpFrame) : Bool := decide (u.dport = 319 ∨ u.dport = 320)

/-! ### Sending from the device (R327, R344) -/

/-- The oldest items of a queue leave it, at most n of them. -/
def takeItems (t h : Nat) : Nat → State → List W48 × State
  | 0, s => ([], s)
  | n + 1, s =>
    if qCount s h = 0 then ([], s) else
      let b := readSlot s t h (qHead s h)
      let r := takeItems t h n (dropItem b.2 h)
      (BitVec.ofNat 48 (ofBytesLE (b.1.take 6)) :: r.1, r.2)

/-- Zero padding to a multiple of 4. -/
def pad4 (bs : List Byte) : List Byte := bs ++ List.replicate ((4 - bs.length % 4) % 4) 0

/-- MAILBOX_SEND of mailbox m: once per pour (R313, R327). -/
def mailboxSend (s : State) (m t : Nat) : State :=
  match (queueHandles s).find? fun h => decide (qConsumer s h = 0x5000 + m) with
  | none => s
  | some h =>
    if !s.bit .zwrMbox 31 m ∨ kget s.ring.mailed m = some (s.pourAt t) ∨ qCount s h = 0 then s else
      let r := if s.bit .zwrMbox 30 m then 1 else 0
      let x := takeItems t h 84 s
      let s := { x.2 with ring := { x.2.ring with mailed := kput x.2.ring.mailed m (s.pourAt t) } }
      let payload := pad4 (toBytesBE 4 (s.fld .zwrMbox 11 0 m * 2 ^ 20 + x.1.length) ++ x.1.flatMap fun i => toBytesBE 6 i.toNat)
      sendLocal s t r false { ownHdr s r 3 false with aux := m, scope := 0, dst := s.fld .zwrMbox 29 12 m } payload

/-- CONTROL_TRANSMIT: a write of ZWR_CTX_CMD sends the transmit entry (R344). -/
def controlTransmit (s : State) (v : W32) (t : Nat) : State :=
  if !bitOf v.toNat 0 ∨ s.ring.ctxBusy then s else
    let a := crxBase s + 0x18000
    let d := memNat s.mem a 4
    let frame := memRead s.mem (a + 4) (d % 2 ^ 11)
    if bitOf d 31 then
      let p := if bitOf d 16 then 3 else 2
      if !edgeOn s p then s else
        let s := s.emit (.eth p t frame)
        match (parseUdp frame).filter UdpFrame.isPtp with | some u => ptpMessage s p t true u | none => s
    else
      let r := if bitOf v.toNat 1 then 1 else 0
      let h := parseHdr frame
      if !pairOn s r then s
      else
        let s := sendLocal s t r true h (frame.drop 24)
        { s with ring := { s.ring with ctxBusy := (s.rpair r).held.any fun f => f.ctx } }

/-! ### The tick (R324, R331, R336, R337, R452) -/

/-- Tokens of a pair refilled (R324). -/
def refillTokens (s : State) (r : Nat) : State :=
  let c := 64 * s.fld .zwrBudget 31 16 r
  let b := 64 * s.fld .zwrBudget 15 0 r
  s.setRpair r { s.rpair r with tokens := [c, c, b, b] }

/-- Epochs of a pair at tick(n) (R337, R452). -/
def epochsTick (s : State) (r n t : Nat) : State :=
  let k := s.rkeys r
  let s := match k.next with
    | some e => if e.start ≤ n then pulse (s.setRkeys r { k with prev := k.cur, cur := some e, next := none }) 643 t else s
    | none => s
  let k := s.rkeys r
  match k.prev, k.cur with
  | some _, some c =>
    if c.start + ringDelay s r + 2 ≤ n then pulse (s.setRkeys r { k with prev := none }) 268 t else s
  | _, _ => s

/-- A pair at tick(n) in cycle t. -/
def pairTick (s : State) (r n t : Nat) : State :=
  let s := refillTokens (epochsTick s r n t) r
  let s := unwrapAt (unwrapAt s (2 * r) t) (2 * r + 1) t
  let x := s.rpair r
  s.setRpair r { x with
    joined := x.joined || (pairOn s r && decide (tickSource s = 1) && (s.rkeys r).cur.isSome)
    rx := x.rx.filter fun g => decide (n ≤ g.2 + 1) }

/-- The ring at tick(n) in cycle t. -/
def ringTick (s : State) (n t : Nat) : State := pairTick (pairTick s 0 n t) 1 n t

end Sys2Proof.Machine
end

