-- ==== Sys2Proof/Machine/Edge.lean ====
section
/-! DEFINITION. The Ethernet edge: media streams and frames for the Barista (R339 to R345). -/

namespace Sys2Proof.Machine

/-- Word w of stream descriptor i (R341). -/
def strWord (s : State) (i w : Nat) : Nat := memNat s.mem (streamBase + 32 * i + 4 * w) 4

def strEn (s : State) (i : Nat) : Bool := bitOf (strWord s i 0) 31
def strSend (s : State) (i : Nat) : Bool := bitOf (strWord s i 0) 30
def strPort (s : State) (i : Nat) : Nat := 2 + bitsOf (strWord s i 0) 29 1
def strChans (s : State) (i : Nat) : Nat := bitsOf (strWord s i 0) 25 3 + 1
def strFirst (s : State) (i : Nat) : Nat := bitsOf (strWord s i 0) 0 12
/-- Samples in one packet, and cycles of one packet time (R339). -/
def strSamples (s : State) (i : Nat) : Nat := if bitOf (strWord s i 0) 28 then 48 else 6
def strCycles (s : State) (i : Nat) : Nat := if bitOf (strWord s i 0) 28 then 1536000 else 192000

/-- The 48 kHz samples of a channel in one pour (R340). -/
def k48 (s : State) : Nat := s.pourSize / 2 ^ s.fld .tmrPourCfg 5 4

/-- The media clock in cycle t (R342). -/
def mediaAt (s : State) (t : Nat) : Nat := e48 s + t / 32000

/-- Whether a UDP frame on an edge port is a packet of receive stream i (R341). -/
def strMatches (s : State) (p : Nat) (u : UdpFrame) (i : Nat) : Bool :=
  let be (o n : Nat) : Nat := ofBytesBE ((u.data.drop o).take n)
  strEn s i && !strSend s i && decide (strPort s i = p) && decide (strWord s i 1 = u.dip) &&
  (decide (strWord s i 2 = 0) || decide (strWord s i 2 = u.sip)) && decide (strWord s i 3 / 2 ^ 16 = u.dport) &&
  decide (strWord s i 5 / 2 ^ 16 = u.tci) && decide (be 0 1 / 64 = 2) &&
  decide (be 1 1 % 128 = bitsOf (strWord s i 0) 18 7) && decide (be 8 4 = strWord s i 4)

/-- The media index nearest to `now` with given low 32 bits (R342). -/
def nearIndex (now low : Nat) : Nat :=
  let d := (low + 2 ^ 32 - now % 2 ^ 32) % 2 ^ 32
  if d < 2 ^ 31 then now + d else now + d - 2 ^ 32

/-- One received sample is kept for its pour, or discarded as late (R342; the deadline is that of R322, log entry 48). -/
def edgeSample (t p chan q v : Nat) (s : State) : State :=
  let m := (q - e48 s) / max 1 (k48 s)
  if m * s.pourLen ≤ t + 4096 then countEvent s t 0x10 (p - 2)
  else { s with ring := { s.ring with edgeRx := kput s.ring.edgeRx (4096 * q + chan) (BitVec.ofNat 24 v) } }

/-- The samples of a packet of stream i (R339, R342). -/
def edgeMedia (s : State) (t p i : Nat) (data : List Byte) : State :=
  let ts := ofBytesBE ((data.drop 4).take 4)
  let n := strChans s i
  let body := data.drop (12 + 4 * (((data.headD 0).toNat) % 16))
  let q0 := nearIndex (mediaAt s t) ((ts + 2 ^ 32 - strWord s i 6 % 2 ^ 32 + strWord s i 5 % 2 ^ 16) % 2 ^ 32)
  let s := { s with ring := { s.ring with streams := kput s.ring.streams i (t, false) } }
  (List.range (body.length / (3 * n))).foldl (fun s j =>
    (List.range n).foldl (fun s c =>
      edgeSample t p (strFirst s i + c) (q0 + j) (ofBytesBE ((body.drop (3 * (j * n + c))).take 3)) s) s) s

/-- EDGE_FRAME_RECEIVED on port p: media, PTP, or a frame for the pair (R339, R342 to R344). -/
def edgeReceived (s : State) (p : Nat) (bs : List Byte) (t : Nat) : State :=
  if !edgeOn s p then s else
    match parseUdp bs with
    | some u =>
      match (List.range 1024).find? (strMatches s p u) with
      | some i => edgeMedia s t p i u.data
      | none => if u.isPtp then ptpMessage s p t false u else crxWrite s t true p bs
    | none => crxWrite s t true p bs

/-- EDGE_STREAM_TRANSMIT: the next packet of send stream i (R339, R342). A sample no block has given is 0. -/
def edgeTransmit (s : State) (i t : Nat) : State :=
  if !strEn s i ∨ !strSend s i ∨ !edgeOn s (strPort s i) then s else
    let n := strSamples s i
    let q0 := (kget s.ring.streamNext i).getD (mediaAt s t / n * n)
    let samples := (List.range n).flatMap fun j => (List.range (strChans s i)).map fun c =>
      (kget s.ring.edgeTx (4096 * (q0 + j) + strFirst s i + c)).getD 0
    let s := { s with ring := { s.ring with streamNext := kput s.ring.streamNext i (q0 + n) } }
    s.emit (.rtp i t ((q0 + strWord s i 6) % 2 ^ 32) samples)

/-- STREAM_SILENT: 16 packet times without a packet (R345), told once. -/
def streamSilent (s : State) (i t : Nat) : State :=
  match kget s.ring.streams i with
  | some (a, false) =>
    if strEn s i ∧ !strSend s i ∧ a + 16 * strCycles s i ≤ t then
      pulse { s with ring := { s.ring with streams := kput s.ring.streams i (a, true) } } 274 t
    else s
  | _ => s

/-- Samples whose time is past are dropped at tick(n). -/
def edgeTick (s : State) (n t : Nat) : State :=
  { s with ring := { s.ring with
      edgeRx := s.ring.edgeRx.filter fun e => decide (e48 s + n * k48 s ≤ e.1 / 4096)
      edgeTx := s.ring.edgeTx.filter fun e => decide (mediaAt s t ≤ e.1 / 4096 + 96) } }

end Sys2Proof.Machine
end

