-- ==== Sys2Proof/Machine/Audio.lean ====
section
/-! DEFINITION. The audio paths: input placement, the stages of an output channel, delay stages, ramps, EVAC messages, TDM ports,
coefficient banks and placements (R31 to R33, R49, R291, R292, R384 to R412, R541). -/

namespace Sys2Proof.Machine

/-- Saturation to Q1.23. -/
def sat24 (x : Int) : Int := (clampInt 24 x).1

/-- Cycles in a frame, and samples in 1 ms (R386, R398). -/
def frameCycles (s : State) : Nat := 32000 / 2 ^ (s.fld .tmrPourCfg 5 4)
def msSamples (s : State) : Nat := 48 * 2 ^ (s.fld .tmrPourCfg 5 4)

/-- The words of a block, sign-extended (R276). -/
def blockWords : Nat → List Byte → List Int
  | 0, _ => []
  | n + 1, bs => (BitVec.ofNat 24 (ofBytesLE (bs.take 3))).toInt :: blockWords n (bs.drop 3)

def wordBytes (l : List Int) : List Byte := l.flatMap fun x => toBytesLE 3 (sfield 24 x)

/-- Channel j of a sample-major block of k channels and n samples (R276), and the block of its channels. -/
def column (ws : List Int) (k n j : Nat) : List Int := (List.range n).map fun i => ws.getD (i * k + j) 0
def interleave (cols : List (List Int)) (n : Nat) : List Int :=
  (List.range n).flatMap fun i => cols.map fun c => c.getD i 0

/-- Whether a port endpoint is the edge's (R340). -/
def epEdge (s : State) (e : Nat) : Bool := decide (epClass e = 4) && decide (s.fld .zwrCfg 5 4 ≠ 0)

/-- Samples per channel of a queue's block, and its channels (R276, R340). -/
def qPer (s : State) (h : Nat) : Nat := if epEdge s (qProducer s h) ∨ epEdge s (qConsumer s h) then k48 s else s.pourSize
def qChans (s : State) (h : Nat) : Nat := qBsize s h / max 1 (qPer s h)

/-! ### Delay stages (R393 to R397) -/

/-- The stage attached to a queue. -/
def stageOf (s : State) (h : Nat) : Option Nat :=
  (List.range 256).find? fun g => s.bit .aptDlyQ 31 g && decide (s.fld .aptDlyQ 15 0 g = h)

/-- One channel of queue h through a delay stage: what it passes, and whether its delay is beyond its buffer (R394, R395). A
write that fails is the queue's (R540). -/
def delayChan (s : State) (t h g x j : Nat) (ws : List Int) : List Int × Bool × State :=
  let e := s.fld .aptDlyTab 28 0 g * 16 + 16 * j
  let rd := readPhys s t .runner e 16
  let s := rd.2.2
  let w (i : Nat) : Nat := ofBytesLE ((rd.1.drop (4 * i)).take 4)
  let buf := w 0 % 2 ^ 30 * 8
  let len := max 1 (w 1 % 2 ^ 20)
  let d := w 2 % 2 ^ 20
  if !bitOf (w 2) 31 then (ws, false, s) else
    let r := (List.range ws.length).foldl (fun (a : List Int × State) i =>
      if d ≤ i then (a.1 ++ [ws.getD (i - d) 0], a.2) else
        let r := readPhys a.2 t .runner (buf + 3 * ((x + i + len - d % len) % len)) 3
        (a.1 ++ [if r.2.1 then 0 else (BitVec.ofNat 24 (ofBytesLE r.1)).toInt], r.2.2)) ([], s)
    let s := (ws.zipIdx).foldl (fun s wi =>
      let w := writePhys s t .runner (buf + 3 * ((x + wi.2) % len)) (toBytesLE 3 (sfield 24 wi.1))
      if w.1 then queueErr w.2 t h 2 else w.2) r.2
    if len < d + ws.length then (ws.map fun _ => 0, true, s) else (r.1, false, s)

/-- A queue's channels through its delay stage, if it has one. -/
def delayStage (s : State) (t h : Nat) (cols : List (List Int)) : List (List Int) × State :=
  match stageOf s h with
  | none => (cols, s)
  | some g =>
    let x := (kget s.audio.delays g).getD 0
    let r := (cols.zipIdx).foldl (fun (a : List (List Int) × Bool × State) c =>
      let r := delayChan a.2.2 t h g x c.2 c.1
      (a.1 ++ [r.1], a.2.1 || r.2.1, r.2.2)) ([], false, s)
    let s := { r.2.2 with audio := { r.2.2.audio with delays := kput r.2.2.audio.delays g (x + (cols.headD []).length) } }
    (r.1, if r.2.1 then pulse s 537 t else s)

/-! ### Ramps (R398 to R400) -/

/-- Logical cores whose fault makes outputs fall: late, stopped, or without a physical core (R48, R225, R477). -/
def faultedCores (s : State) : List Nat :=
  (List.range 64).filter fun l => match s.physOf l with | some p => (s.core (.eduno p)).ovrForce | none => true

/-- Logical cores reached from some through the queue graph, in at most n steps (R48). -/
def reachFrom (edges : List (Nat × Nat)) : Nat → List Nat → List Nat
  | 0, l => l
  | n + 1, l =>
    let new := (edges.filter fun e => l.contains e.1 && !l.contains e.2).map Prod.snd
    if new.isEmpty then l else reachFrom edges n (l ++ new.eraseDups)

/-- The joins of two cores in the accepted queue graph. -/
def coreEdges (s : State) : List (Nat × Nat) :=
  (queueHandles s).filterMap fun h =>
    if epClass (qProducer s h) = 0 ∧ epClass (qConsumer s h) = 0 then some (epIndex (qProducer s h), epIndex (qConsumer s h))
    else none

/-- Whether a pour overrun or core stop is a cause for a queue's channels. -/
def causeCore (s : State) (h : Nat) : Bool :=
  decide (epClass (qProducer s h) = 0) && (reachFrom (coreEdges s) 64 (faultedCores s)).contains (epIndex (qProducer s h))

/-- Shedding of a queue's channels (R479). -/
def causeShed (s : State) (h : Nat) : Bool :=
  [3, 4, 6].contains (epClass (qConsumer s h)) && decide (qShed s h < s.audio.shed)

/-- Both ring copies of pour m missing, for channel j of a queue from the ring (R322). -/
def causeRing (s : State) (h j m : Nat) : Bool :=
  let c := epClass (qProducer s h)
  [3, 4].contains c && !epEdge s (qProducer s h) &&
    !(s.rpair (c - 3)).rx.contains ((epIndex (qProducer s h) + j) / groupChans s, m)

def State.ramp (s : State) (k : Nat) : ChanRamp := (kget s.audio.ramps k).getD ChanRamp.zero
def State.setRamp (s : State) (k : Nat) (x : ChanRamp) : State :=
  { s with audio := { s.audio with ramps := kput s.audio.ramps k x } }

/-- A channel at the start of a block: a cause turns it to Falling, the end of every cause to Rising (R399, R400). -/
def rampTurn (x : ChanRamp) (rm : Nat) (cause shed : Bool) : ChanRamp :=
  if cause then
    match x.st with
    | 0 => { x with st := 1, g := rm, held := if shed then x.last else x.rel }
    | 2 => { x with st := 1, held := x.last }
    | _ => x
  else if x.st = 1 then { x with st := 2 } else x

/-- One sample through the ramp (R398): its index in the block, and the output with whether the channel was not Normal. -/
def rampSample (rm : Nat) (x : ChanRamp) (i : Nat) (v : Int) : ChanRamp × Int × Bool :=
  match x.st with
  | 0 => (x, v, false)
  | 1 =>
    let g := x.g - 1
    ({ x with g := g }, rhe (x.held.getD i 0 * (g : Int)) rm, true)
  | _ =>
    let g := min (x.g + 1) rm
    ({ x with g := g, st := if g = rm then 0 else 2 }, rhe (v * (g : Int)) rm, true)

/-- The samples of a block through the ramp, from index i on. -/
def rampSamples (rm : Nat) : Nat → ChanRamp → List Int → ChanRamp × List (Int × Bool)
  | _, x, [] => (x, [])
  | i, x, v :: rest =>
    let a := rampSample rm x i v
    let b := rampSamples rm (i + 1) a.1 rest
    (b.1, a.2 :: b.2)

/-- Channel j of queue h through the ramp, in the block of pour m: `raw` entered the stages, `ws` came out of the delay stage. -/
def rampChan (s : State) (h j m : Nat) (raw ws : List Int) : List (Int × Bool) × State :=
  let k := 1024 * h + j
  let other := causeCore s h || causeRing s h j m
  let shed := causeShed s h
  let x := rampTurn (s.ramp k) (msSamples s) (other || shed) (shed && !other)
  let r := rampSamples (msSamples s) 0 x ws
  (r.2, s.setRamp k { r.1 with rel := if other || shed then x.rel else raw, last := if other || shed then x.last else ws })

/-! ### Fallback messages (R401 to R405) -/

def State.evPin (s : State) (e : Nat) : EvPin := nth s.audio.pins e EvPin.zero
def State.setEvPin (s : State) (e : Nat) (x : EvPin) : State :=
  { s with audio := { s.audio with pins := setNth s.audio.pins e x } }

def evActive (s : State) (e : Nat) : Bool := s.bit .aptEvacStat e

/-- Pins whose message replaces an output, lowest first. -/
def pinsOf (s : State) (kind target : Nat) : List Nat :=
  (List.range 8).filter fun e => (s.evPin e).phase ≠ 0 && (List.range 64).any fun j =>
    s.bit .aptEvout 31 e j && decide (s.fld .aptEvout 29 29 e j = kind ∧ s.fld .aptEvout 12 0 e j = target)

/-- Whether pin e's message plays its sample at place n. -/
def evPlays (s : State) (e n : Nat) : Bool := (s.evPin e).phase == 1 && ((s.evPin e).loop || decide (n < (s.evPin e).len))

/-- Sample n of pin e's message: 0 past the end of one that does not loop (R401, R404). -/
def evSample (s : State) (t e n : Nat) : Int × State :=
  let x := s.evPin e
  if !x.loop ∧ x.len ≤ n then (0, s) else
    let r := readPhys s t .runner (s.fld .aptFms 28 16 * 2 ^ 20 + x.off + 3 * (n % max 1 x.len)) 3
    (if r.2.1 then 0 else sat24 (rhe ((BitVec.ofNat 24 (ofBytesLE r.1)).toInt * x.gain) (2 ^ 23)), r.2.2)

/-- One sample of an output under replacement: the lowest pin that plays wins and keeps A; with none playing the message
leaves (R403 to R405). -/
def evOne (t : Nat) (pins : List Nat) (i : Nat) (cur : Nat × Nat) (y : Int) (s : State) : Int × (Nat × Nat) × State :=
  let rm := msSamples s
  match pins.find? fun e => evPlays s e ((s.evPin e).pos + i) with
  | some e =>
    let a := min (cur.2 + 1) rm
    let m := evSample s t e ((s.evPin e).pos + i)
    (rhe (m.1 * (a : Int) + y * ((rm - a : Nat) : Int)) rm, (e, a), m.2)
  | none =>
    if cur.2 = 0 then (y, cur, s) else
      let m := evSample s t cur.1 ((s.evPin cur.1).pos + i)
      (rhe (m.1 * (cur.2 : Int) + y * ((rm - cur.2 : Nat) : Int)) rm, (cur.1, cur.2 - 1), m.2)

/-- The samples of an output through the replacement stage. -/
def evBlock (s : State) (t kind target : Nat) (ys : List Int) : List Int × State :=
  let key := 8192 * kind + target
  let pins := pinsOf s kind target
  let cur := (kget s.audio.outs key).getD (0, 0)
  if pins.isEmpty ∧ cur.2 = 0 then (ys, s) else
    let r := (ys.zipIdx).foldl (fun (a : List Int × (Nat × Nat) × State) y =>
      let r := evOne t pins y.2 a.2.1 y.1 a.2.2
      (a.1 ++ [r.1], r.2.1, r.2.2)) ([], cur, s)
    (r.1, { r.2.2 with audio := { r.2.2.audio with outs := kput r.2.2.audio.outs key r.2.1 } })

/-- EVAC_DEBOUNCED_CHANGE of pin e (R402, R404): it waits for deb ticks in a row at the other level. -/
def evacChange (s : State) (e t : Nat) : State :=
  let x := s.evPin e
  if x.count < max 1 (s.fld .aptEvacCfg 15 8 e) then s else
    let was := evActive s e
    let s := s.setFld .aptEvacStat e e (ofBool (!was))
    let s := s.setEvPin e { x with count := 0, used := false, phase := if was && x.phase == 1 then 2 else x.phase }
    pulse s (528 + e) t

/-- EVAC_MESSAGE_START of pin e (R401, R403): an invalid entry ends at once. -/
def evacStart (s : State) (e t : Nat) : State :=
  let x := s.evPin e
  if !evActive s e ∨ !s.bit .aptEvacCfg 31 e ∨ x.used then s else
    let base := s.fld .aptFms 28 16 * 2 ^ 20
    let rd := readPhys s t .runner (base + 16 * s.fld .aptEvacCfg 5 0 e) 16
    let s := rd.2.2
    let w (i : Nat) : Nat := ofBytesLE ((rd.1.drop (4 * i)).take 4)
    let off := w 0 % 2 ^ 28
    let len := w 1 % 2 ^ 28
    if len = 0 ∨ s.fld .aptFms 8 0 * 2 ^ 20 < off + 3 * len then pulse (s.setEvPin e { x with used := true }) 536 t
    else
      (s.setEvPin e { x with used := true, phase := 1, pos := 0, off := off, len := len
                             gain := (BitVec.ofNat 24 (w 2)).toInt, loop := bitOf (w 3) 0 }).setFld
        .aptEvacStat (8 + e) (8 + e) 1

/-- EVAC_MESSAGE_END of pin e: the end of a message that does not loop lies in the block now forwarded (R404). -/
def evacEnd (s : State) (e : Nat) : State :=
  let x := s.evPin e
  if x.phase = 1 ∧ !x.loop ∧ x.len ≤ x.pos + s.pourSize then s.setEvPin e { x with phase := 2 } else s

/-- EVAC pins at a tick: sampled, and their messages advance by a pour (R402, R403); a message that has left every output is
over. -/
def evacTick (s : State) (evac : Nat) : State :=
  (List.range 8).foldl (fun s e =>
    let x := s.evPin e
    let level := bitOf evac e != s.bit .aptEvacCfg 30 e
    let x := { x with count := if level = evActive s e then 0 else x.count + 1, pos := if x.phase = 0 then 0 else x.pos + s.pourSize }
    if x.phase = 2 ∧ (s.audio.outs.all fun o => o.2.1 ≠ e ∨ o.2.2 = 0) then
      (s.setEvPin e { x with phase := 0 }).setFld .aptEvacStat (8 + e) (8 + e) 0
    else s.setEvPin e x) s

/-! ### Outputs (R355, R384, R389, R390) -/

/-- Frames that the samples of a block in the output window opened by tick T touch, where its ramp is not Normal (R357). -/
def rampFrames (s : State) (tick : Nat) (fl : List Bool) : List Nat :=
  ((fl.zipIdx.filter fun f => f.1).map fun f => (tick + 4096 + f.2 * frameCycles s) / crmFrame).eraseDups

/-- The Crema mix point of an output (R355, R357). -/
def mixBlock (s : State) (tick kind target : Nat) (ys : List Int) (fl : List Bool) : List Int × State :=
  match crmTarget s kind target with
  | none => (ys, s)
  | some c =>
    let s := s.setCrm c { s.crm c with ramps := (s.crm c).ramps ++ rampFrames s tick fl }
    if s.bit .crmChCfg 30 c then (ys, s)
    else (ys.mapIdx fun i y =>
      if fl.getD i false then y else sat24 (y + crmProbe s c (tick + 4096 + i * frameCycles s)), s)

/-- The word of a sample on the ring, with its tags (R311). -/
def ringWord (v : Int) (ramp va : Bool) : Nat := 2 ^ 31 + ofBool ramp * 2 ^ 30 + ofBool va * 2 ^ 29 + sfield 24 v

/-- The Runner's write for queue h failed: kind 0x2, with the queue's err flag where there is a queue (R293, R540; log entry 76). -/
def runnerWriteErr (s : State) (t : Nat) (h : Option Nat) : State :=
  match h with
  | some h => queueErr s t h 2
  | none => runErr s t 0 2

/-- Samples of a ring channel go into the transmit store (R291, R311): into the block of the group that this station owns. -/
def ringStore (s : State) (t : Nat) (h : Option Nat) (r ch n : Nat) (va : Bool) (ys : List Int) (fl : List Bool) : State :=
  let f := groupChans s
  match (ownedGroups s r).findIdx? fun g => decide (g = ch / f) with
  | none => s
  | some ix =>
    (ys.zipIdx).foldl (fun s yi =>
      let w := writePhys s t .runner (txAddr s r ix n + 4 * (yi.2 * f + ch % f)) (toBytesBE 4 (ringWord yi.1 (fl.getD yi.2 false) va))
      if w.1 then runnerWriteErr w.2 t h else w.2)
      { s with audio := { s.audio with ringFed := kput s.audio.ringFed (4096 * r + ch) n } }

/-- A block joins those of a transmit slot: the block of the output window still open stays until it closes (R33). -/
def slotBlock (s : State) (slot w : Nat) (ys : List Int) : State :=
  let old := ((kget s.audio.tx slot).getD []).filter fun b => decide (b.1 + 1 = w)
  { s with audio := { s.audio with tx := kput s.audio.tx slot ((w, ys) :: old) } }

/-- The frame of the TDM grid in progress in cycle t (R387): in the cycles that a stretch adds, the last of the old grid; none
from the NTC load to the first frame of the new grid (R392). -/
def txFrame (s : State) (t : Nat) : Option Nat :=
  let last := match s.stretch, s.lastTick with | some _, some l => min t (l + s.pourLen - 1) | _, _ => t
  let idle := match s.audio.loadAt with | some l => decide (t < l + 4096) | none => false
  if last < 4096 ∨ idle = true then none else some ((last - 4096) / frameCycles s)

/-- Slots of port n in a frame (R386, R391). -/
def slotsOf (s : State) (n : Nat) : Nat :=
  let v := min 4 (s.fld .aptPortCfg 2 0 n)
  if v = 4 ∧ s.fld .tmrPourCfg 5 4 = 2 then 16 else 2 ^ (v + 1)

/-- The sample that transmit slot k carries in cycle t (R33, R389, R390): of the block whose output window is open. -/
def slotSample (s : State) (k t : Nat) : Int :=
  if !s.bit .aptPortCfg 9 (k / 32) ∨ !s.bit .aptPortCfg 7 (k / 32) ∨ slotsOf s (k / 32) ≤ k % 32 then 0 else
    match txFrame s t with
    | none => 0
    | some j =>
      match ((kget s.audio.tx k).getD []).find? fun b => decide (b.1 = j / s.pourSize) with
      | some b => b.2.getD (j % s.pourSize) 0
      | none => 0

/-- Stages 4 to 6 of an output channel of queue h: kind 0 TDM slot, 1 ring channel (R384). A ring channel that no queue feeds
has a source only while a message or a probe gives it samples (R311; log entry 77). -/
def outChan (s : State) (t : Nat) (h : Option Nat) (tick n kind target : Nat) (va : Bool) (ys : List (Int × Bool)) : State :=
  let fl := ys.map Prod.snd
  let e := evBlock s t kind target (ys.map Prod.fst)
  let m := mixBlock e.2 tick kind target e.1 fl
  if kind = 0 then slotBlock m.2 target (tick / s.pourLen) m.1
  else if target / 4096 = 1 ∧ m.2.fld .zwrCfg 5 4 ≠ 0 then
    (m.1.zipIdx).foldl (fun s yi =>
      { s with ring := { s.ring with
          edgeTx := kput s.ring.edgeTx (4096 * (e48 s + (n + 1) * k48 s + yi.2) + target % 4096) (BitVec.ofInt 24 yi.1) } }) m.2
  else if h.isNone ∧ (m.1.all fun y => decide (y = 0)) ∧ ((kget m.2.audio.outs (8192 * kind + target)).getD (0, 0)).2 = 0 then m.2
  else ringStore m.2 t h (target / 4096) (target % 4096) n va m.1 fl

/-- Kind and target of the channels of a port endpoint (CRM_CHc_CFG.target). -/
def epTarget (e : Nat) : Option (Nat × Nat) :=
  match epClass e with
  | 6 => some (0, epIndex e)
  | 3 => some (1, epIndex e)
  | 4 => some (1, 4096 + epIndex e)
  | _ => none

/-- A queue's block in its store, as stage 1 of R384: zeros when no block has been stored (R292). -/
def storeBlock (s : State) (t h : Nat) : List Int × State :=
  match (s.queue h).lastSlot with
  | none => (List.replicate (qBsize s h) 0, s)
  | some sl =>
    let r := readSlot s t h sl
    (blockWords (qBsize s h) r.1, r.2)

/-- The committed block of the pour just ended: a core's is copied into the store (R291); a port's lies there already, and its
record names its slot (R292). -/
def copyCommitted (s : State) (t h n : Nat) : State :=
  match (s.queue h).committed.find? fun x => decide (x.1 = n) with
  | none => s
  | some x =>
    let s := s.setQueue h { s.queue h with committed := (s.queue h).committed.filter fun x => decide (x.1 ≠ n) }
    if epClass (qProducer s h) = 0 then
      match s.physOf (epIndex (qProducer s h)) with
      | some p =>
        let b := readBlock s t h p (x.2.toNat % 2 ^ 32) (slotBytes s h)
        let s := writeSlot b.2 t h (n % 2) b.1
        s.setQueue h { s.queue h with lastSlot := some (n % 2) }
      | none => s
    else s.setQueue h { s.queue h with lastSlot := some x.2.toNat }

/-- SCHEDULED_FORWARD of queue h in the span of R291: the copy, and the stages for a port consumer (R292, R384). -/
def forwardQueue (s : State) (h t : Nat) : State :=
  let n := s.audio.ended
  let tick := s.pourAt t * s.pourLen
  if !qEn s h ∨ qKind s h ≠ 2 ∨ s.lastTick.isNone ∨ tick + 4096 ≤ t ∨ (s.queue h).fwd = some n then s else
    let s := s.setQueue h { s.queue h with fwd := some n }
    let s := copyCommitted s t h n
    match epTarget (qConsumer s h) with
    | none => s
    | some (kind, first) =>
      let b := storeBlock s t h
      let k := qChans s h
      let raws := (List.range k).map (column b.1 k (qPer s h))
      let d := delayStage b.2 t h raws
      (List.range k).foldl (fun s j =>
        let r := rampChan s h j n (raws.getD j []) (d.1.getD j [])
        outChan r.2 t (some h) tick n kind (first + j) (decide (qShed s h = 7)) r.1) d.2

/-- Outputs that some pin's message names and that no queue feeds. -/
def unfedTargets (s : State) : List (Nat × Nat) :=
  let fed := (queueHandles s).filterMap fun h =>
    if qKind s h = 2 then (epTarget (qConsumer s h)).map fun x => (x.1, x.2, qChans s h) else none
  (((List.range 8).flatMap fun e => (List.range 64).filterMap fun j =>
    if s.bit .aptEvout 31 e j then some (s.fld .aptEvout 29 29 e j, s.fld .aptEvout 12 0 e j) else none).eraseDups).filter
    fun o => !fed.any fun f => decide (f.1 = o.1 ∧ f.2.1 ≤ o.2 ∧ o.2 < f.2.1 + f.2.2)

/-- The forwarding of a pour's outputs that no queue feeds: stage 1 gives them 0 (R390). -/
def forwardUnfed (s : State) (t : Nat) : State :=
  let n := s.audio.ended
  let tick := s.pourAt t * s.pourLen
  if s.lastTick.isNone ∨ tick + 4096 ≤ t ∨ s.audio.unfed = some n then s else
    let s := { s with audio := { s.audio with unfed := some n } }
    (unfedTargets s).foldl (fun s o =>
      outChan s t none tick n o.1 o.2 false (List.replicate s.pourSize (0, false))) s

/-- SCHEDULED_FORWARD: of a queue, or of the outputs that no queue feeds. -/
def scheduledForward (s : State) (h : Option Nat) (t : Nat) : State :=
  match h with
  | some h => forwardQueue s h t
  | none => forwardUnfed s t

/-! ### Input placement (R31, R32, R292, R390, R392, R438) -/

/-- Frames by which an input window lags its pour (R389). -/
def windowLag (s : State) : Nat := if s.fld .tmrPourCfg 5 4 = 2 then 2 else 1

/-- The pour in progress in cycle t: before the first tick, the pour of the grid that TMR_POUR_CFG will give (R43). -/
def pourNow (s : State) (t : Nat) : Nat := if s.lastTick.isNone then (withPourCfg s).pourAt t else s.pourAt t

/-- The pour that the next tick starts, and the cycle of that tick: at a stretch the realm's pour (R41). -/
def nextTick (s : State) (t : Nat) : Nat × Nat :=
  match s.stretch, s.lastTick with
  | some (k, m), some l => (m, l + s.pourLen + k)
  | _, _ => (pourNow s t + 1, (pourNow s t + 1) * (withPourCfg s).pourLen)

/-- The stamp of sample i of the input window of pour w (R389): the last cycle of its receive frame. -/
def captureStamp (s : State) (w i : Nat) : Nat := w * s.pourLen + (i + 1) * frameCycles s + 4095 - windowLag s * frameCycles s

/-- The cycle in which the input window of pour w closes (R31). The cycles that a stretch adds lie after it: nothing is captured
in them (R41). -/
def inputClose (s : State) (w : Nat) : Nat := (w + 1) * s.pourLen - 4096

/-- Whether sample i of the input window of pour w was captured before the first tick (R438). -/
def beforeFirst (s : State) (w i : Nat) : Bool :=
  match s.audio.first with
  | none => true
  | some f => decide (captureStamp s w i < f)

/-- Whether an input window lacks a sample because of a stretch (R392): its receive frame starts before the first frame after
the NTC load. -/
def lostToStretch (s : State) (w i : Nat) : Bool :=
  match s.audio.loadAt with
  | some l => decide (captureStamp s w i + 1 < l + 4096 + frameCycles s)
  | none => false

/-- What a local input captured in the input window of pour w: 0 where its port does not receive; a sample that the window or
the command lacks is the last captured (R390, R392). -/
def capturedChan (s : State) (e j w : Nat) (col : List (Option Int)) : List Int × State :=
  let key := 4096 * epClass e + epIndex e + j
  let last := (kget s.audio.rxLast key).getD 0
  let on := epClass e ≠ 6 ∨ (s.bit .aptPortCfg 9 (epIndex e / 32) ∧ s.bit .aptPortCfg 8 (epIndex e / 32))
  let vs := col.mapIdx fun i v => if beforeFirst s w i then 0 else if lostToStretch s w i then last else v.getD last
  if on then (vs, { s with audio := { s.audio with rxLast := kput s.audio.rxLast key (vs.getLast?.getD last) } })
  else (vs.map fun _ => 0, s)

/-- Channel ch of ring pair r as received for pour m: none where no copy of its group has been accepted (R311, R322). -/
def ringChan (s : State) (t r ch m : Nat) : Option (List Int) × State :=
  let f := groupChans s
  if (s.rpair r).rx.contains (ch / f, m) then
    let v := (List.range s.pourSize).foldl (fun (a : List Int × State) i =>
      let rd := readPhys a.2 t .runner (rxAddr s r (ch / f) m + 4 * (i * f + ch % f)) 4
      let w := ofBytesBE rd.1
      (a.1 ++ [if rd.2.1 ∨ !bitOf w 31 then 0 else (BitVec.ofNat 24 w).toInt], rd.2.2)) ([], s)
    (some v.1, v.2)
  else (none, s)

/-- Channel j of the input block of queue h for pour m, with the words that a command brings for a local input. -/
def inputChan (s : State) (t h m j : Nat) (samples : List Int) : List Int × State :=
  let e := qProducer s h
  let n := qPer s h
  let k := qChans s h
  match epClass e with
  | 3 | 4 =>
    if epEdge s e then
      ((List.range n).map fun i =>
        ((kget s.ring.edgeRx (4096 * (e48 s + m * k48 s + i) + epIndex e + j)).getD 0).toInt, s)
    else
      let r := ringChan s t (epClass e - 3) (epIndex e + j) m
      (r.1.getD (let l := (s.ramp (1024 * h + j)).rel; (List.range n).map fun i => l.getD i 0), r.2)
  | _ => capturedChan s e j (pourNow s t) ((List.range n).map fun i => samples[i * k + j]?)

/-- The channels of an input block as they enter stage 1 of R384. -/
def inputCols (s : State) (t h m : Nat) (samples : List Int) : List (List Int) × State :=
  (List.range (qChans s h)).foldl (fun (a : List (List Int) × State) j =>
    let c := inputChan a.2 t h m j samples
    (a.1 ++ [c.1], c.2)) ([], s)

/-- Channels placed for a core: through the delay stage, and a ring channel through the ramp of R322 (R393, R399). -/
def placedCols (s : State) (t h m : Nat) (raws : List (List Int)) : List (List Int) × State :=
  let d := delayStage s t h raws
  (List.range raws.length).foldl (fun (a : List (List Int) × State) j =>
    if [3, 4].contains (epClass (qProducer s h)) then
      let x := rampChan a.2 h j m (raws.getD j []) (d.1.getD j [])
      (a.1 ++ [x.1.map Prod.fst], x.2)
    else (a.1 ++ [d.1.getD j []], a.2)) ([], d.2)

/-- A block of pour m lands in its consumer's data memory (R292). -/
def landInput (s : State) (t h m : Nat) (ws : List Int) : State :=
  match landCore s (epIndex (qConsumer s h)) with
  | none => s
  | some p =>
    let r := extWrite s t .runner (coreBase + 0x100000 * p + qLanding s h + 3 * qBsize s h * (m % 2)) (wordBytes ws)
    if r.1 then queueErr r.2 t h 2 else r.2

/-- The store slot that a port's block of pour m takes: not that of a block still to be forwarded or held (R292). -/
def portSlot (q : QueueSt) (m : Nat) : Nat :=
  match q.committed, q.lastSlot with
  | x :: _, _ => 1 - x.2.toNat
  | [], some b => 1 - b
  | [], none => m % 2

/-- Whether the input block of queue h for the next pour can be complete in cycle t (R31, R322): a local input's from the close
of its window on, a ring channel's from 4,096 cycles before the tick on. -/
def inputReady (s : State) (h t : Nat) : Bool :=
  match epClass (qProducer s h) with
  | 0 => true
  | 3 | 4 => decide ((nextTick s t).2 ≤ t + 4096)
  | _ => decide (inputClose (withPourCfg s) (pourNow s t) ≤ t)

/-- INPUT_PLACEMENT of queue h for the next pour: `samples` are the words of a local input, in the order of its block. A block
between two ports is treated as released in that pour (R292). -/
def inputPlacement (s : State) (h : Nat) (samples : List Int) (t : Nat) : State :=
  let m := (nextTick s t).1
  if !qEn s h ∨ qKind s h ≠ 2 ∨ (s.queue h).placed = some m ∨ inputReady s h t = false then s else
    let s := s.setQueue h { s.queue h with placed := some m }
    let c := epClass (qConsumer s h)
    if epClass (qProducer s h) = 0 then
      if c ≠ 0 then s else
        let b := storeBlock s t h
        let k := qChans s h
        let d := delayStage b.2 t h ((List.range k).map (column b.1 k (qPer s h)))
        landInput d.2 t h m (interleave d.1 (qPer s h))
    else
      let r := inputCols s t h m samples
      if c = 0 then
        let d := placedCols r.2 t h m r.1
        landInput d.2 t h m (interleave d.1 (qPer s h))
      else
        let q := r.2.queue h
        let sl := portSlot q m
        let s := r.2.setQueue h { q with committed := (m, BitVec.ofNat 48 sl) :: q.committed.filter fun x => decide (m = x.1 + 1) || decide (x.1 = pourNow s t) }
        writeSlot s t h sl (wordBytes (interleave r.1 (qPer s h)))

/-! ### Coefficient banks (R406 to R408) -/

/-- The first pour from n + lo on whose number ends in 16 given bits. -/
def nextPour (n lo field : Nat) : Nat := n + lo + (field + 65536 - (n + lo) % 65536) % 65536

/-- BANK_FLIP_REQUEST (R407). -/
def flipRequest (s : State) (v : W32) (t : Nat) : State :=
  let k := fieldOf v 5 0
  let s := s.setBit .carBankLen 17 true k
  { s with audio := { s.audio with flips := kput s.audio.flips k (nextPour (s.pourAt t) 1 (fieldOf v 31 16), bitOf v.toNat 15) } }

/-- Flips due at pour n take effect, and crossfades of the pour before end (R407, R408). In a warm reboot no bank changes: a
flip then due waits (R29; log entry 78). -/
def flipsTick (s : State) (n t : Nat) : State :=
  let s := s.audio.xfades.foldl (fun s x => s.setBit .carBankLen 18 false x.1) s
  let s := { s with audio := { s.audio with xfades := [] } }
  if s.boot.warm then s else
  s.audio.flips.foldl (fun s f =>
    if f.2.1 ≤ n then
      let s := (s.setBit .carBankLen 17 false f.1).setBit .carBankLen 16 (!s.bit .carBankLen 16 f.1) f.1
      let s := { s with audio := { s.audio with flips := kdel s.audio.flips f.1 } }
      if f.2.2 then
        { s.setBit .carBankLen 18 true f.1 with audio := { s.audio with xfades := kput s.audio.xfades f.1 t } }
      else s
    else s) s

/-! ### Placements (R409 to R411) -/

/-- Placements that wait (CAR_PLACE_STAT.queued). -/
def placeQueued (s : State) : State :=
  s.setFld .carPlaceStat 6 0 ((s.audio.places.filter fun p => p.run.isNone).length)

/-- PLACEMENT_REQUEST (R409): CAR_PLACE_CMD queues a placement with the current SRC and DST. -/
def placeRequest (s : State) (v : W32) (t : Nat) : State :=
  let rows := fieldOf v 15 0
  let addr := s.fld .carPlaceDst 18 0
  if rows = 0 ∨ 524286 < addr + 24 * rows then s.raise t .carPlaceStat 0x200
  else if 64 ≤ (s.audio.places.filter fun p => p.run.isNone).length then s.raise t .carPlaceStat 0x100
  else
    placeQueued { s with audio := { s.audio with places := s.audio.places ++
      [{ bank := s.fld .carPlaceSrc 31 26, side := s.bit .carPlaceSrc 25, off := s.fld .carPlaceSrc 24 0
         l := s.fld .carPlaceDst 31 26, addr := addr, rows := rows, pour := nextPour (s.pourAt t) 2 (fieldOf v 31 16), run := none }] } }

/-- A waiting placement at tick(n) (R409, R411): it starts, goes on waiting for a takeover, or is discarded. -/
def placeStart (s : State) (n t : Nat) (p : Place) : State :=
  let keep (x : Place) (s : State) : State := { s with audio := { s.audio with places := s.audio.places ++ [x] } }
  if p.run.isSome ∨ n + 1 < p.pour then keep p s
  else match s.takeover with
    | some k => if k.l = p.l then keep p s else
      (match s.physOf p.l with
       | some q => keep { p with run := some (q, t) } s
       | none => pulse (s.raise t .carPlaceStat 0x400) 538 t)
    | none =>
      match s.physOf p.l with
      | some q => keep { p with run := some (q, t) } s
      | none => pulse (s.raise t .carPlaceStat 0x400) 538 t

/-- Placements at tick(n). -/
def placesTick (s : State) (n t : Nat) : State :=
  placeQueued (s.audio.places.foldl (fun s p => placeStart s n t p) { s with audio := { s.audio with places := [] } })

/-- PLACEMENT_COMPLETE: the copy of the first placement that runs ends (R409). The engine makes one copy at a time. A failed
read or write of the Runner's is recorded (R538; log entry 76). -/
def placeComplete (s : State) (t : Nat) : State :=
  match s.audio.places.find? fun p => p.run.isSome with
  | none => s
  | some p =>
    match p.run with
    | none => s
    | some (q, start) =>
      if t < start + ceilDiv (24 * p.rows) 3 + 40 then s else
        let rest := s.audio.places.erase p
        let s := { s with audio := { s.audio with places := rest.map fun x =>
          { x with run := x.run.map fun r => (r.1, max r.2 t) } } }
        let rd := readPhys s t .runner (carBase + bankBase s p.bank p.side + p.off) (24 * p.rows)
        let w := extWrite rd.2.2 t .runner (coreBase + 0x100000 * q + p.addr) rd.1
        let w := (w.1, if w.1 ∨ rd.2.1 then runnerWriteErr w.2 t none else w.2)
        if p.pour * s.pourLen ≤ t then pulse (w.2.raise t .carPlaceStat 0x80) 538 t else w.2

/-! ### Ports at a tick and at a stretch (R391, R392) -/

/-- A port's configuration takes effect: at 192 kHz 32 slots act as 16 and are reported (R391). -/
def portApply (s : State) (n t : Nat) : State :=
  if s.fld .tmrPourCfg 5 4 = 2 ∧ s.fld .aptPortCfg 2 0 n = 4 then s.raise t .aptStat (2 ^ (16 + n)) else s

/-- The NTC load reframes every port (R392). -/
def portsReframe (s : State) (t : Nat) : State :=
  let s := { s with audio := { s.audio with tx := [], loadAt := some t } }
  (List.range 16).foldl (fun s n => pulse (s.raise t .aptStat (2 ^ n)) (512 + n) t) s

end Sys2Proof.Machine
end

