-- ==== Sys2Proof/Machine/Keep.lean ====
section
/-! DEFINITION. The Rarik keep: its commands, epochs, calibration records and logs (R443 to R468). -/

namespace Sys2Proof.Machine

def State.setKeep (s : State) (k : Keep) : State := { s with keep := k }

def dkOk (s : State) : Bool := s.bit .rkpStat 0
def drbgOk (s : State) : Bool := s.bit .rkpStat 2
def otpFloor (s : State) : Nat := s.fld .rkpOtp 22 16
def otpRestores (s : State) : Nat := s.fld .rkpOtp 31 23

/-- Valid slots that are not revoked. -/
def slotOk (s : State) (k : Nat) : Bool := s.bit .rkpOtp (8 + k) && !s.bit .rkpOtp (12 + k)

/-- The debug level in force: lifecycle factory grants full access (R459). -/
def debugLevel (s : State) : Nat := if s.fld .rkpOtp 1 0 = 0 then 2 else s.fld .rkpStat 25 24

/-- A log entry (R466): codes and details are not given by the spec (log entry 54). -/
def keepLog (s : State) (ev t : Nat) : State :=
  let e := (t, Config.freeNat (100 + ev) 0 % 65536, Config.freeNat (200 + ev) 0 % 2 ^ 48)
  s.setKeep { s.keep with log := (s.keep.log ++ [e]).drop ((s.keep.log.length + 1) - 64) }

/-- The first slot whose key verifies a manifest (R431, R446). -/
def verifySlot (s : State) (manifest : List Byte) : Option Nat :=
  (List.range 4).find? fun k => slotOk s k &&
    ecdsaOk (nth s.keep.slots k []) (manifest.take (manifest.length - 96)) (manifest.drop (manifest.length - 96))

/-! ### Starting and ending commands (R467) -/

def keepAddr (s : State) (lo hi : RegName) (set : Nat) : Nat := (s.reg lo set).toNat + 2 ^ 32 * s.fld hi 15 0 set

/-- A write to RKP_CMDs in cycle t: ignored while the set is busy. A waiting set of a lower number that comes in the same cycle
starts first. -/
def keepStart (s : State) (set op param t : Nat) : State :=
  if s.bit .rkpCst 7 set then s else
    let c : KeepCmd := { op := op, param := param, at' := t, inp := keepAddr s .rkpInLo .rkpInHi set
                         out := keepAddr s .rkpOutLo .rkpOutHi set }
    let run := match s.keep.running with
      | none => some set
      | some r => match kget s.keep.cmds r with
        | some d => if d.at' = t ∧ set < r then some set else some r
        | none => some set
    let restore := if op = 0x30 ∧ set = 0 then some ((s.keep.restoreAt).getD (s.pourAt t + 1)) else s.keep.restoreAt
    (s.setBit .rkpCst 7 true set).setKeep { s.keep with cmds := kput s.keep.cmds set c, running := run, restoreAt := restore }

/-- Sets that may use an op (R467); SLOT_PROGRAM also comes in recovery (R461). -/
def keepAllowed (s : State) (set op : Nat) : Bool :=
  if op = 0x01 ∨ op = 0x02 then true
  else if op = 0x03 then decide (set < 2)
  else if op = 0x21 then decide (set = 0) || s.boot.stage == .recovery
  else if op = 0x31 then decide (set ≠ 1)
  else if op = 0x40 ∨ op = 0x41 then decide (set = 2)
  else decide (set = 0)

def keepWho (set : Nat) : MemWho := if set = 0 then .barista else if set = 1 then .host else .jtag

/-- The input of a command in DRAM. -/
def keepIn (s : State) (t set n : Nat) (c : KeepCmd) : Option (List Byte) × State :=
  if regionOf c.inp = .dram ∧ regionOf (c.inp + n - 1) = .dram then
    let r := readPhys s t (keepWho set) c.inp n
    (some r.1, r.2.2)
  else (none, s)

/-- The output of a command written to DRAM: whether its address lies there. -/
def keepOut (s : State) (t set : Nat) (c : KeepCmd) (bs : List Byte) : Bool × State :=
  if regionOf c.out = .dram ∧ regionOf (c.out + bs.length - 1) = .dram then
    (true, (writePhys s t (keepWho set) c.out bs).2)
  else (false, s)

/-- A result with an output. -/
def keepGive (s : State) (t set : Nat) (c : KeepCmd) (bs : List Byte) : Nat × State :=
  let r := keepOut s t set c bs
  (if r.1 then 0 else 3, r.2)

/-- `n` random bytes: free values (R457). -/
def randomBytes (s : State) : Nat → List Byte × State
  | 0 => ([], s)
  | n + 1 =>
    let r := s.free 4 8
    let q := randomBytes r.2 n
    (BitVec.ofNat 8 r.1 :: q.1, q.2)

/-- One generate call (R457). -/
def generate (s : State) (n : Nat) : List Byte × State :=
  let r := randomBytes s n
  (r.1, r.2.setKeep { r.2.keep with calls := r.2.keep.calls + 1 })

/-! ### The commands (R447 to R467): each gives its result code -/

def nth48 (l : List Byte) : List Byte := l ++ List.replicate (48 - l.length) 0

def curEpoch (s : State) (r : Nat) : Nat := match (s.rkeys r).cur with | some e => e.num | none => 0xFFFFFFFF

/-- The body of a quote, bytes 0x000 to 0x10F (R458). -/
def quoteBody (s : State) (set : Nat) (nonce : List Byte) (t : Nat) : List Byte :=
  toBytesLE 4 0x51544B51 ++
  toBytesLE 4 (set + s.fld .rkpOtp 1 0 * 2 ^ 4 + s.fld .rkpStat 25 24 * 2 ^ 8 + ofBool (dkOk s) * 2 ^ 10) ++
  toBytesLE 8 t ++ nonce ++ s.keep.serial ++ sha384 ((List.range 131072).map Config.romByte) ++
  nth48 s.keep.manifest ++ nth48 s.keep.bootCopy ++
  (match s.keep.blend with | some b => sha384 b | none => List.replicate 48 0) ++
  toBytesLE 4 s.keep.imgVer ++ toBytesLE 4 s.keep.secVer ++ toBytesLE 1 (otpFloor s) ++
  toBytesLE 1 (nth s.keep.fails 0 0) ++ toBytesLE 1 (nth s.keep.fails 1 0) ++
  toBytesLE 1 (((List.range 4).foldl (fun a k => a + (if slotOk s k then 2 ^ k else 0)) 0) + s.fld .rkpOtp 7 6 * 2 ^ 4) ++
  toBytesLE 2 (otpRestores s) ++ toBytesLE 2 0 ++ toBytesLE 4 (curEpoch s 0) ++ toBytesLE 4 (curEpoch s 1)

/-- QUOTE (R458). -/
def keepQuote (s : State) (t set : Nat) (c : KeepCmd) : Nat × State :=
  if !dkOk s then (6, s) else
    match keepIn s t set 32 c with
    | (none, s) => (3, s)
    | (some nonce, s) =>
      let b := quoteBody s set nonce t
      keepGive s t set c (b ++ ecdsaSign 0 b)

/-- CERT (R445, R467). -/
def keepCert (s : State) (t set : Nat) (c : KeepCmd) : Nat × State :=
  if !dkOk s then (6, s) else
    keepGive s t set c (toBytesLE 4 (Config.keepCert 0).length ++ Config.keepCert 0 ++ Config.keepCert 1)

/-- RANDOM (R457). -/
def keepRandom (s : State) (t set : Nat) (c : KeepCmd) : Nat × State :=
  if !drbgOk s then (6, s) else
    let r := generate s 48
    keepGive r.2 t set c r.1

/-- The SBK in an envelope of 168 bytes, where its one-time key and its tag are right (R450): the wrap key is derived from the
ECDH secret and the first 24 bytes, the nonce is zero, and the bytes before the seal are authenticated. -/
def openEnvelope (env : List Byte) : Option (List Byte) :=
  match Config.ecdhX ((env.drop 0x18).take 96) with
  | none => none
  | some x =>
    let key := kdf "ENVELOPE" (toBytesBE 48 x.toNat) ((env.take 0x18).map BitVec.toNat)
    let sealed := (env.drop 0x78).take 32
    let iv : List Byte := List.replicate 12 0
    if gcmTag key iv (env.take 0x78) sealed = (env.drop 0x98).take 16 then some (gcmCrypt key iv sealed) else none

/-- SBK_INSTALL for pair c.param (R450): at most two generations, newest first. -/
def keepInstall (s : State) (t set : Nat) (c : KeepCmd) : Nat × State :=
  if 2 ≤ c.param then (3, s)
  else if !dkOk s then (6, s)
  else match keepIn s t set 168 c with
    | (none, s) => (3, s)
    | (some env, s) =>
      let le (o n : Nat) : Nat := ofBytesLE ((env.drop o).take n)
      if le 0 4 ≠ 0x53424B45 ∨ (env.drop 0x10).take 8 ≠ s.keep.serial ∨ le 4 4 % 2 ^ 12 ≠ segOf s c.param then (3, s)
      else match openEnvelope env with
        | none => (4, s)
        | some key =>
          let k := s.rkeys c.param
          let g := le 4 4 / 2 ^ 16
          (0, s.setRkeys c.param { k with gens := ((g, le 8 4, key) :: k.gens.filter fun x => decide (x.1 ≠ g)).take 2 })

def checkValue (key : List Byte) (e : Nat) : List Byte := (kdf "ZW CHECK" key [e]).take 16

/-- Cycle of tick(E − d) for pair r. -/
def leaveCycle (s : State) (r start : Nat) : Nat := (start - ringDelay s r) * s.pourLen

/-- EPOCH_PREPARE (R453). -/
def keepPrepare (s : State) (t set : Nat) (c : KeepCmd) : Nat × State :=
  if 2 ≤ c.param then (3, s)
  else match keepIn s t set 16 c with
    | (none, s) => (3, s)
    | (some b, s) =>
      let r := c.param
      let le (o n : Nat) : Nat := ofBytesLE ((b.drop o).take n)
      let e := le 0 4
      let g := le 4 4
      let start := le 8 8
      match epochKey s r ⟨e, g, start⟩ with
      | none => (6, s)
      | some key =>
        if (match (s.rkeys r).cur with | some x => decide (e ≤ x.num) | none => false) = true then (3, s)
        else if leaveCycle s r start < c.at' + 15360000 then (5, s)
        else keepGive s t set c (toBytesBE 4 (4 * 2 ^ 24 + 32) ++ toBytesBE 4 e ++ toBytesBE 4 (g * 2 ^ 16) ++ toBytesBE 8 start ++
          checkValue key e)

/-- EPOCH_ACCEPT (R452, R454): either refusal of a key pulses source 644. -/
def keepAccept (s : State) (t set : Nat) (c : KeepCmd) : Nat × State :=
  if 2 ≤ c.param then (3, s)
  else match keepIn s t set 36 c with
    | (none, s) => (3, s)
    | (some b, s) =>
      let r := c.param
      let be (o n : Nat) : Nat := ofBytesBE ((b.drop o).take n)
      let e : Epoch := ⟨be 4 4, be 8 4 / 2 ^ 16, be 12 8⟩
      match epochKey s r e with
      | none => (6, pulse s 644 t)
      | some key =>
        if checkValue key e.num ≠ (b.drop 20).take 16 then (4, pulse s 644 t)
        else if leaveCycle s r e.start < c.at' + 230400 ∨ leaveCycle s r e.start ≤ t then (5, s)
        else (0, s.setRkeys r { s.rkeys r with next := some e })

/-- RAISE_FLOOR (R447). -/
def keepFloor (s : State) (c : KeepCmd) : Nat × State :=
  if c.param < otpFloor s ∨ 64 < c.param ∨ s.keep.secVer < c.param ∨ s.bit .barStat 5 then (3, s)
  else (0, s.setFld .rkpOtp 22 16 c.param)

/-- SLOT_PROGRAM (R448, R461): in recovery with a proof of possession, and for slot 0 alone. -/
def keepSlot (s : State) (t set : Nat) (c : KeepCmd) : Nat × State :=
  let rec' := s.boot.stage == .recovery
  if 4 ≤ c.param ∨ s.bit .rkpOtp (8 + c.param) ∨ (rec' ∧ (c.param ≠ 0 ∨ s.fld .rkpOtp 11 8 ≠ 0)) then (3, s)
  else match keepIn s t set (if rec' then 192 else 96) c with
    | (none, s) => (3, s)
    | (some b, s) =>
      if rec' ∧ !ecdsaOk (b.take 96) s.keep.serial (b.drop 96) then (4, s)
      else (0, (s.setKeep { s.keep with slots := setNth s.keep.slots c.param (b.take 96) }).setBit .rkpOtp (8 + c.param) true)

/-- SLOT_REVOKE (R448). -/
def keepRevoke (s : State) (c : KeepCmd) : Nat × State :=
  if 4 ≤ c.param ∨ !slotOk s c.param ∨ s.fld .rkpOtp 7 6 = c.param ∨
      ((List.range 4).filter (slotOk s)).length ≤ 1 then (3, s)
  else (0, s.setBit .rkpOtp (12 + c.param) true)

/-- LOG_READ (R466): the bytes of entries not yet written are free values. -/
def keepLogRead (s : State) (t set : Nat) (c : KeepCmd) : Nat × State :=
  let bs := s.keep.log.flatMap fun e => toBytesLE 8 e.1 ++ toBytesLE 2 e.2.1 ++ toBytesLE 6 e.2.2
  let r := randomBytes s (1024 - bs.length)
  keepGive r.2 t set c (bs ++ r.1)

/-- DEBUG_CHALLENGE (R460). -/
def keepChallenge (s : State) (t set : Nat) (c : KeepCmd) : Nat × State :=
  if !drbgOk s then (6, s) else
    let r := generate s 32
    keepGive (r.2.setKeep { r.2.keep with challenge := some r.1 }) t set c r.1

/-- DEBUG_UNLOCK (R444, R460). -/
def keepUnlock (s : State) (t set : Nat) (c : KeepCmd) : Nat × State :=
  if !dkOk s ∨ !s.bit .rkpOtp 5 then (6, s)
  else if c.param ≠ 1 ∧ c.param ≠ 2 then (3, s)
  else match keepIn s t set 96 c with
    | (none, s) => (3, s)
    | (some sig, s) =>
      match s.keep.challenge with
      | none => (4, s)
      | some ch =>
        let ok := ecdsaOk s.keep.dbgKey (ch ++ s.keep.serial ++ toBytesLE 1 c.param) sig
        let s := s.setKeep { s.keep with challenge := none }
        if ok then (0, pulse (s.setFld .rkpStat 25 24 c.param) 646 t) else (4, s)

/-- A command executed (R467). -/
def keepRun (s : State) (t set : Nat) (c : KeepCmd) : Nat × State :=
  if !keepAllowed s set c.op then (1, s)
  else if s.boot.stage = .recovery ∧ set = 0 then (2, s)
  else match c.op with
    | 0x01 => keepQuote s t set c
    | 0x02 => keepCert s t set c
    | 0x03 => keepRandom s t set c
    | 0x10 => keepInstall s t set c
    | 0x11 => keepPrepare s t set c
    | 0x12 => keepAccept s t set c
    | 0x20 => keepFloor s c
    | 0x21 => keepSlot s t set c
    | 0x22 => keepRevoke s c
    | 0x31 => keepLogRead s t set c
    | 0x40 => keepChallenge s t set c
    | 0x41 => keepUnlock s t set c
    | _ => (0, s)

/-- KEEP_COMMAND_COMPLETE (R467): the running command of a set ends; the lowest set that waits runs next. RESTORE_FACTORY ends
no earlier than its tick (R465). -/
def keepComplete (s : State) (set t : Nat) : State :=
  match kget s.keep.cmds set with
  | none => s
  | some c =>
    if s.keep.running ≠ some set ∨ (c.op = 0x30 ∧ set = 0 ∧ s.keep.restoreAt.isSome) then s else
      let r := keepRun s t set c
      let s := r.2
      let cmds := kdel s.keep.cmds set
      let s := s.setKeep { s.keep with cmds := cmds, running := cmds.head?.map Prod.fst }
      pulse ((s.setFld .rkpCst 3 0 r.1 set).setBit .rkpCst 7 false set) (640 + set) t

/-! ### Calibration records (R462 to R465) -/

/-- Entries of a blend record: kind, index and data (R463); none where its lengths do not agree. -/
def blendEntries : Nat → List Byte → Option (List (Nat × Nat × List Byte))
  | 0, bs => if bs.isEmpty then some [] else none
  | n + 1, bs =>
    let len := ofBytesLE ((bs.drop 4).take 4)
    let pad := (len + 7) / 8 * 8
    if bs.length < 8 + pad then none else
      (blendEntries n (bs.drop (8 + pad))).map fun r =>
        (ofBytesLE (bs.take 2), ofBytesLE ((bs.drop 2).take 2), (bs.drop 8).take len) :: r

/-- The entries of an acceptable blend record (R463, R464). -/
def blendOk (s : State) (b : List Byte) : Option (List (Nat × Nat × List Byte)) :=
  let le (o n : Nat) : Nat := ofBytesLE ((b.drop o).take n)
  if b.length < 16 ∨ le 0 4 ≠ 0x444E4C42 ∨ le 0xC 4 ≠ b.length ∨ 65536 < b.length ∨ le 4 1 < otpRestores s then none
  else blendEntries (le 6 2) (b.drop 16)

/-- A signed byte sum clamped to its field (R463). -/
def trimSum (roast add : Nat) : Nat :=
  sfield 8 (clampInt 8 ((BitVec.ofNat 8 roast).toInt + (BitVec.ofNat 8 add).toInt)).1

/-- The trims of a Crema channel with a refinement of four bytes vd, vc, i, prb (R463, CRM_CHc_TRIM). -/
def trimWord (c : Nat) (d : List Byte) : W32 :=
  let r := (Config.roastTrim c).toNat
  let f (lo i : Nat) : Nat := trimSum (bitsOf r lo 8) (d.getD i 0).toNat * 2 ^ lo
  BitVec.ofNat 32 (f 24 0 + f 16 1 + f 8 2 + f 0 3)

/-- The trims of the roast record in force. -/
def roastTrims (s : State) : State :=
  let s := (List.range 32).foldl (fun s c => s.setReg .crmChTrim (Config.roastTrim c) c) s
  s.setKeep { s.keep with wideTrims := Keep.zero.wideTrims, supplyTrims := Keep.zero.supplyTrims }

/-- A trim of two bytes with its refinement, clamped to the range of its field (R463). -/
def trimSum16 (roast : BitVec 16) (d : List Byte) : Int :=
  (clampInt 16 (roast.toInt + (BitVec.ofNat 16 (ofBytesLE (d.take 2))).toInt)).1

/-- An entry of a blend record: kinds 1 to 3 are added to the roast trims, the others are not the keep's (R463, R528). -/
def blendEntry (s : State) (e : Nat × Nat × List Byte) : State :=
  let i := e.2.1
  match e.1 with
  | 1 => if i < 32 then s.setReg .crmChTrim (trimWord i e.2.2) i else s
  | 2 => if i < 8 then
      s.setKeep { s.keep with wideTrims := setNth s.keep.wideTrims i (trimSum16 (Config.roastWide i) e.2.2) } else s
  | 3 => if i < 8 then
      s.setKeep { s.keep with supplyTrims := setNth s.keep.supplyTrims i (trimSum16 (Config.roastSupply i) e.2.2) } else s
  | _ => s

/-- A blend record handed to the keep by the loader (R464). -/
def blendOffer (s : State) (b : List Byte) (t : Nat) : State :=
  match blendOk s b with
  | some _ => s.setKeep { s.keep with blendNext := some b }
  | none => pulse (keepLog s 1 t) 645 t

/-- The blend record goes into force at the first tick (R464): trims and the DRAM copy. -/
def blendTick (s : State) (t : Nat) : State :=
  match s.keep.blendNext with
  | none => s
  | some b =>
    let s := s.setKeep { s.keep with blend := some b, blendNext := none }
    let s := (s.setBit .rkpStat 7 true)
    let s := (writePhys s t .runner (4096 * s.fld .rkpBlend 20 0) b).2
    ((blendOk s b).getD []).foldl blendEntry s

/-- RESTORE_FACTORY takes effect at tick(n) (R383, R465). -/
def restoreTick (s : State) (n t : Nat) : State :=
  match s.keep.restoreAt with
  | none => s
  | some m =>
    if n < m then s else
      let s := s.setKeep { s.keep with restoreAt := none, fuseDue := true, blend := none }
      let s := (roastTrims s).setBit .rkpStat 7 false
      let s := (writePhys s t .runner (4096 * s.fld .rkpBlend 20 0) (List.replicate 4 0)).2
      pulse (crmCutAll (pulse s 645 t) t) 457 t

/-- RESTORE_FUSE_BURN (R465): the restore count rises by one, at most to 256. -/
def fuseBurn (s : State) (t : Nat) : State :=
  if !s.keep.fuseDue then s else
    let s := s.setKeep { s.keep with fuseDue := false }
    keepLog (s.setFld .rkpOtp 31 23 (min (otpRestores s + 1) 256)) 2 t

/-- DRBG_RESEED (R457): `ok` tells whether the source passed its health tests. -/
def drbgReseed (s : State) (ok : Bool) (t : Nat) : State :=
  if s.keep.calls < 65536 ∧ drbgOk s then s else
    let s := (s.setKeep { s.keep with calls := 0 }).setBit .rkpStat 2 ok
    if ok then s else pulse s 648 t

/-- DEVICE_KEY_REBUILD (R444, R445): the margin of a rebuild, none after 8 failures. -/
def keyRebuild (s : State) (puf : Option Nat) (t : Nat) : State :=
  match puf with
  | none => pulse (s.setBit .rkpStat 0 false) 647 t
  | some m =>
    let s := (s.setBit .rkpStat 0 true).setFld .rkpStat 23 16 m
    if 16 < m then pulse s 647 t else s

/-! ### Host link keys (R456, R503) -/

/-- SPDM_REQUEST: the answer is the keep's, which the spec gives by reference; a session needs random bits (R457). -/
def spdmRequest (s : State) (msg : List Byte) : State :=
  let r := s.free 5 32
  r.2.setKeep { r.2.keep with doe := Config.spdmReply msg r.1 }

/-- KEY_PROG: a key goes into the IDE engine (R443, R456): key set and direction. -/
def ideKeyProg (s : State) (set dir : Nat) (key : List Byte) : State :=
  s.setKeep { s.keep with ideKeys := kput s.keep.ideKeys (2 * (set % 2) + dir % 2) key }

end Sys2Proof.Machine
end

