-- ==== Sys2Proof/Machine/Barista.lean ====
section
/-! DEFINITION. The Barista pairs: module reset, boot failures, pair faults and takeover, shadowing, restore, the watchdog and
warm reboots (R419 to R428, R432, R435, R441, R442, R516). -/

namespace Sys2Proof.Machine

def State.setBoot (s : State) (b : Boot) : State := { s with boot := b }
def State.setPairs (s : State) (p : Pairs) : State := { s with pairs := p }

/-- Whether the active pair is in boot state (BAR_STAT.boot). -/
def inBoot (s : State) : Bool := s.bit .barStat 7

/-! ### Module reset (R516) -/

/-- Module reset is asserted for a cause of PWR_STAT.last_rst. What outlives it: memory contents (log entry 17), flash, what the
keep holds in fuses and across resets (R432), supplies, lands and measurements (R511, R525), and commands still to come. -/
def moduleReset (s : State) (why : Nat) : State :=
  let keepBits := bitsOf (s.reg .pwrStat).toNat 0 16 + bitsOf (s.reg .pwrStat).toNat 19 3 * 2 ^ 19
  let r := { State.reset with
    pending := s.pending, freeSeq := s.freeSeq, mem := s.mem, memErr := s.memErr, site := s.site, tpExt := s.tpExt, tpForce := s.tpForce
    keep := { resetKeep with slots := s.keep.slots, fails := s.keep.fails, log := s.keep.log }
    boot := { Boot.zero with flash := s.boot.flash }
    pcie := { Pcie.zero with perst := s.pcie.perst }
    power := { s.power with resetOn := true, sleepReq := none, asleep := none } }
  let r := (r.setReg .rkpOtp (s.reg .rkpOtp)).setReg .pwrTemp (s.reg .pwrTemp)
  r.setReg .pwrStat (BitVec.ofNat 32 (keepBits + why * 2 ^ 24))

/-- A boot fails (R435): the image's failed boots are counted, the cause recorded, and the module resets. -/
def bootFail (s : State) (cause : Nat) : State :=
  let i := s.fld .barStat 6 6
  let s := s.setKeep { s.keep with fails := setNth s.keep.fails i (nth s.keep.fails i 0 + 1) }
  (moduleReset s 3).setFld .barStat 19 16 cause

/-! ### Shadowing (R420) -/

/-- A repeat in the standby's SRAM; without a standby it has nowhere to go. -/
def shadowRepeat (s : State) (e : Nat × Nat × List Byte × Nat) : State :=
  if s.bit .barStat 1 then
    let a := sramBase + 0x100000 * e.1 + e.2.1
    let s := repairUnits s e.2.2.2 a e.2.2.1.length (unitsOf a e.2.2.1.length)
    { s with mem := memWrite s.mem a e.2.2.1 }
  else s

/-- Repeats due by cycle t, oldest first. -/
def settleShadow (s : State) (t : Nat) : State :=
  let due := s.shadowQ.takeWhile fun e => decide (e.2.2.2 + 64 ≤ t)
  due.foldl shadowRepeat { s with shadowQ := s.shadowQ.drop due.length }

/-- SHADOW_WRITE: the oldest write is repeated. -/
def shadowWrite (s : State) : State :=
  match s.shadowQ with
  | [] => s
  | e :: rest => shadowRepeat { s with shadowQ := rest } e

/-! ### Copies of memory -/

/-- `n` bytes from `src` copied to `dst`, with their errors cleared. -/
def copyRange (s : State) (src dst n : Nat) : State :=
  let m := s.mem.filter fun c => !decide (dst ≤ c.1 ∧ c.1 < dst + n)
  let m := (s.mem.filter fun c => decide (src ≤ c.1 ∧ c.1 < src + n)).foldl (fun m c => memSet m (dst + (c.1 - src)) c.2) m
  { s with mem := m, memErr := s.memErr.filter fun e => !decide (dst ≤ e.1 ∧ e.1 < dst + n) }

/-! ### Firmware and warm reboots (R437, R441, R442) -/

/-- The image's firmware starts on pair r in cycle t, and tickets that are pending are presented to it (R244, R437). -/
def startFirmware (s : State) (r t : Nat) : State :=
  presentCore (s.setCore (.barista r) { Core.reset with
    phase := .running, pc := s.boot.entry, tsbr := s.reg .barTsbr, hold := false, readyAt := t }) (.barista r) t

/-- The active pair enters boot state for a warm reboot in cycle t (R441). -/
def warmStart (s : State) (staged : Bool) (t : Nat) : State :=
  let s := s.setFld .barStat 31 24 (min (s.fld .barStat 31 24 + 1) 0xFF)
  let s := (s.setBit .barStat 7 true).setBit .sysTamp 0 false
  let c := s.core (.barista s.activePair)
  let s := s.setCore (.barista s.activePair) { c with hold := true, phase := .inReset, entering := none, exit := none }
  (s.setPairs { s.pairs with wdogAt := none }).setBoot
    { s.boot with stage := .ready, warm := true, fromStaged := staged, attempts := 0, staged := [], warmAt := some t }

/-- A write of BAR_WARM in cycle t (R441). -/
def warmWrite (s : State) (i : Ini) (v : W32) (t : Nat) : State :=
  if i = .barista ∧ fieldOf v 31 16 = 0x7A3C ∧ s.pairWorks ∧ !inBoot s ∧ s.tamped then warmStart s (bitOf v.toNat 0) t else s

/-! ### Pair faults and takeover (R422 to R425) -/

/-- A pair is held in reset. -/
def holdPair (s : State) (r : Nat) : State :=
  s.setCore (.barista r) { s.core (.barista r) with phase := .inReset, entering := none, exit := none }

/-- A warm reboot written in the cycle of the fault is discarded (R442). -/
def undoWarm (s : State) (t : Nat) : State :=
  if s.boot.warm ∧ s.boot.warmAt = some t ∧ inBoot s then
    let s := s.setFld .barStat 31 24 (s.fld .barStat 31 24 - 1)
    ((s.setBit .barStat 7 false).setBit .sysTamp 0 true).setBoot { s.boot with stage := .done, warm := false, warmAt := none }
  else s

/-- A pair fault of pair r in cycle t (R422). -/
def pairFault (s : State) (r t : Nat) : State :=
  let s := if r = s.activePair then undoWarm s t else s
  let failBit (s : State) (r : Nat) : State := s.setBit .barStat (2 + r) true
  let stopRestore (s : State) : State := (s.setBit .barStat 4 false).setPairs { s.pairs with restoreAt := none }
  if s.pairFailed r then (if s.bit .barStat 4 then stopRestore s else s)
  else if r ≠ s.activePair then
    match s.pairs.faultAt with
    | some (_, a) => (holdPair (failBit (failBit s r) a) r).setPairs { s.pairs with faultAt := none }
    | none => (holdPair (failBit s r) r).setBit .barStat 1 false
  else if s.pairs.faultAt.isSome then s
  else if inBoot s ∧ !s.boot.warm ∧ !s.boot.saved then bootFail s 4
  else
    let s := holdPair (s.setPairs { s.pairs with wdogAt := none }) r
    if s.bit .barStat 1 ∧ !s.pairFailed (1 - r) then s.setPairs { s.pairs with faultAt := some (t, r), returned := false }
    else if inBoot s ∧ !s.boot.warm then bootFail s 4
    else failBit (stopRestore s) r

/-- Cycle 1 of a takeover (R423): what the failed pair had in service is returned. -/
def pairReturn (s : State) (t : Nat) : State :=
  returnService (s.setPairs { s.pairs with returned := true }) (fun x => x == 0x40) t

/-- Cycle 64 of a takeover that began in cycle c with pair r (R423, R424). Its entry begins in that cycle. -/
def takeOver (s : State) (c r : Nat) : State :=
  let n := 1 - r
  let s := s.setPairs { s.pairs with faultAt := none }
  let s := s.shadowQ.foldl shadowRepeat { s with shadowQ := [] }
  let s := ((s.setBit .barStat (2 + r) true).setFld .barStat 0 0 n).setBit .barStat 1 false
  let frame := (s.core (.barista r)).tsbr
  let k := s.core (.barista n)
  if inBoot s then
    warmStart (s.setCore (.barista n) { k with tsbr := frame, level := 31 }) false (c + 64)
  else
    let s := s.setCore (.barista n) { k with
      hold := false, level := 31, tsbr := frame, exit := none
      phase := if k.phase = .inReset then .running else k.phase
      entering := some
        { cycle0 := c + 64, lastIssue := 0, req := ⟨16, ⟨0x0D, 0, 0, 0, none⟩, c + 64⟩, chained := false, second := false, stage := 0
          claimed := none, handler := 0, frame := 0, saved := 31, umode := none, car := none, rcv := none, bytes := [], next := none } }
    s.setPairs { s.pairs with wdogAt := some (c + 96) }

/-- LOCKSTEP_MISMATCH (R419): what the pair wrote in this cycle is taken back, and the pair faults. -/
def lockstepMismatch (s : State) (r t : Nat) : State :=
  if 2 ≤ r ∨ (s.core (.barista r)).phase = .inReset ∧ !inBoot s then s else
    let back := if s.coreOld.1 = t then s.coreOld.2.filter fun e =>
        decide (sramBase + 0x100000 * r ≤ e.1 ∧ e.1 < sramBase + 0x100000 * (r + 1)) else []
    let s := { s with
      mem := back.foldl (fun m e => memSet m e.1 e.2) s.mem
      shadowQ := s.shadowQ.filter fun e => decide (e.2.2.2 ≠ t ∨ e.1 = r) }
    pairFault s r t

/-! ### The watchdog (R427) -/

/-- The period in core cycles. -/
def wdogCycles (s : State) : Nat := 1536 * s.fld .barWdogCfg 15 0

/-- WATCHDOG_EXPIRY in cycle t. -/
def wdogExpiry (s : State) (t : Nat) : State :=
  match s.pairs.wdogAt with
  | some w =>
    if w + wdogCycles s ≤ t ∧ !inBoot s ∧ s.pairWorks ∧ s.power.asleep.isNone then pairFault s s.activePair t else s
  | none => s

/-- A write of BAR_WDOG_SVC in cycle t. -/
def wdogService (s : State) (i : Ini) (v : W32) (t : Nat) : State :=
  if i = .barista ∧ fieldOf v 7 0 = 0x5A ∧ s.pairWorks ∧ s.pairs.wdogAt.isSome then
    s.setPairs { s.pairs with wdogAt := some t } else s

/-- The watchdog starts with the first bundle of the image's firmware (R427). -/
def wdogFirst (s : State) (w : CoreSel) (t : Nat) : State :=
  if w = .barista s.activePair ∧ !inBoot s ∧ s.pairs.wdogAt.isNone ∧ s.pairs.faultAt.isNone ∧ s.pairWorks ∧
      (s.core w).phase = .running then
    s.setPairs { s.pairs with wdogAt := some t }
  else s

/-! ### Restore (R426) -/

/-- A write of BAR_CMD in cycle t. -/
def restoreWrite (s : State) (i : Ini) (v : W32) (t : Nat) : State :=
  let r := 1 - s.activePair
  if i = .barista ∧ bitOf v.toNat 0 ∧ s.pairWorks ∧ s.pairFailed r ∧ !s.bit .barStat 4 then
    let s := (s.setCore (.barista r) Core.reset).setBit .barStat 4 true
    s.setPairs { s.pairs with restoreAt := some t }
  else s

/-- RESTORE_COMPLETE: the pair becomes the standby 4 ms after the write and starts the firmware (log entry 30). -/
def restoreComplete (s : State) (t : Nat) : State :=
  match s.pairs.restoreAt with
  | some c =>
    if t < c + 6144000 then s else
      let a := s.activePair
      let r := 1 - a
      let s := copyRange s (sramBase + 0x100000 * a) (sramBase + 0x100000 * r) 0x100000
      let s := (s.setBit .barStat 4 false).setPairs { s.pairs with restoreAt := none }
      let s := (s.setBit .barStat (2 + r) false).setBit .barStat 1 true
      startFirmware { s with shadowQ := [] } r t
  | none => s

/-! ### Marks (R430, R432) -/

/-- One byte of flash; beyond what is listed it reads 0xFF. -/
def flashByte (s : State) (d i : Nat) : Byte := (nth s.boot.flash d []).getD i 0xFF

/-- One byte of flash programmed. -/
def flashPut (s : State) (d i : Nat) (b : Byte) : State :=
  let l := nth s.boot.flash d []
  let l := l ++ List.replicate (i + 1 - l.length) 0xFF
  s.setBoot { s.boot with flash := setNth s.boot.flash d (l.set i b) }

/-- Whether mark byte k of a device is set: any value but 0xFF (R430). -/
def markSet (s : State) (d k : Nat) : Bool := flashByte s d (0x10000 + k) != 0xFF

/-- A mark starts to be programmed. -/
def markStart (s : State) (d k : Nat) : State :=
  (s.setBit .barStat 8 true).setBoot { s.boot with marking := some (d, k) }

/-- A write of BAR_BOOT_CMD: 1 the good mark of the booted image, 2 the bad mark of the other. -/
def markWrite (s : State) (i : Ini) (v : W32) : State :=
  if i ≠ .barista ∨ fieldOf v 31 16 ≠ 0x7A3C ∨ s.bit .barStat 8 ∨ !s.pairWorks then s
  else match fieldOf v 1 0 with
    | 1 => markStart s (s.fld .barStat 6 6) 3
    | 2 => markStart s (1 - s.fld .barStat 6 6) 4
    | _ => s

/-- MARK_PROGRAMMED. -/
def markDone (s : State) : State :=
  match s.boot.marking with
  | some (d, k) =>
    let s := flashPut s d (0x10000 + k) 0
    (s.setBit .barStat 8 false).setBoot { s.boot with marking := none }
  | none => s

end Sys2Proof.Machine
end

