-- ==== Sys2Proof/Machine/Service.lean ====
section
/-! DEFINITION. Live service: spare-core takeover, retirement, aging monitors and counter intervals (R469 to R487). -/

namespace Sys2Proof.Machine

def State.setService (s : State) (x : Service) : State := { s with service := x }

/-- The class of a logical core (SYS_LCLASS). -/
def classOf (s : State) (l : Nat) : Nat := s.fld .sysLclass (4 * (l % 8) + 2) (4 * (l % 8)) (l / 8)

/-- The spare of a core's cluster pair (R470). -/
def spareOf (p : Nat) : Nat := 64 + p / 8 / 2

/-- Whether a spare is retired. -/
def spareRetired (s : State) (p : Nat) : Bool := s.bit .sysCfail (p - 64) 2

/-- SYS_SPARE_STAT and SYS_SPARE_MAP show the queue, the copier and the spares. -/
def spareShow (s : State) : State :=
  let s := s.setFld .sysSpareStat 22 20 s.service.spareQ.length
  let s := s.setBit .sysSpareStat 23 (match s.takeover with | some k => !k.copied | none => false)
  (List.range 4).foldl (fun s j =>
    match s.lcoreOf (64 + j) with
    | some l => (s.setBit .sysSpareStat (24 + j) true).setFld .sysSpareMap (8 * j + 7) (8 * j) (0x80 + l)
    | none => (s.setBit .sysSpareStat (24 + j) false).setFld .sysSpareMap (8 * j + 7) (8 * j) 0) s

def spareResult (s : State) (r : Nat) : State := s.setFld .sysSpareStat 19 17 r

/-- A command to take over logical core l (R470, R471). -/
def takeOverRequest (s : State) (i : Ini) (l t : Nat) : State :=
  if i ≠ .barista ∨ !s.pairWorks then s
  else if s.service.spareQ.any (fun e => decide (e.1 = l)) || (match s.takeover with | some k => decide (k.l = l) | none => false) then
    spareResult s 0
  else if 4 ≤ s.service.spareQ.length then spareResult s 1
  else spareShow (spareResult (s.setService { s.service with spareQ := s.service.spareQ ++ [(l, t)] }) 0)

/-- A command to retire spare j. -/
def retireSpare (s : State) (j : Nat) : State :=
  let busy := match s.takeover with | some k => decide (k.s = 64 + j) | none => false
  if busy || (s.lcoreOf (64 + j)).isSome then s else spareResult (s.setBit .sysCfail j true 2) 0

/-- A write of SYS_SPARE_CMD. -/
def spareWrite (s : State) (i : Ini) (v : W32) (t : Nat) : State :=
  match fieldOf v 7 6 with
  | 1 => takeOverRequest s i (fieldOf v 5 0) t
  | 2 => retireSpare s (fieldOf v 1 0)
  | _ => s

/-- The judgement of a takeover of l (R472): a refusal's result, or the failing core and its spare. -/
def takeOverJudge (s : State) (l : Nat) : Except Nat (Nat × Nat) :=
  match s.physOf l with
  | none => .error 5
  | some p =>
    if p < 64 ∧ spareRetired s (spareOf p) then .error 2
    else if 64 ≤ p then .error 4
    else match s.lcoreOf (spareOf p) with
      | some l' => if classOf s l ≤ classOf s l' then .error 3 else .ok (p, spareOf p)
      | none => .ok (p, spareOf p)

/-- A core is held by the copier: what it ran is abandoned (R473). -/
def holdCore (s : State) (p : Nat) : State :=
  s.setCore (.eduno p) { s.core (.eduno p) with
    phase := .inReset, entering := none, exit := none, carU := none, carS := none, rcvU := none, rcvS := none, staged := [], ovrForce := true }

/-- The first pour from which the spare serves: tick(m) − 4,096 ≥ tick(t0) + 10,923 (R473). -/
def takeOverPour (s : State) (t0 : Nat) : Nat := t0 + ceilDiv 15019 s.pourLen

/-- An accepted takeover starts in the cycle of tick(n) (R473, R477). -/
def takeOverStart (s : State) (l p sp n t : Nat) : State :=
  let s := holdCore (holdCore s p) sp
  let s := returnService s (fun x => decide (x < 64) && (s.physOf x == some p || s.physOf x == some sp)) t
  let s := (s.setReg .orlPinsvc 0 p).setReg .orlPinsvc 0 sp
  let s := match s.lcoreOf sp with
    | some l' => pulse { s with map := setNth s.map l' none } 10 t
    | none => s
  let s := countEvent { s with takeover := some ⟨l, p, sp, n, takeOverPour s n, false⟩ } t 0x13 l
  spareShow (spareResult s 0)

/-- CORE registers that the copier carries over (R473). -/
def copiedRegs : List RegName :=
  [.coreAstat, .coreCfg, .coreRstat, .corePbank, .coreHvec, .coreTsbr, .coreTsblim, .coreMpuBase, .coreMpuLim]

/-- Private order-rail registers. -/
def privateRail : List RegName := [.orlPmask, .orlPpend, .orlPinsvc, .orlPpria, .orlPprib, .orlPpric, .orlHold]

/-- One private timer channel copied with its count and armed state. -/
def copyChan (s : State) (t a b : Nat) : State :=
  let s := settleChan s a t
  let s := [RegName.tmrPctl, .tmrPcmpl, .tmrPcmph, .tmrPstat].foldl (fun s n => s.setReg n (s.reg n (a - 128)) (b - 128)) s
  s.setChan b (s.chan a)

/-- Uncorrectable words of p's memories are written into the spare as 0 (R474). -/
def copyErrors (s : State) (t p sp : Nat) : State :=
  let us := (s.memErr.filter fun e => decide (coreBase + 0x100000 * p ≤ e.1 ∧ e.1 < coreBase + 0x100000 * (p + 1))).map Prod.fst
  let bad := badUnits s us
  let s := correctUnits s t us
  let s := copyRange s (coreBase + 0x100000 * p) (coreBase + 0x100000 * sp) 0xA0000
  bad.foldl (fun s u =>
    let n := (unitOf u).2
    let s := { s with mem := memWrite s.mem (u + 0x100000 * (sp - p)) (List.replicate n 0) }
    pulse (countEvent s t 0x15 sp) 7 t) s

/-- TAKEOVER_COPY_COMPLETE: the spare holds the failing core's state and the copier is free (R473). -/
def takeOverCopied (s : State) (t : Nat) : State :=
  match s.takeover with
  | none => s
  | some k =>
    if k.copied ∨ t < k.t0 * s.pourLen + 10923 then s else
      let s := copyErrors s t k.p k.s
      let c := s.core (.eduno k.p)
      let own := s.core (.eduno k.s)
      let s := s.setCore (.eduno k.s) { c with
        phase := .inReset, sends := own.sends, stbuf := own.stbuf, stNext := own.stNext, carU := none, carS := none, rcvU := none
        rcvS := none, staged := [], old := [], entering := none, exit := none, ovrForce := true }
      let s := copiedRegs.foldl (fun s n => (List.range (regRow n).n2).foldl (fun s j => s.setReg n (s.reg n k.p j) k.s j) s) s
      let s := privateRail.foldl (fun s n => s.setReg n (s.reg n k.p) k.s) s
      let s := copyChan (copyChan s t (128 + 2 * k.p) (128 + 2 * k.s)) t (129 + 2 * k.p) (129 + 2 * k.s)
      spareShow { s with takeover := some { k with copied := true } }

/-- The map change at tick(m) (R473): whether the spare that now serves performs pour entry is left to the tick. -/
def takeOverMap (s : State) (n t : Nat) : State :=
  match s.takeover with
  | none => s
  | some k =>
    if n < k.m then s else
      let s := takeOverCopied s t
      let s := { s with map := setNth s.map k.l (some k.s), takeover := none }
      let s := s.setCore (.eduno k.s) { s.core (.eduno k.s) with
        phase := .waiting, eopDone := true, missed := false, hold := (s.core (.eduno k.s)).hold }
      spareShow (pulse (s.setBit .sysCfail (k.p % 32) true (k.p / 32)) 5 t)

/-- The oldest command waiting is judged at tick(n) in cycle t while the copier is free (R471, R472). A refusal lets the next
one be judged. -/
def takeOverNext : Nat → State → Nat → Nat → State
  | 0, s, _, _ => s
  | fuel + 1, s, n, t =>
    match s.takeover, s.service.spareQ with
    | none, (l, c) :: rest =>
      if t ≤ c then s else
        let s := s.setService { s.service with spareQ := rest }
        match takeOverJudge s l with
        | .error r => takeOverNext fuel (spareShow (pulse (spareResult s r) 6 t)) n t
        | .ok (p, sp) => takeOverStart s l p sp n t
    | _, _ => s

/-- Takeovers at tick(n) (R473, R475): a completion first, then the next start. In a warm reboot the map stays (R29; log entry
78). -/
def takeOversTick (s : State) (n t : Nat) : State :=
  if s.boot.warm then s else takeOverNext 5 (takeOverMap s n t) n t

/-! ### Aging monitors (R483) -/

/-- The slowdown of a measured delay in units of 0.01 %. -/
def slowOf (d d0 : Nat) : Int := (clampInt 16 (rhe (10000 * ((d : Int) - d0)) d0)).1

/-- AGING_MEASUREMENT of monitor i with delay d in cycle t. -/
def agingMeasure (s : State) (i d t : Nat) : State :=
  if t % 92160000000 ≠ 0 ∨ 32 ≤ i ∨ s.power.asleep.isSome then s else
    let slow := slowOf d (Config.agingBase i + 1)
    let s := s.setFld .hltAge 15 0 (sfield 16 slow) i
    let s := if s.fld .hltAge 31 30 i = 0 ∧ (s.fld .hltAgeCfg 15 0 : Int) ≤ slow then
        pulse (s.setFld .hltAge 31 30 1 i) 8 t else s
    if s.fld .hltAge 31 30 i < 2 ∧ (s.fld .hltAgeCfg 31 16 : Int) ≤ slow then pulse (s.setFld .hltAge 31 30 2 i) 9 t else s

/-! ### Counter intervals (R485) -/

/-- The interval of counter k closes if pour n is at or past its end; what it counted in the closing cycle belongs to the next one
(R54, R485). -/
def counterClose (s : State) (k n t : Nat) : State :=
  match kget s.service.ivals k with
  | some a =>
    let ival := s.fld .hltCntCfg 11 0 k
    if ival = 0 ∨ n < a + ival then s else
      let now := (s.reg .hltCntVal k).toNat
      let v : W32 := BitVec.ofNat 32 (match kget s.service.counted k with | some x => if x.1 = t then x.2 else now | none => now)
      let s := (s.setReg .hltCntLast v k).setReg .hltCntVal (BitVec.ofNat 32 (now - v.toNat)) k
      let s := s.setService { s.service with ivals := kput s.service.ivals k n, counted := kdel s.service.counted k }
      let thr := (s.reg .hltCntThr k).toNat
      if thr ≠ 0 ∧ thr ≤ v.toNat then pulse (s.raise t .hltAlarm (2 ^ k)) 736 t else s
  | none => s

/-- The configuration of counter k takes effect at tick(n). -/
def counterConfig (s : State) (k n : Nat) (v : W32) : State :=
  let s := ((s.setReg .hltCntCfg v k).setReg .hltCntVal 0 k).setReg .hltCntLast 0 k
  s.setService { s.service with ivals := if fieldOf v 11 0 = 0 then kdel s.service.ivals k else kput s.service.ivals k n }

/-- Every counter's interval at tick(n). -/
def countersTick (s : State) (n t : Nat) : State :=
  s.service.ivals.foldl (fun s e => counterClose s e.1 n t) s

end Sys2Proof.Machine
end

