-- ==== Sys2Proof/Machine/Pcie.lean ====
section
/-! DEFINITION. The PCI Express endpoint: link, resets, power states, host rings, MSI-X and IDE (R488 to R504). -/

namespace Sys2Proof.Machine

def State.setPcie (s : State) (x : Pcie) : State := { s with pcie := x }

/-- Whether the host is served: from the tamp on, or in recovery (R489). -/
def hostOpen (s : State) : Bool := s.tickMin.isSome || s.boot.stage == .recovery

def linkIsUp (s : State) : Bool := s.bit .pcxLstat 9
def inD3 (s : State) : Bool := decide (s.fld .pcxLstat 1 0 = 3)

/-- An error logged in AER (R504): codes 1, 2 and 4 are correctable (advisory), the rest uncorrectable (log entry 32). -/
def aerLog (s : State) (code t : Nat) : State :=
  let s := s.setPcie { s.pcie with aer := code :: s.pcie.aer }
  pulse s (if code = 1 ∨ code = 2 ∨ code = 4 then 578 else 579) t

/-- A request of the host is completed. -/
def complete (s : State) (c : Cpl) (data : List Byte) : State := s.setPcie { s.pcie with cpl := c, data := data }

/-! ### MSI-X (R500, R501) -/

/-- Vectors held pending that are no longer masked are sent. -/
def msixFlush (s : State) : State :=
  let p := s.msixPend
  p.reverse.foldl msixDue { s with msixPend := [] }

/-- MSIX_FIRE: a write of PCX_MSIX_FIRE by the active pair (R500). -/
def msixFire (s : State) (i : Ini) (v : W32) : State :=
  if i = .barista ∧ s.pairWorks then msixDue s (1024 + fieldOf v 9 0) else s

/-- A word of the MSI-X table written by the host. -/
def msixWrite (s : State) (v w x : Nat) : State := msixFlush { s with msix := kput s.msix (4 * v + w) x }

/-- MSIX_UNMASK of vector v. -/
def msixUnmask (s : State) (v : Nat) : State := msixWrite s (v % 2048) 3 (msixWord s (v % 2048) 3 / 2 * 2)

/-- Word w of the pending-bit array. -/
def msixPba (s : State) (w : Nat) : Nat :=
  s.msixPend.foldl (fun a v => if v / 32 = w then a + 2 ^ (v % 32) else a) 0

/-! ### Host rings (R497 to R499) -/

def hrEn (s : State) (j : Nat) : Bool := s.bit .pcxHrCfg 31 j
def hrDir (s : State) (j : Nat) : Bool := s.bit .pcxHrCfg 30 j
def hrSize (s : State) (j : Nat) : Nat := 2 ^ s.fld .pcxHrCfg 24 20 j
def hrQueue (s : State) (j : Nat) : Nat := s.fld .pcxHrCfg 15 0 j
def hrAddr (s : State) (j : Nat) : Nat := (s.reg .pcxHrAddrl j).toNat + 2 ^ 32 * (s.reg .pcxHrAddrh j).toNat
def hrPi (s : State) (j : Nat) : Nat := (s.reg .pcxHrPi j).toNat
def hrCi (s : State) (j : Nat) : Nat := (s.reg .pcxHrCi j).toNat

/-- Whether the endpoint may issue requests of its own (R499, R502). -/
def canMaster (s : State) : Bool := linkIsUp s && s.pcie.bme && !inD3 s

/-- Live reads of a ring. -/
def hrReads (s : State) (j : Nat) : List HRead := s.pcie.reads.filter fun r => decide (r.ring = j) && !r.dead

/-- PCX_HRj_STAT.outstanding shows the reads in flight. -/
def hrShow (s : State) (j : Nat) : State := s.setFld .pcxHrStat 3 0 (min 15 (hrReads s j).length) j

/-- A ring is disabled by hardware in cycle t (R499, R502). -/
def hrStop (s : State) (j err t : Nat) : State :=
  let s := (s.setBit .pcxHrCfg 31 false j).setFld .pcxHrStat 6 4 err j
  s.setPcie { s.pcie with stopped := kput s.pcie.stopped j t }

/-- One more read of ring j (R498): at most 64 entries, as many as the queue has room and credit for. -/
def hrIssue (s : State) (j t : Nat) : Option State :=
  let h := hrQueue s j
  let out := (hrReads s j).foldl (fun a r => a + r.count) 0
  let next := (hrCi s j + out) % 2 ^ 32
  let avail := (hrPi s j + 2 ^ 32 - next) % 2 ^ 32
  let room := qCapacity s h - (qCount s h + inTransit s h) - out
  let n := min (min (min 64 avail) (min room (qCredLeft s h - out))) (hrSize s j - next % hrSize s j)
  if !hrEn s j ∨ !hrDir s j ∨ !canMaster s ∨ !qEn s h ∨ 64 ≤ s.pcie.reads.length ∨ n = 0 then none
  else some (hrShow (s.setPcie { s.pcie with reads := s.pcie.reads ++ [⟨j, next, n, t, false⟩] }) j)

/-- Every read of ring j that can be issued in cycle t. -/
def hrIssueAll : Nat → State → Nat → Nat → State
  | 0, s, _, _ => s
  | fuel + 1, s, j, t =>
    match hrIssue s j t with
    | some s => hrIssueAll fuel s j t
    | none => s

/-- Reads of every ring. -/
def hrIssueRings (s : State) (t : Nat) : State :=
  ((List.range 16).filter (hrEn s)).foldl (fun s j => hrIssueAll 64 s j t) s

/-- Whether ring j can be bound to its queue (R497). -/
def hrBinds (s : State) (j : Nat) : Bool :=
  let h := hrQueue s j
  qEn s h && decide (qKind s h = 0) && qOwnerHost s h &&
    decide ((if hrDir s j then qProducer s h else qConsumer s h) = 0x2000)

/-- A write of PCX_HRj_CFG in cycle t (R497): en = 1 zeroes the indices; a hardware clear of the same cycle wins. -/
def hrConfig (s : State) (j : Nat) (v : W32) (t : Nat) : State :=
  let held := decide (kget s.pcie.stopped j = some t)
  let s := s.setReg .pcxHrCfg (withField v 31 31 (ofBool (bitOf v.toNat 31 && !held))) j
  if bitOf v.toNat 31 then
    let s := (s.setReg .pcxHrPi 0 j).setReg .pcxHrCi 0 j
    let s := s.setPcie { s.pcie with reads := s.pcie.reads.map fun r => if r.ring = j then { r with dead := true } else r }
    if !hrEn s j then s
    else if hrBinds s j then hrShow s j else (s.setBit .pcxHrCfg 31 false j).setFld .pcxHrStat 6 4 1 j
  else s

/-- A write of PCX_HRj_PI or PCX_HRj_CI: the index the Runner owns is not written (R498). -/
def hrIndex (s : State) (j : Nat) (pi : Bool) (v : W32) (t : Nat) : State :=
  if pi then (if hrDir s j then hrIssueAll 64 (s.setReg .pcxHrPi v j) j t else s)
  else if hrDir s j then s else s.setReg .pcxHrCi v j

/-- HOST_RING_ENTRY_WRITE: the oldest item goes to the host (R498). -/
def hrEntryWrite (s : State) (j t : Nat) : State :=
  let h := hrQueue s j
  if 16 ≤ j ∨ !hrEn s j ∨ hrDir s j ∨ !canMaster s ∨ !qEn s h ∨ qCount s h = 0 ∨
      hrSize s j ≤ (hrPi s j + 2 ^ 32 - hrCi s j) % 2 ^ 32 then s
  else
    let b := readSlot s t h (qHead s h)
    let s := dropItem b.2 h
    let a := hrAddr s j + 8 * (hrPi s j % hrSize s j)
    let s := s.setPcie { s.pcie with posted := (a, BitVec.ofNat 48 (ofBytesLE (b.1.take 6))) :: s.pcie.posted }
    pulse (s.setReg .pcxHrPi (s.reg .pcxHrPi j + 1) j) (584 + j) t

/-- A read of ring j failed (R499): later reads are discarded, the ring stops, CI stays. -/
def hrFail (s : State) (j err t : Nat) : State :=
  let s := s.setPcie { s.pcie with reads := s.pcie.reads.map fun r => if r.ring = j then { r with dead := true } else r }
  hrShow (pulse (hrStop s j err t) 580 t) j

/-- The first read in flight of ring j leaves the list. -/
def hrTake (s : State) (j : Nat) : Option (HRead × State) :=
  match s.pcie.reads.find? fun r => decide (r.ring = j) with
  | some r => some (r, hrShow (s.setPcie { s.pcie with reads := s.pcie.reads.erase r }) j)
  | none => none

/-- HOST_READ_COMPLETION: the oldest read in flight of ring j completes with a status, EP and its entries (R498, R499). An
entry that is not given reads 0. -/
def hrCompletion (s : State) (j : Nat) (ok ep : Bool) (items : List W48) (t : Nat) : State :=
  match hrTake s j with
  | none => if linkIsUp s then aerLog s 4 t else s
  | some (r, s) =>
    if r.dead then s
    else if !ok then hrFail s j 3 t
    else if ep then hrFail (aerLog s 7 t) j 4 t
    else
      let s := (List.range r.count).foldl (fun s i => portSend s t (hrQueue s j) (nth items i 0)) s
      let s := s.setReg .pcxHrCi (BitVec.ofNat 32 (hrCi s j + r.count)) j
      hrIssueAll 64 (pulse s (584 + j) t) j t

/-- HOST_READ_TIMEOUT: the oldest read in flight of ring j has waited 50 ms (R499). -/
def hrTimeout (s : State) (j t : Nat) : State :=
  match hrTake s j with
  | none => s
  | some (r, s') =>
    if t < r.at' + 76800000 then s
    else if r.dead then s'
    else runErr (aerLog (hrFail s' j 2 t) 5 t) t (hrQueue s j) 4

/-! ### Link and resets (R489, R490, R502) -/

/-- Rings are disabled and outstanding reads discarded by a host-side reset in cycle t. -/
def ringsReset (s : State) (t : Nat) : State :=
  let s := s.setPcie { s.pcie with reads := [] }
  (List.range 16).foldl (fun s j => hrShow (if hrEn s j then hrStop s j 5 t else s) j) s

/-- The function's configuration state and MSI-X table at their reset values, in D0. -/
def functionReset (s : State) (t : Nat) : State :=
  let d3 := inD3 s
  let s := { s with msixEn := false, msixFm := false, msix := [], msixPend := [] }
  let s := (s.setPcie { s.pcie with bme := false, cfg := [], aer := [] }).setFld .pcxLstat 1 0 0
  ringsReset (if d3 then pulse s 583 t else s) t

/-- The IDE stream takes a state (R503). -/
def setIde (s : State) (v : Bool) (t : Nat) : State :=
  if s.bit .pcxLstat 11 = v then s else pulse (s.setBit .pcxLstat 11 v) 582 t

/-- PERST_DEASSERT: training begins when the reference is present and the link is enabled (R489). -/
def perstDeassert (s : State) (refclk : Bool) : State :=
  s.setPcie { s.pcie with perst := false, training := refclk && s.bit .pcxLcfg 0 }

/-- LINK_UP at a rate and width that both ends have working (R490): FLIT mode always at 64 GT/s. -/
def linkUp (s : State) (rate width : Nat) (flit : Bool) (t : Nat) : State :=
  if !s.pcie.training ∨ linkIsUp s ∨ s.pcie.perst ∨ !s.bit .pcxLcfg 0 ∨ ([1, 2, 4, 8].contains width) = false then s else
    let r := min rate (s.fld .pcxLcfg 3 1)
    let s := ((s.setFld .pcxLstat 8 6 r).setFld .pcxLstat 5 2 width).setBit .pcxLstat 10 (flit || r == 5)
    pulse ((s.setBit .pcxLstat 9 true).setPcie { s.pcie with training := false }) 576 t

/-- LINK_DOWN: 0 hot reset, 1 link down, 2 PERST# asserted (R502). -/
def linkDown (s : State) (kind t : Nat) : State :=
  let was := linkIsUp s
  let s := functionReset (setIde s false t) t
  let s := (s.setFld .pcxLstat 10 2 0).setKeep { s.keep with ideKeys := [], ideSet := none, doe := [] }
  let perst := s.pcie.perst || kind == 2
  let s := s.setPcie { s.pcie with perst := perst, training := !perst && s.bit .pcxLcfg 0 }
  if was then pulse s 576 t else s

/-- FLR (R502). -/
def flr (s : State) (t : Nat) : State := if linkIsUp s then pulse (functionReset s t) 577 t else s

/-- D_STATE_CHANGE (R502, R504). -/
def dState (s : State) (d3 : Bool) (t : Nat) : State :=
  if !linkIsUp s ∨ inD3 s = d3 then s
  else hrIssueRings (pulse (s.setFld .pcxLstat 1 0 (if d3 then 3 else 0)) 583 t) t

/-- CONFIG_REQUEST: retried until the tamp or recovery (R489); then a read of dword i, a write of it, or a write of MSI-X
Enable and Function Mask, whose places the spec gives by reference. Bit 2 of dword 1 is Bus Master Enable (log entry 33). -/
def configRequest (s : State) (op : CfgOp) (t : Nat) : State :=
  if !linkIsUp s then s
  else if !hostOpen s then complete s .retry []
  else match op with
    | .read i => complete s .success (toBytesLE 4 ((kget s.pcie.cfg i).getD (Config.cfgWord i)).toNat)
    | .write i v =>
      let s := s.setPcie { s.pcie with cfg := kput s.pcie.cfg i v, bme := if i = 1 then bitOf v.toNat 2 else s.pcie.bme }
      hrIssueRings (msixFlush (complete s .success [])) t
    | .msix en fm =>
      complete (msixFlush { s with msixEn := en, msixFm := fm, msixPend := if en then s.msixPend else [] }) .success []

/-! ### IDE (R456, R503) -/

/-- K_SET_GO of a key set: the stream is Secure once both directions of the set hold keys. -/
def kSetGo (s : State) (set t : Nat) : State :=
  let k := set % 2
  if (kget s.keep.ideKeys (2 * k)).isSome ∧ (kget s.keep.ideKeys (2 * k + 1)).isSome then
    setIde (s.setKeep { s.keep with ideSet := some k }) true t
  else s

/-- K_SET_STOP of a key set: its keys are discarded. -/
def kSetStop (s : State) (set t : Nat) : State :=
  let k := set % 2
  let s' := s.setKeep { s.keep with ideKeys := kdel (kdel s.keep.ideKeys (2 * k)) (2 * k + 1) }
  if s.keep.ideSet = some k then setIde (s'.setKeep { s'.keep with ideSet := none }) false t else s'

/-- QUERY: the endpoint's answer is given by reference (R456). -/
def ideQuery (s : State) : State := spdmRequest s []

/-- IDE_INTEGRITY_FAILURE: the TLP is discarded and the stream goes Insecure (R503). -/
def ideFailure (s : State) (t : Nat) : State :=
  pulse ((s.setBit .pcxLstat 11 false).setKeep { s.keep with ideSet := none }) 582 t

end Sys2Proof.Machine
end

