-- ==== Sys2Proof/Machine/Power.lean ====
section
/-! DEFINITION. Lands, supplies, module reset, sleep, reference clocks and thermal protection (R505 to R529). -/

namespace Sys2Proof.Machine

def State.setPower (s : State) (x : Power) : State := { s with power := x }

/-! ### Lands (R505, R507) -/

/-- The class of a land (R507); `none` for supplies, ground, TEST and CEARTH. -/
inductive LandClass
  | io33 | od | io18 | hs | cr | cp | aux | none
  deriving DecidableEq, Repr

/-- Whether a column lies in a range. -/
def colIn (c lo hi : Nat) : Bool := decide (lo ≤ c ∧ c ≤ hi)

/-- Whether a column belongs to pairs of lanes 0 to n − 1, at 3 + 4k and 4 + 4k. -/
def laneCol (c n : Nat) : Bool := decide (3 ≤ c ∧ (c - 3) / 4 < n ∧ (c - 3) % 4 < 2)

/-- The land at a row (1 is A) and column (R505). -/
def landClass (row col : Nat) : LandClass :=
  match row with
  | 1 | 2 | 3 | 4 => if colIn col 7 38 then .cr else .none
  | 5 => if colIn col 7 38 then .cp else .none
  | 9 | 10 => if colIn col 7 22 then .io33 else if colIn col 23 34 then .io18 else .none
  | 11 => if colIn col 7 22 || colIn col 23 27 then .io33 else if colIn col 30 33 then .aux else .none
  | 12 =>
    if colIn col 7 22 || col == 23 || col == 26 || col == 28 then .io33
    else if colIn col 24 25 then .od else if colIn col 30 33 then .aux else .none
  | 13 => if colIn col 7 14 then .io33 else .none
  | 14 => if colIn col 7 38 then .io33 else .none
  | 35 => if laneCol col 8 || colIn col 37 38 then .hs else .none
  | 37 => if col == 37 then .io33 else .none
  | 38 => if laneCol col 8 then .hs else .none
  | 40 => if laneCol col 4 || colIn col 21 22 then .hs else .none
  | 42 => if laneCol col 4 then .hs else .none
  | _ => .none

/-- Whether an IO33 land is an input (R507): TDM data in, TCK, TMS, TDI, TRSTN, NRST, WAKE, REFA, EVAC, PERSTN, and timer pins
whose direction is in. -/
def landIsInput (s : State) (row col : Nat) : Bool :=
  match row with
  | 11 => colIn col 23 25 || col == 27
  | 12 => colIn col 7 22 || col == 23 || col == 26 || col == 28
  | 13 => true
  | 14 => !s.bit .tmrPinDir (col - 7)
  | 37 => true
  | _ => false

/-- Lands with a series protection switch (R508). -/
def landSwitched (row col : Nat) : Bool :=
  match landClass row col with
  | .io33 | .io18 | .od => true
  | _ => false

def landKey (row col : Nat) : Nat := 64 * row + col
def landOpen (s : State) (row col : Nat) : Bool := s.power.openLands.contains (landKey row col)

/-- Whether a land of a class can have a fault of a kind (R509). -/
def faultFits (row col kind : Nat) : Bool :=
  match landClass row col, kind with
  | .io33, 1 | .io18, 1 | .od, 1 => true
  | .io33, 2 | .io18, 2 | .od, 2 => true
  | .io33, 3 | .io18, 3 | .od, 3 => true
  | .io33, 4 | .io18, 4 => true
  | .hs, 5 => true
  | .cr, 6 => true
  | .aux, 7 => true
  | _, _ => false

/-- A land fault is recorded in cycle t (R509, R510). -/
def landRecord (s : State) (row col kind t : Nat) : State :=
  pulse (s.record t .pwrLf (BitVec.ofNat 32 (row * 2 ^ 26 + col * 2 ^ 20 + kind * 2 ^ 16))) 708 t

/-- A land's switch opens: a timer pin then reads 0, a falling edge if it was high (R508). While the core clock is stopped nothing is
captured or counted (R255). -/
def landShut (s : State) (row col t : Nat) : State :=
  if landOpen s row col then s else
    let s := s.setPower { s.power with openLands := landKey row col :: s.power.openLands }
    if row ≠ 14 then s
    else if s.power.asleep.isSome then landLevel s (col - 7) false t
    else if bitOf s.tpExt.toNat (col - 7) then pinEdge s (col - 7) false t else s

/-- LAND_SWITCH_OPEN: `low` when the land fell below −0.5 V (R508, R509). -/
def landSwitchOpen (s : State) (row col : Nat) (low : Bool) (t : Nat) : State :=
  if landSwitched row col then landRecord (landShut s row col t) row col (if low then 3 else 2) t else s

/-- LAND_SWITCH_CLOSE: the land reads its level again, a rising edge for captures and pin-edge clocks if it is high (R258, R508). -/
def landSwitchClose (s : State) (row col : Nat) (level : Bool) (t : Nat) : State :=
  if landOpen s row col then
    let s := s.setPower { s.power with openLands := s.power.openLands.filter fun k => decide (k ≠ landKey row col) }
    if row ≠ 14 then s
    else if s.power.asleep.isSome then landLevel s (col - 7) level t
    else if level then pinClock (pinEdge s (col - 7) true t) (col - 7) t else s
  else s

/-- LAND_FAULT (R509): kinds 2 and 3 open the switch. -/
def landFault (s : State) (row col kind t : Nat) : State :=
  if !faultFits row col kind then s
  else landRecord (if kind = 2 ∨ kind = 3 then landShut s row col t else s) row col kind t

/-- OPEN_INPUT_TEST: the IO33 inputs that followed both pulls are open (R509). -/
def openInputTest (s : State) (lands : List (Nat × Nat)) (t : Nat) : State :=
  lands.foldl (fun s x =>
    if landClass x.1 x.2 = .io33 ∧ landIsInput s x.1 x.2 then landRecord s x.1 x.2 4 t else s) s

/-- Levels of the EVAC pins as the lands read: an open switch reads 0 (R508). -/
def evacLands (s : State) (levels : Nat) : Nat :=
  (List.range 8).foldl (fun a e => if bitOf levels e && !landOpen s 13 (7 + e) then a + 2 ^ e else a) 0

/-! ### Supply inputs (R511 to R516) -/

/-- First bit of an input's fields in PWR_STAT: carry, ok, ov and rev from it up. -/
def inBase (b : Bool) : Nat := if b then 0 else 4
def inSource (b : Bool) : Nat := if b then 705 else 704

/-- The input that carries the load, from the two voltages in millivolts (R511). -/
def inCarry (s : State) (va vb : Nat) : State :=
  let a := s.bit .pwrStat 5
  let b := s.bit .pwrStat 1
  let near := decide (va ≤ vb + 100 ∧ vb ≤ va + 100)
  let s := s.setBit .pwrStat 4 (a && (!b || near || decide (vb ≤ va)))
  s.setBit .pwrStat 0 (b && (!a || near || decide (va ≤ vb)))

/-- Hold-up is in force while neither input is ok (R514). -/
def inHoldup (s : State) (t : Nat) : State :=
  let v := !s.bit .pwrStat 5 && !s.bit .pwrStat 1
  if s.bit .pwrStat 22 = v then s else pulse (s.setBit .pwrStat 22 v) 706 t

/-- An input's ok, ov and rev bits are set; a change pulses its source (R511). -/
def inSet (s : State) (b ok ov rev : Bool) (va vb t : Nat) : State :=
  let was := s.fld .pwrStat (inBase b + 3) (inBase b + 1)
  let s := ((s.setBit .pwrStat (inBase b + 1) ok).setBit .pwrStat (inBase b + 2) ov).setBit .pwrStat (inBase b + 3) rev
  let s := inHoldup (inCarry s va vb) t
  if s.fld .pwrStat (inBase b + 3) (inBase b + 1) = was then s else pulse s (inSource b) t

/-- INPUT_OK_CHANGE: an input that becomes ok while the module is without power asserts module reset (R511, R516). -/
def inputOk (s : State) (b ok : Bool) (va vb t : Nat) : State :=
  let s := if ok && !s.power.pg && !s.power.shutdown then moduleReset s 0 else s
  inSet s b ok (s.bit .pwrStat (inBase b + 2) && !ok) (s.bit .pwrStat (inBase b + 3) && !ok) va vb t

/-- INPUT_REVERSED (R512). -/
def inputReversed (s : State) (b : Bool) (va vb t : Nat) : State := inSet s b false (s.bit .pwrStat (inBase b + 2)) true va vb t

/-- INPUT_OVERVOLTAGE (R512). -/
def inputOver (s : State) (b : Bool) (va vb t : Nat) : State := inSet s b false true (s.bit .pwrStat (inBase b + 3)) va vb t

/-- INPUT_RECONNECT (R512). -/
def inputReconnect (s : State) (b : Bool) (va vb t : Nat) : State :=
  if s.bit .pwrStat (inBase b + 2) then
    inSet s b (s.bit .pwrStat (inBase b + 1)) false (s.bit .pwrStat (inBase b + 3)) va vb t else s

/-- VHOLD_LOW: VHOLD in units of 0.25 V fell below 5.0 V (R514). -/
def vholdLow (s : State) (v t : Nat) : State := pulse (s.setFld .pwrStat 15 8 v) 707 t

/-- Every rail but the always-on domain is switched off: memory holds nothing that was written (log entry 17). -/
def railsOff (s : State) (why : Nat) : State :=
  let s := moduleReset { s with mem := [], memErr := [] } why
  s.setPower { s.power with pg := false }

/-- HOLDUP_EXHAUSTED: an input that became ok wins (R514). -/
def holdupExhausted (s : State) : State := if s.bit .pwrStat 22 then railsOff s 4 else s

/-- PG_RELEASE (R515). -/
def pgRelease (s : State) : State :=
  if s.power.shutdown ∨ !(s.bit .pwrStat 5 || s.bit .pwrStat 1) then s else s.setPower { s.power with pg := true }

/-! ### Sleep (R517 to R520) -/

/-- SLEEP_REQUEST: a write of PWR_SLEEP in cycle t (R517). -/
def sleepWrite (s : State) (i : Ini) (v : W32) (t : Nat) : State :=
  if i = .barista ∧ s.pairWorks ∧ fieldOf v 31 16 = 0x5EE9 ∧ bitOf v.toNat 0 ∧ (s.reg .pwrWake).toNat ≠ 0 ∧
      s.power.sleepReq.isNone then
    s.setPower { s.power with sleepReq := some t }
  else s

/-- What keeps Sleep from being entered (R519). -/
def sleepBlocked (s : State) : Bool :=
  s.bit .sysSpareStat 23 || decide (s.fld .sysSpareStat 22 20 ≠ 0) || inBoot s || s.bit .barStat 4 || s.bit .barStat 8 ||
    s.bit .rkpCst 7 0 || s.bit .rkpCst 7 1 || s.bit .rkpCst 7 2

/-- Whether Sleep is entered at a tick in cycle t. -/
def sleepDue (s : State) (t : Nat) : Bool :=
  (match s.power.sleepReq with | some c => decide (c < t) | none => false) && !sleepBlocked s

/-- Sleep is entered in cycle t (R518): counts stop, the ring and the link fall silent, Crema is switched off. -/
def sleepEnter (s : State) (t : Nat) : State :=
  let s := linkDown (crmCutAll (rebaseChans (settleChans (holdover s t) t) (t + 1) (t + 1)) t) 1 t
  s.setPower { s.power with sleepReq := none, asleep := some t }

/-- The first cycle after the clocks restart (R240): latched edges give their events, and level sources are sampled. -/
def latchesGive (s : State) (t : Nat) : State :=
  presentAll ((s.srcs.filter fun e => e.2.latch).foldl (fun s e =>
    let s := s.setSrc e.1 { s.src e.1 with latch := false }
    if srcIsLevel s e.1 then (if srcPending s e.1 then mirror s e.1 else s)
    else
      let s := srcEvent s e.1 t
      s.setSrc e.1 { s.src e.1 with latchAt := some t }) s) t

/-- The cycles that cores, pairs and sources hold go on `d` cycles later: what stopped resumes where it stopped (R520). -/
def shiftSleep (s : State) (d : Nat) : State :=
  let f (x : Nat) : Nat := x + d
  { s with
    cores := s.cores.map (moveCore f), baristas := s.baristas.map (moveCore f)
    srcs := s.srcs.map fun e => (e.1, { e.2 with span := e.2.span.map fun x => (f x.1, f x.2), fall := e.2.fall.map f })
    privSpan := s.privSpan.map fun e => (e.1, f e.2)
    deferred := s.deferred.map fun x => { x with at' := x.at'.map f }
    shadowQ := s.shadowQ.map fun e => (e.1, e.2.1, e.2.2.1, f e.2.2.2)
    queues := s.queues.map fun e => (e.1, { e.2 with clearAt := e.2.clearAt.map f })
    pairs := { s.pairs with
      faultAt := s.pairs.faultAt.map fun x => (f x.1, x.2), wdogAt := s.pairs.wdogAt.map f, restoreAt := s.pairs.restoreAt.map f } }

/-- The clocks restart in cycle t (R520): the first tick lies at least P cycles later, and the watchdog goes on where it was
frozen. -/
def wakeUp (s : State) (t e : Nat) : State :=
  let s := (writtenChans s).foldl (fun s n => s.setChan n { s.chan n with base := t - 1 }) s
  let s := shiftSleep s (t - (e + 1))
  let s := { s.setPower { s.power with asleep := none } with tickMin := some (t + s.pourLen) }
  let s := [0, 1, 2, 3].foldl (fun s p => if portState s p = 0 ∨ portState s p = 5 then s else setPortState s p 2 t) s
  pulse (latchesGive s t) 712 t

/-- WAKE_EVENT of the source that bit b of PWR_WAKE enables, in cycle t (R517, R519, R520). -/
def wakeEvent (s : State) (b t : Nat) : State :=
  if 12 ≤ b ∨ !s.bit .pwrWake b then s
  else match s.power.asleep with
    | some e => wakeUp s t e
    | none => s.setPower { s.power with sleepReq := none }

/-! ### Reference clocks (R522) -/

/-- A flag of PWR_STAT is set or cleared, and its source pulses. -/
def refFlag (s : State) (bit src : Nat) (v : Bool) (t : Nat) : State :=
  if s.bit .pwrStat bit = v then s else pulse (s.setBit .pwrStat bit v) src t

/-! ### Temperature (R525) -/

/-- A signed 10-bit temperature field in units of 0.25 °C. -/
def tempOf (n : Nat) : Int := (BitVec.ofNat 10 n).toInt

/-- TEMPERATURE_UPDATE. -/
def temperature (s : State) (tmain tana t : Nat) : State :=
  let s := (s.setFld .pwrTemp 25 16 tmain).setFld .pwrTemp 9 0 tana
  let m := tempOf (tmain % 1024)
  if 420 ≤ m then refFlag s 21 709 true t
  else if m < 400 then refFlag s 21 709 false t
  else s

def tmain (s : State) : Int := tempOf (s.fld .pwrTemp 25 16)

/-- THERMAL_SHUTDOWN: tmain has stayed at or above 120 °C for 1 ms. -/
def thermalShutdown (s : State) : State :=
  if 480 ≤ tmain s then
    let s := railsOff s 2
    s.setPower { s.power with shutdown := true }
  else s

/-- THERMAL_RESTART: the rails may come up again. -/
def thermalRestart (s : State) : State :=
  if tmain s < 400 then s.setPower { s.power with shutdown := false } else s

/-- PWR_STAT.alert (NALERT low). -/
def alertOn (s : State) : Bool :=
  s.bit .pwrLf 0 || s.bit .pwrStat 22 || s.bit .pwrStat 21 || s.bit .pwrStat 20 || s.bit .pwrStat 19 ||
    (s.bit .barStat 2 && s.bit .barStat 3)

end Sys2Proof.Machine
end

