-- ==== Sys2Proof/Machine/Access.lean ====
section
/-! DEFINITION. The control bus and the physical space: register reads and writes (R7 to R17, R439, R440, R542), the Barista's
windows (R414), the host's BAR0 and BAR2 (R491 to R496), JTAG (R459) and the external port (R185). -/

namespace Sys2Proof.Machine

/-! ### The tamp (R437 to R441) -/

/-- Cores 0 to 63 leave core reset and wait for the first tick in supervisor mode (R437, R438). -/
def releaseCores (s : State) (t : Nat) : State :=
  let s := { s with
    cores := s.cores.mapIdx fun p c => if p < 64 then { c with phase := .waiting, user := false } else c
    tickMin := some (t + (withPourCfg s).pourLen) }
  setTickSource s 0

/-- The tamp in cycle t: the loader's write of 1 to SYS_TAMP (R437, R439, R441). -/
def tampNow (s : State) (t : Nat) : State :=
  let warm := s.boot.warm
  let s := (s.setBit .sysTamp 0 true).setBit .barStat 7 false
  let s := if s.tickMin.isNone then releaseCores s t else s
  let s := s.setBoot { s.boot with stage := .done, warm := false, warmAt := none, staged := [], due := s.boot.staged }
  let a := s.activePair
  let s := startFirmware s a t
  let s := if s.bit .barStat 1 then startFirmware s (1 - a) t else s
  if warm then s.setPairs { s.pairs with wdogAt := some t } else s

/-! ### Reads of registers -/

/-- Core p as a control-bus register shows it. -/
def coreAt (s : State) (p : Nat) : Core := s.core (.eduno p)

/-- The epoch and generations of a pair (RKP_EPOCHr, RKP_GENr). -/
def genWord (s : State) (r : Nat) : W32 :=
  let k := s.rkeys r
  BitVec.ofNat 32 ((match k.cur with | some e => e.gen % 65536 | none => 0) * 2 ^ 16 +
    (match k.gens with | g :: _ => g.1 % 65536 | [] => 0))

/-- RKP_STAT with the bits that the keep's keys show. -/
def rkpStatus (s : State) : W32 :=
  let k0 := s.rkeys 0
  let k1 := s.rkeys 1
  let w := withField (s.reg .rkpStat) 3 3 (ofBool !k0.gens.isEmpty)
  let w := withField w 4 4 (ofBool !k1.gens.isEmpty)
  withField (withField w 5 5 (ofBool k0.next.isSome)) 6 6 (ofBool k1.next.isSome)

/-- CORE_ASTAT as a read of cycle t returns it (R82): what operations set in the cycle itself is not yet there (R9). -/
def astatView (c : Core) (t : Nat) : BitVec 6 :=
  (deliverAll false (fun f => decide (f.due < c.bcount ∨ (f.due = c.bcount ∧ c.issuedAt ≠ t))) c).astat

/-- A bus write of TSBR in cycle t: the entry or the exit that updates it in the same cycle wins (R228, R230). -/
def tsbrWrite (c : Core) (v : W32) (t : Nat) : Core := if c.tsbrAt = some t then c else { c with tsbr := v }

/-- The value in effect of a register in cycle t, with no side effect (R542). -/
def regView (s : State) (n : RegName) (i j t : Nat) : W32 :=
  match n with
  | .orlPend => pendWord s i
  | .orlBclaim => (barClaim s t).1
  | .orlHold => BitVec.ofNat 32 (levelAt (coreAt s i) t * 2 ^ 8 + ofBool (coreAt s i).hold)
  | .tmrPinIn => pinIn s t
  | .tmrPourStat => withField (s.reg .tmrPourStat) 23 8 (s.pourAt t)
  | .tmrCapLo => BitVec.ofNat 32 (s.capt i).vals.v
  | .tmrCmpl => BitVec.ofNat 32 (s.chan i).cmp
  | .tmrCmph => BitVec.ofNat 32 ((s.chan i).cmp / 2 ^ 32)
  | .tmrPcmpl => BitVec.ofNat 32 (s.chan (128 + i)).cmp
  | .tmrPcmph => BitVec.ofNat 32 ((s.chan (128 + i)).cmp / 2 ^ 32)
  | .tmrCtl => chanCtl (settleChan s i t) i
  | .tmrStat => chanStat (settleChan s i t) i
  | .tmrPctl => chanCtl (settleChan s (128 + i) t) (128 + i)
  | .tmrPstat => chanStat (settleChan s (128 + i) t) (128 + i)
  | .coreAstat => (astatView (coreAt s i) t).setWidth 32
  | .coreTsbr => (coreAt s i).tsbr
  | .coreRstat => BitVec.ofNat 32 ((coreAt s i).rstack.length + 128 * ofBool (coreAt s i).rsOvf)
  | .barTsbr => (s.core (.barista s.activePair)).tsbr
  | .rkpStat => rkpStatus s
  | .rkpEpoch => BitVec.ofNat 32 (curEpoch s i)
  | .rkpGen => genWord s i
  | .pwrStat => withField (s.reg .pwrStat) 23 23 (ofBool (alertOn s))
  | _ => s.reg n i j

/-- Bits of a register with one of some access codes. -/
def accMask (n : RegName) (f : Acc → Bool) : Nat :=
  (regRow n).fields.foldl (fun a x => if f x.acc then a + (2 ^ (x.hi + 1 - x.lo) - 1) * 2 ^ x.lo else a) 0

/-- A read of a register in cycle t with its side effects (R8, R9, R248, R272). -/
def regRead (s : State) (n : RegName) (i j t : Nat) : W32 × State :=
  match n with
  | .orlBclaim => barClaim s t
  | .tmrCapLo => captRead s i t
  | _ =>
    let v := regView s n i j t
    let rc := accMask n fun a => a == .rc
    if rc = 0 then (v, s) else
      -- what the cycle itself counted stays, and the read returns the value held before the cycle (R9)
      let old := (s.regOld t n i j).toNat &&& rc
      let rest := v.toNat - (v.toNat &&& rc)
      (BitVec.ofNat 32 (rest + old), (s.setReg n (BitVec.ofNat 32 (rest + ((v.toNat &&& rc) - old))) i j).setNote t (regOff n i j) 0)

/-- A read at an offset of the region, after the falling edges of its cycle (R237): an offset that no register occupies reads 0
(R14, R533). `side` is false for JTAG and
for what R493 makes free of side effects. -/
def busRead (s : State) (side : Bool) (off t : Nat) : W32 × State :=
  let s := settleFalls s t
  match lookupReg off with
  | none => (0, s)
  | some (n, i, j) => if side then regRead s n i j t else (regView s n i j t, s)

/-! ### Writes of registers -/

/-- SYS_RSVD_STICKY.initiator. -/
def iniCode : Ini → Nat
  | .barista => 0
  | .host => 1
  | .jtag => 3

/-- A reserved access is recorded (R15, R16). -/
def rsvdRecord (s : State) (i : Ini) (off t : Nat) : State :=
  if s.bit .sysRsvdSticky 0 then s.raise t .sysRsvdSticky 2
  else ((s.setReg .sysRsvdAddr (BitVec.ofNat 32 (off / 4 * 4))).setFld .sysRsvdSticky 3 2 (iniCode i)).raise t .sysRsvdSticky 1

/-- A tamp violation is recorded and raises source 4 (R440). -/
def tampViolation (s : State) (i : Ini) (off t : Nat) : State :=
  let s := if s.bit .sysTampViol 0 then s.raise t .sysTampViol 3
    else ((s.setFld .sysTampViol 31 8 (off / 4)).setFld .sysTampViol 3 2 (iniCode i)).raise t .sysTampViol 1
  pulse s 4 t

/-- Whether a field takes a value as it is, not being reserved (R13). -/
def fieldLegal (f : Field) (v : Nat) : Bool := f.legal.isEmpty || f.legal.any fun r => decide (r.1 ≤ v ∧ v ≤ r.2)

/-- A word in which a value is reserved through another field's: the index of TMR_SNAP_CMD, by its kind (R256). -/
def wordLegal (n : RegName) (v : Nat) : Bool :=
  match n, bitsOf v 8 2 with
  | .tmrSnapCmd, 1 => decide (v % 256 < 128)
  | .tmrSnapCmd, 2 => decide (v % 256 < 136)
  | _, _ => true

/-- A word with such a value replaced by the field's reset value (R13). -/
def legalWord (n : RegName) (v : Nat) : Nat := if wordLegal n v then v else v - v % 256

/-- Whether an initiator may write RWB fields (R439): the loader before the tamp; the pour configuration also not after the
first tick (R43). -/
def rwbOpen (s : State) (i : Ini) (n : RegName) : Bool :=
  i == .barista && inBoot s && !s.tamped && !(n == .tmrPourCfg && s.lastTick.isSome)

/-- What a written word makes of a register (R8, R12, R13, R439): the word with the fields that take it, the word its RWB
fields would take, whether the access is recorded, and whether it is a violation. -/
structure Plan where
  word : Nat
  rwb : Nat
  rsvd : Bool
  viol : Bool
  deriving DecidableEq, Repr

/-- The bits of a field cleared and set to a value. -/
def putField (w hi lo v : Nat) : Nat := w - bitsOf w lo (hi + 1 - lo) * 2 ^ lo + (v % 2 ^ (hi + 1 - lo)) * 2 ^ lo

/-- Fields that single registers of an array make read-only: the sense of shared sources 0 to 63 and 768 to 1023, and both
fields of coalescing profile 0. -/
def fixedField (n : RegName) (i : Nat) (f : Field) : Bool :=
  (n == .orlCfg && decide (f.lo = 0 ∧ (i < 64 ∨ 768 ≤ i))) || (n == .orlCoal && i == 0)

/-- One field of a written word. `old` is the word in effect, `hw` the bits that hardware set in this cycle (R9). After the tamp a write
of 0 to SYS_TAMP.tamped is ignored without being a violation (log entry 82). -/
def planField (old v hw : Nat) (isOpen tamp : Bool) (p : Plan) (f : Field) : Plan :=
  let len := f.hi + 1 - f.lo
  let w := bitsOf v f.lo len
  let ok := fieldLegal f w
  let w' := if ok then w else f.rst
  let cur := bitsOf old f.lo len
  match f.acc with
  | .ro | .rc => p
  | .rw => { p with word := putField p.word f.hi f.lo w', rsvd := p.rsvd || !ok }
  | .wo => { p with word := putField p.word f.hi f.lo 0, rsvd := p.rsvd || !ok }
  | .w1c => { p with word := putField p.word f.hi f.lo ((cur - (cur &&& w)) ||| (cur &&& bitsOf hw f.lo len)) }
  | .rwb =>
    if isOpen then { p with rwb := putField p.rwb f.hi f.lo w', rsvd := p.rsvd || !ok }
    else { p with viol := p.viol || (decide (w' ≠ cur) && !(tamp && decide (w' = 0))) }

/-- The bits of a word that lie in fields of a register: the others are reserved (R12). -/
def fieldBits (n : RegName) (v : Nat) : Nat :=
  (regRow n).fields.foldl (fun a f => a + bitsOf v f.lo (f.hi + 1 - f.lo) * 2 ^ f.lo) 0

/-- The plan of a write of `v` to register n of index i. Bits [31:4] of SYS_CFAIL2 are reserved (R469). A write of a field whose rule does
not state otherwise records its reserved bits as R15 says, TMR_POUR_CFG after the first tick among them (log entry 81). -/
def planWrite (n : RegName) (i old v hw : Nat) (isOpen : Bool) : Plan :=
  ((regRow n).fields.filter fun f => !fixedField n i f).foldl (planField old v hw isOpen (n == .sysTamp))
    { word := old, rwb := old, rsvd := decide (fieldBits n v ≠ v % 2 ^ 32) || !wordLegal n v || (n == .sysCfail && i == 2 && decide (16 ≤ v)), viol := false }

/-- Whether a written word has a reserved bit set or a reserved value in a field of register n (R12, R13). -/
def reservedIn (n : RegName) (i v : Nat) : Bool := (planWrite n i 0 v 0 false).rsvd

/-- The word that RWB fields of `rwb` and the other fields of `word` make. -/
def mergeRwb (n : RegName) (word rwb : Nat) : W32 :=
  let m := accMask n fun a => a == .rwb
  BitVec.ofNat 32 ((word - (word &&& m)) ||| (rwb &&& m))

/-- A written word with its reserved bits 0 and its reserved values replaced (R12, R13). -/
def cleanWord (n : RegName) (v0 : Nat) : W32 :=
  let v := legalWord n v0
  BitVec.ofNat 32 ((regRow n).fields.foldl (fun a f =>
    let w := bitsOf v f.lo (f.hi + 1 - f.lo)
    a + (if fieldLegal f w then w else f.rst) * 2 ^ f.lo) 0)

/-- A write that waits for the next tick or for cycle c. -/
def deferWrite (s : State) (n : RegName) (i : Nat) (v : W32) (t : Nat) (at' : Option Nat) : State :=
  { s with deferred := s.deferred ++ [⟨regOff n i 0, v, t, at'⟩] }

/-- ZWR_PTPE_HI: both halves of E48 take effect together (R342). -/
def ptpeHigh (s : State) (v : W32) : State := (s.setReg .zwrPtpeHi v).setReg .zwrPtpeLo s.ring.e48lo

/-- The register and its side effects take a written word `v` (reserved values replaced); `w` is the word the register holds
from then on under the access codes of its fields. -/
def regStore (s : State) (ini : Ini) (n : RegName) (i j : Nat) (v w : W32) (t : Nat) : State :=
  match n with
  | .sysTamp => if bitOf w.toNat 0 && !s.tamped then tampNow s t else s
  | .sysSpareCmd => spareWrite s ini v t
  | .sysShed => deferWrite s n i w t none
  | .orlMask => presentAll (s.setReg n w i) t
  | .orlPend => pendWrite s i v t
  | .orlInsvc => insvcWrite s i v t
  | .orlCfg => presentAll (s.setReg n w i) t
  | .orlPmask | .orlPpria | .orlPprib | .orlPpric => presentCore (s.setReg n w i) (.eduno i) t
  | .orlPpend => privPendWrite s i v t
  | .orlPinsvc => privInsvcWrite s i v t
  | .orlHold => if (coreAt s i).holdAt = some t then s
      else presentCore (s.setCore (.eduno i) { coreAt s i with hold := bitOf v.toNat 0 }) (.eduno i) t
  | .tmrSnapCmd => snapshot s (iniNum ini) (fieldOf v 9 8) (fieldOf v 7 0) t
  | .tmrGstart => startGroups s v t
  | .tmrPinOut => writePinOut s v t
  | .tmrPinDir => setPins s (s.reg .tmrPinOut) v t
  | .tmrPourCfg => deferWrite s n i w t none
  | .tmrCtl => ctlWrite s i v t
  | .tmrCmpl => stageCompare s i v
  | .tmrCmph => commitCompare s i v t
  | .tmrPctl => ctlWrite s (128 + i) v t
  | .tmrPcmpl => stageCompare s (128 + i) v
  | .tmrPcmph => commitCompare s (128 + i) v t
  | .runIop => if bitOf v.toNat 31 then initReceive s i (fieldOf v 15 0) else initSend s i (fieldOf v 15 0) t
  | .carFlipCmd => flipRequest s v t
  | .carPlaceCmd => placeRequest s v t
  | .zwrCfg => [0, 1, 2, 3].foldl (fun s p => configPort s p t) (s.setReg n w)
  | .zwrCtxCmd => controlTransmit s v t
  | .zwrPtpeLo => { s with ring := { s.ring with e48lo := v } }
  | .zwrPtpeHi => ptpeHigh s v
  | .crmCmd => crmCommand s (fieldOf v 31 28) (fieldOf v 10 8) (fieldOf v 4 0) t
  | .crmWbVf => s.setReg n (if s.hwBits t (regOff n i 0) = 0 then w else withField w 15 0 (s.fld n 15 0 i)) i
  | .runIdl | .runIdh => if s.hwBits t (regOff n i 0) = 0 then s.setReg n w i else s
  | .tmrGrpCfg => s.setReg n (if kget s.grpAt (8 + i) = some t then 0 else w) i
  | .aptPortCfg => deferWrite s n i w t none
  | .barWdogSvc => wdogService s ini v t
  | .barWarm => warmWrite s ini v t
  | .barBootCmd => markWrite s ini v
  | .barCmd => restoreWrite s ini v t
  | .barTsbr => s.setCore (.barista s.activePair) (tsbrWrite (s.core (.barista s.activePair)) v t)
  | .rkpCmd => keepStart s i (fieldOf v 31 24) (fieldOf v 15 0) t
  | .pcxMsixFire => msixFire s ini v
  | .pcxHrCfg => hrConfig s i w t
  | .pcxHrPi => hrIndex s i true v t
  | .pcxHrCi => hrIndex s i false v t
  | .pwrSleep => sleepWrite s ini v t
  | .hltCntCfg => deferWrite s n i w t none
  | .coreAstat => s.setCore (.eduno i) (clearAstat (coreAt s i) (v.setWidth 6) t)
  | .coreRstat => if bitOf v.toNat 7 ∧ (coreAt s i).ovfAt ≠ some t then s.setCore (.eduno i) { coreAt s i with rsOvf := false } else s
  | .coreTsbr => s.setCore (.eduno i) (tsbrWrite (coreAt s i) v t)
  | .coreCfg => deferWrite s n i w t (if (s.lcoreOf i).isSome then none else some (t + 4))
  | _ => s.setReg n w i j

/-- Whether a takeover holds the CORE block that an offset lies in (R473). -/
def blockHeld (s : State) (off : Nat) : Bool :=
  decide (0x400000 ≤ off ∧ off < 0x400000 + 0x440000) && coreHeld s (off / 0x10000 - 64)

/-- A staged RWB write of a warm reboot's loader (R441). -/
def stageWrite (s : State) (n : RegName) (i j rwb : Nat) : State :=
  s.setBoot { s.boot with staged := kput s.boot.staged (regOff n i j) (BitVec.ofNat 32 rwb) }

/-- Whether RWB writes are staged: in a warm reboot, but for the tamp itself (R441). -/
def staging (s : State) (n : RegName) : Bool := s.boot.warm && inBoot s && n != .sysTamp

/-- A 32-bit write at an offset of the region in cycle t (R8 to R17, R439, R440, R473). -/
def busWrite (s : State) (ini : Ini) (off : Nat) (v : W32) (t : Nat) : State :=
  if blockHeld s off then s.raise t .sysSpareStat 0x10000
  else match lookupReg off with
    | none => rsvdRecord s ini off t
    | some (n, i, j) =>
      let old := (regView s n i j t).toNat
      let base := if staging s n then ((kget s.boot.staged off).getD (BitVec.ofNat 32 old)).toNat else old
      let p := planWrite n i old v.toNat (s.hwBits t off) (rwbOpen s ini n)
      let rwb := (mergeRwb n base p.rwb).toNat
      let s := s.noteReg t off (s.reg n i j)
      let s := if p.rsvd && n != .sysRsvdSticky then rsvdRecord s ini off t else s
      let s := if p.viol then tampViolation s ini off t else s
      let s := if rwbOpen s ini n && staging s n && decide (p.rwb ≠ old) then
          regStore (stageWrite s n i j rwb) ini n i j (cleanWord n v.toNat) (BitVec.ofNat 32 p.word) t
        else regStore s ini n i j (cleanWord n v.toNat) (mergeRwb n p.word p.rwb) t
      -- a recorded access that clears `set` in the same cycle wins (R17)
      if p.rsvd && n == .sysRsvdSticky then rsvdRecord s ini off t else s

/-! ### Descriptors and the stream table (R273, R278, R341) -/

/-- A write of a word of the stream table: boot code before the tamp, while the entry is not enabled (R341). -/
def streamWrite (s : State) (i : Ini) (a : Nat) (v : W32) (t : Nat) : State :=
  let k := a % 0x8000 / 32
  if i = .barista ∧ bootOpen s ∧ !strEn s k then { s with mem := memWrite s.mem a (toBytesLE 4 v.toNat) } else runErr s t k 6

/-- A word write in the descriptor region or the stream table. -/
def tableWrite (s : State) (i : Ini) (a : Nat) (v : W32) (t : Nat) : State :=
  if a < streamBase then descWrite s i (decide (debugLevel s = 2)) (a % 0x200000 / 32) (a % 32) v t
  else streamWrite s i a v t

/-! ### The physical space -/

/-- Whether an access of n bytes at a physical address completes without an error response (R7, R273, R531). -/
def physOk (a n : Nat) (jtag : Bool) : Bool :=
  match rangeRegion a n with
  | .reserved => false
  | .regs | .qdesc | .stream => decide (n = 4 ∧ a % 4 = 0)
  | .sram => jtag
  | _ => true

/-- A read of the physical space: the bytes and whether an uncorrectable error was met. -/
def physLoad (s : State) (i : Ini) (t a n : Nat) : List Byte × Bool × State :=
  let w := match i with | .barista => MemWho.barista | .host => .host | .jtag => .jtag
  match regionOf a with
  | .regs => let r := busRead s (decide (i ≠ .jtag)) (a % 0x2000000) t; (toBytesLE 4 r.1.toNat, false, r.2)
  | .core => extRead s t w a n
  | .qdesc | .stream | .reserved => (memRead s.mem a n, false, s)
  | _ => readPhys s t w a n

/-- A write of the physical space: whether a partly written unit met an uncorrectable error (R538, R540). -/
def physStore (s : State) (i : Ini) (t a : Nat) (bs : List Byte) : Bool × State :=
  let w := match i with | .barista => MemWho.barista | .host => .host | .jtag => .jtag
  match regionOf a with
  | .regs => (false, busWrite s i (a % 0x2000000) (BitVec.ofNat 32 (ofBytesLE bs)) t)
  | .qdesc | .stream => (false, tableWrite s i a (BitVec.ofNat 32 (ofBytesLE bs)) t)
  | .core => extWrite s t w a bs
  | .reserved => (false, s)
  | _ => writePhys s t w a bs

/-! ### The Barista's windows (R414) -/

/-- Whether an access through a Barista window completes without an error response. -/
def winOk (a n : Nat) : Bool := physOk a n false

/-- A load through a window. -/
def winLoad (s : State) (t a n : Nat) : List Byte × Bool × State := physLoad s .barista t a n

/-- A store through a window. -/
def winStore (s : State) (t a : Nat) (bs : List Byte) : State := (physStore s .barista t a bs).2

/-! ### The external port (R185, R538) -/

/-- EXTERNAL_PORT_ACCESS at an offset of core p's stride, by the Barista or JTAG: a write of bytes, or a read of n.
The host never reaches it (R531). -/
def externalAccess (s : State) (i : Ini) (p off n : Nat) (bs : Option (List Byte)) (t : Nat) : State :=
  if i = .host then s else
  let a := coreBase + 0x100000 * (p % 68) + off % 0x100000
  let full := match i with | .jtag => decide (debugLevel s = 2) | _ => true
  let see := match i with | .jtag => decide (1 ≤ debugLevel s) | _ => true
  match bs with
  | some bs => if !full ∨ regionOf (a + bs.length - 1) ≠ .core then s.answer i [] true
      else let r := physStore s i t a bs; r.2.answer i [] r.1
  | none => if !see ∨ regionOf (a + n - 1) ≠ .core then s.answer i [] true
      else let r := physLoad s i t a n; r.2.2.answer i r.1 r.2.1

/-! ### JTAG (R459, R531, R542) -/

/-- Registers of the keep's command set 2, which JTAG reaches at every level (R460, R461; log entry 35). -/
def jtagKeep (a : Nat) : Bool := decide (regBase + 0x90140 ≤ a ∧ a < regBase + 0x90158)

/-- A JTAG access. -/
def jtagAccess (s : State) (op : JtagOp) (t : Nat) : State :=
  let lvl := debugLevel s
  match op with
  | .idcode => s.answer .jtag (toBytesLE 4 0x1816414B) false
  | .read a n =>
    if (lvl = 0 ∧ !jtagKeep a) ∨ !physOk a n true then s.answer .jtag [] true
    else let r := physLoad s .jtag t a n; r.2.2.answer .jtag r.1 r.2.1
  | .write a bs =>
    if (lvl ≠ 2 ∧ !jtagKeep a) ∨ !physOk a bs.length true then s.answer .jtag [] true
    else let r := physStore s .jtag t a bs; r.2.answer .jtag [] r.1
  | .halt w v => if lvl = 2 ∧ selValid w then s.setCore w { s.core w with halted := v } else s.answer .jtag [] true

/-! ### BAR0 (R489 to R493, R502, R503) -/

/-- Whether a BAR request is served at all; `ide` tells whether it came in the IDE stream. -/
def barServed (s : State) (ide : Bool) : Bool :=
  hostOpen s && !inD3 s && (ide || !s.bit .pcxLcfg 4)

/-- Registers of the keep's command set 1. -/
def keepSet1 (off : Nat) : Bool := decide (0x90120 ≤ off ∧ off < 0x90138)

/-- Whether PCX_H0WM lets the host write the block of an offset (R492). -/
def hostBlock (s : State) (off : Nat) : Bool := s.bit .pcxH0wm (off / 0x10000 % 32) (off / 0x10000 / 32)

/-- Registers writable whatever the mask holds (R492). -/
def hostAlways (off : Nat) : Bool :=
  decide (0x90120 ≤ off ∧ off < 0x90134) || decide (0x30110 ≤ off ∧ off < 0x3011C) || off == 0x20000 || off == 0xA0010 ||
    decide (0xA0400 ≤ off ∧ off < 0xA0600)

/-- A refused access of the host (R492, R494, R504): bit 0 a BAR0 write, bit 1 a BAR2 request. -/
def hostRefused (s : State) (b2 : Bool) (off t : Nat) : State :=
  let s := if s.reg .pcxGstat = 0 then s.setReg .pcxGaddr (BitVec.ofNat 32 off) else s
  pulse (s.raise t .pcxGstat (if b2 then 2 else 1)) 581 t

/-- Whether a BAR0 offset lies in the MSI-X table or pending-bit array. -/
def inMsix (off : Nat) : Bool := decide (0x3000000 ≤ off ∧ off < 0x3008100)

/-- A dword of the MSI-X table or pending-bit array. -/
def msixRead (s : State) (off : Nat) : Nat :=
  let d := off % 0x1000000 / 4
  if d < 8192 then msixWord s (d / 4) (d % 4) else msixPba s (d - 8192)

/-- BAR0_READ of n bytes, with all byte enables set or not (R491, R493). -/
def bar0Read (s : State) (off n : Nat) (be ide : Bool) (t : Nat) : State :=
  if !linkIsUp s then s
  else if !barServed s ide ∨ (s.boot.stage = .recovery ∧ !keepSet1 off) then complete s .unsupported []
  else if inMsix off then complete s .success (toBytesLE 4 (msixRead s off))
  else if n ≠ 4 ∨ off % 4 ≠ 0 ∨ !be then aerLog (complete s .abort []) 1 t
  else if off < 0x2000000 then
    let r := busRead s (hostBlock s off) off t
    complete r.2 .success (toBytesLE 4 r.1.toNat)
  else if off < 0x2200000 then complete s .success (memRead s.mem (qdBase + off % 0x200000) 4)
  else if off < 0x2208000 then complete s .success (memRead s.mem (streamBase + off % 0x8000) 4)
  else complete s .success (toBytesLE 4 0)

/-- BAR0_WRITE of some bytes (R491, R492). -/
def bar0Write (s : State) (off : Nat) (bs : List Byte) (be ide : Bool) (t : Nat) : State :=
  let v : W32 := BitVec.ofNat 32 (ofBytesLE bs)
  if !linkIsUp s ∨ !barServed s ide ∨ (s.boot.stage = .recovery ∧ !keepSet1 off) then s
  else if inMsix off then
    (if off < 0x3008000 then msixWrite s (off % 0x1000000 / 16) (off / 4 % 4) v.toNat else s)
  else if bs.length ≠ 4 ∨ off % 4 ≠ 0 ∨ !be then aerLog s 3 t
  else if off < 0x2000000 then
    (if hostBlock s off || hostAlways off then busWrite s .host off v t else hostRefused s false off t)
  else if off < 0x2200000 then tableWrite s .host (qdBase + off % 0x200000) v t
  else s

/-! ### BAR2 (R494, R496) -/

/-- The physical address that an allowed BAR2 request of n bytes reaches. -/
def bar2Target (s : State) (o n : Nat) (write : Bool) : Option Nat :=
  let a := o / 0x20000000
  let r := o % 0x20000000
  if a < 16 ∧ r + n ≤ 0x20000000 ∧ s.bit .pcxApCtl 0 a ∧ r + n ≤ 0x100000 * s.fld .pcxApCtl 25 16 a ∧
      s.bit .pcxApCtl (if write then 1 else 2) a then
    some (0x100000 * s.fld .pcxApBase 27 0 a + r)
  else none

/-- BAR2_READ. -/
def bar2Read (s : State) (o n : Nat) (ide : Bool) (t : Nat) : State :=
  if !linkIsUp s then s
  else if !barServed s ide ∨ s.boot.stage = .recovery then complete s .unsupported []
  else match bar2Target s o n false with
    | none => complete (hostRefused s true o t) .unsupported []
    | some a =>
      let r := physLoad s .host t a n
      complete r.2.2 (if r.2.1 then .poisoned else .success) r.1

/-- BAR2_WRITE. -/
def bar2Write (s : State) (o : Nat) (bs : List Byte) (ide : Bool) (t : Nat) : State :=
  if !linkIsUp s ∨ !barServed s ide ∨ s.boot.stage = .recovery then s
  else match bar2Target s o bs.length true with
    | none => aerLog (hostRefused s true o t) 3 t
    | some a => (physStore s .host t a bs).2

end Sys2Proof.Machine
end

