-- ==== Sys2Proof/Machine/Checks.lean ====
section
/-! DEFINITION. The loader checks (R436): R36, R46, R47, R56, R243, R298, R316, R319, R325, R334, R340, R348, R355, R358, R397,
R478, R495 and R541. -/

namespace Sys2Proof.Machine

/-! ### Declarations (R436) -/

/-- Values declared under a kind: key and value. -/
def declared (s : State) (kind : Nat) : List (Nat × Nat) :=
  (s.boot.decls.filter fun d => decide (d.1 = kind)).map fun d => d.2

/-- The value declared under a kind and key. -/
def declaredFor (s : State) (kind key : Nat) : Option Nat :=
  ((declared s kind).find? fun d => decide (d.1 = key)).map fun d => d.2

/-- The segment plan of a pair: K, d, dmax and the sum of budgets, 16 bits each from bit 0 up (log entry 36). -/
def planOf (s : State) (r : Nat) : Option (Nat × Nat × Nat × Nat) :=
  (declaredFor s 4 r).map fun v => (bitsOf v 0 16, bitsOf v 16 16, bitsOf v 32 16, bitsOf v 48 16)

/-! ### Ranges -/

/-- Two ranges of physical addresses (first, bytes) share no byte. -/
def apart (a b : Nat × Nat) : Bool := decide (a.2 = 0 ∨ b.2 = 0 ∨ a.1 + a.2 ≤ b.1 ∨ b.1 + b.2 ≤ a.1)

/-- No two ranges of a list share a byte. -/
def allApart : List (Nat × Nat) → Bool
  | [] => true
  | a :: rest => rest.all (apart a) && allApart rest

/-- Whether a range lies wholly in the DRAM or wholly in the Carafe. -/
def inStore (a : Nat × Nat) : Bool :=
  match rangeRegion a.1 a.2 with
  | .dram | .carafe => true
  | _ => false

/-- Carafe partitions that grant stores (R206, R207). -/
def storeParts (s : State) : List (Nat × Nat) :=
  ((List.range 32).filter fun i => s.bit .carPartLim 0 i && decide (s.fld .carPartAcc 7 0 i ≠ 0)).map fun i =>
    (carBase + 4096 * s.fld .carPartBase 24 12 i,
      4096 * (s.fld .carPartLim 24 12 i + 1 - s.fld .carPartBase 24 12 i))

/-! ### Pours, tickets and loads (R46, R47, R56, R243, R397) -/

/-- No declared W exceeds P (R46). -/
def checkPours (s : State) : Bool := (declared s 1).all fun d => decide (d.2 ≤ s.pourLen)

/-- Shared sources that target a core. -/
def coreSources (s : State) : List Nat :=
  s.regs.filterMap fun e =>
    if 0x11000 ≤ e.1 ∧ e.1 < 0x12000 ∧ srcTarget s ((e.1 - 0x11000) / 4) < 64 then some ((e.1 - 0x11000) / 4) else none

/-- Deliveries of a shared source within P cycles (R47, R243): none where the configuration declares no number of events. -/
def deliveries (s : State) (n : Nat) : Option Nat :=
  let j := s.fld .orlCfg 17 14 n
  let most := if j = 0 then 1 else max 1 (s.fld .orlCoal 31 24 j)
  let time := if j = 0 then 0 else s.fld .orlCoal 15 0 j
  (declaredFor s 2 n).map fun e => (if time = 0 then 0 else ceilDiv s.pourLen (1536 * time)) + e / most

/-- Every source that targets a core has a bounded number of deliveries (R47, R243). The image's declared W contains them: the
device never computes W (R46). -/
def checkSources (s : State) : Bool := (coreSources s).all fun n => (deliveries s n).isSome

/-- Channels of a queue's blocks (R276). -/
def queueChans (s : State) (h : Nat) : Nat := qBsize s h / s.pourSize

/-- Delay stages in use. -/
def delayStages (s : State) : List Nat := (List.range 256).filter fun g => s.bit .aptDlyQ 31 g

/-- Address of the entry of channel j in the table of stage g (R393). -/
def delayEntry (s : State) (g j : Nat) : Nat := s.fld .aptDlyTab 28 0 g * 16 + 16 * j

/-- Delayed channels: stage and channel. -/
def delayedChans (s : State) : List (Nat × Nat) :=
  (delayStages s).flatMap fun g =>
    ((List.range (queueChans s (s.fld .aptDlyQ 15 0 g))).filter fun j => bitOf (memNat s.mem (delayEntry s g j + 8) 4) 31).map
      fun j => (g, j)

/-- Bytes per second that delay stages move (R397). -/
def delayTraffic (s : State) : Nat := (delayedChans s).length * 48000 * 2 ^ s.fld .tmrPourCfg 5 4 * 6

/-- No declared load exceeds 99 % (R56); the delay stages' traffic counts in that of the DRAM, path 3 from 0, at 136.5 GB/s
(R397; log entry 36). -/
def checkLoads (s : State) : Bool :=
  ((declared s 3).all fun d => decide (d.2 ≤ 9900)) &&
    decide ((declaredFor s 3 3).getD 0 * 136500000000 + delayTraffic s * 10000 ≤ 9900 * 136500000000)

/-- Tables and buffers of the delay stages. -/
def delayRanges (s : State) : List (Nat × Nat) :=
  (delayStages s).map (fun g => (delayEntry s g 0, 16 * queueChans s (s.fld .aptDlyQ 15 0 g))) ++
  (delayedChans s).map fun x =>
    (memNat s.mem (delayEntry s x.1 x.2) 4 % 2 ^ 30 * 8, 3 * (memNat s.mem (delayEntry s x.1 x.2 + 4) 4 % 2 ^ 20))

/-! ### Queues (R298, R478) -/

/-- The store of a queue. -/
def storeRange (s : State) (h : Nat) : Nat × Nat := (qStore s h, slotBytes s h * qCapacity s h)

def queueStores (s : State) : List (Nat × Nat) := (queueHandles s).map (storeRange s)

/-- Edges of the queue graph (R298). -/
def queueEdges (s : State) : List (Nat × Nat) :=
  ((queueHandles s).filter fun h => decide (qKind s h ≠ 2 ∧ qCount s h = 0)).map fun h => (qProducer s h, qConsumer s h)

/-- Edges whose consumer produces nothing are dropped, again and again: what is left lies on or leads to a cycle. -/
def pruneEdges : Nat → List (Nat × Nat) → List (Nat × Nat)
  | 0, l => l
  | n + 1, l => pruneEdges n (l.filter fun e => l.any fun x => decide (x.1 = e.2))

def acyclic (l : List (Nat × Nat)) : Bool := (pruneEdges l.length l).isEmpty

/-- Landing areas: consumer core, first address and bytes (R285, R292). -/
def landings (s : State) : List (Nat × Nat × Nat) :=
  ((queueHandles s).filter fun h => decide (qKind s h ≠ 0 ∧ epClass (qConsumer s h) = 0)).map fun h =>
    (epIndex (qConsumer s h), qLanding s h, 2 * slotBytes s h)

def checkLandings (s : State) : Bool :=
  let l := landings s
  (l.all fun x => decide (x.2.1 % 3 = 0 ∧ x.2.1 + x.2.2 ≤ 524286)) &&
    allApart (l.map fun x => (0x100000 * x.1 + x.2.1, x.2.2))

/-- Credits, quotas and primed counts of a queue (R298). -/
def checkQueue (s : State) (h : Nat) : Bool :=
  decide (qCredits s h ≤ qCapacity s h) &&
  (decide (qKind s h = 2 ∨ epClass (qConsumer s h) ≠ 0) || decide (1 ≤ qQuota s h ∧ qCredits s h ≤ qQuota s h)) &&
  (decide (qCount s h = 0) || decide (qCount s h + qCredits s h ≤ qCapacity s h)) &&
  inStore (storeRange s h) && (storeParts s).all (apart (storeRange s h)) &&
  (decide (epClass (qProducer s h) ≠ 0) || decide (qShed s h ≤ classOf s (epIndex (qProducer s h))))

def checkQueues (s : State) : Bool :=
  acyclic (queueEdges s) && (queueHandles s).all (checkQueue s) && (s.queues.all fun e => !e.2.bad) &&
    allApart (queueStores s) && checkLandings s

/-! ### Ring segments (R316, R319, R325, R334, R340): times in 1 ÷ 153,600 ns -/

/-- Periods of a ring cycle (R315). -/
def ringPeriods (s : State) : Nat := 100000 * s.pourLen / 81788928

/-- The ring delay that R319 gives pair r. -/
def ringDelayOf (s : State) (r : Nat) : Nat :=
  let p := 100000 * s.pourLen
  let hop := (180 + s.fld .zwrTrain 15 0 r) * 153600
  let a := headLag s r * p + 409600000 + (stationsOf s r - 1) * hop + 81788928 * groupsOf s r
  ceilDiv (a + 409600000) p

/-- The receive store of pair r (R319). -/
def rxStore (s : State) (r : Nat) : Nat × Nat :=
  (carBase + 4096 * s.fld .zwrRxstore 24 12 r, 1024 * ((ringDelay s r + 1) * groupsOf s r))

/-- The transmit store of pair r. -/
def txStore (s : State) (r : Nat) : Nat × Nat := (carBase + 4096 * s.fld .zwrTxstore 24 12 r, 2048 * (ownedGroups s r).length)

/-- Unreserved bytes per pour and direction (R325). -/
def unreservedBytes (s : State) (r : Nat) : Nat := (100000 * s.pourLen - 53477376 * groupsOf s r) / 49152

/-- A segment is accepted (R36, R316, R319, R325): the plan, and the owners and pour that the segment advertises, of which the
declarations hold nothing (log entry 36), are this image's. A gateway's two segments then have one rate and size. -/
def checkSegment (s : State) (r : Nat) : Bool :=
  !pairOn s r ||
    (match planOf s r with
     | none => false
     | some (k, d, dmax, sum) =>
       decide (groupsOf s r ≤ ringPeriods s) &&
       decide (groupsOf s r * groupChans s ≤ if s.fld .tmrPourCfg 5 4 = 2 then 2048 else 4096) &&
       decide (k = groupsOf s r ∧ d = ringDelay s r ∧ dmax = s.fld .zwrTrain 15 0 r) &&
       ((List.range (groupsOf s r)).all fun g => decide (groupOwner s r g = Config.segmentOwner r g)) &&
       decide (s.fld .tmrPourCfg 5 1 = Config.segmentPour r) &&
       decide (ringDelayOf s r ≤ 15 ∧ ringDelay s r = ringDelayOf s r) &&
       decide (rangeRegion (rxStore s r).1 (max 1 (rxStore s r).2) = .carafe) && (storeParts s).all (apart (rxStore s r)) &&
       decide (6400 * sum ≤ 99 * unreservedBytes s r))

/-- The realm plan (R334). -/
def checkRealm (s : State) : Bool := (declared s 5).all fun d => decide (d.2 ≤ 12)

/-- Edge mode needs whole samples per pour (R340). -/
def checkEdge (s : State) : Bool :=
  decide (s.fld .zwrCfg 5 4 = 0) || decide (s.pourSize % 2 ^ s.fld .tmrPourCfg 5 4 = 0)

/-! ### Delay stages, Crema, the fallback store (R348, R355, R358, R397, R541) -/

def checkDelays (s : State) : Bool :=
  (delayStages s).all (fun g => decide (qKind s (s.fld .aptDlyQ 15 0 g) = 2)) && allApart (delayRanges s) &&
    (delayRanges s).all fun a => (queueStores s).all (apart a)

/-- Crema channels in use. -/
def cremaChans (s : State) : List Nat := (List.range 32).filter fun c => s.bit .crmChCfg 31 c

/-- A list of targets without repeats. -/
def noRepeat : List Nat → Bool
  | [] => true
  | a :: rest => !rest.contains a && noRepeat rest

def checkCrema (s : State) : Bool :=
  (cremaChans s).all (fun c => decide (s.fld .crmChScale 31 16 c ≠ 0 ∧ s.fld .crmChScale 15 0 c ≠ 0)) &&
    noRepeat ((cremaChans s).map fun c => 8192 * s.fld .crmChCfg 29 29 c + s.fld .crmChCfg 12 0 c) &&
    (declared s 6).all fun d => decide (d.2 ≤ 1023)

def checkFallback (s : State) : Bool := decide (s.fld .aptFms 28 16 + s.fld .aptFms 8 0 ≤ 8192)

/-! ### Apertures (R495) -/

def apertures (s : State) : List Nat := (List.range 16).filter fun a => s.bit .pcxApCtl 0 a

def apertureRange (s : State) (a : Nat) : Nat × Nat :=
  (0x100000 * s.fld .pcxApBase 27 0 a, 0x100000 * s.fld .pcxApCtl 25 16 a)

/-- What a host-writable aperture must not overlap. -/
def guarded (s : State) : List (Nat × Nat) :=
  [(0x100000 * s.fld .aptFms 28 16, 0x100000 * s.fld .aptFms 8 0), (0x200000 * s.fld .barBcopy 11 0, 0x200000),
    (4096 * s.fld .rkpBlend 20 0, 0x10000)] ++ queueStores s ++ delayRanges s ++
  ([0, 1].filter (pairOn s)).flatMap (fun r => [rxStore s r, txStore s r]) ++
  (if s.bit .crmCtl 0 then (carBase + 4096 * s.fld .crmCtl 24 12, 0x4000) ::
    (List.range 8).map fun w => (carBase + 4096 * s.fld .crmWbArea 24 12 w, 0x2000) else [])

def checkApertures (s : State) : Bool :=
  (apertures s).all fun a =>
    let x := apertureRange s a
    (decide (x.2 = 0) || inStore x) && (!s.bit .pcxApCtl 1 a || (guarded s).all (apart x))

/-! ### All of them -/

/-- Every loader check (R436), with the pour configuration that the first tick will use. -/
def loaderChecks (s0 : State) : Bool :=
  let s := withPourCfg s0
  checkPours s && checkSources s && checkLoads s && checkQueues s && checkSegment s 0 && checkSegment s 1 && checkRealm s &&
    checkEdge s && checkDelays s && checkCrema s && checkFallback s && checkApertures s

end Sys2Proof.Machine
end

