-- ==== Sys2Proof/Machine/Boot.lean ====
section
/-! DEFINITION. Booting: the release of module reset, the choice of an image, its sections, the checks and the tamp, recovery,
and the end of a warm reboot (R429 to R442, R461, R480). -/

namespace Sys2Proof.Machine

/-! ### Images (R430, R431) -/

/-- A little-endian field of some bytes. -/
def leAt (bs : List Byte) (off n : Nat) : Nat := ofBytesLE ((bs.drop off).take n)

def sliceOf (bs : List Byte) (off n : Nat) : List Byte := (bs.drop off).take n

/-- An image header: image version, security version, manifest offset and length; none where magic or format differ. -/
def imgHeader (bs : List Byte) : Option (Nat × Nat × Nat × Nat) :=
  if bs.length < 256 ∨ leAt bs 0 4 ≠ 0x31464742 ∨ leAt bs 4 2 ≠ 1 then none
  else some (leAt bs 8 4, leAt bs 0xC 4, leAt bs 0x10 4, leAt bs 0x14 4)

/-- Section entry i of a manifest. -/
def sectionAt (m : List Byte) (i : Nat) : Section :=
  let e := m.drop (16 + 80 * i)
  { type := leAt e 0 1, warm := bitOf (leAt e 1 1) 0, off := leAt e 4 4, len := leAt e 8 4, dest := leAt e 0x10 8 % 2 ^ 48
    digest := sliceOf e 0x20 48 }

def sectionsOf (m : List Byte) : List Section := (List.range (leAt m 0 4)).map (sectionAt m)

/-- Types that the table of R431 lists, and those that may be warm. -/
def sectionLegal (x : Section) : Bool :=
  decide (1 ≤ x.type ∧ x.type ≤ 6) && (!x.warm || [1, 4, 5].contains x.type)

/-- Whether a manifest is whole, verifies, agrees with the versions and reaches the floor (R431, R446, R447). -/
def manifestOk (s : State) (m : List Byte) (ver sec : Nat) : Bool :=
  decide (1 ≤ leAt m 0 4 ∧ leAt m 0 4 ≤ 255 ∧ m.length = 16 + 80 * leAt m 0 4 + 96) &&
    decide (leAt m 4 4 = ver ∧ leAt m 8 4 = sec ∧ otpFloor s ≤ sec) && (verifySlot s m).isSome && (sectionsOf m).all sectionLegal

/-- The image of a flash device when header and manifest are sound: versions and manifest. -/
def soundImage (s : State) (bs : List Byte) : Option (Nat × Nat × List Byte) :=
  match imgHeader bs with
  | none => none
  | some (ver, sec, off, len) =>
    let m := sliceOf bs off len
    if manifestOk s m ver sec then some (ver, sec, m) else none

/-- The image x (0 A, 1 B) where ok(x) holds (R432). -/
def okImage (s : State) (x : Nat) : Option (Nat × Nat × List Byte) :=
  if markSet s x 4 ∨ 2 ≤ nth s.keep.fails x 0 then none else soundImage s (nth s.boot.flash x [])

def triedMarks (s : State) (x : Nat) : Nat := ([0, 1, 2].filter (markSet s x)).length

def goodVer (s : State) (x : Nat) : Option Nat :=
  if markSet s x 3 then (okImage s x).map fun i => i.1 else none

def trialVer (s : State) (x : Nat) : Option Nat :=
  if !markSet s x 3 ∧ triedMarks s x < 3 then (okImage s x).map fun i => i.1 else none

/-- The image of higher version, A when equal. -/
def higherImage (a b : Option Nat) : Option Nat :=
  match a, b with
  | some x, some y => if x < y then some 1 else some 0
  | some _, none => some 0
  | none, some _ => some 1
  | none, none => none

/-- R432: the image picked and whether it is on trial. -/
def pickImage (s : State) : Option (Nat × Bool) :=
  let beats (v : Option Nat) : Option Nat :=
    v.filter fun x => [0, 1].all fun y => match goodVer s y with | some g => decide (g < x) | none => true
  match higherImage (beats (trialVer s 0)) (beats (trialVer s 1)) with
  | some x => some (x, true)
  | none => (higherImage (goodVer s 0) (goodVer s 1)).map fun x => (x, false)

/-! ### The cold boot (R434 to R438) -/

/-- MODULE_RESET_RELEASE: the keep tests itself and derives the device key; the release waits for PG and REFA (R515, R522).
`puf` is the margin of the rebuild, `rng` tells whether the DRBG is healthy. -/
def resetRelease (s : State) (puf : Option Nat) (rng : Bool) (t : Nat) : State :=
  if !s.power.resetOn ∨ !s.power.pg ∨ s.bit .pwrStat 19 then s else
    let s := s.setPower { s.power with resetOn := false }
    let s := (keyRebuild s puf t).setBit .rkpStat 2 rng
    s.setBoot { s.boot with stage := .choice }

/-- A device with the contents it is found to have, where they are given. -/
def findFlash (s : State) (d : Nat) (bs : Option (List Byte)) : State :=
  match bs with
  | some b => s.setBoot { s.boot with flash := setNth s.boot.flash d b }
  | none => s

/-- IMAGE_CHOICE (R432, R433). -/
def imageChoice (s : State) (a b : Option (List Byte)) : State :=
  if s.boot.stage ≠ .choice then s else
    let s := findFlash (findFlash s 0 a) 1 b
    match pickImage s with
    | none => s.setBoot { s.boot with stage := .recovery }
    | some (x, trial) =>
      match okImage s x with
      | none => s
      | some (ver, sec, m) =>
        let s := if trial then flashPut s x (0x10000 + triedMarks s x) 0 else s
        let s := ((s.setFld .barStat 6 6 x).setBit .barStat 5 trial).setReg .barBoot (BitVec.ofNat 32 ver)
        let s := s.setFld .rkpOtp 7 6 ((verifySlot s m).getD 0)
        let s := s.setKeep { s.keep with manifest := sha384 m, imgVer := ver, secVer := sec }
        s.setBoot { s.boot with stage := .sections, todo := sectionsOf m, manifest := m, copy := [], decls := [] }

/-- Declaration records (R436): kind, key and value. -/
def declsOf : Nat → List Byte → List (Nat × Nat × Nat)
  | 0, _ => []
  | n + 1, bs => (leAt bs 0 2, leAt bs 4 4, leAt bs 8 8) :: declsOf n (bs.drop 16)

/-- A register script written by the loader: whether the bus took every record. -/
def runScript (t : Nat) : Nat → List Byte → State → Bool × State
  | 0, _, s => (true, s)
  | n + 1, bs, s =>
    let off := leAt bs 0 4
    if off % 4 ≠ 0 ∨ 0x2000000 ≤ off then (false, s)
    else runScript t n (bs.drop 8) (busWrite s .barista off (BitVec.ofNat 32 (leAt bs 4 4)) t)

/-- Words written into the descriptor region or the stream table. -/
def copyWords (t : Nat) : Nat → Nat → List Byte → State → Bool × State
  | 0, _, _, s => (true, s)
  | n + 1, a, bs, s =>
    let v : W32 := BitVec.ofNat 32 (leAt bs 0 4)
    let ok := if a < streamBase then descWriteOk s .barista false (a % 0x200000 / 32) (a % 32)
      else !strEn s (a % 0x8000 / 32)
    if !ok then (false, s) else copyWords t n (a + 4) (bs.drop 4) (tableWrite s .barista a v t)

/-- Bytes written at a destination of a copy or a zero fill: whether the bus took them (R431, R435). -/
def copyTo (s : State) (t a : Nat) (bs : List Byte) : Bool × State :=
  if bs.isEmpty then (true, s) else
    match rangeRegion a bs.length with
    | .dram | .carafe | .core => (true, (physStore s .barista t a bs).2)
    | .qdesc | .stream => if a % 4 ≠ 0 ∨ bs.length % 4 ≠ 0 then (false, s) else copyWords t (bs.length / 4) a bs s
    | _ => (false, s)

/-- Barista firmware copied into the SRAM of both pairs (R431). -/
def copyFirmware (s : State) (dest : Nat) (bs : List Byte) : Bool × State :=
  let a := dest % 2 ^ 20
  if 0x100000 < a + bs.length then (false, s) else
    let put (s : State) (base : Nat) : State :=
      { s with mem := memWrite s.mem (base + a) bs, memErr := s.memErr.filter fun e => !decide (base + a ≤ e.1 ∧ e.1 < base + a + bs.length) }
    let s := put (put s sramBase) (sramBase + 0x100000)
    (true, s.setBoot { s.boot with entry := a })

/-- One section applied: whether the bus took every write (R431, R434). -/
def applySection (s : State) (x : Section) (bs : List Byte) (t : Nat) : Bool × State :=
  match x.type with
  | 1 => copyFirmware s x.dest bs
  | 2 => copyTo s t x.dest bs
  | 3 => copyTo s t x.dest (List.replicate x.len 0)
  | 4 => runScript t (bs.length / 8) bs s
  | 5 => (true, s.setBoot { s.boot with decls := s.boot.decls ++ declsOf (bs.length / 16) bs })
  | _ => (true, blendOffer s bs t)

/-- Whether a section's bytes match its digest; a zero fill has none. -/
def digestOk (x : Section) (bs : List Byte) : Bool := decide (x.type = 3) || sha384 bs == x.digest

/-- SECTION_APPLY: the next section of the image (R434, R435). -/
def sectionApply (s : State) (t : Nat) : State :=
  if s.boot.stage ≠ .sections then s else
    match s.boot.todo with
    | [] => s.setBoot { s.boot with stage := .checks }
    | x :: rest =>
      let bs := sliceOf (nth s.boot.flash (s.fld .barStat 6 6) []) x.off x.len
      let r := applySection s x bs t
      if !r.1 then bootFail r.2 2
      else if !digestOk x bs then bootFail r.2 1
      else
        let s := r.2
        s.setBoot { s.boot with
          todo := rest, copy := if x.warm then s.boot.copy ++ bs else s.boot.copy
          stage := if rest.isEmpty then .checks else .sections }

/-- A boot copy: the manifest's length, the manifest, and the bytes of the warm sections in order (log entry 55). -/
def bootCopyBytes (m copy : List Byte) : List Byte := toBytesLE 4 m.length ++ m ++ copy

/-- The boot copy saved in DRAM and its hash given to the keep (R437, R449). -/
def saveCopy (s : State) (m copy : List Byte) (t : Nat) : State :=
  let bs := bootCopyBytes m copy
  let s := (writePhys s t .barista (0x200000 * s.fld .barBcopy 11 0) bs).2
  (s.setKeep { s.keep with bootCopy := sha384 bs, manifest := sha384 m }).setBoot { s.boot with saved := true }

/-- LOADER_CHECKS (R436, R437). -/
def checksRun (s : State) (t : Nat) : State :=
  if s.boot.stage ≠ .checks then s
  else if loaderChecks s then
    let s := saveCopy s s.boot.manifest s.boot.copy t
    s.setBoot { s.boot with stage := .ready }
  else bootFail s 3

/-- TAMP: the loader's write of SYS_TAMP at the end of a cold boot (R437). -/
def tampRow (s : State) (t : Nat) : State := if s.boot.stage = .ready ∧ !s.boot.warm then tampNow s t else s

/-! ### Recovery (R433, R461) -/

/-- The device that takes a recovered image: the first whose image is not ok. -/
def recoveryDevice (s : State) : Nat := if (okImage s 0).isSome then 1 else 0

/-- RECOVERY_IMAGE_WRITE: a verified image is written, its marks unset, and the module resets. -/
def recoveryWrite (s : State) (img : List Byte) : State :=
  if s.boot.stage ≠ .recovery ∨ (soundImage s img).isNone then s else
    let clean := img.mapIdx fun i b => if 0x10000 ≤ i ∧ i < 0x10005 then (0xFF : Byte) else b
    moduleReset (s.setBoot { s.boot with flash := setNth s.boot.flash (recoveryDevice s) clean }) 3

/-! ### The end of a warm reboot (R441, R442, R480) -/

/-- The warm sections of a manifest with their bytes, laid one after the other. -/
def warmSplit : List Section → List Byte → List (Section × List Byte)
  | [], _ => []
  | x :: rest, bs => (x, bs.take x.len) :: warmSplit rest (bs.drop x.len)

def warmOnly (m : List Byte) : List Section := (sectionsOf m).filter fun x => x.warm

/-- The boot copy in DRAM: its manifest and warm sections, whatever its hash. -/
def copySource (s : State) : List Byte × List (Section × List Byte) :=
  let a := 0x200000 * s.fld .barBcopy 11 0
  let m := memRead s.mem (a + 4) (memNat s.mem a 4 % 0x200000)
  let w := warmOnly m
  (m, warmSplit w (memRead s.mem (a + 4 + m.length) (w.foldl (fun n x => n + x.len) 0)))

/-- The staged image in DRAM: its versions, manifest and warm sections when it is accepted (R480). -/
def stagedSource (s : State) : Option (Nat × Nat × List Byte × List (Section × List Byte)) :=
  let a := 4096 * s.fld .barWarmImg 20 0
  match imgHeader (memRead s.mem a 256) with
  | none => none
  | some (ver, sec, off, len) =>
    let m := memRead s.mem (a + off) len
    let w := warmOnly m
    let inDram := rangeRegion a 256 = .dram ∧ rangeRegion (a + off) (max 1 len) = .dram ∧
      w.all fun x => rangeRegion (a + x.off) (max 1 x.len) == .dram
    if decide inDram && manifestOk s m ver sec then some (ver, sec, m, w.map fun x => (x, memRead s.mem (a + x.off) x.len))
    else none

/-- The source of a warm reboot: its warm sections when it verifies, with the versions of a staged image. -/
def warmSource (s : State) : Option (Option (Nat × Nat) × List Byte × List (Section × List Byte)) :=
  if s.boot.fromStaged then (stagedSource s).map fun x => (some (x.1, x.2.1), x.2.2)
  else
    let c := copySource s
    if sha384 (bootCopyBytes c.1 (c.2.flatMap fun x => x.2)) == s.keep.bootCopy then some (none, c) else none

/-- A warm reboot's attempt fails (R442): the boot copy is next; when that fails too, the pair leaves boot state. -/
def warmFail (s : State) (cause t : Nat) : State :=
  let s := s.setFld .barStat 19 16 cause
  if s.boot.attempts = 0 then
    s.setBoot { s.boot with fromStaged := false, attempts := 1, staged := [], warmAt := none }
  else
    let s := (copySource s).2.foldl (fun s x => if x.1.type = 1 then (copyFirmware s x.1.dest x.2).2 else s) s
    let s := (s.setBit .barStat 7 false).setBit .sysTamp 0 s.tickMin.isSome
    let s := s.setBoot { s.boot with stage := .done, warm := false, warmAt := none, staged := [] }
    let s := startFirmware s s.activePair t
    if s.bit .barStat 1 then startFirmware s (1 - s.activePair) t else s

/-- Registers as the next tick will have them (R441). -/
def withStaged (s : State) : State :=
  { s with regs := s.boot.staged.foldl (fun l e => kput l e.1 e.2) s.regs }

/-- WARM_REBOOT_TAMP: the loader of a warm reboot finishes (R441, R442). -/
def warmTamp (s : State) (t : Nat) : State :=
  if !s.boot.warm ∨ !inBoot s then s else
    match warmSource s with
    | none => warmFail s 5 t
    | some (vers, m, secs) =>
      if !secs.all (fun x => digestOk x.1 x.2) then warmFail s 1 t else
        let s1 := s.setBoot { s.boot with decls := [] }
        let r := secs.foldl (fun r x =>
          if x.1.type = 1 then r else
            let q := applySection r.2 x.1 x.2 t
            (r.1 && q.1, q.2)) (true, s1)
        if !r.1 then warmFail s 2 t
        else if !loaderChecks (withStaged r.2) then warmFail s 3 t
        else
          let s := secs.foldl (fun s x => if x.1.type = 1 then (copyFirmware s x.1.dest x.2).2 else s) r.2
          let s := match vers with
            | some (ver, sec) =>
              let s := saveCopy (s.setReg .barBoot (BitVec.ofNat 32 ver)) m (secs.flatMap fun x => x.2) t
              s.setKeep { s.keep with imgVer := ver, secVer := sec }
            | none => s
          tampNow s t

end Sys2Proof.Machine
end

