-- ==== Sys2Proof/Machine/LocalMem.lean ====
section
/-! DEFINITION. The local memory accesses of a control core: judging, loads and stores (R143 to R147, R177 to R189, R414,
R420, R421, R539). -/

namespace Sys2Proof.Machine

/-- The regions of a core's address view (R180, R414). -/
inductive LReg
  | data | bankA | bankB | rom | win | none
  deriving DecidableEq, Repr

/-- The region that holds `n` bytes whole (R180, R181, R183, R414). -/
def lregOf (s : State) (w : CoreSel) (a n : Nat) : LReg :=
  match w with
  | .eduno _ =>
    if a + n ≤ 0x7FFFE then .data
    else if 0x80000 ≤ a ∧ a + n ≤ 0x90000 then .bankA
    else if 0x90000 ≤ a ∧ a + n ≤ 0xA0000 then .bankB
    else .none
  | .barista _ =>
    if a + n ≤ 0x100000 then .data
    else if 0x100000 ≤ a ∧ a + n ≤ 0x120000 ∧ s.bit .barStat 7 = true then .rom
    else if 0x80000000 ≤ a ∧ a + n ≤ 0x100000000 ∧ a / 0x10000000 = (a + n - 1) / 0x10000000 then .win
    else .none

/-- Physical address that a window access reaches (R414). -/
def winAddr (s : State) (a : Nat) : Nat :=
  0x10000000 * (s.fld .barWin 19 0 (a / 0x10000000 - 8)) + a % 0x10000000

/-- Physical address of a local address outside the windows. -/
def localPhys (w : CoreSel) (a : Nat) : Nat :=
  match w with
  | .eduno p => coreBase + 0x100000 * p + a
  | .barista r => sramBase + 0x100000 * r + a

/-- Whether the protection regions of core p allow a user access (R188). -/
def mpuAllows (s : State) (p a n : Nat) (store : Bool) : Bool :=
  match (List.range 16).find? fun i =>
      s.bit .coreMpuLim 2 p i && decide (s.fld .coreMpuBase 19 6 p i * 64 ≤ a) &&
      decide (a ≤ s.fld .coreMpuLim 19 6 p i * 64 + 63) with
  | none => false
  | some i =>
    decide (a + n ≤ s.fld .coreMpuLim 19 6 p i * 64 + 64) && s.bit .coreMpuLim (if store then 0 else 1) p i

/-- An exception condition of a bundle (R215, R217): priority, slot, code, kind and address. -/
structure Cond where
  prio : Nat
  slot : Nat
  code : Nat
  kind : Nat
  baddr : W32
  deriving DecidableEq, Repr

/-- Judging an access before it reaches memory (R181, R144, R186, R188, R189, R414): its condition, if it has one. `kind` is
the access kind of R113. The alignment is that of E, the first piece, alone (R144; log entry 23). -/
def judge (s : State) (w : CoreSel) (user : Bool) (slot kind : Nat) (ps : List (Nat × Nat)) : Option Cond :=
  let e := BitVec.ofNat 32 ((ps.head?.map Prod.fst).getD 0)
  let r := match ps with | (a, n) :: _ => lregOf s w a n | [] => .none
  let ok : Bool := match r with
    | .none => false
    | .win => ps.all fun x => decide (lregOf s w x.1 x.2 = .win) && winOk (winAddr s x.1) x.2
    | _ => ps.all fun x => decide (lregOf s w x.1 x.2 = r)
  let aligned : Bool := match r with
    | .data => decide (e.toNat % 3 = 0)
    | .bankA | .bankB => decide (kind % 4 ≠ 3)
    | _ => true
  let allowed : Bool := match w with
    | .eduno p => !user || ps.all fun x => mpuAllows s p x.1 x.2 (decide (4 ≤ kind))
    | .barista _ => true
  if !ok then some ⟨6, slot, 0x06, 0, e⟩
  else if !aligned then some ⟨7, slot, 0x07, 0, e⟩
  else if !allowed then some ⟨8, slot, 0x06, 1, e⟩
  else none

/-- The standby pair (R421). -/
def isStandby (s : State) (w : CoreSel) : Bool :=
  match w with | .barista r => decide (r ≠ s.activePair) | .eduno _ => false

/-- One piece of a load in cycle t: its bytes, and an uncorrectable error met (kind and address) (R184, R187, R539). A load
of the cycle of an external write sees the bytes before it (R185). -/
def loadPiece (s : State) (w : CoreSel) (t a n : Nat) : List Byte × Option (Nat × W32) × State :=
  match lregOf s w a n with
  | .win =>
    let r := winLoad s t (winAddr s a) n
    (r.1, if r.2.1 then some (5, BitVec.ofNat 32 a) else none, r.2.2)
  | .rom => ((List.range n).map fun i => Config.romByte (a % 0x20000 + i), none, s)
  | .none => (List.replicate n 0, none, s)
  | r =>
    let pa := localPhys w a
    let us := unitsOf pa n
    let bad := (badUnits s us).head?
    let kind := if r = .data then 0 else 2
    (asBefore s.extOld t pa (memRead s.mem pa n), bad.map fun u => (kind, BitVec.ofNat 32 (a + u - pa)),
      correctUnits s t us)

/-- The pieces of a load in order: the bytes and the first error. -/
def loadPieces (w : CoreSel) (t : Nat) : List (Nat × Nat) → State → List Byte × Option (Nat × W32) × State
  | [], s => ([], none, s)
  | (a, n) :: rest, s =>
    let x := loadPiece s w t a n
    let y := loadPieces w t rest x.2.2
    (x.1 ++ y.1, (match x.2.1 with | some e => some e | none => y.2.1), y.2.2)

/-- The units that a store covers in part and that are uncorrectable: the first, as an address of the core view. -/
def storeBad (s : State) (w : CoreSel) (ps : List (Nat × Nat)) : Option W32 :=
  ps.findSome? fun x =>
    match lregOf s w x.1 x.2 with
    | .win | .rom | .none => none
    | _ =>
      let pa := localPhys w x.1
      ((badUnits s (unitsOf pa x.2)).find? fun u => !coversUnit pa x.2 u).map fun u => BitVec.ofNat 32 (x.1 + u - pa)

/-- Whether fetch of a core can reach an address of its own memory, so that a store there is seen late (R177). -/
def isCode (w : CoreSel) (a : Nat) : Bool := selIsBar w || decide (0x80000 ≤ a)

/-- One piece of a store in cycle t by bundle number b. -/
def storePiece (s : State) (w : CoreSel) (t b a : Nat) (bs : List Byte) : State :=
  let n := bs.length
  match lregOf s w a n with
  | .none | .rom => s
  | .win => if isStandby s w then s else winStore s t (winAddr s a) bs
  | _ =>
    let pa := localPhys w a
    let limit := 0x1000 * s.fld .barCfg 16 8
    if isStandby s w && decide (a < limit) then s else
      let c := s.core w
      let old := if isCode w a then (List.range n).map fun i =>
          ({ addr := pa + i, old := memGet s.mem (pa + i), bundle := b + 4, cycle := 0 } : OldByte) else []
      let s := { s with coreOld := noteOld s.coreOld s.mem t pa n }
      let s := repairUnits s t pa n (unitsOf pa n)
      let s := { s with mem := memWrite s.mem pa bs }
      let s := s.setCore w { c with old := c.old ++ old }
      match w with
      | .barista r => if a < limit then { s with shadowQ := s.shadowQ ++ [(1 - r, a, bs, t)] } else s
      | .eduno _ => s

/-- The pieces of a store in order: where a short circular buffer wraps two of them onto one byte the later wins (log entry 63). -/
def storePieces (w : CoreSel) (t b : Nat) : List (Nat × Nat) → List Byte → State → State
  | [], _, s => s
  | (a, n) :: rest, bs, s => storePieces w t b rest (bs.drop n) (storePiece s w t b a (bs.take n))

/-- A store: not performed when a merge meets an uncorrectable error (R184, R187). -/
def storeAll (s : State) (w : CoreSel) (t b : Nat) (ps : List (Nat × Nat)) (bs : List Byte) : Option W32 × State :=
  match storeBad s w ps with
  | some e => (some e, s)
  | none => (none, storePieces w t b ps bs s)

end Sys2Proof.Machine
end

