-- ==== Sys2Proof/Machine/Bundle.lean ====
section
/-! DEFINITION. One bundle of a control core: when it issues, what stops or refuses it, and what it does (R58 to R72, R84 to
R86, R116 to R124, R146 to R178, R181 to R193, R217, R218). The exit that a move to ctl.rfe starts is in Entry.lean. -/

namespace Sys2Proof.Machine

/-! ### Configuration of the core -/

/-- Link mode (R159); a Barista core has no CORE_CFG and keeps the mode core reset gives (log entry 26). -/
def linkMode (s : State) (w : CoreSel) : Bool :=
  match w with | .eduno p => s.bit .coreCfg 1 p | .barista _ => true

/-- Trap mode of the return stack (R156). -/
def trapMode (s : State) (w : CoreSel) : Bool :=
  match w with | .eduno p => s.bit .coreCfg 0 p | .barista _ => false

/-- Whether a core runs in decaf mode (R416, R421). -/
def decafMode (s : State) (w : CoreSel) (level : Nat) : Bool :=
  isStandby s w || s.bit .barStat 7 || s.bit .barCfg 0 || decide (level = 16) ||
    decide (level < 16 ∧ s.fld .barCfg 5 1 ≤ level)

/-- The cycle in which the next bundle may issue after one that issued in cycle t (R415): a Barista cycle in decaf mode. -/
def nextIssue (s : State) (w : CoreSel) (level t : Nat) : Nat :=
  match w with
  | .eduno _ => t + 1
  | .barista _ => if decafMode s w level then t + 2 else t + 1

/-! ### Exceptions of a bundle -/

/-- Whether a bundle of the core is a repetition in cycles 1 to L of an entry (R166, R228). -/
def inSpan (c : Core) : Bool := match c.entering with | some e => decide (0 < e.stage) | none => false

/-- A synchronous exception raised in cycle t (R213, R214, R218, R228). It replaces a request taken in the same cycle; in the rep
span of an entry it ends the span and is not taken (R166). -/
def raiseSync (s : State) (w : CoreSel) (t : Nat) (cause : Cause) : State :=
  let c := s.core w
  s.setCore w { c with
    readyAt := t + 1
    entering := if inSpan c then c.entering.map fun e => { e with lastIssue := t - e.cycle0 }
      else some { cycle0 := t, lastIssue := 0, req := ⟨16, cause, t⟩, chained := false, second := false, stage := 0, claimed := none, handler := 0, frame := 0
                  saved := c.level, umode := none, car := none, rcv := none, bytes := [], next := none } }

/-- A health event of an Eduno core (R486). -/
def countCore (s : State) (w : CoreSel) (t code : Nat) : State :=
  match w with | .eduno p => countEvent s t code p | .barista _ => s

/-- The exception of a condition. -/
def raiseCond (s : State) (w : CoreSel) (t : Nat) (x : Cond) : State :=
  raiseSync s w t ⟨x.code, x.kind, x.slot, x.baddr, none⟩

/-- The condition of lowest priority number, then of lowest slot (R217). -/
def firstCond (l : List Cond) : Option Cond :=
  l.foldl (fun a x => match a with
    | none => some x
    | some y => if x.prio < y.prio ∨ (x.prio = y.prio ∧ x.slot < y.slot) then some x else a) none

/-- A decode fault is recorded in CORE_DFAULT and CORE_DFADDR (R122, R124); an offset of 0x10000 is recorded as 0 (log entry 65). -/
def recordDecode (s : State) (w : CoreSel) (t : Nat) (f : DecodeFault) (off : Nat) : State :=
  match w with
  | .barista _ => s
  | .eduno p =>
    let s := if s.bit .coreDfault 0 p then s else
      s.setReg .coreDfaddr (BitVec.ofNat 32 (0x10000 * s.fld .corePbank 0 0 p + off % 0x10000)) p
    s.record t .coreDfault (BitVec.ofNat 32 (f.header * 2 ^ 16 + f.slot * 2 ^ 12 + f.kind * 2 ^ 8)) p

/-! ### The control-sequence exception (R172) -/

/-- Whether the bundle at offset `off` is the end bundle of an active loop (R162). -/
def isEnd (c : Core) (off : Nat) : Bool := c.loops.any fun l => l.active && decide (l.stop = off)

def isBranch : Dst → Bool
  | .jmp | .call | .ret => true
  | _ => false

/-- Branch-and-loop triggers (R172). -/
def isFlow : Dst → Bool
  | .jmp | .call | .ret | .lp _ | .rep | .bmove => true
  | _ => false

/-- The slots of the moves that raise the control-sequence exception (R172, R216): triggers and moves among those that act, reads
among all with true guards. An end bundle in a delay slot has no such move: slot 0. -/
def seqSlots (c : Core) (live ms : List LiveMove) : List Nat :=
  let fin := isEnd c c.pc
  let slots (l : List LiveMove) (p : LiveMove → Bool) : List Nat := (l.filter p).map LiveMove.slot
  let isTo (d : Dst) (m : LiveMove) : Bool := decide (m.dst = d)
  (if c.branch.isSome then slots ms (fun m => isFlow m.dst) ++ (if fin then [0] else []) else []) ++
  (if fin then slots ms fun m => isBranch m.dst || isTo .rep m else []) ++
  (if c.rep.isSome then
    slots ms (fun m => isFlow m.dst || isTo .sys m || isTo .rfe m || isTo .eop m) ++
      slots live fun m => decide (m.src = .car) || decide (m.src = .qioR)
   else []) ++
  (if ms.any (isTo .rfe) && ms.any (isTo .sys) then slots ms fun m => isTo .rfe m || isTo .sys m else [])

/-- The control-sequence condition of a bundle. -/
def seqConds (here : W32) (slots : List Nat) : List Cond := slots.map fun n => ⟨4, n, 0x04, 0, here⟩

/-- Whether a read of car.r or qio.r stops issue (R65); a repeated bundle faults instead (R172). -/
def stalls (c : Core) (ms : List LiveMove) : Bool :=
  let sup := !c.user
  c.rep.isNone && ms.any fun m =>
    (decide (m.src = .car) && (loadOf c sup).isSome) ||
    (decide (m.src = .qioR) && (rcvOf c sup).isSome)

/-! ### Conditions of the moves (R84, R156, R157, R181, R192, R196, R204) -/

/-- Pieces of the access that an access trigger makes (R141 to R143). -/
def accessOf (c : Core) (k md n : Nat) (v : W48) : List (Nat × Nat) :=
  accessPieces k n (nth c.cb k 0) (nth c.cl k 0) (agenOf c k md v).1

/-- The condition of a read of car.r whose data met an uncorrectable error (R204). -/
def readConds (c : Core) (m : LiveMove) : List Cond :=
  match m.src, (unitsFor c (!c.user)).carErr with
  | .car, some (off, sl) => [⟨1, sl, 0x01, 3, BitVec.ofNat 32 off⟩]
  | _, _ => []

/-- The conditions that one move meets. -/
def moveConds (s : State) (w : CoreSel) (c : Core) (m : LiveMove) : List Cond :=
  let here := bundleAddr s w c.pc
  let car (off : Nat) (kind : Nat) (store : Bool) : List Cond :=
    (match carCheck s w off (carBytes kind) store with
     | some 0 => [⟨6, m.slot, 0x06, 0, BitVec.ofNat 32 off⟩]
     | some _ => [⟨8, m.slot, 0x06, 1, BitVec.ofNat 32 off⟩]
     | none => []) ++
    (if store && decide (4 ≤ c.stbuf.length) && !isStandby s w then [⟨10, m.slot, 0x09, 0, BitVec.ofNat 32 off⟩] else [])
  (if c.user && (m.dst.priv || m.src.priv) then [⟨5, m.slot, 0x05, 0, here⟩] else []) ++
  (match m.dst with
   | .lsuT _ n k md => (judge s w c.user m.slot n (accessOf c k md n m.v)).toList
   | .carLd kind => car (m.v.toNat % 2 ^ 32) kind false
   | .carSt kind => car (m.v.toNat % 2 ^ 32) kind true
   | .call => if !linkMode s w && decide (16 ≤ c.rstack.length) && trapMode s w then [⟨9, m.slot, 0x08, 0, here⟩] else []
   | .ret => if !linkMode s w && c.rstack.isEmpty then [⟨9, m.slot, 0x08, 1, here⟩] else []
   | _ => [])

/-- The conditions of a bundle once it is decoded. -/
def bundleConds (s : State) (w : CoreSel) (c : Core) (live : List LiveMove) : List Cond :=
  let ms := winners live
  seqConds (bundleAddr s w c.pc) (seqSlots c live ms) ++ live.flatMap (readConds c) ++ ms.flatMap (moveConds s w c)

/-! ### Effects -/

/-- The load of one access trigger: delivered and, on an uncorrectable error, faulting on bundle b + 2 (R146, R184). -/
def loadMove (w : CoreSel) (t : Nat) (c0 : Core) (s : State) (m : LiveMove) : State :=
  match m.dst with
  | .lsuT p n k md =>
    if 4 ≤ n then s else
      let r := loadPieces w t (accessOf c0 k md n m.v) s
      let v := ofBytesLE r.1
      let d : Deliver := match n with
        | 0 => .scalar p (sext48 24 v)
        | 3 => .row p (BitVec.ofNat 192 v)
        | _ => .scalar p (zext48 v)
      let c := r.2.2.core w
      let err := match r.2.1 with
        | some (kind, a) =>
          [{ due := c0.bcount + 2, kind := kind, slot := m.slot
             addr := if kind = 5 then (agenOf c0 k md m.v).1 else a }]
        | none => []
      r.2.2.setCore w { c with fly := c.fly ++ [{ due := c0.bcount + 2, sup := !c0.user, what := d }], merr := c.merr ++ err }
  | _ => s

/-- The bytes an access trigger stores (R147). -/
def storeData (u : UnitSet) (p n : Nat) : List Byte :=
  if n = 7 then toBytesLE 24 (nth u.srow p 0).toNat else toBytesLE (kindBytes n) (nth u.sd p 0).toNat

/-- The store of one access trigger, with the latches of its unit set after step 3 (R147, R184). -/
def storeMove (w : CoreSel) (t : Nat) (c0 : Core) (s : State) (m : LiveMove) : State :=
  match m.dst with
  | .lsuT p n k md =>
    if n < 4 then s else
      let u := unitsFor (s.core w) (!c0.user)
      let r := storeAll s w t c0.bcount (accessOf c0 k md n m.v) (storeData u p n)
      match r.1 with
      | some a =>
        let c := r.2.core w
        r.2.setCore w { c with merr := c.merr ++ [{ due := c0.bcount + 2, kind := 4, slot := m.slot, addr := a }] }
      | none => r.2
  | _ => s

/-- A Carafe or queue trigger (R191 to R197, R281 to R287). -/
def portMove (w : CoreSel) (t : Nat) (c0 : Core) (s : State) (m : LiveMove) : State :=
  let u := unitsFor (s.core w) (!c0.user)
  match m.dst, w with
  | .carLd kind, _ =>
    let s := s.setCore w (setUnits (s.core w) (!c0.user) { u with carErr := none })
    carLoadStart s w (m.v.toNat % 2 ^ 32) kind m.slot (!c0.user) t
  | .carSt kind, _ => carStoreStart s w (m.v.toNat % 2 ^ 32) kind u.carSd t
  | .send, .eduno p => coreSend s p u.qioQ.toNat m.v t
  | .rcv, .eduno p => coreReceive s p u.qioQ.toNat (m.v.toNat % 2 ^ 24) (!c0.user) t
  | _, _ => s

/-- Length of the bundle at an offset as bundle number b fetches it, of the content that fetch sees in cycle t (log entry 67). -/
def lengthAt (s : State) (w : CoreSel) (c : Core) (t off b : Nat) : Nat :=
  match (heldBody c).find? fun e => decide (e.1 = off) with
  | some e => e.2.length
  | none =>
    let byte (i : Nat) : Byte := fetchByte s { c with bcount := b } t (fetchBase s w + (off + i) % 2 ^ offBits w)
    bundleLen ((byte 0).toNat + 256 * (byte 1).toNat)

/-- The return offset of a call: the first bundle after its delay bundles (R154). -/
def returnOffset (s : State) (w : CoreSel) (c : Core) (t len : Nat) : Nat :=
  let o1 := c.pc + len
  let o2 := o1 + lengthAt s w c t o1 (c.bcount + 1)
  (o2 + lengthAt s w c t o2 (c.bcount + 2)) % 2 ^ offBits w

/-- A push on the return stack in cycle t (R156). -/
def pushReturn (c : Core) (x t : Nat) : Core :=
  if 16 ≤ c.rstack.length then { c with rstack := x :: c.rstack.take 15, rsOvf := true, ovfAt := some t }
  else { c with rstack := x :: c.rstack }

/-- The loop buffer after the bundle at `off` of `len` bytes has completed (R174): it joins a capture. -/
def captureStep (c : Core) (off : Nat) (bytes : List Byte) : Core :=
  match c.lbuf with
  | .capture k e body =>
    if off ≠ e ∨ 32 ≤ body.length then { c with lbuf := .off }
    else
      let body := body ++ [(off, bytes)]
      if (nth c.loops k Loop.off).stop = off then { c with lbuf := .held k body }
      else { c with lbuf := .capture k (off + bytes.length) body }
  | _ => c

/-- The loop buffer at a taken jump, call or return (R174, R175). -/
def captureTaken (c : Core) : Core :=
  match c.lbuf with
  | .capture .. => { c with lbuf := .off }
  | .held k _ => if (nth c.loops k Loop.off).active then { c with lbuf := .wait } else c
  | _ => c

/-- The end of loop k at the bundle at `off` (R162): the core, and the start it goes back to. -/
def loopEnd (k off : Nat) (c : Core) : Core × Option Nat :=
  let l := nth c.loops k Loop.off
  if l.active && decide (l.stop = off) then
    if 1 < l.count then
      let c := { c with loops := setNth c.loops k { l with count := l.count - 1 } }
      let c := match c.lbuf with | .wait => { c with lbuf := .capture k l.start [] } | _ => c
      (c, some l.start)
    else ({ c with loops := setNth c.loops k { l with count := 0, active := false } }, none)
  else (c, none)

/-- Loop 1 and then, unless it goes back, loop 0 at a completing bundle: the core and the next offset (R162). -/
def loopEnds (c : Core) (off next : Nat) : Core × Nat :=
  match loopEnd 1 off c with
  | (c, some x) => (c, x)
  | (c, none) => let r := loopEnd 0 off c; (r.1, r.2.getD next)

/-- A trigger of bru.lpk.t after step 3 (R161, R174). -/
def loopMove (sup : Bool) (bits next : Nat) (c : Core) (m : LiveMove) : Core :=
  match m.dst with
  | .lp k =>
    let n := m.v.toNat % 2 ^ 16
    if n = 0 then { c with loops := setNth c.loops k { nth c.loops k Loop.off with active := false, count := 0 } }
    else { c with loops := setNth c.loops k { active := true, start := next, stop := (unitsFor c sup).lpe.toNat % 2 ^ bits
                                              count := n }
                  lbuf := .capture k next [] }
  | _ => c

/-- A pass that runs old content is not kept: the next one is captured (R176). -/
def dropStale (stale : Bool) (c : Core) : Core :=
  match c.lbuf with
  | .capture .. => if stale then { c with lbuf := .wait } else c
  | _ => c

/-- Where issue goes on after the bundle at `off`, 0x10000 after one that ends at 0xFFFF (log entry 65): its capture, its loop trigger, its place as a delay bundle and the loops it
ends (R153, R161, R162, R174). -/
def advancePc (c : Core) (off : Nat) (bytes : List Byte) (sup : Bool) (bits : Nat) (flow : List LiveMove) : Core :=
  let next := off + bytes.length
  let c := flow.foldl (loopMove sup bits next) (captureStep c off bytes)
  match c.branch with
  | some (target, 1) => { captureTaken c with branch := none, pc := target }
  | some (target, n + 1) => { c with branch := some (target, n), pc := next }
  | _ =>
    let r := loopEnds c off next
    { r.1 with pc := r.2 }

/-- A branch, return or repeat trigger after step 3 (R152 to R155, R164), with the core past the bundle. -/
def flowMove (link : Bool) (bits : Nat) (c : Core) (m : LiveMove) : Core :=
  let v := m.v.toNat
  match m.dst with
  | .jmp | .call => { c with branch := some (v % 2 ^ bits, 2) }
  | .ret =>
    if link then { c with branch := some (c.ln.toNat % 2 ^ bits, 2) }
    else { c with branch := some (c.rstack.headD 0, 2), rstack := c.rstack.drop 1 }
  | .rep => { c with rep := some (if v % 128 = 0 then 1 else min (v % 128) 64) }
  | _ => c

/-- Pending mode changes after a bundle (R85). -/
def modeStep (c : Core) : Core :=
  let older := c.modePend.map fun x => (x.1 - 1, x.2)
  let user := match (older.filter fun x => decide (x.1 = 0)).getLast? with | some x => x.2 | none => c.user
  { c with user := user, modePend := older.filter fun x => decide (x.1 ≠ 0) }

/-- The block-repeat move that a bundle starts (R168 to R170); with bc = 0 none starts. -/
def startBmove (c0 : Core) (c : Core) (t : Nat) (bytes : List Byte) (m : LiveMove) : Core :=
  if c.bc = 0 then c else
    { c with
      bmvResume := false
      bmove := some { start := t, slot := m.slot, ctl := m.v.toNat % 2 ^ 11, user := c0.user, bytes := bytes, ran := 0
                      total := c.bc.toNat, loads := 0, la := nth c.a (bitsOf m.v.toNat 4 3) 0, iters := []
                      sd := nth (unitsFor c (!c0.user)).sd 1 0 } }

/-- The end of a pour program (R150, R50, R290). -/
def endOfPour (s : State) (w : CoreSel) (t : Nat) : State :=
  let c := s.core w
  let c := { c with
    phase := .waiting, branch := none, rep := none, repBytes := none, bmove := none, modePend := []
    loops := c.loops.map fun l => { l with active := false, count := 0 }
    eopDone := true, eopAt := some t, missed := false, ovrForce := c.ovrForce && !c.onTime }
  match w with
  | .eduno p => commitReleases (s.setCore w c) p t
  | .barista _ => s.setCore w c

/-- The cycle in which the next bundle may issue, with the stop of a control-bus access through a window (R415). -/
def issueAfter (s : State) (w : CoreSel) (c : Core) (t : Nat) (ms : List LiveMove) : Nat :=
  let bus : Bool := ms.any fun m => match m.dst with
    | .lsuT _ n k md => (accessOf c k md n m.v).any fun x =>
        decide (lregOf s w x.1 x.2 = .win) && decide (regionOf (winAddr s x.1) = .regs)
    | _ => false
  nextIssue s w c.level t + (if bus && decafMode s w c.level then 48 else 0)

/-- What the acting moves of a bundle do, in the order of R59: step 3 in ascending slots, loads before stores, units, the
Carafe and queue ports, and the control unit. `bytes` is the content of the bundle. -/
def bundleEffects (s : State) (w : CoreSel) (t : Nat) (bytes : List Byte) (ms : List LiveMove) : State :=
  let c0 := s.core w
  let ret := returnOffset s w c0 t bytes.length
  let link := linkMode s w
  let callW := ms.any fun m => decide (m.dst = .call)
  let c := ms.foldl (writeDst c0 (if link then some ret else none)) c0
  let c := if callW && !link then pushReturn c ret t else c
  let c := if ms.any fun (m : LiveMove) => decide (m.dst = .flush) then { c with lbuf := .wait } else c
  let s := s.setCore w c
  let s := if callW && !link && decide (16 ≤ c0.rstack.length) then countCore s w t 0x14 else s
  let s := ms.foldl (loadMove w t c0) s
  let s := ms.foldl (storeMove w t c0) s
  let s := s.setCore w (startUnits c0 ms (s.core w))
  let s := ms.foldl (portMove w t c0) s
  let c := s.core w
  let any (d : Dst) : Bool := ms.any fun m => decide (m.dst = d)
  let mode := (ms.filter fun m => decide (m.dst = .mode)).getLast?
  let c := { c with modePend := c.modePend ++ (mode.map fun (m : LiveMove) => (3, bitOf m.v.toNat 0)).toList }
  let off := c0.pc
  let bits := offBits w
  let flow : List LiveMove := ms.filter fun m => isFlow m.dst
  let go (c : Core) : Core := flow.foldl (flowMove link bits) (advancePc (modeStep c) off bytes (!c0.user) bits flow)
  let c := { c with bcount := c0.bcount + 1, readyAt := issueAfter s w c0 t ms, fresh := false, issuedAt := t, astatSet := 0
                    holdAt := if any .hold then some t else c.holdAt, tsbrAt := if any .tsbr then some t else c.tsbrAt
                    old := c.old.filter fun o => decide (c0.bcount + 1 < o.bundle) || decide (t < o.cycle) }
  let c := match c.rep with
    | some (n + 2) => { modeStep c with rep := some (n + 1), repBytes := some bytes }
    | _ =>
      let c := { c with rep := none, repBytes := none }
      match (flow.find? fun (m : LiveMove) => decide (m.dst = Dst.bmove)) with
      | some m => let b := startBmove c0 c t bytes m; if b.bmove.isSome then b else go c
      | none => go c
  let c := match c.entering, c.rep with
    | some e, some n => if e.stage = 0 ∧ e.cycle0 = t ∧ c0.rep.isNone then { c with entering := some { e with lastIssue := spanLen w n } } else c
    | _, _ => c
  s.setCore w c

/-- The bru.bmove.t move of a resumed bundle, its guard not evaluated (R171); of two the one in the higher slot (log entry 68). -/
def resumedMove (s : State) (w : CoreSel) (c : Core) (b : Bundle) : Option LiveMove :=
  ((b.moves.filter fun m => decide (dstOf m.dst = some .bmove)).getLast?).bind fun m =>
    (srcOf m.src).map fun x => ⟨m.slot, x, .bmove, readSrc s w c m.imm x, 0⟩

/-- Only the bru.bmove.t move of a resumed bundle acts (R171). -/
def resumeBmove (s : State) (w : CoreSel) (t : Nat) (m : LiveMove) (bytes : List Byte) : State :=
  let c := s.core w
  let c' := { c with
    bcount := c.bcount + 1, readyAt := nextIssue s w c.level t, bmvResume := false, issuedAt := t, astatSet := 0 }
  let r := startBmove c c' t bytes m
  s.setCore w (if r.bmove.isSome then r else advancePc (modeStep c') c.pc bytes (!c.user) (offBits w) [])

/-! ### Issue -/

/-- Whether a core can issue a bundle in cycle t (R65, R150, R170, R225, R228 to R230). -/
def canIssue (c : Core) (t : Nat) : Bool :=
  decide (c.phase = .running) && !c.halted && decide (c.readyAt ≤ t) && c.bmove.isNone && c.exit.isNone &&
  (match c.entering with
   | none => true
   | some e =>
     if e.stage = 0 then decide (t ≤ e.cycle0) && !e.second else c.rep.isSome && decide (t ≤ e.cycle0 + e.lastIssue))

/-- The bundle at the core's pc as fetched in cycle t: its bytes, whether a check code finds it uncorrectable (R187), and the
result of decoding. What decoding needs is the length that the header gives. -/
def fetchBundle (s : State) (w : CoreSel) (c : Core) (t : Nat) : List Byte × Bool × Except DecodeFault Bundle :=
  let f := fetchBytes s w c t
  let d := decodeBundle (selIsBar w) f.1
  let len := match d with
    | .ok b => b.len
    | .error _ => min (max 2 (bundleLen ((f.1.getD 0 0).toNat + 256 * (f.1.getD 1 0).toNat))) f.1.length
  let bad := !f.2 && (badUnits s (unitsOf (fetchBase s w + c.pc) len)) ≠ []
  (f.1.take len, bad, d)

/-- What the bundle of a core in cycle t meets before its moves act: the exception it raises, or the moves that act. -/
inductive Judged
  | stall
  | fault (x : Cond) (f : Option DecodeFault)
  | resume (m : LiveMove)
  | act (ms : List LiveMove)
  deriving Repr

/-- The judging of a decoded bundle: a read that is not ready stops it before any exception of its own (log entry 69). `due` are the
memory errors due on it (R184), which come first whatever it reads (R217). -/
def judgeDecoded (s : State) (w : CoreSel) (c : Core) (due : List Cond) (b : Bundle) : Judged :=
  let live := liveMoves s w c b.moves
  let readers := if c.bmvResume then (resumedMove s w c b).toList else live
  if !due.isEmpty then
    match firstCond (due ++ readers.flatMap (readConds c)) with | some x => .fault x none | none => .stall
  else if stalls c readers then .stall
  else if c.bmvResume then
    let here := bundleAddr s w c.pc
    match resumedMove s w c b with
    | none => .fault ⟨4, 0, 0x04, 0, here⟩ none
    | some m =>
      match firstCond (seqConds here (seqSlots c live (winners live)) ++ readConds c m) with
      | some x => .fault x none
      | none => .resume m
  else
    match firstCond (bundleConds s w c live) with
    | some x => .fault x none
    | none => .act (winners live)

/-- Judging in the order of R184, R187, R118, R119, R172, R84 and R215 to R217. A condition that a guard makes true in a later
repetition alone is reported there (log entry 70). -/
def judgeBundle (s : State) (w : CoreSel) (c : Core) (bad : Bool) (d : Except DecodeFault Bundle) : Judged :=
  let due : List Cond := (c.merr.filter fun e => decide (e.due ≤ c.bcount)).map fun e => ⟨1, e.slot, 0x01, e.kind, e.addr⟩
  match firstCond due, bad, d with
  | some x, true, _ => .fault x none
  | some x, false, .error _ => .fault x none
  | none, true, _ => .fault ⟨1, 0, 0x01, 1, bundleAddr s w c.pc⟩ none
  | none, false, .error f => .fault ⟨2, f.slot, if f.kind < 4 then 0x02 else 0x03, 0, bundleAddr s w c.pc⟩ (some f)
  | _, false, .ok b => judgeDecoded s w c due b

/-- A bundle that faults: the exception, its record, and the bundle counted as issued (R122, R178, R218). In the rep span of an
entry the exception is not taken, and what is due stays due (R166). -/
def faultBundle (s : State) (w : CoreSel) (t : Nat) (x : Cond) (f : Option DecodeFault) : State :=
  let c := s.core w
  if inSpan c then raiseCond s w t x else
    let s := match f with | some f => recordDecode s w t f c.pc | none => s
    let s := s.setCore w { c with bcount := c.bcount + 1, fresh := false, issuedAt := t, astatSet := 0
                                  merr := c.merr.filter fun e => decide (c.bcount < e.due) }
    let s := if x.code = 0x09 then countCore s w t 0x07 else s
    raiseCond s w t x

/-- Correctable errors of the `n` bytes that a bundle fetched (R187). -/
def correctFetch (s : State) (w : CoreSel) (c : Core) (t n : Nat) : State :=
  if (fetchBytes s w c t).2 then s else correctUnits s t (unitsOf (fetchBase s w + c.pc) n)

/-- Whether the `n` bytes that a bundle fetched hold old content (R177, R179). -/
def staleFetch (s : State) (w : CoreSel) (c : Core) (t n : Nat) : Bool :=
  !(fetchBytes s w c t).2 && (List.range n).any fun i => staleByte c t (fetchBase s w + c.pc + i)

/-- The first bundle of a pour program in the tick's cycle makes the pour on time so far (R50). -/
def markOnTime (s : State) (c : Core) (t : Nat) : Core :=
  if c.fresh then { c with onTime := decide (c.pour = some (s.pourAt t) ∧ t % s.pourLen = 0) } else c

/-- The system call of a bundle: slot and value (R86). -/
def sysOf (ms : List LiveMove) : Option (Nat × W48) :=
  ((ms.filter fun m => decide (m.dst = .sys)).getLast?).map fun m => (m.slot, m.v)

/-- The bundle of a core in cycle t, an exit apart. The flag says that the bundle moved to ctl.rfe. -/
def issueBundle (s : State) (w : CoreSel) (t : Nat) : State × Bool :=
  let c := settleSel selAll (s.core w).bcount (s.core w)
  if !canIssue c t then (s, false) else
    let f := fetchBundle s w c t
    let j := judgeBundle s w c f.2.1 f.2.2
    let c' := dropStale (staleFetch s w c t f.1.length) c
    let s' := (if f.2.1 then s else correctFetch s w c t f.1.length).setCore w c'
    match j with
    | .stall => (s, false)
    | .fault x d => (faultBundle s' w t x d, false)
    | .resume m => (resumeBmove s' w t m f.1, false)
    | .act ms =>
      let s := bundleEffects (s'.setCore w (markOnTime s c' t)) w t f.1 ms
      let s := if ms.any fun m => decide (m.dst = .eop) then endOfPour s w t else s
      let s := match sysOf ms with
        | some (sl, v) => raiseSync s w t ⟨0x0A, 0, sl, v.setWidth 32, none⟩
        | none => s
      let s := if ms.any fun m => decide (m.dst = .hold) then presentCore s w t else s
      (s, ms.any fun m => decide (m.dst = .rfe))

end Sys2Proof.Machine
end

