-- ==== Sys2Proof/Machine/Entry.lean ====
section
/-! DEFINITION. Block-repeat moves, entry, the task-state block, and exit (R168 to R171, R215 to R232, R417, R418). -/

namespace Sys2Proof.Machine

/-! ### The block-repeat move (R168 to R171) -/

/-- Access kind of an element size (R168). -/
def bmKind (ctl : Nat) : Nat := match bitsOf ctl 2 2 with | 0 => 0 | 1 => 1 | 2 => 3 | _ => 2

/-- Effective address and next value of a register in mode pm (R169). -/
def bmStep (c : Core) (k : Nat) (a : W32) : W32 × W32 :=
  agenOp k 0 a (nth c.m k 0) 0 (nth c.cb k 0) (nth c.cl k 0)

/-- The address register of the loads after one iteration (R169): a copy within one register steps it twice. -/
def bmNext (c : Core) (ctl : Nat) (a : W32) : W32 :=
  let k := bitsOf ctl 4 3
  let x := (bmStep c k a).2
  if bitsOf ctl 0 2 = 0 ∧ bitsOf ctl 8 3 = k then (bmStep c k x).2 else x

/-- The load of the next iteration, in cycle t (R170): its data is taken, and what else it does waits until the iteration is done, so
that a load beyond the element found changes nothing. -/
def bmLoad (s : State) (w : CoreSel) (b : Bmove) (t : Nat) : Bmove :=
  let c := s.core w
  let k := bitsOf b.ctl 4 3
  let kind := bmKind b.ctl
  let e := (bmStep c k b.la).1
  let ps := accessPieces k kind (nth c.cb k 0) (nth c.cl k 0) e
  let it : BmIter := match judge s w b.user b.slot kind ps with
    | some x => ⟨b.ran + 2, [], [], some (x.code, x.kind, x.baddr)⟩
    | none =>
      let r := loadPieces w t ps s
      ⟨b.ran + 2, ps, r.1, r.2.1.map fun x => (0x01, x.1, if x.1 = 5 then e else x.2)⟩
  { b with loads := b.loads + 1, la := bmNext c b.ctl b.la, iters := b.iters ++ [it] }

/-- The store of an iteration, in cycle t: the exception it meets, if any. -/
def bmStore (s : State) (w : CoreSel) (b : Bmove) (t : Nat) (data : List Byte) : Option (Nat × Nat × W32) × State :=
  let c := s.core w
  let k := bitsOf b.ctl 8 3
  let kind := 4 + bmKind b.ctl
  let ps := accessPieces k kind (nth c.cb k 0) (nth c.cl k 0) (bmStep c k (nth c.a k 0)).1
  match judge s w b.user b.slot kind ps with
  | some x => (some (x.code, x.kind, x.baddr), s)
  | none =>
    let r := storeAll s w t (c.bcount - 1) ps data
    (r.1.map fun a => (0x01, 4, a), r.2)

/-- Bytes of a fill element (R169). -/
def bmFillData (ctl : Nat) (sd : W48) : List Byte :=
  if bmKind ctl = 3 then (List.range 8).flatMap fun _ => toBytesLE 3 sd.toNat
  else toBytesLE (kindBytes (bmKind ctl)) sd.toNat

/-- Whether an element equals lsu.sd1.o (R169). -/
def bmEqual (ctl : Nat) (data : List Byte) (sd : W48) : Bool :=
  if bmKind ctl = 3 then (List.range 8).any fun i => decide ((data.drop (3 * i)).take 3 = toBytesLE 3 sd.toNat)
  else decide (data = toBytesLE (kindBytes (bmKind ctl)) sd.toNat)

/-- Whether an entry has taken the core by cycle t (R171). -/
def takenBy (c : Core) (t : Nat) : Bool := match c.entering with | some e => decide (e.cycle0 ≤ t) | none => false

/-- The move is left for a resumption of its bundle (R171). -/
def bmLeave (s : State) (w : CoreSel) : State := s.setCore w { s.core w with bmove := none, bmvResume := true }

/-- The move ends in cycle t, and issue goes on (R85, R162, R170); once an entry has taken the core its bundle is resumed instead
(R171). -/
def bmFinish (s : State) (w : CoreSel) (b : Bmove) (t : Nat) : State :=
  let c := s.core w
  if takenBy c t then bmLeave s w else
    let c := advancePc (modeStep { c with bmove := none, bmvResume := false }) c.pc b.bytes (!b.user) (offBits w) []
    s.setCore w { c with readyAt := nextIssue s w c.level t }

/-- An iteration raises an exception in cycle t: it and every later one are left not done, and it is taken unless an entry runs
(R171). -/
def bmFault (s : State) (w : CoreSel) (b : Bmove) (t : Nat) (x : Nat × Nat × W32) : State :=
  let s := bmLeave s w
  if inSpan (s.core w) then s else raiseSync s w t ⟨x.1, x.2.1, b.slot, x.2.2, none⟩

/-- A register steps and bc counts down after an iteration is done (R169). -/
def bmCount (s : State) (w : CoreSel) (b : Bmove) (t : Nat) (regs : List Nat) : State :=
  let c := s.core w
  let c : Core := regs.foldl (fun (c : Core) k => { c with a := setNth c.a k (bmStep c k (nth c.a k 0)).2 }) c
  let c := { c with bc := c.bc - 1 }
  let s := s.setCore w { c with bmove := some b }
  if c.bc = 0 then bmFinish s w b t else s

/-- The iteration `it` becomes done in cycle t (R169, R170): first what its load did, then its store or its compare. -/
def bmDone (s : State) (w : CoreSel) (b : Bmove) (it : BmIter) (t : Nat) : State :=
  let src := bitsOf b.ctl 4 3
  let took := inSpan (s.core w) && it.fault.isSome
  let s := if took then s else (loadPieces w t it.pieces s).2.2
  match it.fault with
  | some x => bmFault s w b t x
  | none =>
    if bitsOf b.ctl 0 2 = 0 then
      let r := bmStore s w b t it.data
      match r.1 with
      | some x => bmFault r.2 w b t x
      | none => bmCount r.2 w b t [src, bitsOf b.ctl 8 3]
    else if bmEqual b.ctl it.data b.sd = decide (bitsOf b.ctl 0 2 = 2) then bmFinish s w b t
    else bmCount s w b t [src]

/-- One cycle of a block-repeat move (R170). From the cycle in which an entry takes the core on no load is issued, a fill stops, and
the iterations already loaded run to done (R171). -/
def bmCycle (s : State) (w : CoreSel) : State :=
  let c := s.core w
  match c.bmove with
  | none => s
  | some b =>
    let b := { b with ran := b.ran + 1 }
    let t := b.start + b.ran
    if bitsOf b.ctl 0 2 = 1 then
      if takenBy c t then bmLeave s w else
        let r := bmStore s w b t (bmFillData b.ctl b.sd)
        match r.1 with
        | some x => bmFault r.2 w b t x
        | none => bmCount r.2 w b t [bitsOf b.ctl 8 3]
    else
      let b := if b.loads < b.total ∧ !takenBy c t then bmLoad s w b t else b
      match b.iters with
      | [] => bmLeave s w
      | it :: rest =>
        if it.due ≤ b.ran then bmDone s w { b with iters := rest } it t else s.setCore w { c with bmove := some b }

/-- BMOVE_END: the move does what it does in cycle t. -/
def moveEnd (s : State) (w : CoreSel) (t : Nat) : State :=
  match (s.core w).bmove with
  | some b => if b.start + b.ran < t then bmCycle s w else s
  | none => s

/-! ### The task-state block (R224 to R227) -/

/-- Whether a frame is valid (R224, R418); exit does not apply the limit. -/
def frameOk (s : State) (w : CoreSel) (f : W32) (limit : Bool) : Bool :=
  decide (f.toNat % 0x300 = 0) &&
  (match w with
   | .eduno p => decide (f.toNat + 0x2FF ≤ 0x7FFFD) && (!limit || decide ((s.reg .coreTsblim p).toNat ≤ f.toNat))
   | .barista _ => decide (f.toNat + 0x2FF ≤ 0xFFFFF) && (!limit || decide ((s.reg .barTsblim).toNat ≤ f.toNat)))

/-- The state word (R226). -/
def tsbState (c : Core) (car : Option CarLoad) (rcv : Option Rcv) : Nat :=
  ofBool c.user + 2 * ofBool (decide (c.phase = .waiting)) +
  (match c.branch with | some (_, n) => 4 + 8 * (n % 4) | none => 0) +
  (match c.rep with | some n => 32 + 64 * (n % 128) | none => 0) +
  2 ^ 13 * ofBool c.bmvResume +
  2 ^ 14 * ofBool (nth c.loops 0 Loop.off).active + 2 ^ 15 * ofBool (nth c.loops 1 Loop.off).active +
  (match car with | some l => 2 ^ 16 + 2 ^ 17 * (l.kind % 4) | none => 0) +
  2 ^ 19 * ofBool rcv.isSome

/-- The pending mode changes, older first (R226); one of a bundle that a block-repeat move holds is saved with left = 2 (log entry 72). -/
def tsbModes (c : Core) : Nat :=
  let one (x : Nat × Bool) : Nat := 1 + 2 * ofBool x.2 + 4 * min x.1 2
  match c.modePend with
  | [] => 0
  | [x] => one x
  | x :: y :: _ => one x + 16 * one y

/-- The memory error due on the resume bundle (R184, R226): of several the one of the lowest slot (R217). -/
def tsbMerr (c : Core) : Nat :=
  match c.merr.foldl (fun a x => match a with
    | none => some x
    | some y => if x.slot < y.slot then some x else a) (none : Option MemErr) with
  | some e => e.addr.toNat + 2 ^ 32 * (e.kind % 8) + 2 ^ 35 * (e.slot % 8) + 2 ^ 38
  | none => 0

/-- The 255 bytes that entry writes (R226): the interrupted state, the level to return to, and what was withdrawn. -/
def tsbBytes (c : Core) (level : Nat) (car : Option CarLoad) (rcv : Option Rcv) : List Byte :=
  let w3 (v : Nat) : List Byte := toBytesLE 3 v
  let w6 (v : Nat) : List Byte := toBytesLE 6 v
  let l0 := nth c.loops 0 Loop.off
  let l1 := nth c.loops 1 Loop.off
  w3 (tsbState c car rcv) ++ w3 (if c.phase = .waiting then 0 else c.pc) ++
  w3 (match c.branch with | some (x, _) => x | none => 0) ++ w3 (tsbModes c) ++
  w3 (level % 32 + 32 * (c.p.toNat / 2)) ++ w3 c.cause.toNat ++ w6 c.baddr.toNat ++
  w3 l0.count ++ w3 l1.count ++ w3 l0.start ++ w3 l0.stop ++ w3 l1.start ++ w3 l1.stop ++ w3 c.bc.toNat ++ w6 c.ln.toNat ++
  w6 (match car with | some l => l.off | none => 0) ++ w3 (match rcv with | some r => r.q | none => 0) ++
  w6 (match rcv with | some r => r.expiry | none => 0) ++
  (List.range 8).flatMap (fun i => w3 (nth c.g i 0).toNat) ++
  (List.range 8).flatMap (fun i => w6 (nth c.a i 0).toNat) ++
  (List.range 8).flatMap (fun i => w6 (sext48 32 (nth c.m i 0).toNat).toNat) ++
  (List.range 4).flatMap (fun i => w6 (nth c.cb i 0).toNat) ++
  (List.range 4).flatMap (fun i => w6 (nth c.cl i 0).toNat) ++
  w6 (tsbMerr c) ++ List.replicate 15 0

/-- A field of a block as exit reads it. -/
def tsbNat (bs : List Byte) (off n : Nat) : Nat := ofBytesLE ((bs.drop off).take n)

/-- A value or, when the table does not list it, the first value it lists (R227). -/
def listed (v first : Nat) (l : List Nat) : Nat := if l.contains v then v else first

/-- The pending mode changes that a block holds (R226, R227). -/
def tsbPending (m : Nat) : List (Nat × Bool) :=
  (if bitOf m 0 then [(listed (bitsOf m 2 2) 1 [1, 2], bitOf m 1)] else []) ++
  (if bitOf m 4 then [(listed (bitsOf m 6 2) 1 [1, 2], bitOf m 5)] else [])

/-- The running level that a block names (R226, R227). -/
def tsbLevel (bs : List Byte) : Nat :=
  let v := tsbNat bs 0x0C 3 % 32
  if v ≤ 16 ∨ v = 31 then v else 0

/-- The core as a block restores it (R226, R227, R230, R418). -/
def tsbRestore (bits : Nat) (bs : List Byte) (c : Core) : Core :=
  let st := tsbNat bs 0 3
  let wait := bitOf st 1
  let off (x : Nat) : Nat := tsbNat bs x 3 % 2 ^ bits
  let rep := bitsOf st 6 7
  let merr := tsbNat bs 0xEA 6
  let a32 (base i : Nat) : W32 := BitVec.ofNat 32 (tsbNat bs (base + 6 * i) 6)
  { c with
    user := bitOf st 0
    phase := if wait then .waiting else .running
    pc := off 3
    branch := if !wait && bitOf st 2 then some (off 6, listed (bitsOf st 3 2) 1 [1, 2]) else none
    rep := if !wait && bitOf st 5 then some (if 1 ≤ rep ∧ rep ≤ 64 then rep else 1) else none
    repBytes := none
    bmvResume := !wait && bitOf st 13
    modePend := if wait then [] else tsbPending (tsbNat bs 9 3)
    level := tsbLevel bs
    p := BitVec.ofNat 8 (1 + 2 * bitsOf (tsbNat bs 0x0C 3) 5 7)
    cause := BitVec.ofNat 24 (tsbNat bs 0x0F 3) &&& 0xFFFFDF
    baddr := BitVec.ofNat 32 (tsbNat bs 0x12 6)
    loops := [{ active := bitOf st 14, start := off 0x1E, stop := off 0x21, count := tsbNat bs 0x18 2 },
              { active := bitOf st 15, start := off 0x24, stop := off 0x27, count := tsbNat bs 0x1B 2 }]
    bc := BitVec.ofNat 24 (tsbNat bs 0x2A 3)
    ln := BitVec.ofNat 48 (tsbNat bs 0x2D 6)
    g := (List.range 8).map (fun i => BitVec.ofNat 24 (tsbNat bs (0x42 + 3 * i) 3)) ++ c.g.drop 8
    a := (List.range 8).map (a32 0x5A), m := (List.range 8).map (a32 0x8A)
    cb := (List.range 4).map (a32 0xBA), cl := (List.range 4).map (a32 0xD2)
    merr := if !wait && bitOf merr 38 then
        [{ due := c.bcount, kind := listed (bitsOf merr 32 3) 0 [0, 1, 2, 3, 4, 5], slot := bitsOf merr 35 3
           addr := BitVec.ofNat 32 merr }] else [] }

/-- The registers of core r wherever `back` names the register, else those of core c: g0 to g7, a, m, cb, cl, p, ln, bc and
ctl.baddr (R231). -/
def regsMix (c r : Core) (back : Nat → Bool) : Core :=
  let mix {α : Type} (base : Nat) (l k : List α) : List α :=
    l.mapIdx fun i v => if back (base + i) then (k[i]?).getD v else v
  { c with
    g := mix 0 (c.g.take 8) r.g ++ c.g.drop 8, a := mix 8 c.a r.a, m := mix 16 c.m r.m, cb := mix 24 c.cb r.cb, cl := mix 28 c.cl r.cl
    p := if back 32 then r.p else c.p, ln := if back 33 then r.ln else c.ln, bc := if back 34 then r.bc else c.bc
    baddr := if back 35 then r.baddr else c.baddr }

/-! ### Stops -/

/-- A core stops in cycle t (R225). -/
def stopCore (s : State) (p reason t : Nat) : State :=
  let s := s.setCore (.eduno p) { s.core (.eduno p) with phase := .stopped, entering := none, exit := none }
  let s := s.setReg .coreXstat (BitVec.ofNat 32 (reason * 4 + 1)) p
  pulse (countEvent s t 0x02 p) 1 t

/-- A frame that is not valid, or that cannot be read: a stop, or a pair fault (R225, R417). -/
def badFrame (s : State) (w : CoreSel) (reason t : Nat) : State :=
  match w with
  | .eduno p => stopCore s p reason t
  | .barista r => pairFault s r t

/-! ### Entry (R228) -/

/-- The ungranted loads of a core are withdrawn; the one recorded is that of the interrupted mode if it has one (R228, R230). -/
def drawLoads (c : Core) : Option CarLoad × Core :=
  let out (sup : Bool) : Option CarLoad := (loadOf c sup).filter fun l => !loadGranted l
  let left (l : Option CarLoad) : Option CarLoad := l.filter loadGranted
  (match out (!c.user) with | some l => some l | none => out c.user, { c with carU := left c.carU, carS := left c.carS })

/-- The receives of a core are withdrawn; the one recorded is that of the interrupted mode if it has one (R228, R230). -/
def drawRcvs (c : Core) : Option Rcv × Core :=
  (match rcvOf c (!c.user) with | some r => some r | none => rcvOf c c.user, { c with rcvU := none, rcvS := none })

/-- What is still in flight completes in cycle t (R228, R230). -/
def drainCore (s : State) (w : CoreSel) (t : Nat) : State :=
  let s := carDeliver (carDeliver s w false t) w true t
  s.setCore w (settleAllOps (s.core w))

/-- The value of ctl.cause for an entry (R216). -/
def causeWord (umode : Bool) (x : Cause) (ticket : Nat) : W24 :=
  BitVec.ofNat 24 (ticket * 2 ^ 13 + ofBool umode * 2 ^ 12 + (x.slot % 8) * 2 ^ 9 + (x.kind % 8) * 2 ^ 6 + x.code)

/-- The ticket an entry records (R216, R249, R417): a Barista entry claims none, and what its ticket field holds is a free value
(log entry 29). -/
def entryTicket (s : State) (w : CoreSel) (e : Entering) : Nat × State :=
  match e.req.cause.ticket, w with
  | none, _ => (0, s)
  | some _, .eduno _ => (e.claimed.getD 2047, s)
  | some _, .barista _ => s.free 3 11

/-- Handler offset (R223, R417). -/
def handlerOff (s : State) (w : CoreSel) (ticket : Bool) : Nat :=
  match w with
  | .eduno p => if ticket then s.fld .coreHvec 31 16 p else s.fld .coreHvec 15 0 p
  | .barista _ => if ticket then s.fld .barHvecTkt 19 0 else s.fld .barHvecExc 19 0

/-- The entry of a takeover takes 32 cycles: what R228 does from cycle 80 on it does 64 cycles earlier (R423; log entry 71). -/
def entrySkip (e : Entering) : Nat := if e.req.cause.code = 0x0D then 64 else 0

/-- The cycle and the phase within it of an entry's next stage. -/
def entryDue (e : Entering) : Nat × Nat :=
  match e.stage with
  | 0 => (e.cycle0, 3)
  | 1 => (e.cycle0 + e.lastIssue + 1, 0)
  | 2 => (e.cycle0 + e.lastIssue + 1, 3)
  | 10 => (e.cycle0 + 96 - entrySkip e, 0)
  | k => (e.cycle0 + 77 + k - entrySkip e, 0)

/-- The registers that an entry chained in cycle t finds (R231): those of the handler before cycle 22 of the exit, and a part of the
restored ones that is open between cycles 22 and 39. -/
def chainRegs (s : State) (w : CoreSel) (x : Exiting) (t : Nat) : State :=
  let c := s.core w
  if x.cycle0 + 22 ≤ t ∧ t < x.cycle0 + 40 then
    let f := s.free 2 64
    f.2.setCore w (regsMix c (tsbRestore (offBits w) x.bytes c) (bitOf f.1))
  else s

/-- Stage 0: the level takes effect and an asynchronous exception is no longer pending (R212, R214); a chained entry ends the exit
(R231). -/
def beginEntry (s : State) (w : CoreSel) (e : Entering) (t : Nat) : State :=
  let s := match e.chained, (s.core w).exit with | true, some x => chainRegs s w x t | _, _ => s
  let c := clearTaken (s.core w) e.req.cause.code
  let e := { e with stage := 1, saved := c.level, handler := handlerOff s w e.req.cause.ticket.isSome }
  let c := { c with level := e.req.level }
  match e.chained, c.exit with
  | true, some x => s.setCore w { c with
      exit := none, tsbr := x.tsbr, tsbrAt := some t, entering := some { e with umode := some (bitOf (tsbNat x.bytes 0 3) 0) } }
  | _, _ => s.setCore w { c with entering := some e }

/-- Bytes 48k to 48k + 47 of the block are written in cycle 80 + k. -/
def writeTsb (s : State) (w : CoreSel) (e : Entering) (k t : Nat) : State :=
  let part := (e.bytes.drop (48 * k)).take 48
  let s := storePieces w t (s.core w).bcount [(e.frame.toNat + 48 * k, part.length)] part s
  s.setCore w { s.core w with entering := some { e with stage := 4 + k } }

/-- Stage 3: what was in flight has completed, the frame is checked, and the block starts to be written. -/
def saveState (s : State) (w : CoreSel) (e : Entering) (t : Nat) : State :=
  let s := drainCore s w t
  let c := s.core w
  if e.chained then s.setCore w { c with entering := some { e with stage := 9 } }
  else if !frameOk s w c.tsbr true then badFrame s w 1 t
  else writeTsb s w { e with frame := c.tsbr, bytes := tsbBytes c e.saved e.car e.rcv } 0 t

/-- Stage 9: what cycle 86 does. -/
def startHandler (s : State) (w : CoreSel) (e : Entering) (t : Nat) : State :=
  let tk := entryTicket s w e
  let c := tk.2.core w
  let isT := e.req.cause.ticket.isSome
  tk.2.setCore w { c with
    tsbr := if e.chained then c.tsbr else c.tsbr - 0x300, tsbrAt := some t
    cause := causeWord (e.umode.getD c.user) e.req.cause tk.1, baddr := if isT then c.baddr else e.req.cause.baddr
    user := false, branch := none, loops := [Loop.off, Loop.off], rep := none, repBytes := none, modePend := []
    bmvResume := false, lbuf := .wait, merr := [], pc := e.handler, readyAt := e.cycle0 + 96 - entrySkip e, phase := .running
    entering := some { e with stage := 10 }
    claims := (match w, isT with | .eduno _, true => some tk.1 | _, _ => none) :: c.claims }

/-- Stage 10: the handler's first bundle is due, unless a request presented during the entry starts a second one (R229). -/
def endEntry (s : State) (w : CoreSel) (e : Entering) (t : Nat) : State :=
  let c := s.core w
  s.setCore w { c with entering := e.next.map fun r =>
    { cycle0 := t, lastIssue := 0, req := r, chained := false, second := true, stage := 0, claimed := none, handler := 0, frame := 0
      saved := c.level, umode := none, car := none, rcv := none, bytes := [], next := none } }

/-- The next stage of an entry, in cycle t. -/
def entryStage (s : State) (w : CoreSel) (e : Entering) (t : Nat) : State :=
  let c := s.core w
  match e.stage with
  | 0 => beginEntry s w e t
  | 1 => let d := drawLoads c; s.setCore w { d.2 with entering := some { e with stage := 2, car := d.1 } }
  | 2 => let d := drawRcvs c; s.setCore w { d.2 with entering := some { e with stage := 3, rcv := d.1 } }
  | 3 => saveState s w e t
  | 9 => startHandler s w e t
  | 10 => endEntry s w e t
  | k => writeTsb s w e (k - 3) t

/-- ENTRY: the stages of an entry fall due by themselves; the command presents what the core can take in cycle t. -/
def enterCore (s : State) (w : CoreSel) (t : Nat) : State := presentCore s w t

/-! ### Exit (R230, R231) -/

/-- The cycle of an exit's next stage. -/
def exitDue (x : Exiting) : Nat :=
  x.cycle0 + (match x.stage with | 0 => 1 | 7 => 22 | 8 => 40 | 9 => 41 | 10 => 48 | k => 15 + k)

/-- The ticket that the ending handler's entry claimed, the first of `claims`, completes (R239). -/
def completeClaim (s : State) (w : CoreSel) (claims : List (Option Nat)) (t : Nat) : State :=
  match w, claims with
  | .eduno p, some n :: _ => completeTicket s p n t
  | _, _ => s

/-- The exit that a bundle of cycle t starts (R230): what the handler had pending is discarded, the level of the frame applies, the
claim completes, and a request that the saved level lets through chains. The frame read in cycle 0 gives that level (log entry 73). -/
def exitCore (s : State) (w : CoreSel) (t : Nat) : State :=
  let c := s.core w
  let frame := c.tsbr + 0x300
  let ok := frameOk s w frame false
  let bs := if ok then memRead s.mem (localPhys w frame.toNat) 255 else []
  let s := s.setCore w { c with
    claims := c.claims.drop 1, branch := none, rep := none, repBytes := none, modePend := [], merr := []
    loops := [Loop.off, Loop.off], lbuf := .wait, level := if ok then tsbLevel bs else c.level, entering := none
    exit := some { cycle0 := t, tsbr := c.tsbr, frame := frame, stage := 0, bytes := bs } }
  presentCore (completeClaim s w c.claims t) w t

/-- Bytes 48k to 48k + 47 of the block are read in cycle 16 + k; an uncorrectable error stops the core (R225). -/
def readTsb (s : State) (w : CoreSel) (x : Exiting) (k t : Nat) : State :=
  let n := min 48 (255 - 48 * k)
  let pa := localPhys w (x.frame.toNat + 48 * k)
  let us := unitsOf pa n
  if badUnits s us ≠ [] then badFrame s w 3 t else
    let s := correctUnits s t us
    s.setCore w { s.core w with
      exit := some { x with stage := k + 2, bytes := splice x.bytes (48 * k) (asBefore s.extOld t pa (memRead s.mem pa n)) } }

/-- Stage 1: the handler's operations have completed, and T is checked. -/
def checkReturn (s : State) (w : CoreSel) (x : Exiting) (t : Nat) : State :=
  let s := drainCore s w t
  let frame := (s.core w).tsbr + 0x300
  if !frameOk s w frame false then badFrame s w 2 t else readTsb s w { x with frame := frame } 0 t

/-- Stage 9: the recorded load and the recorded receive start again, in the unit set of the mode that exit returns to (log entry 27).
A receive that finds an item takes it, even past its expiry. -/
def exitRestart (s : State) (w : CoreSel) (bs : List Byte) (t : Nat) : State :=
  let st := tsbNat bs 0 3
  let sup := !bitOf st 0
  let s := if bitOf st 16 then carLoadStart s w (tsbNat bs 0x33 4) (listed (bitsOf st 17 2) 0 [0, 1, 2]) 0 sup t else s
  match bitOf st 19, w with
  | true, .eduno p =>
    let r : Rcv := ⟨tsbNat bs 0x39 2, t, tsbNat bs 0x3C 6, false, false⟩
    s.setCore w (setRcv (s.core w) sup (some { r with sure := rcvHasItem s p r }))
  | _, _ => s

/-- The next stage of an exit, in cycle t. -/
def exitStage (s : State) (w : CoreSel) (x : Exiting) (t : Nat) : State :=
  let c := s.core w
  let next : Option Exiting := some { x with stage := x.stage + 1 }
  match x.stage with
  | 0 => let d := (drawRcvs (drawLoads c).2).2; s.setCore w { d with exit := next }
  | 1 => checkReturn s w x t
  | 7 => s.setCore w { c with tsbr := x.frame, tsbrAt := some t, exit := next }
  | 8 => s.setCore w { tsbRestore (offBits w) x.bytes c with level := c.level, exit := next }
  | 9 => let s := exitRestart s w x.bytes t; s.setCore w { s.core w with exit := next }
  | 10 => s.setCore w { c with exit := none, readyAt := x.cycle0 + 48, eopDone := c.eopDone || decide (c.phase = .waiting) }
  | k => readTsb s w x (k - 1) t

/-- BUNDLE_ISSUE: one bundle, and the exit if it moved to ctl.rfe. -/
def issueCore (s : State) (w : CoreSel) (t : Nat) : State :=
  let r := issueBundle s w t
  if r.2 then exitCore r.1 w t else r.1

end Sys2Proof.Machine
end

