-- ==== Sys2Proof/Machine/Passing.lean ====
section
/-! DEFINITION. What happens by itself as time passes between commands: the stages of entries and exits, the repetitions and
moves that run into an entry, falling edges, shadow writes, a takeover of the pairs, and register writes that take effect at a
cycle of their own (R51, R160, R228 to R231, R236, R249, R420, R423). -/

namespace Sys2Proof.Machine

/-- A thing that is due: four times its cycle plus its place in it, and what it does. Place 0 is the start of the cycle, before
its commands; 1 to 3 come after them: edges and moves, repetitions, and what R228 lets follow every update of the cycle. -/
abbrev Due := Nat × (State → State)

/-- All cores that hold something in progress. -/
def busySels (s : State) : List CoreSel :=
  let busy (c : Core) : Bool :=
    c.entering.isSome || c.exit.isSome || c.bmove.isSome || (c.missed && decide (c.phase = .waiting))
  (((s.cores.zipIdx).filter fun c => busy c.1).map fun c => CoreSel.eduno c.2) ++
    (((s.baristas.zipIdx).filter fun c => busy c.1).map fun c => CoreSel.barista c.2)

/-- What a core's entry owes (R228, R249): its next stage, and the claim at the end of cycle 40. -/
def entryItems (w : CoreSel) (e : Entering) : List Due :=
  let d := entryDue e
  (4 * d.1 + d.2, fun s => match (s.core w).entering with | some e => entryStage s w e d.1 | none => s) ::
    match w with
    | .eduno p =>
      if 0 < e.stage ∧ e.req.cause.ticket.isSome ∧ e.claimed.isNone then
        [(4 * (e.cycle0 + 40) + 3, fun s => claimEntry s p (e.cycle0 + 40))] else []
    | .barista _ => []

/-- The next repetition of a span that an entry waits for (R165, R228), in the first cycle in which it can issue. -/
def spanItems (w : CoreSel) (c : Core) (e : Entering) : List Due :=
  let x := max c.readyAt (e.cycle0 + 1)
  if 0 < e.stage ∧ e.stage ≤ 1 ∧ canIssue c x = true then [(4 * x + 2, fun s => issueCore s w x)] else []

/-- The pour entry of a core whose handler ran over the wait (R151). -/
def missedItems (w : CoreSel) (c : Core) : List Due :=
  match w with
  | .eduno p =>
    if c.missed ∧ c.phase = .waiting ∧ c.entering.isNone ∧ c.exit.isNone then
      [(4 * (c.readyAt + 1), fun s => pourEntry s p (c.readyAt + 1) false)] else []
  | .barista _ => []

/-- What a core owes. -/
def coreItems (s : State) (w : CoreSel) : List Due :=
  let c := s.core w
  (match c.exit with
   | some x => [(4 * exitDue x, fun s => match (s.core w).exit with | some y => exitStage s w y (exitDue x) | none => s)]
   | none => []) ++
  (match c.entering with
   | some e => entryItems w e ++ spanItems w c e
   | none => []) ++
  (match c.bmove with
   | some b => [(4 * (b.start + b.ran + 1) + 1, fun s => bmCycle s w)]
   | none => []) ++
  missedItems w c

/-- What the pairs owe (R420, R423). -/
def pairItems (s : State) : List Due :=
  (match s.pairs.faultAt with
   | some (c, r) => (if s.pairs.returned then [] else [(4 * (c + 1), fun s => pairReturn s (c + 1))]) ++
       [(4 * (c + 64), fun s => takeOver s c r)]
   | none => []) ++
  (match s.shadowQ with
   | e :: _ => [(4 * (e.2.2.2 + 64), fun s => settleShadow s (e.2.2.2 + 64))]
   | [] => [])

/-- A register write that takes effect at a cycle of its own (R160). -/
def writeDue (d : Deferred) (s : State) : State :=
  { s with regs := kput s.regs d.off d.val, deferred := s.deferred.erase d }

/-- What registers, queues, sources, timer channels, a loss of ring time and frames in their slots owe. -/
def otherItems (s : State) : List Due :=
  (s.deferred.filterMap fun d => d.at'.map fun c => (4 * c, writeDue d)) ++
  (s.queues.filterMap fun q => q.2.clearAt.map fun c => (4 * c, fun s => clearEn s q.1)) ++
  (s.srcs.filterMap fun x => x.2.fall.map fun f => (4 * f + 1, fun s => fallEdge s x.1 f)) ++
  ((writtenChans s).filterMap fun n => (chanNext s n).map fun c => (4 * c + 1, fun s => settleChan s n c)) ++
  (s.lossAt.toList.map fun c => (4 * (c + 1), fun s => holdover s (c + 1))) ++
  (s.ring.slots.map fun x => (4 * x.at' + 1, fun s => leaveSlot s x)) ++
  (s.snaps.map fun e => (4 * e.2.2 + 2, fun s => snapsEnd s e.2.2))

/-- Everything that is due. -/
def dueItems (s : State) : List Due := pairItems s ++ otherItems s ++ (busySels s).flatMap (coreItems s)

/-- The first of what is due; of equals, the first in the list. -/
def earliest : List Due → Option Due
  | [] => none
  | x :: rest => match earliest rest with | some y => if y.1 < x.1 then some y else some x | none => some x

/-- What is due before place 1 of cycle t happens, in its order. -/
def settle : Nat → Nat → State → State
  | 0, _, s => s
  | n + 1, t, s =>
    match earliest (dueItems s) with
    | some x => if x.1 ≤ 4 * t then settle n t (x.2 { s with ntc := max s.ntc (x.1 / 4) }) else s
    | none => s

/-- Time reaches the stamp of a command (R51), with what falls due before it. In Sleep the core clock stands still (R520). A
module reset on the way restarts the NTC (R254). -/
def reach (s : State) (t : Nat) : State :=
  if s.power.asleep.isSome then { s with ntc := max s.ntc t } else
    let r := settle (2 ^ 17 * (t + 2 - s.ntc)) t s
    if r.power.resetOn ∧ !s.power.resetOn then r else { r with ntc := max r.ntc t }

end Sys2Proof.Machine
end

