-- ==== Sys2Proof/Machine/Stretch.lean ====
section
/-! DEFINITION. The load of the NTC at the end of a stretch (R41, R254, R352, R392). -/

namespace Sys2Proof.Machine

/-- The expiries of the receives of a core, recorded ones included: a timeout of D cycles stays one of D cycles (R52). -/
def moveExpiry (f : Nat → Nat) (c : Core) : Core :=
  let rcv (r : Rcv) : Rcv := { r with expiry := f r.expiry }
  { c with rcvU := c.rcvU.map rcv, rcvS := c.rcvS.map rcv
           entering := c.entering.map fun e => { e with rcv := e.rcv.map rcv } }

def movePort (f : Nat → Nat) (p : RPort) : RPort :=
  { p with
    lastBeat := f p.lastBeat, since := f p.since, linkOk := p.linkOk.map f
    beacon := p.beacon.map fun b => { b with at' := f b.at' }
    req := p.req.map f, beaconSent := p.beaconSent.map f, reqSent := p.reqSent.map f, grantSent := p.grantSent.map f, free := f p.free }

/-- The cycles that the rail, the timers and the pins hold. Marks of one cycle alone are dropped. -/
def moveRail (f : Nat → Nat) (s : State) : State :=
  { s with
    hwSet := [], regWas := (0, []), extOld := (0, []), coreOld := (0, []), grpAt := []
    srcs := s.srcs.map fun e => (e.1, { e.2 with
      span := e.2.span.map fun x => (f x.1, f x.2), fall := e.2.fall.map f, winEnd := e.2.winEnd.map f, latchAt := none })
    privSpan := s.privSpan.map fun e => (e.1, f e.2)
    carLast := s.carLast.map fun e => (e.1, e.2.1, 0)
    chans := s.chans.map fun e => (e.1, { e.2 with
      armAt := e.2.armAt.map f, commitAt := e.2.commitAt.map f, incAt := e.2.incAt.map f, offAt := e.2.offAt.map f, todo := e.2.todo.map f })
    snaps := s.snaps.map fun e => (e.1, e.2.1, f e.2.2)
    capts := s.capts.map fun e => (e.1, { e.2 with readAt := none, lastEv := none })
    tpHist := s.tpHist.map fun e => (f e.1, e.2)
    pinActs := [] }

/-- The cycles that every other part holds. -/
def moveRest (f : Nat → Nat) (s : State) : State :=
  { s with
    lossAt := s.lossAt.map f
    deferred := s.deferred.map fun d => { d with stamp := f d.stamp, at' := d.at'.map f }
    shadowQ := s.shadowQ.map fun e => (e.1, e.2.1, e.2.2.1, f e.2.2.2)
    queues := s.queues.map fun e => (e.1, { e.2 with born := e.2.born.map fun b => (f b.1, b.2) })
    ring := { s.ring with
      ports := s.ring.ports.map (movePort f), slots := s.ring.slots.map fun x => { x with at' := f x.at' }
      streams := s.ring.streams.map fun e => (e.1, f e.2.1, e.2.2) }
    keep := { s.keep with cmds := s.keep.cmds.map fun e => (e.1, { e.2 with at' := f e.2.at' }) }
    boot := { s.boot with warmAt := s.boot.warmAt.map f }
    pairs := { s.pairs with
      faultAt := s.pairs.faultAt.map fun x => (f x.1, x.2), wdogAt := s.pairs.wdogAt.map f, restoreAt := s.pairs.restoreAt.map f }
    pcie := { s.pcie with
      reads := s.pcie.reads.map fun r => { r with at' := f r.at' }, stopped := s.pcie.stopped.map fun x => (x.1, f x.2) }
    power := { s.power with sleepReq := s.power.sleepReq.map f }
    service := { s.service with scrubStart := f s.service.scrubStart, spareQ := s.service.spareQ.map fun e => (e.1, f e.2) }
    audio := { s.audio with
      first := s.audio.first.map f, xfades := s.audio.xfades.map fun x => (x.1, f x.2)
      places := s.audio.places.map fun p => { p with run := p.run.map fun r => (r.1, f r.2) } } }

/-- Crema at the load: what was in progress is cut, and what has not begun waits for a boundary of the new grid (R352). -/
def crmMove (s : State) (o n : Nat) : State :=
  let s := crmRebase (crmCutAll s o) o n
  let chan (c : CrmChan) : CrmChan :=
    { c with
      cmd := c.cmd.map fun x => (x.1, moved o n x.2)
      win := c.win.map fun w => { w with start := ceilDiv n crmFrame * crmFrame }
      done := none, fastOpenAt := none, fastShortAt := none }
  let run (r : CrmRun) : CrmRun := { r with next := moved o n r.next }
  let q : Crema := { s.crema with chans := s.crema.chans.map chan, runs := s.crema.runs.map (Option.map run) }
  { s with crema := q }

/-- The load of m × P at cycle o of the old grid (R254): counts stay, ports are reframed, and the device enters Slewing (R41). -/
def ntcLoad (s : State) (o m : Nat) : State :=
  let n := m * s.pourLen
  let s := crmMove (rebaseChans s o n) o n
  let s := moveRest (moved o n) (moveRail (moved o n) s)
  let s := { s with
    ntc := n, stretch := none
    cores := s.cores.map fun c => moveExpiry (moved o n) (moveCore (moved o n) c), baristas := s.baristas.map (moveCore (moved o n))
    takeover := s.takeover.map fun (k : Takeover) => { k with t0 := moved (o / s.pourLen) m k.t0, m := moved (o / s.pourLen) m k.m } }
  portsReframe (setTickSource (s.setBit .tmrPourStat 3 true) 3) n

end Sys2Proof.Machine
end

