-- ==== Sys2Proof/Machine/Tick.lean ====
section
/-! DEFINITION. The tick (R37, R41, R43, R48, R148 to R151, R160, R220, R391, R438, R441, R479, R485, R518). -/

namespace Sys2Proof.Machine

/-- The cycle of the next tick (R37, R41, R438, R520): none before the tamp and in Sleep. -/
def tickCycle (s : State) : Option Nat :=
  match s.tickMin, s.power.asleep with
  | some lo, none =>
    let p := (withPourCfg s).pourLen
    match s.stretch, s.lastTick with
    | some (k, _), some l => some (max s.ntc (l + p + k))
    | _, some l => some (ceilDiv (max (max s.ntc lo) (l + 1)) p * p)
    | _, none => some (ceilDiv (max s.ntc lo) p * p)
  | _, _ => none

/-- A register write that waited for the tick takes effect (R160, R391, R479, R485). TMR_POUR_CFG has done so at the first
tick alone (R43). -/
def applyDeferred (t : Nat) (s : State) (d : Deferred) : State :=
  match lookupReg d.off with
  | some (.tmrPourCfg, _, _) | none => s
  | some (.aptPortCfg, i, _) => portApply (s.setReg .aptPortCfg d.val i) i t
  | some (.hltCntCfg, i, _) => counterConfig s i (s.pourAt t) d.val
  | some (.sysShed, _, _) =>
    let s := s.setReg .sysShed d.val
    { s with audio := { s.audio with shed := s.fld .sysShed 3 0 } }
  | some (n, i, j) => s.setReg n d.val i j

/-- A value staged by a warm reboot takes effect under its field's rule (R43, R391, R441). -/
def applyStaged (t : Nat) (s : State) (e : Nat × W32) : State :=
  match lookupReg e.1 with
  | some (.tmrPourCfg, _, _) | none => s
  | some (n, i, j) =>
    let s := s.setReg n (mergeRwb n (s.reg n i j).toNat e.2.toNat) i j
    if n = .aptPortCfg then portApply s i t else s

/-- The first tick: TMR_POUR_CFG takes effect, and a device alone is in Free and drops what ring time had begun (R38, R43). -/
def firstTick (s : State) : State :=
  if s.lastTick.isSome then s else
    let s := withPourCfg s
    if s.bit .tmrPourCfg 0 then { setTickSource s 0 with stretchOff := none, lossAt := none } else s

/-- What waited for this tick takes effect. -/
def configTick (s : State) (t : Nat) : State :=
  let s := firstTick s
  let due := s.deferred.filter fun d => d.at'.isNone && decide (d.stamp < t)
  let s := { s with deferred := s.deferred.filter fun d => !(d.at'.isNone && decide (d.stamp < t)) }
  let s := due.foldl (applyDeferred t) s
  if s.boot.due.isEmpty then s else
    let s := s.boot.due.foldl (applyStaged t) s
    let s := s.setBoot { s.boot with due := [] }
    crmDisabled ([0, 1, 2, 3].foldl (fun s p => configPort s p t) s)

/-- Whether core p is late at the tick in cycle t: it holds a logical core, it is not held or stopped, and its end-of-pour move has
not executed before the tick (R34, R48, R220). A core whose handler ran through the whole pour whose entry it missed is not: it had
no program of that pour to end (log entry 84). -/
def isLate (s : State) (t p : Nat) : Bool :=
  let c := s.core (.eduno p)
  (s.lcoreOf p).isSome && (!c.eopDone || c.eopAt == some t) && decide (c.phase = .running ∨ c.phase = .waiting)

/-- The overrun of one core (R48, R50, R220). What an end-of-pour move in the tick's own cycle committed is discarded: the move
belongs to the new pour (R34, R50). -/
def overrunCore (t : Nat) (s : State) (p : Nat) : State :=
  let c := s.core (.eduno p)
  let s := if c.eopAt = some t then dropCommitted (dropCommitted s p (s.pourAt t)) p s.audio.ended else s
  let s := s.setCore (.eduno p) { c with
    ovrForce := true
    overrun := match c.overrun with | some n => some n | none => some (c.pour.getD 0 % 2 ^ 32) }
  countEvent s t 0x01 p

/-- Pour overrun at a tick (R48). -/
def overrunTick (s : State) (t : Nat) : State :=
  match (List.range s.cores.length).filter (isLate s t) with
  | [] => s
  | p :: rest =>
    let s := (s.raise t .tmrPourStat 4).setFld .tmrPourStat 31 24 p
    pulse ((p :: rest).foldl (overrunCore t) s) 0 t

/-- A stopped core falls under the core-stop cause from the first pour it does not complete (R225, R399). -/
def stoppedTick (s : State) : State :=
  { s with cores := s.cores.map fun c =>
      if c.phase = .stopped then { c with eopDone := false, ovrForce := c.ovrForce || !c.eopDone } else c }

/-- Pour entries (R148, R151): a core that waits enters; one whose handler runs, or is being entered or left, does so later. A core
whose end-of-pour move falls in this cycle does not wait yet (R34). -/
def entryTick (t : Nat) (s : State) (p : Nat) : State :=
  let c := s.core (.eduno p)
  let inEntry := match c.entering with | some e => decide (e.cycle0 < t) | none => false
  if (s.lcoreOf p).isNone ∨ (c.phase ≠ .waiting ∧ c.phase ≠ .running) ∨ c.eopAt = some t then s
  else if inEntry = true ∨ c.exit.isSome ∨ (c.phase = .running ∧ !c.claims.isEmpty) then
    s.setCore (.eduno p) { c with missed := true }
  else if c.phase = .waiting then pourEntry s p t true
  else s

/-- A stretch that is due is computed at the tick in cycle t (R41): k cycles to the realm tick m. -/
def stretchTick (s : State) (t : Nat) : State :=
  match s.stretchOff with
  | none => s
  | some off =>
    let r := ((t + s.pourLen : Nat) - off : Int).toNat
    let m := ceilDiv r s.pourLen
    { s with stretchOff := none, stretch := some (m * s.pourLen - r, m) }

/-- The tick empties every loop buffer (R175): the next pass of a loop captures again. -/
def bufferTick (s : State) : State :=
  let empty (c : Core) : Core := { c with lbuf := .wait }
  { s with cores := s.cores.map empty, baristas := s.baristas.map empty }

/-- What happens at the tick in cycle t, pour entries apart. -/
def boundaryTick (s : State) (t evac : Nat) : State :=
  let first := s.lastTick.isNone
  let s := configTick s t
  let n := s.pourAt t
  let ended := match s.lastTick with | some l => s.pourAt l | none => n - 1
  let s := { s with audio := { s.audio with ended := ended, first := if first then some t else s.audio.first } }
  let s := bufferTick (stoppedTick (overrunTick (countersTick s n t) t))
  let s := placesTick (flipsTick (takeOversTick s n t) n t) n t
  let s := evacTick s (evacLands s evac)
  let s := restoreTick (if first then blendTick s t else s) n t
  let s := if t % crmFrame = 0 then crmBoundary s t else s
  let s := edgeTick (ringTick s n t) n t
  stretchTick (hrIssueRings (timersTick (runnerTick s t) t) t) t

/-- TICK in the cycle that `tickCycle` gives. -/
def tickAt (s : State) (o evac : Nat) : State :=
  let s := reach s o
  let st := s.stretch
  let s := match st with | some (_, m) => ntcLoad s o m | none => s
  let t := match st with | some _ => s.ntc | none => o
  let s := boundaryTick s t evac
  let s := if sleepDue s t then sleepEnter s t else (List.range s.cores.length).foldl (entryTick t) s
  presentAll { s with lastTick := some t } t

/-- TICK: before the tamp and in Sleep there is none. -/
def tick (s : State) (evac : Nat) : State :=
  match tickCycle s with
  | some o => tickAt s o evac
  | none => s

end Sys2Proof.Machine
end

