-- ==== Sys2Proof/Machine/CmdOps.lean ====
section
/-! DEFINITION. What every command does with time, and accesses that commands make. -/

namespace Sys2Proof.Machine

/-- What a step answers. -/
abbrev Out := Host.Outcome State Fault Refusal

/-- Time reaches the stamp of a command, then its effect (R51). -/
def now (s : State) (t : Nat) (f : State → State) : State := f (reach s t)

/-- The same for what runs on the core clock: in Sleep it does nothing (R255, R518). -/
def awake (s : State) (t : Nat) (f : State → State) : State :=
  if (reach s t).power.asleep.isSome then reach s t else f (reach s t)

/-- An effect for an index below a bound. -/
def upTo (n i : Nat) (s : State) (f : State → State) : State := if i < n then f s else s

/-- An effect for a core of the device. -/
def onCore (w : CoreSel) (s : State) (f : State → State) : State := if selValid w then f s else s

/-- A write of instance i of a register. -/
def regPut (s : State) (ini : Ini) (n : RegName) (i : Nat) (v : W32) (t : Nat) : State :=
  if i < (regRow n).n1 then busWrite s ini (regOff n i 0) v t else s

/-- A read of instance i of a register; the initiator gets the value. -/
def regGet (s : State) (ini : Ini) (n : RegName) (i t : Nat) : State :=
  if i < (regRow n).n1 then
    let r := busRead s (decide (ini ≠ .jtag)) (regOff n i 0) t
    r.2.answer ini (toBytesLE 4 r.1.toNat) false
  else s

/-- Who writes a register set of the Runner (R297). -/
def endIni (i : Nat) : Ini := if i = 0 then .barista else .host

/-- Who writes a command set of the keep (R467). -/
def setIni (set : Nat) : Ini := if set = 0 then .barista else if set = 1 then .host else .jtag

/-- Cycles of one full pass of the scrubber (R210). -/
def scrubCycles (period : Nat) : Nat := nth [1, 2, 4, 8, 24] period 4 * 3600 * 1536000000

/-- The scrubber's pass in cycle t: the next one begins where one ends, with the period that CAR_DRAM_SCRUB then holds (R210). -/
def scrubPass (s : State) (t : Nat) : State :=
  let v := s.service
  let len := scrubCycles v.scrubPeriod
  if t < v.scrubStart + len then s
  else { s with service := { v with
    scrubStart := v.scrubStart + len, scrubPeriod := s.fld .carDramScrub 2 0, scrubbed := [] } }

/-- SCRUB_LINE: the DRAM line that holds an address is read, once in a pass (R210, R211). -/
def scrubLine (s : State) (a t : Nat) : State :=
  let s := scrubPass s t
  let l := a % 0x200000000 / 64
  if s.service.scrubbed.contains l then s else
  let s := { s with service := { s.service with scrubbed := l :: s.service.scrubbed } }
  let us := unitsOf (64 * l) 64
  let bad := badUnits s us
  let s := correctUnits s t us
  bad.foldl (fun s u => uncorrectable s t .scrub u) s

end Sys2Proof.Machine
end

