-- ==== Sys2Proof/Machine/AudioCmds.lean ====
section
/-! DEFINITION. Commands of the audio paths: one meaning for each. -/

namespace Sys2Proof.Machine

/-- EVAC_DEBOUNCED_CHANGE (R402). -/
def execEvacDebouncedChange (t : Nat) (e : Nat) (s : State) : Out :=
  .next (awake s t fun s => upTo 8 e s fun s => evacChange s e t)

/-- EVAC_MESSAGE_START (R403). -/
def execEvacMessageStart (t : Nat) (e : Nat) (s : State) : Out :=
  .next (awake s t fun s => upTo 8 e s fun s => evacStart s e t)

/-- EVAC_MESSAGE_END (R404). -/
def execEvacMessageEnd (t : Nat) (e : Nat) (s : State) : Out :=
  .next (awake s t fun s => upTo 8 e s fun s => evacEnd s e)

/-- BANK_FLIP_REQUEST (R407). -/
def execBankFlipRequest (t : Nat) (ini : Ini) (v : W32) (s : State) : Out :=
  .next (awake s t fun s => regPut s ini .carFlipCmd 0 v t)

/-- PLACEMENT_REQUEST (R409). -/
def execPlacementRequest (t : Nat) (ini : Ini) (v : W32) (s : State) : Out :=
  .next (awake s t fun s => regPut s ini .carPlaceCmd 0 v t)

/-- PLACEMENT_COMPLETE (R409). -/
def execPlacementComplete (t : Nat) (s : State) : Out :=
  .next (awake s t fun s => placeComplete s t)

end Sys2Proof.Machine
end

