-- ==== Sys2Proof/Machine/BootCmds.lean ====
section
/-! DEFINITION. Commands of booting and the Barista pairs: one meaning for each. -/

namespace Sys2Proof.Machine

/-- MODULE_RESET_RELEASE (R515). -/
def execModuleResetRelease (t : Nat) (puf : Option Nat) (rng : Bool) (s : State) : Out :=
  .next (now s t fun s => resetRelease s puf rng t)

/-- IMAGE_CHOICE (R432). -/
def execImageChoice (t : Nat) (a : Option (List Byte)) (b : Option (List Byte)) (s : State) : Out :=
  .next (awake s t fun s => imageChoice s a b)

/-- SECTION_APPLY (R434). -/
def execSectionApply (t : Nat) (s : State) : Out :=
  .next (awake s t fun s => sectionApply s t)

/-- LOADER_CHECKS (R436). -/
def execLoaderChecks (t : Nat) (s : State) : Out :=
  .next (awake s t fun s => checksRun s t)

/-- TAMP (R439). -/
def execTamp (t : Nat) (s : State) : Out :=
  .next (awake s t fun s => tampRow s t)

/-- RECOVERY_IMAGE_WRITE (R461). -/
def execRecoveryImageWrite (t : Nat) (img : List Byte) (s : State) : Out :=
  .next (awake s t fun s => recoveryWrite s img)

/-- SET_GOOD_MARK (R432). -/
def execSetGoodMark (t : Nat) (ini : Ini) (s : State) : Out :=
  .next (awake s t fun s => regPut s ini .barBootCmd 0 0x7A3C0001 t)

/-- SET_BAD_MARK (R432). -/
def execSetBadMark (t : Nat) (ini : Ini) (s : State) : Out :=
  .next (awake s t fun s => regPut s ini .barBootCmd 0 0x7A3C0002 t)

/-- MARK_PROGRAMMED (R430). -/
def execMarkProgrammed (t : Nat) (s : State) : Out :=
  .next (awake s t fun s => markDone s)

/-- LOCKSTEP_MISMATCH (R419). -/
def execLockstepMismatch (t : Nat) (r : Nat) (s : State) : Out :=
  .next (awake s t fun s => upTo 2 r s fun s => lockstepMismatch s r t)

/-- WATCHDOG_EXPIRY (R427). -/
def execWatchdogExpiry (t : Nat) (s : State) : Out :=
  .next (awake s t fun s => wdogExpiry s t)

/-- WATCHDOG_SERVICE (R427). -/
def execWatchdogService (t : Nat) (ini : Ini) (s : State) : Out :=
  .next (awake s t fun s => regPut s ini .barWdogSvc 0 0x5A t)

/-- SHADOW_WRITE (R420). -/
def execShadowWrite (t : Nat) (s : State) : Out :=
  .next (awake s t fun s => shadowWrite s)

/-- RESTORE (R426). -/
def execRestorePair (t : Nat) (ini : Ini) (s : State) : Out :=
  .next (awake s t fun s => regPut s ini .barCmd 0 1 t)

/-- RESTORE_COMPLETE (R426). -/
def execRestoreComplete (t : Nat) (s : State) : Out :=
  .next (awake s t fun s => restoreComplete s t)

/-- WARM_REBOOT_BOOT_COPY (R441). -/
def execWarmRebootBootCopy (t : Nat) (ini : Ini) (s : State) : Out :=
  .next (awake s t fun s => regPut s ini .barWarm 0 0x7A3C0000 t)

/-- WARM_REBOOT_STAGED (R480). -/
def execWarmRebootStaged (t : Nat) (ini : Ini) (s : State) : Out :=
  .next (awake s t fun s => regPut s ini .barWarm 0 0x7A3C0001 t)

/-- WARM_REBOOT_TAMP (R442). -/
def execWarmRebootTamp (t : Nat) (s : State) : Out :=
  .next (awake s t fun s => warmTamp s t)

end Sys2Proof.Machine
end

