-- ==== Sys2Proof/Machine/CoreCmds.lean ====
section
/-! DEFINITION. Commands of the control cores, Carafe and queues of cores: one meaning for each. -/

namespace Sys2Proof.Machine

/-- TICK (R37). -/
def execTick (evac : Nat) (s : State) : Out :=
  .next (tick s evac)

/-- BUNDLE_ISSUE (R59). -/
def execBundleIssue (t : Nat) (w : CoreSel) (upset : List Upset) (s : State) : Out :=
  .next (awake s t fun s => onCore w s fun s => issueCore (wdogFirst (upsets s upset) w t) w t)

/-- UNIT_RESULT_DELIVERY (R63). -/
def execUnitResultDelivery (t : Nat) (w : CoreSel) (s : State) : Out :=
  .next (awake s t fun s => onCore w s fun s => s.setCore w (settleSel selUnit (s.core w).bcount (s.core w)))

/-- ACCUMULATOR_LANDING (R131). -/
def execAccumulatorLanding (t : Nat) (w : CoreSel) (s : State) : Out :=
  .next (awake s t fun s => onCore w s fun s => s.setCore w (settleSel selLanding (s.core w).bcount (s.core w)))

/-- LOAD_DELIVERY (R184). -/
def execLoadDelivery (t : Nat) (w : CoreSel) (s : State) : Out :=
  .next (awake s t fun s => onCore w s fun s => s.setCore w (settleSel selLoad (s.core w).bcount (s.core w)))

/-- BMOVE_END (R170). -/
def execBmoveEnd (t : Nat) (w : CoreSel) (s : State) : Out :=
  .next (awake s t fun s => onCore w s fun s => moveEnd s w t)

/-- CARAFE_LOAD_READY (R193). -/
def execCarafeLoadReady (t : Nat) (w : CoreSel) (s : State) : Out :=
  .next (awake s t fun s => onCore w s fun s => carafeLoadReady s w t)

/-- CARAFE_GRANT (R201). -/
def execCarafeGrant (t : Nat) (slice : Nat) (half : Nat) (upset : List Upset) (s : State) : Out :=
  .next (awake s t fun s => upTo 8 slice s fun s => carafeGrant (upsets s upset) (2 * slice + half % 2) t)

/-- STORE_BUFFER_PERFORMED (R195). -/
def execStoreBufferPerformed (t : Nat) (w : CoreSel) (s : State) : Out :=
  .next (awake s t fun s => onCore w s fun s => storePerformed s w t)

/-- SEND_ITEM_STORED (R282). -/
def execSendItemStored (t : Nat) (p : Nat) (s : State) : Out :=
  .next (awake s t fun s => upTo 68 p s fun s => sendStored s p t)

/-- RECEIVE_ITEM_DELIVERED (R284). -/
def execReceiveItemDelivered (t : Nat) (p : Nat) (sup : Bool) (s : State) : Out :=
  .next (awake s t fun s => upTo 68 p s fun s => receiveDelivered s p sup t)

/-- RECEIVE_TIMEOUT (R284). -/
def execReceiveTimeout (t : Nat) (p : Nat) (sup : Bool) (s : State) : Out :=
  .next (awake s t fun s => upTo 68 p s fun s => receiveTimeout s p sup t)

/-- ENTRY (R228). -/
def execEntry (t : Nat) (w : CoreSel) (s : State) : Out :=
  .next (awake s t fun s => onCore w s fun s => enterCore s w t)

end Sys2Proof.Machine
end

