-- ==== Sys2Proof/Machine/CremaCmds.lean ====
section
/-! DEFINITION. Commands of Crema: one meaning for each. -/

namespace Sys2Proof.Machine

/-- LIVE (R359). -/
def execCrmLive (t : Nat) (ini : Ini) (c : Nat) (s : State) : Out :=
  .next (awake s t fun s => upTo 32 c s fun s => regPut s ini .crmCmd 0 (BitVec.ofNat 32 (0x10000000 + c)) t)

/-- START_NIGHT_SWEEP (R362). -/
def execStartNightSweep (t : Nat) (ini : Ini) (c : Nat) (s : State) : Out :=
  .next (awake s t fun s => upTo 32 c s fun s => regPut s ini .crmCmd 0 (BitVec.ofNat 32 (0x20000000 + c)) t)

/-- OFF (R382). -/
def execCrmOff (t : Nat) (ini : Ini) (c : Nat) (s : State) : Out :=
  .next (awake s t fun s => upTo 32 c s fun s => regPut s ini .crmCmd 0 (BitVec.ofNat 32 (0x30000000 + c)) t)

/-- START_REFLECTOMETRY (R373). -/
def execStartReflectometry (t : Nat) (ini : Ini) (b : Nat) (s : State) : Out :=
  .next (awake s t fun s => upTo 8 b s fun s => regPut s ini .crmCmd 0 (BitVec.ofNat 32 (0x40000000 + 256 * b)) t)

/-- VELOCITY_CALIBRATION (R375). -/
def execVelocityCalibration (t : Nat) (ini : Ini) (b : Nat) (s : State) : Out :=
  .next (awake s t fun s => upTo 8 b s fun s => regPut s ini .crmCmd 0 (BitVec.ofNat 32 (0x50000000 + 256 * b)) t)

/-- ABORT_REFLECTOMETRY (R382). -/
def execAbortReflectometry (t : Nat) (ini : Ini) (b : Nat) (s : State) : Out :=
  .next (awake s t fun s => upTo 8 b s fun s => regPut s ini .crmCmd 0 (BitVec.ofNat 32 (0x60000000 + 256 * b)) t)

/-- CREMA_FRAME_END (R371). -/
def execCremaFrameEnd (t : Nat) (c : Nat) (m : CrmFrame) (s : State) : Out :=
  .next (awake s t fun s => upTo 32 c s fun s => crmFrameEnd s c m t)

/-- FAST_FAULT (R371). -/
def execFastFault (t : Nat) (c : Nat) (s : State) : Out :=
  .next (awake s t fun s => upTo 32 c s fun s => fastFault s c t)

/-- LIVE_WINDOW_END (R369). -/
def execLiveWindowEnd (t : Nat) (c : Nat) (m : CrmMeas) (s : State) : Out :=
  .next (awake s t fun s => upTo 32 c s fun s => liveWindowEnd s c m t)

/-- NIGHT_STAGE_A_END (R368). -/
def execNightStageAEnd (t : Nat) (c : Nat) (m : CrmMeas) (s : State) : Out :=
  .next (awake s t fun s => upTo 32 c s fun s => nightStageAEnd s c m t)

/-- NIGHT_STAGE_B_END (R364). -/
def execNightStageBEnd (t : Nat) (c : Nat) (m : CrmMeas) (s : State) : Out :=
  .next (awake s t fun s => upTo 32 c s fun s => nightStageBEnd s c m t)

/-- REFLECT_PULSE (R373). -/
def execReflectPulse (t : Nat) (b : Nat) (samples : List (BitVec 16)) (s : State) : Out :=
  .next (awake s t fun s => upTo 8 b s fun s => reflectPulse s b samples t)

/-- REFLECT_RUN_END (R374). -/
def execReflectRunEnd (t : Nat) (b : Nat) (s : State) : Out :=
  .next (awake s t fun s => upTo 8 b s fun s => reflectRunEnd s b t)

end Sys2Proof.Machine
end

