-- ==== Sys2Proof/Machine/HostCmds.lean ====
section
/-! DEFINITION. Commands of the PCI Express endpoint: one meaning for each. -/

namespace Sys2Proof.Machine

/-- PERST_DEASSERT (R489). -/
def execPerstDeassert (t : Nat) (refclk : Bool) (s : State) : Out :=
  .next (awake s t fun s => perstDeassert s refclk)

/-- LINK_UP (R490). -/
def execLinkUp (t : Nat) (rate : Nat) (width : Nat) (flit : Bool) (s : State) : Out :=
  .next (awake s t fun s => linkUp s rate width flit t)

/-- LINK_DOWN (R502). -/
def execLinkDown (t : Nat) (kind : Nat) (s : State) : Out :=
  .next (awake s t fun s => linkDown s kind t)

/-- FLR (R502). -/
def execFlr (t : Nat) (s : State) : Out :=
  .next (awake s t fun s => flr s t)

/-- D_STATE_CHANGE (R502). -/
def execDStateChange (t : Nat) (d3 : Bool) (s : State) : Out :=
  .next (awake s t fun s => dState s d3 t)

/-- CONFIG_REQUEST (R489). -/
def execConfigRequest (t : Nat) (op : CfgOp) (s : State) : Out :=
  .next (awake s t fun s => configRequest s op t)

/-- BAR0_READ (R493). -/
def execBar0Read (t : Nat) (off : Nat) (n : Nat) (be : Bool) (ide : Bool) (s : State) : Out :=
  .next (awake s t fun s => bar0Read s off n be ide t)

/-- BAR0_WRITE (R492). -/
def execBar0Write (t : Nat) (off : Nat) (bs : List Byte) (be : Bool) (ide : Bool) (s : State) : Out :=
  .next (awake s t fun s => bar0Write s off bs be ide t)

/-- BAR2_READ (R494). -/
def execBar2Read (t : Nat) (o : Nat) (n : Nat) (ide : Bool) (s : State) : Out :=
  .next (awake s t fun s => bar2Read s o n ide t)

/-- BAR2_WRITE (R494). -/
def execBar2Write (t : Nat) (o : Nat) (bs : List Byte) (ide : Bool) (s : State) : Out :=
  .next (awake s t fun s => bar2Write s o bs ide t)

/-- HOST_RING_ENABLE (R497). -/
def execHostRingEnable (t : Nat) (ini : Ini) (j : Nat) (v : W32) (s : State) : Out :=
  .next (awake s t fun s => regPut s ini .pcxHrCfg j (v ||| 0x80000000) t)

/-- HOST_RING_ENTRY_WRITE (R498). -/
def execHostRingEntryWrite (t : Nat) (j : Nat) (s : State) : Out :=
  .next (awake s t fun s => upTo 16 j s fun s => hrEntryWrite s j t)

/-- HOST_RING_PI_WRITE (R498). -/
def execHostRingPiWrite (t : Nat) (j : Nat) (v : W32) (ide : Bool) (s : State) : Out :=
  .next (awake s t fun s => upTo 16 j s fun s => bar0Write s (regOff .pcxHrPi j 0) (toBytesLE 4 v.toNat) true ide t)

/-- HOST_READ_COMPLETION (R498). -/
def execHostReadCompletion (t : Nat) (j : Nat) (ok : Bool) (ep : Bool) (items : List W48) (s : State) : Out :=
  .next (awake s t fun s => upTo 16 j s fun s => hrCompletion s j ok ep items t)

/-- HOST_READ_TIMEOUT (R499). -/
def execHostReadTimeout (t : Nat) (j : Nat) (s : State) : Out :=
  .next (awake s t fun s => upTo 16 j s fun s => hrTimeout s j t)

/-- MSIX_FIRE (R500). -/
def execMsixFire (t : Nat) (ini : Ini) (v : W32) (s : State) : Out :=
  .next (awake s t fun s => regPut s ini .pcxMsixFire 0 v t)

/-- MSIX_UNMASK (R501). -/
def execMsixUnmask (t : Nat) (v : Nat) (s : State) : Out :=
  .next (awake s t fun s => upTo 2048 v s fun s => if linkIsUp s && barServed s true then msixUnmask s v else s)

/-- IDE_INTEGRITY_FAILURE (R503). -/
def execIdeIntegrityFailure (t : Nat) (s : State) : Out :=
  .next (awake s t fun s => ideFailure s t)

end Sys2Proof.Machine
end

