-- ==== Sys2Proof/Machine/KeepCmds.lean ====
section
/-! DEFINITION. Commands of the Rarik keep: one meaning for each. -/

namespace Sys2Proof.Machine

/-- QUOTE (R458). -/
def execKeepQuote (t : Nat) (set : Nat) (param : Nat) (s : State) : Out :=
  .next (awake s t fun s => regPut s (setIni set) .rkpCmd set (BitVec.ofNat 32 (0x01000000 + param % 65536)) t)

/-- CERT (R467). -/
def execKeepCert (t : Nat) (set : Nat) (param : Nat) (s : State) : Out :=
  .next (awake s t fun s => regPut s (setIni set) .rkpCmd set (BitVec.ofNat 32 (0x02000000 + param % 65536)) t)

/-- RANDOM (R457). -/
def execKeepRandom (t : Nat) (set : Nat) (param : Nat) (s : State) : Out :=
  .next (awake s t fun s => regPut s (setIni set) .rkpCmd set (BitVec.ofNat 32 (0x03000000 + param % 65536)) t)

/-- SBK_INSTALL (R450). -/
def execSbkInstall (t : Nat) (set : Nat) (param : Nat) (s : State) : Out :=
  .next (awake s t fun s => regPut s (setIni set) .rkpCmd set (BitVec.ofNat 32 (0x10000000 + param % 65536)) t)

/-- EPOCH_PREPARE (R453). -/
def execEpochPrepare (t : Nat) (set : Nat) (param : Nat) (s : State) : Out :=
  .next (awake s t fun s => regPut s (setIni set) .rkpCmd set (BitVec.ofNat 32 (0x11000000 + param % 65536)) t)

/-- EPOCH_ACCEPT (R454). -/
def execEpochAccept (t : Nat) (set : Nat) (param : Nat) (s : State) : Out :=
  .next (awake s t fun s => regPut s (setIni set) .rkpCmd set (BitVec.ofNat 32 (0x12000000 + param % 65536)) t)

/-- RAISE_FLOOR (R447). -/
def execRaiseFloor (t : Nat) (set : Nat) (param : Nat) (s : State) : Out :=
  .next (awake s t fun s => regPut s (setIni set) .rkpCmd set (BitVec.ofNat 32 (0x20000000 + param % 65536)) t)

/-- SLOT_PROGRAM (R448). -/
def execSlotProgram (t : Nat) (set : Nat) (param : Nat) (s : State) : Out :=
  .next (awake s t fun s => regPut s (setIni set) .rkpCmd set (BitVec.ofNat 32 (0x21000000 + param % 65536)) t)

/-- SLOT_REVOKE (R448). -/
def execSlotRevoke (t : Nat) (set : Nat) (param : Nat) (s : State) : Out :=
  .next (awake s t fun s => regPut s (setIni set) .rkpCmd set (BitVec.ofNat 32 (0x22000000 + param % 65536)) t)

/-- RESTORE_FACTORY (R465). -/
def execRestoreFactory (t : Nat) (set : Nat) (param : Nat) (s : State) : Out :=
  .next (awake s t fun s => regPut s (setIni set) .rkpCmd set (BitVec.ofNat 32 (0x30000000 + param % 65536)) t)

/-- LOG_READ (R466). -/
def execLogRead (t : Nat) (set : Nat) (param : Nat) (s : State) : Out :=
  .next (awake s t fun s => regPut s (setIni set) .rkpCmd set (BitVec.ofNat 32 (0x31000000 + param % 65536)) t)

/-- DEBUG_CHALLENGE (R460). -/
def execDebugChallenge (t : Nat) (set : Nat) (param : Nat) (s : State) : Out :=
  .next (awake s t fun s => regPut s (setIni set) .rkpCmd set (BitVec.ofNat 32 (0x40000000 + param % 65536)) t)

/-- DEBUG_UNLOCK (R460). -/
def execDebugUnlock (t : Nat) (set : Nat) (param : Nat) (s : State) : Out :=
  .next (awake s t fun s => regPut s (setIni set) .rkpCmd set (BitVec.ofNat 32 (0x41000000 + param % 65536)) t)

/-- KEEP_COMMAND_COMPLETE (R467). -/
def execKeepCommandComplete (t : Nat) (set : Nat) (s : State) : Out :=
  .next (awake s t fun s => upTo 3 set s fun s => keepComplete s set t)

/-- RESTORE_FUSE_BURN (R465). -/
def execRestoreFuseBurn (t : Nat) (s : State) : Out :=
  .next (awake s t fun s => fuseBurn s t)

/-- DRBG_RESEED (R457). -/
def execDrbgReseed (t : Nat) (ok : Bool) (s : State) : Out :=
  .next (awake s t fun s => drbgReseed s ok t)

/-- SPDM_REQUEST (R456). -/
def execSpdmRequest (t : Nat) (msg : List Byte) (s : State) : Out :=
  .next (awake s t fun s => spdmRequest s msg)

/-- QUERY (R456). -/
def execIdeQuery (t : Nat) (s : State) : Out :=
  .next (awake s t fun s => ideQuery s)

/-- KEY_PROG (R456). -/
def execKeyProg (t : Nat) (set : Nat) (dir : Nat) (key : List Byte) (s : State) : Out :=
  .next (awake s t fun s => ideKeyProg s set dir key)

/-- K_SET_GO (R456). -/
def execKSetGo (t : Nat) (set : Nat) (s : State) : Out :=
  .next (awake s t fun s => kSetGo s set t)

/-- K_SET_STOP (R456). -/
def execKSetStop (t : Nat) (set : Nat) (s : State) : Out :=
  .next (awake s t fun s => kSetStop s set t)

end Sys2Proof.Machine
end

