-- ==== Sys2Proof/Machine/PowerCmds.lean ====
section
/-! DEFINITION. Commands of the supplies, lands and clocks: one meaning for each. -/

namespace Sys2Proof.Machine

/-- INPUT_OK_CHANGE (R511). -/
def execInputOkChange (t : Nat) (b : Bool) (ok : Bool) (va : Nat) (vb : Nat) (s : State) : Out :=
  .next (now s t fun s => inputOk s b ok va vb t)

/-- INPUT_REVERSED (R512). -/
def execInputReversed (t : Nat) (b : Bool) (mv : Nat) (va : Nat) (vb : Nat) (s : State) : Out :=
  if 60000 < mv then .fault .beyondRatings else .next (now s t fun s => inputReversed s b va vb t)

/-- INPUT_OVERVOLTAGE (R512). -/
def execInputOvervoltage (t : Nat) (b : Bool) (va : Nat) (vb : Nat) (s : State) : Out :=
  if 80000 < (if b then vb else va) then .fault .beyondRatings else .next (now s t fun s => inputOver s b va vb t)

/-- INPUT_RECONNECT (R512). -/
def execInputReconnect (t : Nat) (b : Bool) (va : Nat) (vb : Nat) (s : State) : Out :=
  .next (now s t fun s => inputReconnect s b va vb t)

/-- VHOLD_LOW (R514). -/
def execVholdLow (t : Nat) (v : Nat) (s : State) : Out :=
  .next (now s t fun s => vholdLow s v t)

/-- HOLDUP_EXHAUSTED (R514). -/
def execHoldupExhausted (t : Nat) (s : State) : Out :=
  .next (now s t fun s => holdupExhausted s)

/-- MODULE_RESET (R516). -/
def execModuleReset (t : Nat) (why : Nat) (s : State) : Out :=
  .next (now s t fun s => moduleReset s (why % 8))

/-- SLEEP_REQUEST (R517). -/
def execSleepRequest (t : Nat) (ini : Ini) (s : State) : Out :=
  .next (awake s t fun s => regPut s ini .pwrSleep 0 0x5EE90001 t)

/-- WAKE_EVENT (R520). -/
def execWakeEvent (t : Nat) (b : Nat) (s : State) : Out :=
  .next (now s t fun s => wakeEvent s b t)

/-- REFA_LOST (R522). -/
def execRefaLost (t : Nat) (s : State) : Out :=
  .next (now s t fun s => refFlag s 19 710 true t)

/-- REFA_RETURN (R522). -/
def execRefaReturn (t : Nat) (s : State) : Out :=
  .next (now s t fun s => refFlag s 19 710 false t)

/-- REFB_LOST (R522). -/
def execRefbLost (t : Nat) (s : State) : Out :=
  .next (now s t fun s => refFlag s 20 711 true t)

/-- REFB_RETURN (R522). -/
def execRefbReturn (t : Nat) (s : State) : Out :=
  .next (now s t fun s => refFlag s 20 711 false t)

/-- TEMPERATURE_UPDATE (R525). -/
def execTemperatureUpdate (t : Nat) (main : Nat) (ana : Nat) (s : State) : Out :=
  .next (now s t fun s => temperature s main ana t)

/-- THERMAL_SHUTDOWN (R525). -/
def execThermalShutdown (t : Nat) (s : State) : Out :=
  .next (now s t fun s => thermalShutdown s)

/-- THERMAL_RESTART (R525). -/
def execThermalRestart (t : Nat) (s : State) : Out :=
  .next (now s t fun s => thermalRestart s)

/-- LAND_SWITCH_OPEN (R508). -/
def execLandSwitchOpen (t : Nat) (row : Nat) (col : Nat) (low : Bool) (s : State) : Out :=
  .next (now s t fun s => landSwitchOpen s row col low t)

/-- LAND_SWITCH_CLOSE (R508). -/
def execLandSwitchClose (t : Nat) (row : Nat) (col : Nat) (level : Bool) (s : State) : Out :=
  .next (now s t fun s => landSwitchClose s row col level t)

/-- LAND_FAULT (R509). -/
def execLandFault (t : Nat) (row : Nat) (col : Nat) (kind : Nat) (s : State) : Out :=
  .next (now s t fun s => landFault s row col kind t)

/-- OPEN_INPUT_TEST (R509). -/
def execOpenInputTest (t : Nat) (lands : List (Nat × Nat)) (s : State) : Out :=
  .next (now s t fun s => openInputTest s lands t)

/-- PIN_EDGE_CLOCK (R258). -/
def execPinEdgeClock (t : Nat) (pin : Nat) (s : State) : Out :=
  .next (awake s t fun s => upTo 32 pin s fun s => if landOpen s 14 (7 + pin) then s else pinClock s pin t)

/-- PG_RELEASE (R515). -/
def execPgRelease (t : Nat) (s : State) : Out :=
  .next (now s t fun s => pgRelease s)

end Sys2Proof.Machine
end

