-- ==== Sys2Proof/Machine/RailCmds.lean ====
section
/-! DEFINITION. Commands of the order rail: one meaning for each. -/

namespace Sys2Proof.Machine

/-- SOURCE_EVENT (R237): a source without an input is not set by one (R234). -/
def execSourceEvent (t : Nat) (n : Nat) (level : Bool) (s : State) : Out :=
  .next (now s t fun s => if srcHasInput n then setLevel s n level t else s)

/-- COALESCE_TIME_RELEASE (R241). -/
def execCoalesceTimeRelease (t : Nat) (n : Nat) (s : State) : Out :=
  .next (awake s t fun s => upTo 1024 n s fun s => presentTarget (windowEnd s n t) n t)

/-- PENDING_WRITE (R242). -/
def execPendingWrite (t : Nat) (ini : Ini) (k : Nat) (v : W32) (s : State) : Out :=
  .next (awake s t fun s => upTo 100 k s fun s => if k < 32 then regPut s ini .orlPend k v t else regPut s ini .orlPpend
    (k - 32) v t)

/-- IN_SERVICE_COMPLETE (R239). -/
def execInServiceComplete (t : Nat) (ini : Ini) (k : Nat) (v : W32) (s : State) : Out :=
  .next (awake s t fun s => upTo 100 k s fun s => if k < 32 then regPut s ini .orlInsvc k v t else regPut s ini
    .orlPinsvc (k - 32) v t)

/-- BARISTA_CLAIM (R248). -/
def execBaristaClaim (t : Nat) (s : State) : Out :=
  .next (awake s t fun s => regGet s .barista .orlBclaim 0 t)

end Sys2Proof.Machine
end

