-- ==== Sys2Proof/Machine/RingCmds.lean ====
section
/-! DEFINITION. Commands of the ring and the edge: one meaning for each. -/

namespace Sys2Proof.Machine

/-- HEARTBEAT_RECEIVED (R328). -/
def execHeartbeatReceived (t : Nat) (p : Nat) (s : State) : Out :=
  .next (awake s t fun s => upTo 4 p s fun s => heartbeat s p t)

/-- SUPERVISION_EXPIRY (R328). -/
def execSupervisionExpiry (t : Nat) (p : Nat) (s : State) : Out :=
  .next (awake s t fun s => upTo 4 p s fun s => supervisionExpiry s p t)

/-- REMOTE_FAULT_RECEIVED (R328). -/
def execRemoteFaultReceived (t : Nat) (p : Nat) (s : State) : Out :=
  .next (awake s t fun s => upTo 4 p s fun s => remoteFault s p t)

/-- PORT_WRAP (R329). -/
def execPortWrap (t : Nat) (p : Nat) (s : State) : Out :=
  .next (awake s t fun s => upTo 4 p s fun s => portWrap s p t)

/-- PORT_RETURNED (R331). -/
def execPortReturned (t : Nat) (p : Nat) (s : State) : Out :=
  .next (awake s t fun s => upTo 4 p s fun s => portReturned s p t)

/-- RING_FRAME_RECEIVED (R310). -/
def execRingFrameReceived (t : Nat) (p : Nat) (framed : Bool) (bytes : List Byte) (s : State) : Out :=
  .next (awake s t fun s => upTo 4 p s fun s => frameReceived s p framed bytes t)

/-- BEACON_SEND (R332). -/
def execBeaconSend (t : Nat) (p : Nat) (s : State) : Out :=
  .next (awake s t fun s => upTo 4 p s fun s => beaconSend s p t)

/-- DELAY_REQUEST_SEND (R332). -/
def execDelayRequestSend (t : Nat) (r : Nat) (s : State) : Out :=
  .next (awake s t fun s => upTo 2 r s fun s => delayRequestSend s r t)

/-- EPOCH_GRANT_SEND (R455). -/
def execEpochGrantSend (t : Nat) (p : Nat) (s : State) : Out :=
  .next (awake s t fun s => upTo 4 p s fun s => grantSend s p t)

/-- UPSTREAM_TIMEOUT (R333). -/
def execUpstreamTimeout (t : Nat) (p : Nat) (s : State) : Out :=
  .next (awake s t fun s => upTo 4 p s fun s => upstreamTimeout s p t)

/-- ISLAND_LEADER_ELECTION (R335). -/
def execIslandLeaderElection (t : Nat) (r : Nat) (s : State) : Out :=
  .next (awake s t fun s => upTo 2 r s fun s => islandElection s r t)

/-- TRAIN_ORIGIN (R317). -/
def execTrainOrigin (t : Nat) (r : Nat) (west : Bool) (arrived : Bool) (s : State) : Out :=
  .next (awake s t fun s => upTo 2 r s fun s => trainOrigin s r west arrived t)

/-- GROUP_MISSING (R322). -/
def execGroupMissing (t : Nat) (r : Nat) (g : Nat) (m : Nat) (s : State) : Out :=
  .next (awake s t fun s => upTo 2 r s fun s => groupMissing s r g m t)

/-- UNRESERVED_FRAME_SEND (R323). -/
def execUnreservedFrameSend (t : Nat) (p : Nat) (s : State) : Out :=
  .next (awake s t fun s => upTo 4 p s fun s => unreservedSend s p t)

/-- MAILBOX_SEND (R327). -/
def execMailboxSend (t : Nat) (m : Nat) (s : State) : Out :=
  .next (awake s t fun s => upTo (regRow .zwrMbox).n1 m s fun s => mailboxSend s m t)

/-- CONTROL_TRANSMIT (R344). -/
def execControlTransmit (t : Nat) (ini : Ini) (v : W32) (s : State) : Out :=
  .next (awake s t fun s => regPut s ini .zwrCtxCmd 0 v t)

/-- EDGE_FRAME_RECEIVED (R339). -/
def execEdgeFrameReceived (t : Nat) (p : Nat) (bytes : List Byte) (s : State) : Out :=
  .next (awake s t fun s => upTo 4 p s fun s => if p < 2 then s else edgeReceived s p bytes t)

/-- EDGE_STREAM_TRANSMIT (R342). -/
def execEdgeStreamTransmit (t : Nat) (i : Nat) (s : State) : Out :=
  .next (awake s t fun s => upTo 1024 i s fun s => edgeTransmit s i t)

/-- STREAM_SILENT (R345). -/
def execStreamSilent (t : Nat) (i : Nat) (s : State) : Out :=
  .next (awake s t fun s => upTo 1024 i s fun s => streamSilent s i t)

end Sys2Proof.Machine
end

