-- ==== Sys2Proof/Machine/RunnerCmds.lean ====
section
/-! DEFINITION. Commands of the Runner: one meaning for each. -/

namespace Sys2Proof.Machine

/-- DESCRIPTOR_WRITE (R278). -/
def execDescriptorWrite (t : Nat) (ini : Ini) (h : Nat) (off : Nat) (v : W32) (s : State) : Out :=
  .next (awake s t fun s => upTo 65536 h s fun s => if off < 32 ∧ off % 4 = 0 then tableWrite s ini (qdBase + 32 * h +
    off) v t else s)

/-- INITIATOR_SEND (R297). -/
def execInitiatorSend (t : Nat) (i : Nat) (h : Nat) (s : State) : Out :=
  .next (awake s t fun s => regPut s (endIni i) .runIop i (BitVec.ofNat 32 (h % 65536)) t)

/-- INITIATOR_RECEIVE (R297). -/
def execInitiatorReceive (t : Nat) (i : Nat) (h : Nat) (s : State) : Out :=
  .next (awake s t fun s => regPut s (endIni i) .runIop i (BitVec.ofNat 32 (0x80000000 + h % 65536)) t)

/-- INITIATOR_OP_END (R297). -/
def execInitiatorOpEnd (t : Nat) (i : Nat) (s : State) : Out :=
  .next (awake s t fun s => upTo 2 i s fun s => initOpEnd s i t)

/-- INPUT_PLACEMENT (R32). -/
def execInputPlacement (t : Nat) (h : Nat) (samples : List W24) (s : State) : Out :=
  .next (awake s t fun s => upTo 65536 h s fun s => inputPlacement s h (samples.map BitVec.toInt) t)

/-- SCHEDULED_FORWARD (R291). -/
def execScheduledForward (t : Nat) (h : Option Nat) (s : State) : Out :=
  .next (awake s t fun s => scheduledForward s h t)

/-- ITEM_AGE_TIMEOUT (R293). -/
def execItemAgeTimeout (t : Nat) (h : Nat) (s : State) : Out :=
  .next (awake s t fun s => upTo 65536 h s fun s => itemAge s h t)

end Sys2Proof.Machine
end

