-- ==== Sys2Proof/Machine/ServiceCmds.lean ====
section
/-! DEFINITION. Commands of live service, scrubbing and bus accesses: one meaning for each. -/

namespace Sys2Proof.Machine

/-- TAKE_OVER (R470). -/
def execTakeOver (t : Nat) (ini : Ini) (l : Nat) (s : State) : Out :=
  .next (awake s t fun s => upTo 64 l s fun s => regPut s ini .sysSpareCmd 0 (BitVec.ofNat 32 (0x40 + l)) t)

/-- RETIRE_SPARE (R472). -/
def execRetireSpare (t : Nat) (ini : Ini) (j : Nat) (s : State) : Out :=
  .next (awake s t fun s => upTo 4 j s fun s => regPut s ini .sysSpareCmd 0 (BitVec.ofNat 32 (0x80 + j)) t)

/-- TAKEOVER_COPY_COMPLETE (R473). -/
def execTakeoverCopyComplete (t : Nat) (s : State) : Out :=
  .next (awake s t fun s => takeOverCopied s t)

/-- AGING_MEASUREMENT (R483). -/
def execAgingMeasurement (t : Nat) (i : Nat) (d : Nat) (s : State) : Out :=
  .next (awake s t fun s => agingMeasure s i d t)

/-- COUNTER_INTERVAL_CLOSE (R485). -/
def execCounterIntervalClose (t : Nat) (k : Nat) (s : State) : Out :=
  .next (awake s t fun s => upTo 32 k s fun s => counterClose s k (s.pourAt t) t)

/-- SCRUB_LINE (R210). -/
def execScrubLine (t : Nat) (a : Nat) (upset : List Upset) (s : State) : Out :=
  .next (awake s t fun s => scrubLine (upsets s upset) a t)

/-- EXTERNAL_PORT_ACCESS (R538). -/
def execExternalPortAccess (t : Nat) (ini : Ini) (p : Nat) (off : Nat) (n : Nat) (bs : Option (List Byte)) (upset : List Upset) (s : State) : Out :=
  .next (awake s t fun s => upTo 68 p s fun s => externalAccess (upsets s upset) ini p off n bs t)

/-- REGISTER_WRITE (R8). -/
def execRegisterWrite (t : Nat) (ini : Ini) (off : Nat) (v : W32) (s : State) : Out :=
  .next (awake s t fun s => upTo 0x2000000 off s fun s => if off % 4 = 0 then busWrite s ini off v t else s.answer ini [] true)

/-- JTAG_ACCESS (R542). -/
def execJtagAccess (t : Nat) (op : JtagOp) (s : State) : Out :=
  .next (now s t fun s => if s.power.asleep.isSome ∧ op ≠ .idcode then s else jtagAccess s op t)

end Sys2Proof.Machine
end

