-- ==== Sys2Proof/Machine/TimerCmds.lean ====
section
/-! DEFINITION. Commands of the timers: one meaning for each. -/

namespace Sys2Proof.Machine

/-- CHANNEL_ARM (R259). -/
def execChannelArm (t : Nat) (ini : Ini) (n : Nat) (v : W32) (s : State) : Out :=
  .next (awake s t fun s => if n < 128 then regPut s ini .tmrCtl n (v ||| 0x80000000) t else regPut s ini .tmrPctl (n -
    128) (v ||| 0x80000000) t)

/-- CHANNEL_DISARM (R259). -/
def execChannelDisarm (t : Nat) (ini : Ini) (n : Nat) (v : W32) (s : State) : Out :=
  .next (awake s t fun s => if n < 128 then regPut s ini .tmrCtl n (v &&& 0x7FFFFFFF) t else regPut s ini .tmrPctl (n -
    128) (v &&& 0x7FFFFFFF) t)

/-- COMPARE_STAGE (R263). -/
def execCompareStage (t : Nat) (ini : Ini) (n : Nat) (v : W32) (s : State) : Out :=
  .next (awake s t fun s => if n < 128 then regPut s ini .tmrCmpl n v t else regPut s ini .tmrPcmpl (n - 128) v t)

/-- COMPARE_COMMIT (R263). -/
def execCompareCommit (t : Nat) (ini : Ini) (n : Nat) (v : W32) (s : State) : Out :=
  .next (awake s t fun s => if n < 128 then regPut s ini .tmrCmph n v t else regPut s ini .tmrPcmph (n - 128) v t)

/-- GROUP_START (R267). -/
def execGroupStart (t : Nat) (ini : Ini) (v : W32) (s : State) : Out :=
  .next (awake s t fun s => regPut s ini .tmrGstart 0 v t)

/-- CHANNEL_MATCH (R261). -/
def execChannelMatch (t : Nat) (n : Nat) (s : State) : Out :=
  .next (awake s t fun s => upTo 264 n s fun s => settleChan s n t)

/-- CHANNEL_OVERFLOW (R262). -/
def execChannelOverflow (t : Nat) (n : Nat) (s : State) : Out :=
  .next (awake s t fun s => upTo 264 n s fun s => settleChan s n t)

/-- SNAPSHOT_NTC (R256). -/
def execSnapshotNtc (t : Nat) (ini : Ini) (s : State) : Out :=
  .next (awake s t fun s => regPut s ini .tmrSnapCmd 0 0 t)

/-- SNAPSHOT_SHARED_CHANNEL (R256). -/
def execSnapshotSharedChannel (t : Nat) (ini : Ini) (n : Nat) (s : State) : Out :=
  .next (awake s t fun s => upTo 128 n s fun s => regPut s ini .tmrSnapCmd 0 (BitVec.ofNat 32 (0x100 + n)) t)

/-- SNAPSHOT_PRIVATE_CHANNEL (R256). -/
def execSnapshotPrivateChannel (t : Nat) (ini : Ini) (n : Nat) (s : State) : Out :=
  .next (awake s t fun s => upTo 136 n s fun s => regPut s ini .tmrSnapCmd 0 (BitVec.ofNat 32 (0x200 + n)) t)

/-- CAPTURE_EVENT (R271). -/
def execCaptureEvent (t : Nat) (pin : Nat) (rising : Bool) (s : State) : Out :=
  .next (awake s t fun s => upTo 32 pin s fun s => if landOpen s 14 (7 + pin) then s else pinEdge s pin rising t)

/-- CAPTURE_READ (R272). -/
def execCaptureRead (t : Nat) (ini : Ini) (c : Nat) (s : State) : Out :=
  .next (awake s t fun s => regGet s ini .tmrCapLo c t)

/-- RING_TIME_LOST (R42). -/
def execRingTimeLost (t : Nat) (s : State) : Out :=
  .next (awake s t fun s => ringTimeLost s t)

end Sys2Proof.Machine
end

