-- ==== Sys2Proof/Machine/Dispatch.lean ====
section
/-! DEFINITION. One arm for each command. -/

namespace Sys2Proof.Machine

def exec (i : Instr) (s : State) : Host.Outcome State Fault Refusal :=
  match i with
  | .tick evac => Sys2Proof.Machine.execTick evac s
  | .bundleIssue t w upset => Sys2Proof.Machine.execBundleIssue t w upset s
  | .unitResultDelivery t w => Sys2Proof.Machine.execUnitResultDelivery t w s
  | .accumulatorLanding t w => Sys2Proof.Machine.execAccumulatorLanding t w s
  | .loadDelivery t w => Sys2Proof.Machine.execLoadDelivery t w s
  | .bmoveEnd t w => Sys2Proof.Machine.execBmoveEnd t w s
  | .carafeLoadReady t w => Sys2Proof.Machine.execCarafeLoadReady t w s
  | .carafeGrant t slice half upset => Sys2Proof.Machine.execCarafeGrant t slice half upset s
  | .storeBufferPerformed t w => Sys2Proof.Machine.execStoreBufferPerformed t w s
  | .sendItemStored t p => Sys2Proof.Machine.execSendItemStored t p s
  | .receiveItemDelivered t p sup => Sys2Proof.Machine.execReceiveItemDelivered t p sup s
  | .receiveTimeout t p sup => Sys2Proof.Machine.execReceiveTimeout t p sup s
  | .entry t w => Sys2Proof.Machine.execEntry t w s
  | .sourceEvent t n level => Sys2Proof.Machine.execSourceEvent t n level s
  | .coalesceTimeRelease t n => Sys2Proof.Machine.execCoalesceTimeRelease t n s
  | .pendingWrite t ini k v => Sys2Proof.Machine.execPendingWrite t ini k v s
  | .inServiceComplete t ini k v => Sys2Proof.Machine.execInServiceComplete t ini k v s
  | .baristaClaim t => Sys2Proof.Machine.execBaristaClaim t s
  | .channelArm t ini n v => Sys2Proof.Machine.execChannelArm t ini n v s
  | .channelDisarm t ini n v => Sys2Proof.Machine.execChannelDisarm t ini n v s
  | .compareStage t ini n v => Sys2Proof.Machine.execCompareStage t ini n v s
  | .compareCommit t ini n v => Sys2Proof.Machine.execCompareCommit t ini n v s
  | .groupStart t ini v => Sys2Proof.Machine.execGroupStart t ini v s
  | .channelMatch t n => Sys2Proof.Machine.execChannelMatch t n s
  | .channelOverflow t n => Sys2Proof.Machine.execChannelOverflow t n s
  | .snapshotNtc t ini => Sys2Proof.Machine.execSnapshotNtc t ini s
  | .snapshotSharedChannel t ini n => Sys2Proof.Machine.execSnapshotSharedChannel t ini n s
  | .snapshotPrivateChannel t ini n => Sys2Proof.Machine.execSnapshotPrivateChannel t ini n s
  | .captureEvent t pin rising => Sys2Proof.Machine.execCaptureEvent t pin rising s
  | .captureRead t ini c => Sys2Proof.Machine.execCaptureRead t ini c s
  | .ringTimeLost t => Sys2Proof.Machine.execRingTimeLost t s
  | .descriptorWrite t ini h off v => Sys2Proof.Machine.execDescriptorWrite t ini h off v s
  | .initiatorSend t ix h => Sys2Proof.Machine.execInitiatorSend t ix h s
  | .initiatorReceive t ix h => Sys2Proof.Machine.execInitiatorReceive t ix h s
  | .initiatorOpEnd t ix => Sys2Proof.Machine.execInitiatorOpEnd t ix s
  | .inputPlacement t h samples => Sys2Proof.Machine.execInputPlacement t h samples s
  | .scheduledForward t h => Sys2Proof.Machine.execScheduledForward t h s
  | .itemAgeTimeout t h => Sys2Proof.Machine.execItemAgeTimeout t h s
  | .heartbeatReceived t p => Sys2Proof.Machine.execHeartbeatReceived t p s
  | .supervisionExpiry t p => Sys2Proof.Machine.execSupervisionExpiry t p s
  | .remoteFaultReceived t p => Sys2Proof.Machine.execRemoteFaultReceived t p s
  | .portWrap t p => Sys2Proof.Machine.execPortWrap t p s
  | .portReturned t p => Sys2Proof.Machine.execPortReturned t p s
  | .ringFrameReceived t p framed bytes => Sys2Proof.Machine.execRingFrameReceived t p framed bytes s
  | .beaconSend t p => Sys2Proof.Machine.execBeaconSend t p s
  | .delayRequestSend t r => Sys2Proof.Machine.execDelayRequestSend t r s
  | .epochGrantSend t p => Sys2Proof.Machine.execEpochGrantSend t p s
  | .upstreamTimeout t p => Sys2Proof.Machine.execUpstreamTimeout t p s
  | .islandLeaderElection t r => Sys2Proof.Machine.execIslandLeaderElection t r s
  | .trainOrigin t r west arrived => Sys2Proof.Machine.execTrainOrigin t r west arrived s
  | .groupMissing t r g m => Sys2Proof.Machine.execGroupMissing t r g m s
  | .unreservedFrameSend t p => Sys2Proof.Machine.execUnreservedFrameSend t p s
  | .mailboxSend t m => Sys2Proof.Machine.execMailboxSend t m s
  | .controlTransmit t ini v => Sys2Proof.Machine.execControlTransmit t ini v s
  | .edgeFrameReceived t p bytes => Sys2Proof.Machine.execEdgeFrameReceived t p bytes s
  | .edgeStreamTransmit t ix => Sys2Proof.Machine.execEdgeStreamTransmit t ix s
  | .streamSilent t ix => Sys2Proof.Machine.execStreamSilent t ix s
  | .crmLive t ini c => Sys2Proof.Machine.execCrmLive t ini c s
  | .startNightSweep t ini c => Sys2Proof.Machine.execStartNightSweep t ini c s
  | .crmOff t ini c => Sys2Proof.Machine.execCrmOff t ini c s
  | .startReflectometry t ini b => Sys2Proof.Machine.execStartReflectometry t ini b s
  | .velocityCalibration t ini b => Sys2Proof.Machine.execVelocityCalibration t ini b s
  | .abortReflectometry t ini b => Sys2Proof.Machine.execAbortReflectometry t ini b s
  | .cremaFrameEnd t c m => Sys2Proof.Machine.execCremaFrameEnd t c m s
  | .fastFault t c => Sys2Proof.Machine.execFastFault t c s
  | .liveWindowEnd t c m => Sys2Proof.Machine.execLiveWindowEnd t c m s
  | .nightStageAEnd t c m => Sys2Proof.Machine.execNightStageAEnd t c m s
  | .nightStageBEnd t c m => Sys2Proof.Machine.execNightStageBEnd t c m s
  | .reflectPulse t b samples => Sys2Proof.Machine.execReflectPulse t b samples s
  | .reflectRunEnd t b => Sys2Proof.Machine.execReflectRunEnd t b s
  | .evacDebouncedChange t e => Sys2Proof.Machine.execEvacDebouncedChange t e s
  | .evacMessageStart t e => Sys2Proof.Machine.execEvacMessageStart t e s
  | .evacMessageEnd t e => Sys2Proof.Machine.execEvacMessageEnd t e s
  | .bankFlipRequest t ini v => Sys2Proof.Machine.execBankFlipRequest t ini v s
  | .placementRequest t ini v => Sys2Proof.Machine.execPlacementRequest t ini v s
  | .placementComplete t => Sys2Proof.Machine.execPlacementComplete t s
  | .moduleResetRelease t puf rng => Sys2Proof.Machine.execModuleResetRelease t puf rng s
  | .imageChoice t a b => Sys2Proof.Machine.execImageChoice t a b s
  | .sectionApply t => Sys2Proof.Machine.execSectionApply t s
  | .loaderChecks t => Sys2Proof.Machine.execLoaderChecks t s
  | .tamp t => Sys2Proof.Machine.execTamp t s
  | .recoveryImageWrite t img => Sys2Proof.Machine.execRecoveryImageWrite t img s
  | .setGoodMark t ini => Sys2Proof.Machine.execSetGoodMark t ini s
  | .setBadMark t ini => Sys2Proof.Machine.execSetBadMark t ini s
  | .markProgrammed t => Sys2Proof.Machine.execMarkProgrammed t s
  | .lockstepMismatch t r => Sys2Proof.Machine.execLockstepMismatch t r s
  | .watchdogExpiry t => Sys2Proof.Machine.execWatchdogExpiry t s
  | .watchdogService t ini => Sys2Proof.Machine.execWatchdogService t ini s
  | .shadowWrite t => Sys2Proof.Machine.execShadowWrite t s
  | .restorePair t ini => Sys2Proof.Machine.execRestorePair t ini s
  | .restoreComplete t => Sys2Proof.Machine.execRestoreComplete t s
  | .warmRebootBootCopy t ini => Sys2Proof.Machine.execWarmRebootBootCopy t ini s
  | .warmRebootStaged t ini => Sys2Proof.Machine.execWarmRebootStaged t ini s
  | .warmRebootTamp t => Sys2Proof.Machine.execWarmRebootTamp t s
  | .keepQuote t set param => Sys2Proof.Machine.execKeepQuote t set param s
  | .keepCert t set param => Sys2Proof.Machine.execKeepCert t set param s
  | .keepRandom t set param => Sys2Proof.Machine.execKeepRandom t set param s
  | .sbkInstall t set param => Sys2Proof.Machine.execSbkInstall t set param s
  | .epochPrepare t set param => Sys2Proof.Machine.execEpochPrepare t set param s
  | .epochAccept t set param => Sys2Proof.Machine.execEpochAccept t set param s
  | .raiseFloor t set param => Sys2Proof.Machine.execRaiseFloor t set param s
  | .slotProgram t set param => Sys2Proof.Machine.execSlotProgram t set param s
  | .slotRevoke t set param => Sys2Proof.Machine.execSlotRevoke t set param s
  | .restoreFactory t set param => Sys2Proof.Machine.execRestoreFactory t set param s
  | .logRead t set param => Sys2Proof.Machine.execLogRead t set param s
  | .debugChallenge t set param => Sys2Proof.Machine.execDebugChallenge t set param s
  | .debugUnlock t set param => Sys2Proof.Machine.execDebugUnlock t set param s
  | .keepCommandComplete t set => Sys2Proof.Machine.execKeepCommandComplete t set s
  | .restoreFuseBurn t => Sys2Proof.Machine.execRestoreFuseBurn t s
  | .drbgReseed t ok => Sys2Proof.Machine.execDrbgReseed t ok s
  | .spdmRequest t msg => Sys2Proof.Machine.execSpdmRequest t msg s
  | .ideQuery t => Sys2Proof.Machine.execIdeQuery t s
  | .keyProg t set dir key => Sys2Proof.Machine.execKeyProg t set dir key s
  | .kSetGo t set => Sys2Proof.Machine.execKSetGo t set s
  | .kSetStop t set => Sys2Proof.Machine.execKSetStop t set s
  | .takeOver t ini l => Sys2Proof.Machine.execTakeOver t ini l s
  | .retireSpare t ini j => Sys2Proof.Machine.execRetireSpare t ini j s
  | .takeoverCopyComplete t => Sys2Proof.Machine.execTakeoverCopyComplete t s
  | .agingMeasurement t ix d => Sys2Proof.Machine.execAgingMeasurement t ix d s
  | .counterIntervalClose t k => Sys2Proof.Machine.execCounterIntervalClose t k s
  | .scrubLine t a upset => Sys2Proof.Machine.execScrubLine t a upset s
  | .externalPortAccess t ini p off n bs upset => Sys2Proof.Machine.execExternalPortAccess t ini p off n bs upset s
  | .registerWrite t ini off v => Sys2Proof.Machine.execRegisterWrite t ini off v s
  | .jtagAccess t op => Sys2Proof.Machine.execJtagAccess t op s
  | .perstDeassert t refclk => Sys2Proof.Machine.execPerstDeassert t refclk s
  | .linkUp t rate width flit => Sys2Proof.Machine.execLinkUp t rate width flit s
  | .linkDown t kind => Sys2Proof.Machine.execLinkDown t kind s
  | .flr t => Sys2Proof.Machine.execFlr t s
  | .dStateChange t d3 => Sys2Proof.Machine.execDStateChange t d3 s
  | .configRequest t op => Sys2Proof.Machine.execConfigRequest t op s
  | .bar0Read t off n be ide => Sys2Proof.Machine.execBar0Read t off n be ide s
  | .bar0Write t off bs be ide => Sys2Proof.Machine.execBar0Write t off bs be ide s
  | .bar2Read t o n ide => Sys2Proof.Machine.execBar2Read t o n ide s
  | .bar2Write t o bs ide => Sys2Proof.Machine.execBar2Write t o bs ide s
  | .hostRingEnable t ini j v => Sys2Proof.Machine.execHostRingEnable t ini j v s
  | .hostRingEntryWrite t j => Sys2Proof.Machine.execHostRingEntryWrite t j s
  | .hostRingPiWrite t j v ide => Sys2Proof.Machine.execHostRingPiWrite t j v ide s
  | .hostReadCompletion t j ok ep items => Sys2Proof.Machine.execHostReadCompletion t j ok ep items s
  | .hostReadTimeout t j => Sys2Proof.Machine.execHostReadTimeout t j s
  | .msixFire t ini v => Sys2Proof.Machine.execMsixFire t ini v s
  | .msixUnmask t v => Sys2Proof.Machine.execMsixUnmask t v s
  | .ideIntegrityFailure t => Sys2Proof.Machine.execIdeIntegrityFailure t s
  | .inputOkChange t b ok va vb => Sys2Proof.Machine.execInputOkChange t b ok va vb s
  | .inputReversed t b mv va vb => Sys2Proof.Machine.execInputReversed t b mv va vb s
  | .inputOvervoltage t b va vb => Sys2Proof.Machine.execInputOvervoltage t b va vb s
  | .inputReconnect t b va vb => Sys2Proof.Machine.execInputReconnect t b va vb s
  | .vholdLow t v => Sys2Proof.Machine.execVholdLow t v s
  | .holdupExhausted t => Sys2Proof.Machine.execHoldupExhausted t s
  | .moduleReset t why => Sys2Proof.Machine.execModuleReset t why s
  | .sleepRequest t ini => Sys2Proof.Machine.execSleepRequest t ini s
  | .wakeEvent t b => Sys2Proof.Machine.execWakeEvent t b s
  | .refaLost t => Sys2Proof.Machine.execRefaLost t s
  | .refaReturn t => Sys2Proof.Machine.execRefaReturn t s
  | .refbLost t => Sys2Proof.Machine.execRefbLost t s
  | .refbReturn t => Sys2Proof.Machine.execRefbReturn t s
  | .temperatureUpdate t main ana => Sys2Proof.Machine.execTemperatureUpdate t main ana s
  | .thermalShutdown t => Sys2Proof.Machine.execThermalShutdown t s
  | .thermalRestart t => Sys2Proof.Machine.execThermalRestart t s
  | .landSwitchOpen t row col low => Sys2Proof.Machine.execLandSwitchOpen t row col low s
  | .landSwitchClose t row col level => Sys2Proof.Machine.execLandSwitchClose t row col level s
  | .landFault t row col kind => Sys2Proof.Machine.execLandFault t row col kind s
  | .openInputTest t lands => Sys2Proof.Machine.execOpenInputTest t lands s
  | .pinEdgeClock t pin => Sys2Proof.Machine.execPinEdgeClock t pin s
  | .pgRelease t => Sys2Proof.Machine.execPgRelease t s

end Sys2Proof.Machine
end

