-- ==== Sys2Proof/Safety.lean ====
section
/-! DEFINITION. What counts as a safe run: no step faults or refuses, and what every state must keep. -/

namespace Sys2Proof

open Sys2Proof.Machine

/-- A step that neither faults nor refuses. -/
def steps (s t : State) : Prop := step s = .next t

/-- A run of n steps. -/
def runs : Nat → State → State → Prop
  | 0, s, t => s = t
  | n + 1, s, t => ∃ u, steps s u ∧ runs n u t

/-- Memory keeps its canonical form. -/
def memOk (s : State) : Prop := Memory.wf s.mem = true

end Sys2Proof

namespace Sys2Proof.Machine

/-- How many of each thing the device has: 68 Eduno cores, two Barista pairs, 64 logical cores (R24, R28), four ring ports in two
pairs (12_zwiust_ring.md), 32 Crema channels and eight runs (R346, R373), eight EVAC pins (R402) and two flash devices (R430); and
memory keeps its canonical form. -/
structure Shaped (s : State) : Prop where
  cores : s.cores.length = 68
  baristas : s.baristas.length = 2
  map : s.map.length = 64
  ports : s.ring.ports.length = 4
  pairs : s.ring.pairs.length = 2
  chans : s.crema.chans.length = 32
  runs : s.crema.runs.length = 8
  pins : s.audio.pins.length = 8
  flash : s.boot.flash.length = 2
  mem : Memory.wf s.mem = true

/-- Destinations that only take a value: registers, latches and CORE_ASTAT, no trigger, mode or hold (R59, R101, R105 to
R108). -/
def plainDst : Dst → Bool
  | .g _ | .d _ | .a _ | .aHi _ | .m _ | .cb _ | .cl _ | .p _ | .raw _ _ _ | .aluO _ | .macO _ | .macRa _ | .shfO | .spuO
  | .lpe | .ln | .bc | .qioQ | .carSd | .astat | .tsbr | .sd _ | .srow _ => true
  | _ => false

/-- A core between bundles: no branch, loop, repetition, pending mode change, memory error, capture, block-repeat move or entry
is under way (R153 to R175, R184, R228). -/
def atEase (c : Core) : Prop :=
  c.branch = none ∧ (∀ l ∈ c.loops, l.active = false) ∧ c.rep = none ∧ c.repBytes = none ∧ c.modePend = [] ∧ c.merr = [] ∧
  c.lbuf = .off ∧ c.bmove = none ∧ c.entering = none ∧ c.fresh = false

/-- A command completes in a state of which P holds. -/
def completes (c : Instr) (s : State) (P : State → Prop) : Prop := ∃ u, exec c s = .next u ∧ P u

/-- From core state c to d only what the presentation of a ticket or an exception writes changed: the entry (R213, R246). -/
def PresentOnly (c d : Core) : Prop := d = { c with entering := d.entering }

/-- From s to t only what events of the order rail write changed: sources, the pending words ORL_PENDk, MSI-X messages, and the
entries of the cores (R237 to R246, R500). -/
structure RailOnly (s t : State) : Prop where
  eq : t = { s with
    srcs := t.srcs, regs := t.regs, hwSet := t.hwSet, cores := t.cores, baristas := t.baristas, msixPend := t.msixPend
    msixOut := t.msixOut }
  regs : ∀ off, ¬ (0x10200 ≤ off ∧ off < 0x10280) → kget t.regs off = kget s.regs off
  core : ∀ w, PresentOnly (s.core w) (t.core w)

/-- From s to t only the channels listed, their control and status words, the pins, what pulses of their sources write and the note of
a bus write changed (R258 to R270). The timers' registers begin at 0x20000; the pending words of the rail are ORL_PENDk and
ORL_PPENDp. -/
structure TimersOnly (l : List Nat) (s t : State) : Prop where
  eq : t = { s with
    srcs := t.srcs, regs := t.regs, hwSet := t.hwSet, regWas := t.regWas, cores := t.cores, baristas := t.baristas
    msixPend := t.msixPend, msixOut := t.msixOut, chans := t.chans, privSpan := t.privSpan, tpHist := t.tpHist
    pinActs := t.pinActs }
  chan : ∀ n < 264, n ∉ l → t.chan n = s.chan n ∧ chanCtl t n = chanCtl s n
  regs : ∀ off, ¬ (0x20000 ≤ off ∧ off < 0x30000) → ¬ (0x10200 ≤ off ∧ off < 0x10280) → ¬ (0x12004 ≤ off ∧ off < 0x13200) →
    kget t.regs off = kget s.regs off
  core : ∀ w, PresentOnly (s.core w) (t.core w)

/-- Register n of index i as a bus write of cycle t finds it is noted, once a cycle (R9). -/
def noted (s : State) (t : Nat) (n : RegName) (i : Nat) : State := s.noteReg t (regOff n i 0) (s.reg n i)

/-- Time has reached cycle t in state r, and the core clock runs (R51, R255, R518): what a command of stamp t finds. -/
def runsAt (s : State) (t : Nat) (r : State) : Prop := reach s t = r ∧ r.power.asleep = none

end Sys2Proof.Machine
end

