-- ==== Sys2Proof/WellFormed.lean ====
section
/-! DEFINITION. Which commands name something the block has: a command outside these bounds has no effect but that time
reaches its stamp. -/

namespace Sys2Proof

/-- A core selector names one of the 68 physical Eduno cores (R24) or of the two Barista pairs (R413). -/
def CoreSel.wf : CoreSel → Bool
  | .eduno p => decide (p < 68)
  | .barista r => decide (r < 2)

/-- Whether the indices of a command are in range. -/
def wellFormed : Instr → Bool
  | .tick _ => true
  | .bundleIssue _ w _ => w.wf
  | .unitResultDelivery _ w => w.wf
  | .accumulatorLanding _ w => w.wf
  | .loadDelivery _ w => w.wf
  | .bmoveEnd _ w => w.wf
  | .carafeLoadReady _ w => w.wf
  | .carafeGrant _ slice _ _ => decide (slice < 8)
  | .storeBufferPerformed _ w => w.wf
  | .sendItemStored _ p => decide (p < 68)
  | .receiveItemDelivered _ p _ => decide (p < 68)
  | .receiveTimeout _ p _ => decide (p < 68)
  | .entry _ w => w.wf
  | .sourceEvent _ n _ => decide (n < 1024)
  | .coalesceTimeRelease _ n => decide (n < 1024)
  | .pendingWrite _ _ k _ => decide (k < 100)
  | .inServiceComplete _ _ k _ => decide (k < 100)
  | .baristaClaim _ => true
  | .channelArm _ _ n _ => decide (n < 264)
  | .channelDisarm _ _ n _ => decide (n < 264)
  | .compareStage _ _ n _ => decide (n < 264)
  | .compareCommit _ _ n _ => decide (n < 264)
  | .groupStart _ _ _ => true
  | .channelMatch _ n => decide (n < 264)
  | .channelOverflow _ n => decide (n < 264)
  | .snapshotNtc _ _ => true
  | .snapshotSharedChannel _ _ n => decide (n < 128)
  | .snapshotPrivateChannel _ _ n => decide (n < 136)
  | .captureEvent _ pin _ => decide (pin < 32)
  | .captureRead _ _ c => decide (c < 32)
  | .ringTimeLost _ => true
  | .descriptorWrite _ _ h off _ => decide (h < 65536) && decide (off < 32 ∧ off % 4 = 0)
  | .initiatorSend _ i _ => decide (i < 2)
  | .initiatorReceive _ i _ => decide (i < 2)
  | .initiatorOpEnd _ i => decide (i < 2)
  | .inputPlacement _ h _ => decide (h < 65536)
  | .scheduledForward _ _ => true
  | .itemAgeTimeout _ h => decide (h < 65536)
  | .heartbeatReceived _ p => decide (p < 4)
  | .supervisionExpiry _ p => decide (p < 4)
  | .remoteFaultReceived _ p => decide (p < 4)
  | .portWrap _ p => decide (p < 4)
  | .portReturned _ p => decide (p < 4)
  | .ringFrameReceived _ p _ _ => decide (p < 4)
  | .beaconSend _ p => decide (p < 4)
  | .delayRequestSend _ r => decide (r < 2)
  | .epochGrantSend _ p => decide (p < 4)
  | .upstreamTimeout _ p => decide (p < 4)
  | .islandLeaderElection _ r => decide (r < 2)
  | .trainOrigin _ r _ _ => decide (r < 2)
  | .groupMissing _ r _ _ => decide (r < 2)
  | .unreservedFrameSend _ p => decide (p < 4)
  | .mailboxSend _ m => decide (m < 4096)
  | .controlTransmit _ _ _ => true
  | .edgeFrameReceived _ p _ => decide (p < 4) && decide (2 ≤ p)
  | .edgeStreamTransmit _ i => decide (i < 1024)
  | .streamSilent _ i => decide (i < 1024)
  | .crmLive _ _ c => decide (c < 32)
  | .startNightSweep _ _ c => decide (c < 32)
  | .crmOff _ _ c => decide (c < 32)
  | .startReflectometry _ _ b => decide (b < 8)
  | .velocityCalibration _ _ b => decide (b < 8)
  | .abortReflectometry _ _ b => decide (b < 8)
  | .cremaFrameEnd _ c _ => decide (c < 32)
  | .fastFault _ c => decide (c < 32)
  | .liveWindowEnd _ c _ => decide (c < 32)
  | .nightStageAEnd _ c _ => decide (c < 32)
  | .nightStageBEnd _ c _ => decide (c < 32)
  | .reflectPulse _ b _ => decide (b < 8)
  | .reflectRunEnd _ b => decide (b < 8)
  | .evacDebouncedChange _ e => decide (e < 8)
  | .evacMessageStart _ e => decide (e < 8)
  | .evacMessageEnd _ e => decide (e < 8)
  | .bankFlipRequest _ _ _ => true
  | .placementRequest _ _ _ => true
  | .placementComplete _ => true
  | .moduleResetRelease _ _ _ => true
  | .imageChoice _ _ _ => true
  | .sectionApply _ => true
  | .loaderChecks _ => true
  | .tamp _ => true
  | .recoveryImageWrite _ _ => true
  | .setGoodMark _ _ => true
  | .setBadMark _ _ => true
  | .markProgrammed _ => true
  | .lockstepMismatch _ r => decide (r < 2)
  | .watchdogExpiry _ => true
  | .watchdogService _ _ => true
  | .shadowWrite _ => true
  | .restorePair _ _ => true
  | .restoreComplete _ => true
  | .warmRebootBootCopy _ _ => true
  | .warmRebootStaged _ _ => true
  | .warmRebootTamp _ => true
  | .keepQuote _ set _ => decide (set < 3)
  | .keepCert _ set _ => decide (set < 3)
  | .keepRandom _ set _ => decide (set < 3)
  | .sbkInstall _ set _ => decide (set < 3)
  | .epochPrepare _ set _ => decide (set < 3)
  | .epochAccept _ set _ => decide (set < 3)
  | .raiseFloor _ set _ => decide (set < 3)
  | .slotProgram _ set _ => decide (set < 3)
  | .slotRevoke _ set _ => decide (set < 3)
  | .restoreFactory _ set _ => decide (set < 3)
  | .logRead _ set _ => decide (set < 3)
  | .debugChallenge _ set _ => decide (set < 3)
  | .debugUnlock _ set _ => decide (set < 3)
  | .keepCommandComplete _ set => decide (set < 3)
  | .restoreFuseBurn _ => true
  | .drbgReseed _ _ => true
  | .spdmRequest _ _ => true
  | .ideQuery _ => true
  | .keyProg _ _ _ _ => true
  | .kSetGo _ _ => true
  | .kSetStop _ _ => true
  | .takeOver _ _ l => decide (l < 64)
  | .retireSpare _ _ j => decide (j < 4)
  | .takeoverCopyComplete _ => true
  | .agingMeasurement _ _ _ => true
  | .counterIntervalClose _ k => decide (k < 32)
  | .scrubLine _ _ _ => true
  | .externalPortAccess _ _ p _ _ _ _ => decide (p < 68)
  | .registerWrite _ _ off _ => decide (off < 0x2000000)
  | .jtagAccess _ _ => true
  | .perstDeassert _ _ => true
  | .linkUp _ _ _ _ => true
  | .linkDown _ _ => true
  | .flr _ => true
  | .dStateChange _ _ => true
  | .configRequest _ _ => true
  | .bar0Read _ _ _ _ _ => true
  | .bar0Write _ _ _ _ _ => true
  | .bar2Read _ _ _ _ => true
  | .bar2Write _ _ _ _ => true
  | .hostRingEnable _ _ j _ => decide (j < 16)
  | .hostRingEntryWrite _ j => decide (j < 16)
  | .hostRingPiWrite _ j _ _ => decide (j < 16)
  | .hostReadCompletion _ j _ _ _ => decide (j < 16)
  | .hostReadTimeout _ j => decide (j < 16)
  | .msixFire _ _ _ => true
  | .msixUnmask _ v => decide (v < 2048)
  | .ideIntegrityFailure _ => true
  | .inputOkChange _ _ _ _ _ => true
  | .inputReversed _ _ _ _ _ => true
  | .inputOvervoltage _ _ _ _ => true
  | .inputReconnect _ _ _ _ => true
  | .vholdLow _ _ => true
  | .holdupExhausted _ => true
  | .moduleReset _ _ => true
  | .sleepRequest _ _ => true
  | .wakeEvent _ _ => true
  | .refaLost _ => true
  | .refaReturn _ => true
  | .refbLost _ => true
  | .refbReturn _ => true
  | .temperatureUpdate _ _ _ => true
  | .thermalShutdown _ => true
  | .thermalRestart _ => true
  | .landSwitchOpen _ _ _ _ => true
  | .landSwitchClose _ _ _ _ => true
  | .landFault _ _ _ _ => true
  | .openInputTest _ _ => true
  | .pinEdgeClock _ pin => decide (pin < 32)
  | .pgRelease _ => true

/-- The stamp of a command: the cycle that time reaches before its effect (R51). TICK has none: it comes in the cycle that the
pour length gives (R37). -/
def Instr.stamp : Instr → Option Nat
  | .tick _ => none
  | .bundleIssue t _ _ => some t
  | .unitResultDelivery t _ => some t
  | .accumulatorLanding t _ => some t
  | .loadDelivery t _ => some t
  | .bmoveEnd t _ => some t
  | .carafeLoadReady t _ => some t
  | .carafeGrant t _ _ _ => some t
  | .storeBufferPerformed t _ => some t
  | .sendItemStored t _ => some t
  | .receiveItemDelivered t _ _ => some t
  | .receiveTimeout t _ _ => some t
  | .entry t _ => some t
  | .sourceEvent t _ _ => some t
  | .coalesceTimeRelease t _ => some t
  | .pendingWrite t _ _ _ => some t
  | .inServiceComplete t _ _ _ => some t
  | .baristaClaim t => some t
  | .channelArm t _ _ _ => some t
  | .channelDisarm t _ _ _ => some t
  | .compareStage t _ _ _ => some t
  | .compareCommit t _ _ _ => some t
  | .groupStart t _ _ => some t
  | .channelMatch t _ => some t
  | .channelOverflow t _ => some t
  | .snapshotNtc t _ => some t
  | .snapshotSharedChannel t _ _ => some t
  | .snapshotPrivateChannel t _ _ => some t
  | .captureEvent t _ _ => some t
  | .captureRead t _ _ => some t
  | .ringTimeLost t => some t
  | .descriptorWrite t _ _ _ _ => some t
  | .initiatorSend t _ _ => some t
  | .initiatorReceive t _ _ => some t
  | .initiatorOpEnd t _ => some t
  | .inputPlacement t _ _ => some t
  | .scheduledForward t _ => some t
  | .itemAgeTimeout t _ => some t
  | .heartbeatReceived t _ => some t
  | .supervisionExpiry t _ => some t
  | .remoteFaultReceived t _ => some t
  | .portWrap t _ => some t
  | .portReturned t _ => some t
  | .ringFrameReceived t _ _ _ => some t
  | .beaconSend t _ => some t
  | .delayRequestSend t _ => some t
  | .epochGrantSend t _ => some t
  | .upstreamTimeout t _ => some t
  | .islandLeaderElection t _ => some t
  | .trainOrigin t _ _ _ => some t
  | .groupMissing t _ _ _ => some t
  | .unreservedFrameSend t _ => some t
  | .mailboxSend t _ => some t
  | .controlTransmit t _ _ => some t
  | .edgeFrameReceived t _ _ => some t
  | .edgeStreamTransmit t _ => some t
  | .streamSilent t _ => some t
  | .crmLive t _ _ => some t
  | .startNightSweep t _ _ => some t
  | .crmOff t _ _ => some t
  | .startReflectometry t _ _ => some t
  | .velocityCalibration t _ _ => some t
  | .abortReflectometry t _ _ => some t
  | .cremaFrameEnd t _ _ => some t
  | .fastFault t _ => some t
  | .liveWindowEnd t _ _ => some t
  | .nightStageAEnd t _ _ => some t
  | .nightStageBEnd t _ _ => some t
  | .reflectPulse t _ _ => some t
  | .reflectRunEnd t _ => some t
  | .evacDebouncedChange t _ => some t
  | .evacMessageStart t _ => some t
  | .evacMessageEnd t _ => some t
  | .bankFlipRequest t _ _ => some t
  | .placementRequest t _ _ => some t
  | .placementComplete t => some t
  | .moduleResetRelease t _ _ => some t
  | .imageChoice t _ _ => some t
  | .sectionApply t => some t
  | .loaderChecks t => some t
  | .tamp t => some t
  | .recoveryImageWrite t _ => some t
  | .setGoodMark t _ => some t
  | .setBadMark t _ => some t
  | .markProgrammed t => some t
  | .lockstepMismatch t _ => some t
  | .watchdogExpiry t => some t
  | .watchdogService t _ => some t
  | .shadowWrite t => some t
  | .restorePair t _ => some t
  | .restoreComplete t => some t
  | .warmRebootBootCopy t _ => some t
  | .warmRebootStaged t _ => some t
  | .warmRebootTamp t => some t
  | .keepQuote t _ _ => some t
  | .keepCert t _ _ => some t
  | .keepRandom t _ _ => some t
  | .sbkInstall t _ _ => some t
  | .epochPrepare t _ _ => some t
  | .epochAccept t _ _ => some t
  | .raiseFloor t _ _ => some t
  | .slotProgram t _ _ => some t
  | .slotRevoke t _ _ => some t
  | .restoreFactory t _ _ => some t
  | .logRead t _ _ => some t
  | .debugChallenge t _ _ => some t
  | .debugUnlock t _ _ => some t
  | .keepCommandComplete t _ => some t
  | .restoreFuseBurn t => some t
  | .drbgReseed t _ => some t
  | .spdmRequest t _ => some t
  | .ideQuery t => some t
  | .keyProg t _ _ _ => some t
  | .kSetGo t _ => some t
  | .kSetStop t _ => some t
  | .takeOver t _ _ => some t
  | .retireSpare t _ _ => some t
  | .takeoverCopyComplete t => some t
  | .agingMeasurement t _ _ => some t
  | .counterIntervalClose t _ => some t
  | .scrubLine t _ _ => some t
  | .externalPortAccess t _ _ _ _ _ _ => some t
  | .registerWrite t _ _ _ => some t
  | .jtagAccess t _ => some t
  | .perstDeassert t _ => some t
  | .linkUp t _ _ _ => some t
  | .linkDown t _ => some t
  | .flr t => some t
  | .dStateChange t _ => some t
  | .configRequest t _ => some t
  | .bar0Read t _ _ _ _ => some t
  | .bar0Write t _ _ _ _ => some t
  | .bar2Read t _ _ _ => some t
  | .bar2Write t _ _ _ => some t
  | .hostRingEnable t _ _ _ => some t
  | .hostRingEntryWrite t _ => some t
  | .hostRingPiWrite t _ _ _ => some t
  | .hostReadCompletion t _ _ _ _ => some t
  | .hostReadTimeout t _ => some t
  | .msixFire t _ _ => some t
  | .msixUnmask t _ => some t
  | .ideIntegrityFailure t => some t
  | .inputOkChange t _ _ _ _ => some t
  | .inputReversed t _ _ _ _ => some t
  | .inputOvervoltage t _ _ _ => some t
  | .inputReconnect t _ _ _ => some t
  | .vholdLow t _ => some t
  | .holdupExhausted t => some t
  | .moduleReset t _ => some t
  | .sleepRequest t _ => some t
  | .wakeEvent t _ => some t
  | .refaLost t => some t
  | .refaReturn t => some t
  | .refbLost t => some t
  | .refbReturn t => some t
  | .temperatureUpdate t _ _ => some t
  | .thermalShutdown t => some t
  | .thermalRestart t => some t
  | .landSwitchOpen t _ _ _ => some t
  | .landSwitchClose t _ _ _ => some t
  | .landFault t _ _ _ => some t
  | .openInputTest t _ => some t
  | .pinEdgeClock t _ => some t
  | .pgRelease t => some t

end Sys2Proof
end

