-- ==== Sys2Proof/Certificates/Slice0/Obligations.lean ====
section
/-! DEFINITION. The statements for the provers: what the commands do, what they leave, and what every step keeps. -/

open Sys2Proof Sys2Proof.Machine


/-! ### Timers -/

/-- CHANNEL_ARM of a channel that is not armed, in a cycle in which nothing has armed it (R259, R260): with no
reserved bit in the control word, the count becomes 0 when ld0 is set and stays otherwise, the channel is armed, and
its compare is to be judged at the end of the cycle; no other channel changes. GROUP_START of a group that has not
started in this cycle (R267): the member of rank k is armed in this cycle with the count (-k × step) mod 2⁴⁸; channels
outside the group and memory stay. -/
def Obligations.ChannelArmings : Prop :=
  (∀ s r t ini n (v : W32), runsAt s t r → n < 264 → chanArmed r n = false → (r.chan n).armAt ≠ some t →
    (if n < 128 then reservedIn .tmrCtl n (v ||| 0x80000000).toNat else reservedIn .tmrPctl (n - 128) (v ||| 0x80000000).toNat) = false →
    completes (.channelArm t ini n v) s fun u =>
      (u.chan n).count = (if bitOf v.toNat 30 then 0 else (r.chan n).count) ∧ (u.chan n).cmp = (r.chan n).cmp ∧
      (u.chan n).armAt = some t ∧ (u.chan n).base = t ∧ (u.chan n).todo = some t ∧ chanArmed u n = true ∧ TimersOnly [n] r u) ∧
  (∀ s r t ini g, runsAt s t r → g < 8 → kget r.grpAt g ≠ some t →
    completes (.groupStart t ini (BitVec.ofNat 32 (2 ^ g))) s fun u =>
      (∀ k n, (groupMembers r g)[k]? = some n →
        let step := (r.reg .tmrGrpStepl g).toNat + 2 ^ 32 * (r.reg .tmrGrpSteph g).toNat
        (u.chan n).count = (2 ^ 48 - k * step % 2 ^ 48) % 2 ^ 48 ∧ (u.chan n).armAt = some t ∧ (u.chan n).todo = some t ∧
        (u.chan n).cmp = (r.chan n).cmp ∧ chanArmed u n = true) ∧
      (∀ n, n ∉ groupMembers r g → u.chan n = r.chan n) ∧ u.mem = r.mem)

/-- CHANNEL_DISARM of an armed channel that was not armed in this cycle and owes nothing of the cycle before (R259,
R264), with the clock and the prescaler as they are: the write waits for the end of the cycle, at which the channel is
armed no longer and its count stops where it then stands; no other channel changes. -/
def Obligations.ChannelDisarm : Prop :=
  ∀ s r t ini n (v : W32), runsAt s t r → n < 264 → chanArmed r n = true → (r.chan n).armAt ≠ some t →
    (r.chan n).incAt ≠ some (t - 1) →
    (if n < 128 then reservedIn .tmrCtl n (v &&& 0x7FFFFFFF).toNat else reservedIn .tmrPctl (n - 128) (v &&& 0x7FFFFFFF).toNat) = false →
    fieldOf v 28 27 = chanClk r n → fieldOf v 12 0 + 1 = chanDiv r n →
    completes (.channelDisarm t ini n v) s fun u =>
      (u.chan n).offAt = some t ∧ (u.chan n).todo = some t ∧ (u.chan n).cmp = (r.chan n).cmp ∧ TimersOnly [n] r u ∧
      chanArmed (settleChan u n t) n = false ∧ ((settleChan u n t).chan n).count = chanCount r n t

/-- COMPARE_STAGE and COMPARE_COMMIT of a channel that is not armed (R263): a write of CMPL stages the low half; a
write of CMPH puts the written high half above it, and reads return that compare. The count, the other channels, the
registers and memory stay. -/
def Obligations.CompareStageCommit : Prop :=
  ∀ s r t n ini (v : W32), runsAt s t r → n < 264 →
    completes (.compareStage t ini n v) s (fun u =>
      u.chan n = { r.chan n with stage := v.toNat } ∧ (∀ m, m ≠ n → u.chan m = r.chan m) ∧ u.regs = r.regs ∧ u.mem = r.mem) ∧
    (v.toNat < 2 ^ 16 → chanArmed r n = false → completes (.compareCommit t ini n v) s fun u =>
      (u.chan n).cmp = v.toNat * 2 ^ 32 + (r.chan n).stage ∧ (u.chan n).count = (r.chan n).count ∧ (u.chan n).todo = some t ∧
      (if n < 128 then regView u .tmrCmpl n 0 t else regView u .tmrPcmpl (n - 128) 0 t) = BitVec.ofNat 32 (u.chan n).cmp ∧
      (if n < 128 then regView u .tmrCmph n 0 t else regView u .tmrPcmph (n - 128) 0 t) = BitVec.ofNat 32 ((u.chan n).cmp / 2 ^ 32) ∧
      (∀ m, m ≠ n → u.chan m = r.chan m) ∧ u.regs = r.regs ∧ u.mem = r.mem)

/-- CHANNEL_MATCH and CHANNEL_OVERFLOW (R258, R260 to R262): for every channel the end of the cycle is judged. Where
the count reaches the compare in it, an armed channel stops there, is armed no longer, and STAT.match is set with
at_once clear; where the count wraps, it is 0 and STAT.ovf is set, and the channel stays armed unless its compare is 0
too. A channel armed in the cycle whose compare is met at once stops with STAT.match and at_once set, and any other so
armed stays armed (R260). PIN_EDGE_CLOCK (R258): nothing where the switch of the land is open; else a channel that
counts the edges of the pin is to count one in this cycle, and the others stay. -/
def Obligations.ChannelMatchOverflow : Prop :=
  (∀ s r t n, runsAt s t r →
    exec (.channelMatch t n) s = .next (if n < 264 then settleChan r n t else r) ∧
    exec (.channelOverflow t n) s = .next (if n < 264 then settleChan r n t else r)) ∧
  (∀ (r : State) t n, n < 264 → r.power.asleep = none → chanArmed r n = true → (r.chan n).commitAt ≠ some t → (r.chan n).offAt ≠ some t →
    let c := r.chan n
    let u := settleChan r n t
    (c.armAt ≠ some t → chanCounts r n t = true → chanCount r n t = c.cmp → c.cmp ≠ 0 →
      chanArmed u n = false ∧ (u.chan n).count = c.cmp ∧ bitOf (chanStat u n).toNat 0 = true ∧ bitOf (chanStat u n).toNat 2 = false ∧
      TimersOnly [n] r u) ∧
    (c.armAt ≠ some t → chanCounts r n t = true → chanCount r n t = 0 →
      chanArmed u n = decide (c.cmp ≠ 0) ∧ (u.chan n).count = 0 ∧ bitOf (chanStat u n).toNat 1 = true ∧ TimersOnly [n] r u) ∧
    (c.armAt = some t → chanCounts r n t = false →
      let once := atOnceMatch c.cmp (chanCount r n t)
      chanArmed u n = !once ∧ (u.chan n).count = chanCount r n t ∧
      (once = true → bitOf (chanStat u n).toNat 0 = true ∧ bitOf (chanStat u n).toNat 2 = true) ∧ TimersOnly [n] r u)) ∧
  (∀ s r t pin, runsAt s t r →
    let waits (n : Nat) := n < 128 ∧ fieldOf (chanCtl r n) 22 18 = pin ∧ chanArmed r n = true ∧ chanClk r n = 2 ∧
      (r.chan n).armAt ≠ some t ∧ (r.chan n).base ≠ t
    (pin < 32 → landOpen r 14 (7 + pin) = false → completes (.pinEdgeClock t pin) s fun u =>
      (∀ n ∈ writtenChans r, waits n → u.chan n = { r.chan n with incAt := some t, todo := some t }) ∧
      (∀ n, n ∉ writtenChans r ∨ ¬ waits n → u.chan n = r.chan n) ∧
      u = { r with chans := u.chans, tpExt := u.tpExt, tpForce := u.tpForce }) ∧
    (32 ≤ pin ∨ landOpen r 14 (7 + pin) = true → exec (.pinEdgeClock t pin) s = .next r))

/-- The snapshot commands (R256): the counter goes into the snapshot set of the initiator, and no other register
changes; a channel's count is the one at the end of the cycle, so it is copied again when the cycle is over. -/
def Obligations.Snapshots : Prop :=
  ∀ s r t (ini : Ini), runsAt s t r →
    let put (v : Nat) (u : State) :=
      u.reg .tmrSnapLo (iniNum ini) = BitVec.ofNat 32 v ∧ u.reg .tmrSnapHi (iniNum ini) = BitVec.ofNat 32 (v / 2 ^ 32) ∧
      (∀ off, off ≠ regOff .tmrSnapLo (iniNum ini) 0 → off ≠ regOff .tmrSnapHi (iniNum ini) 0 → kget u.regs off = kget r.regs off) ∧
      u.mem = r.mem ∧ u.chans = r.chans
    completes (.snapshotNtc t ini) s (fun u => put t u ∧ (∀ e ∈ u.snaps, e.1 ≠ iniNum ini)) ∧
    (∀ n < 128, completes (.snapshotSharedChannel t ini n) s fun u => put (chanCount r n t) u ∧ (iniNum ini, n, t) ∈ u.snaps) ∧
    (∀ n < 136, completes (.snapshotPrivateChannel t ini n) s fun u =>
      put (chanCount r (128 + n) t) u ∧ (iniNum ini, 128 + n, t) ∈ u.snaps)

/-- CAPTURE_EVENT and CAPTURE_READ (R271, R272, R542). An event on a land whose switch is closed, at a unit that watches the edge,
with no capture read in its cycle: ovr is set when new or pend was; V takes the stamp minus 6 and new is set unless pend was.
A read in a cycle with no event: V takes S and pend is cleared when pend was set, the low half of V is returned, H takes the
high half, and new is cleared; a JTAG read leaves the unit as it is. -/
def Obligations.Captures : Prop :=
  ∀ s r t c, runsAt s t r → c < 32 →
    (∀ pin rising, pin < 32 → landOpen r 14 (7 + pin) = false → captTakes r c pin rising = true → (r.capt c).readAt ≠ some t →
      let a := captVals r c
      completes (.captureEvent t pin rising) s fun u =>
        (u.capt c).vals = { a with v := if a.pend then a.v else t - 6, new := a.new || !a.pend, ovr := a.ovr || a.new || a.pend } ∧
        u.bit .tmrCapStat 2 c = (a.ovr || a.new || a.pend) ∧ u.mem = r.mem ∧ u.chans = r.chans) ∧
    (∀ ini, ini ≠ .jtag → (∀ e, (r.capt c).lastEv = some e → e.1 ≠ t) →
      let a := captVals r c
      let v := if a.pend then a.s else a.v
      completes (.captureRead t ini c) s fun u =>
        (u.capt c).vals = { a with v := v, new := false, pend := false } ∧
        kget u.resps (iniNum ini) = some ⟨toBytesLE 4 (v % 2 ^ 32), false⟩ ∧
        u.reg .tmrCapHi c = BitVec.ofNat 32 (v / 2 ^ 32) ∧ u.mem = r.mem ∧ u.chans = r.chans) ∧
    completes (.captureRead t .jtag c) s (fun u => u.capt c = r.capt c ∧ u.mem = r.mem)

/-! ### Order rail -/

/-- SOURCE_EVENT (R234, R237, R238, R241): a source without an input takes nothing; else the signal takes the level,
and only the rail's own state changes. A change that an edge source senses is one event, unless its latch gave one in
this cycle. With profile 0 it sets pending; else, while no window ends, the event that makes the held count reach N is
released, the count returns to 0 and the window closes, and any other is held and opens a window of T × 1,536 cycles
where T is not 0 and none is open. COALESCE_TIME_RELEASE: in the cycle in which a window ends, pending is set and the
window closes. -/
def Obligations.SourceEvents : Prop :=
  (∀ s t n level, srcHasInput n = false → exec (.sourceEvent t n level) s = .next (reach s t)) ∧
  (∀ s r t n level, runsAt s t r → srcHasInput n = true →
    let x := r.src n
    let nt := coalesceOf r n t
    completes (.sourceEvent t n level) s fun u =>
      (u.src n).level = level ∧ RailOnly r u ∧
      (srcIsLevel r n = false → x.level ≠ level → (srcSense r n = 4 ∨ (srcSense r n = 2 ∧ level = true) ∨ (srcSense r n = 3 ∧ level = false)) →
        x.latchAt ≠ some t → (∀ e, x.winEnd = some e → t < e) →
        if nt.1 ≤ x.count + 1 then
          u.bit .orlPend (n % 32) (n / 32) = true ∧ (u.src n).count = 0 ∧ (u.src n).winEnd = none
        else
          u.bit .orlPend (n % 32) (n / 32) = r.bit .orlPend (n % 32) (n / 32) ∧ (u.src n).count = x.count + 1 ∧
          (u.src n).winEnd = (x.winEnd <|> (if 0 < nt.2 then some (t + 1536 * nt.2) else none))) ∧
      (srcIsLevel r n = false → x.level = level → u = r.setSrc n { x with level := level })) ∧
  (∀ (r : State) n t, r.fldOld t .orlCfg 17 14 n = 0 → coalesceOf r n t = (1, 0)) ∧
  (∀ s r t n, runsAt s t r → n < 1024 → (r.src n).winEnd = some t →
    completes (.coalesceTimeRelease t n) s fun u =>
      u.bit .orlPend (n % 32) (n / 32) = true ∧ (u.src n).count = 0 ∧ (u.src n).winEnd = none ∧ RailOnly r u)

/-- PENDING_WRITE (R238, R242, R253): a written 1 sets the pending bit of an edge source and a written 0 clears it,
except that a bit the hardware sets in this cycle stays set; a level source takes nothing from the write; held counts
and windows stay, and beside the note of the write only the rail's own state changes. The same for the private sources
of a core. -/
def Obligations.PendingWrite : Prop :=
  ∀ s r t ini k (v : W32), runsAt s t r →
    (k < 32 → completes (.pendingWrite t ini k v) s fun u =>
      (∀ i < 32, u.bit .orlPend i k =
        ((!srcIsLevel r (32 * k + i) && bitOf v.toNat i) || bitOf (r.hwBits t (regOff .orlPend k 0)) i)) ∧
      (∀ n, u.src n = r.src n) ∧ RailOnly (r.noteReg t (regOff .orlPend k 0) (r.reg .orlPend k)) u) ∧
    (∀ p < 68, k = 32 + p → reservedIn .orlPpend p v.toNat = false → completes (.pendingWrite t ini k v) s fun u =>
      (∀ i < 32, u.bit .orlPpend i p = (bitOf v.toNat i || bitOf (r.hwBits t (regOff .orlPpend p 0)) i)) ∧
      (∀ n, u.src n = r.src n) ∧ u.mem = r.mem)

/-- IN_SERVICE_COMPLETE (R239): each source whose in-service bit is written 1 is in service no longer, and the others stay as
they are. The same for the private sources of a core. -/
def Obligations.InServiceComplete : Prop :=
  ∀ s r t ini k (v : W32), runsAt s t r →
    (k < 32 → completes (.inServiceComplete t ini k v) s fun u =>
      (∀ i < 32, u.bit .orlInsvc i k = (r.bit .orlInsvc i k && !bitOf v.toNat i)) ∧
      (∀ n, u.src n = r.src n) ∧ (∀ i < 32, u.reg .orlPend i = r.reg .orlPend i) ∧ u.mem = r.mem) ∧
    (∀ p < 68, k = 32 + p → reservedIn .orlPinsvc p v.toNat = false → completes (.inServiceComplete t ini k v) s fun u =>
      u.reg .orlPinsvc p = r.reg .orlPinsvc p &&& ~~~v ∧ u.mem = r.mem)

/-- BARISTA_CLAIM (R239, R248): the pair reads the ticket presented and its priority, which goes into service, and an edge
source is no longer pending (source 736 apart, which the count of this claim may raise); or 2047 when no ticket is presented.
The ticket presented to a target (R244) is one of the eligible ones above its running level, and no other such ticket has a
higher priority, or the same one and a lower number. -/
def Obligations.BaristaClaim : Prop :=
  (∀ s r t, runsAt s t r →
    let q := settleFalls r t
    completes (.baristaClaim t) s fun u => u.mem = r.mem ∧
      match pairTicket q with
      | some (n, p) =>
        kget u.resps 0 = some ⟨toBytesLE 4 (p * 2 ^ 16 + n), false⟩ ∧ u.bit .orlInsvc (n % 32) (n / 32) = true ∧
        (srcIsLevel q n = false → bitOf (q.hwBits t (regOff .orlPend (n / 32) 0)) (n % 32) = false → n ≠ 736 →
          u.bit .orlPend (n % 32) (n / 32) = false)
      | none => kget u.resps 0 = some ⟨toBytesLE 4 2047, false⟩ ∧ ∀ i < 32, u.reg .orlInsvc i = q.reg .orlInsvc i) ∧
  (∀ level (l : List (Nat × Nat)),
    match bestTicket level l with
    | some x => x ∈ l ∧ levelRank level < x.2 + 1 ∧
        ∀ y ∈ l, levelRank level < y.2 + 1 → y.2 < x.2 ∨ (y.2 = x.2 ∧ x.1 ≤ y.1)
    | none => ∀ y ∈ l, ¬ levelRank level < y.2 + 1)

/-! ### Control cores, Carafe and the core's queues -/

/-- TICK (R37, R41): before the tamp and in Sleep there is no tick, and nothing changes. Otherwise the command
completes in a state that records the cycle of the tick, and the queue stays. With no stretch due and none under way,
that is the first cycle that is a multiple of the pour length, is not in the past and follows the last tick; at the
end of a stretch of k cycles to the realm's tick of pour m, the NTC takes m × P. -/
def Obligations.Tick : Prop :=
  ∀ s evac,
    (tickCycle s = none → exec (.tick evac) s = .next s) ∧
    (∀ o, tickCycle s = some o → completes (.tick evac) s fun u =>
      u.pending = s.pending ∧
      u.lastTick = some (match (reach s o).stretch with | some (_, m) => m * (reach s o).pourLen | none => o)) ∧
    (∀ o, tickCycle s = some o → s.stretch = none →
      s.ntc ≤ o ∧ (withPourCfg s).pourLen ∣ o ∧ (∀ l, s.lastTick = some l → l < o) ∧
      (∀ lo, s.tickMin = some lo → lo ≤ o))

/-- BUNDLE_ISSUE (R59, R65, R150). It completes for every core of the device, whatever its bundle holds: after the
errors named as its upset, one bundle issues if the core can issue in this cycle, and else only the watch of the
active pair starts. On an Eduno core at ease, a bundle whose acting moves only write registers and latches (R59, R63,
R94, R99, R153): results that are due are delivered first, every value is the one its source held before the bundle,
each destination takes its value in ascending slots, the pc moves past the bundle, and nothing else of the device
changes. A register that no move names keeps its value, and one whose last naming move writes it alone takes the low
24 bits of that move's value (R61, R67, R70). -/
def Obligations.PlainBundle : Prop :=
  (∀ s r t w upset, runsAt s t r →
    exec (.bundleIssue t w upset) s = .next (if selValid w then issueCore (wdogFirst (upsets r upset) w t) w t else r)) ∧
  (∀ s t w, canIssue (settleSel selAll (s.core w).bcount (s.core w)) t = false → issueCore s w t = s) ∧
  (∀ s r t p ms, runsAt s t r → Shaped r → p < 68 → r.memErr = [] →
    let w := CoreSel.eduno p
    let c := settleSel selAll (r.core w).bcount (r.core w)
    let f := fetchBundle r w c t
    canIssue c t = true → atEase c → judgeBundle r w c f.2.1 f.2.2 = .act ms → (∀ m ∈ ms, plainDst m.dst = true) →
    exec (.bundleIssue t w []) s = .next (r.setCore w
      { ms.foldl (writeDst c none) c with
        bcount := c.bcount + 1, pc := c.pc + f.1.length, readyAt := t + 1, issuedAt := t, astatSet := 0
        tsbrAt := if ms.any (fun m => decide (m.dst = .tsbr)) then some t else c.tsbrAt
        old := c.old.filter fun o => decide (c.bcount + 1 < o.bundle) || decide (t < o.cycle) })) ∧
  (∀ (c0 c : Core) ms i, c.g.length = 32 → i < 32 →
    let named (m : LiveMove) := m.dst = .g i ∨ m.dst = .d (i / 2)
    let u := ms.foldl (writeDst c0 none) c
    ((∀ m ∈ ms, ¬ named m) → nth u.g i 0 = nth c.g i 0) ∧
    (∀ l m l', ms = l ++ m :: l' → m.dst = .g i → (∀ x ∈ l', ¬ named x) → nth u.g i 0 = m.v.setWidth 24))

/-- BUNDLE_ISSUE of a bundle that meets an exception on a core with no entry under way (R124, R212, R213, R215, R218,
R228): a decode fault is recorded, entry begins in this cycle with the exception's code, kind, slot and address, the
bundle counts as issued, and no register, pc or byte of memory changes. The first stage of the entry, at the end of
the cycle, puts the core at the exception level, keeps the level it had, and takes the handler that the vector then
names. -/
def Obligations.FaultingBundle : Prop :=
  ∀ s r t p x d, runsAt s t r → Shaped r → p < 68 → r.memErr = [] →
    let w := CoreSel.eduno p
    let c := settleSel selAll (r.core w).bcount (r.core w)
    let f := fetchBundle r w c t
    canIssue c t = true → c.entering = none → judgeBundle r w c f.2.1 f.2.2 = .fault x d →
    completes (.bundleIssue t w []) s fun u =>
      (u.core w).bcount = c.bcount + 1 ∧ (u.core w).pc = c.pc ∧ (u.core w).g = c.g ∧
      (u.core w).a = c.a ∧ (u.core w).acc = c.acc ∧ u.mem = r.mem ∧ (d.isSome = true → u.bit .coreDfault 0 p = true) ∧
      ∃ e, (u.core w).entering = some e ∧ e.cycle0 = t ∧ e.stage = 0 ∧ e.req = ⟨16, ⟨x.code, x.kind, x.slot, x.baddr, none⟩, t⟩ ∧
        ((entryStage u w e t).core w).level = 16 ∧
        ∃ e', ((entryStage u w e t).core w).entering = some e' ∧ e'.stage = 1 ∧ e'.saved = c.level ∧ e'.handler = u.fld .coreHvec 15 0 p

/-- UNIT_RESULT_DELIVERY, ACCUMULATOR_LANDING and LOAD_DELIVERY of one operation in flight that is due (R63, R129, R131,
R146): the result reaches its port in the unit set of its trigger, with the status it sets; a landing updates the four lanes
of its accumulator and no other lane; memory stays. -/
def Obligations.Deliveries : Prop :=
  ∀ s r t w due sup, runsAt s t r → Shaped r → selValid w = true →
    let c := r.core w
    due ≤ c.bcount →
    (∀ n v fl, c.fly = [⟨due, sup, .alu n v fl⟩] → n < (unitsFor c sup).aluR.length →
      completes (.unitResultDelivery t w) s fun u =>
        nth (unitsFor (u.core w) sup).aluR n 0 = v ∧ (u.core w).astat = c.astat ||| fl ∧ (u.core w).fly = [] ∧
        (u.core w).g = c.g ∧ (u.core w).acc = c.acc ∧ u.mem = r.mem) ∧
    (∀ k op ra x y, c.fly = [⟨due, sup, .land k op ra x y⟩] → k < 4 →
      completes (.accumulatorLanding t w) s fun u =>
        (∀ j < 4, 4 * k + j < c.acc.length →
          nth (u.core w).acc (4 * k + j) 0 = (macLane op k (nth c.acc (4 * k + j) 0) (rowWord ra (4 * (k / 2) + j))
          (rowWord x (4 * (k / 2) + j)) y).1) ∧
        (∀ i, i / 4 ≠ k → nth (u.core w).acc i 0 = nth c.acc i 0) ∧ (u.core w).fly = [] ∧ (u.core w).g = c.g ∧ u.mem = r.mem) ∧
    (∀ n v, c.fly = [⟨due, sup, .scalar n v⟩] → n < (unitsFor c sup).lsuS.length →
      completes (.loadDelivery t w) s fun u =>
        nth (unitsFor (u.core w) sup).lsuS n 0 = v ∧ (u.core w).astat = c.astat ∧ (u.core w).fly = [] ∧
        (u.core w).g = c.g ∧ (u.core w).acc = c.acc ∧ u.mem = r.mem)

/-- The arithmetic of the units on integers (R76, R128, R129): adds, subs, negs and abss give the exact result clamped
to 24 bits, and set alu_sat exactly when it was clamped; a plain add keeps the low 24 bits of the sum in a register
and wraps; an accumulating lane holds the exact sum of products modulo 2⁵⁶, never saturated, and sets its overflow bit
exactly when the exact value does not fit; mpy gives the exact product and clr zero. -/
def Obligations.UnitArithmetic : Prop :=
  (∀ (o t : W48) op y,
    (op, y) ∈ [(0x02, o.toInt + t.toInt), (0x04, o.toInt - t.toInt), (0x10, -t.toInt), (0x0E, (t.toInt.natAbs : Int))] →
    (aluOp op o t).1.toInt = max (-8388608) (min 8388607 y) ∧
    (aluOp op o t).2 = if -8388608 ≤ y ∧ y ≤ 8388607 then 0 else astatAlu) ∧
  (∀ o t : W48, ((aluOp 0x01 o t).1.setWidth 24).toNat = (o.toNat + t.toNat) % 2 ^ 24 ∧ (aluOp 0x01 o t).2 = 0) ∧
  (∀ k (acc : W56) (a w s : W24) op y,
    (op, y) ∈ [(0, acc.toInt + a.toInt * w.toInt), (1, acc.toInt - a.toInt * w.toInt), (3, acc.toInt + w.toInt * s.toInt),
      (4, acc.toInt - w.toInt * s.toInt)] →
    (macLane op k acc a w s).1 = BitVec.ofInt 56 y ∧
    (macLane op k acc a w s).2 = if -(2 ^ 55 : Int) ≤ y ∧ y < 2 ^ 55 then 0 else astatAcc k) ∧
  (∀ k (acc : W56) (a w s : W24),
    (macLane 2 k acc a w s).1.toInt = a.toInt * w.toInt ∧ (macLane 2 k acc a w s).2 = 0 ∧ macLane 5 k acc a w s = (0, 0))

/-- BMOVE_END at the last element of a fill (R168 to R170): the element is stored where the access of the destination register
goes, bc reaches 0, the move is over, and no byte outside the stores of that access changes. -/
def Obligations.BmoveEnd : Prop :=
  ∀ s r t p b, runsAt s t r → Shaped r → p < 68 → r.memErr = [] →
    let w := CoreSel.eduno p
    let c := r.core w
    let k := bitsOf b.ctl 8 3
    let ps := accessPieces k (4 + bmKind b.ctl) (nth c.cb k 0) (nth c.cl k 0) (bmStep c k (nth c.a k 0)).1
    c.bmove = some b → bitsOf b.ctl 0 2 = 1 → c.bc = 1 → c.entering = none → b.start + b.ran + 1 = t →
    judge r w b.user b.slot (4 + bmKind b.ctl) ps = none →
    completes (.bmoveEnd t w) s fun u =>
      (u.core w).bmove = none ∧ (u.core w).bc = 0 ∧
      u.mem = (storePieces w t (c.bcount - 1) ps (bmFillData b.ctl b.sd) r).mem ∧
      ∀ a, (∀ x ∈ ps, ¬ (localPhys w x.1 ≤ a ∧ a < localPhys w x.1 + x.2)) → memGet u.mem a = memGet r.mem a

/-- CARAFE_LOAD_READY, CARAFE_GRANT and STORE_BUFFER_PERFORMED (R193 to R204). The load of one unit set that the store
buffer forwarded reaches car.r of that set from its second cycle on. In a round in which the half has granted nothing
the request that arbitration names is granted, a load reads the bytes of its piece, and a store writes them and no
other byte. The oldest entry that no round has granted (the model's choice, log entry 62) puts its bytes in the
Carafe, and its place is free. Before an access can end neither changes anything. -/
def Obligations.CarafeAccesses : Prop :=
  (∀ s r t w sup ld, runsAt s t r → Shaped r → selValid w = true → loadOf (r.core w) sup = some ld → loadOf (r.core w) (!sup) = none →
    (ld.fwd = true → ld.waits = none → ld.entered + 2 ≤ t →
      exec (.carafeLoadReady t w) s = .next (r.setCore w (setUnits (setLoad (r.core w) sup none) sup
        { unitsFor (r.core w) sup with
          carR := carValue ld.kind ld.data, carErr := if ld.bad then some (ld.off, ld.slot) else none }))) ∧
    (t < ld.entered + loadLatency w ld → exec (.carafeLoadReady t w) s = .next r)) ∧
  (∀ s r t slice half q, runsAt s t r → Shaped r → r.memErr = [] → slice < 8 → half < 2 →
    let h := 2 * slice + half
    (∀ g, kget r.carLast h = some g → g.2 < t / 2) → arbitrate r h t = some q →
    completes (.carafeGrant t slice half []) s fun u =>
      kget u.carLast h = some (q.num, t / 2) ∧
      (∀ sup ld x, q.load = some sup → loadOf (r.core q.who) sup = some ld →
        (carPieces ld.real (carBytes ld.kind))[q.piece]? = some x → ld.granted.contains q.piece = false →
        loadOf (u.core q.who) sup = some { ld with
          granted := q.piece :: ld.granted, grantAt := t
          data := splice ld.data (x.1 - ld.real) (memRead r.mem (carBase + x.1) x.2) } ∧ u.mem = r.mem) ∧
      (∀ e rest x, q.load = none → (r.core q.who).stbuf = e :: rest → (carPieces e.off (carBytes e.kind))[q.piece]? = some x →
        e.granted.contains q.piece = false →
        u.mem = memWrite r.mem (carBase + x.1) ((e.data.drop (x.1 - e.off)).take x.2))) ∧
  (∀ s r t w e rest, runsAt s t r → Shaped r → selValid w = true → r.memErr = [] → (r.core w).stbuf = e :: rest →
    (t < e.entered + storeLatency w e → exec (.storeBufferPerformed t w) s = .next r) ∧
    (e.granted = [] → e.bad = false → e.data.length = carBytes e.kind → e.entered + storeLatency w e ≤ t →
    completes (.storeBufferPerformed t w) s fun u =>
      (∀ a, memGet u.mem a = if carBase + e.off ≤ a ∧ a < carBase + e.off + carBytes e.kind then nth e.data (a - carBase - e.off) 0
        else memGet r.mem a) ∧
      (u.core w).stbuf.length = rest.length ∧ (u.core w).g = (r.core w).g))

/-- SEND_ITEM_STORED of a send whose queue has its store below the descriptor table, with no memory error (R281,
R282): the item, or the block it names, is at the tail slot, the count is one more, and no byte changes outside that
slot and the queue's count word. RECEIVE_ITEM_DELIVERED (R284, R285, R289): when the queue has an item and every
earlier send of the core is stored, the receive is over and the flag is clear; of a message queue the oldest item
reaches qio.r and the head moves on by one; of a block queue the address of the landing half does, and the next block
goes to the other half. RECEIVE_TIMEOUT (R52, R284): before the expiry nothing changes; in the expiry cycle an item
that stands in the queue is delivered (log entry 74); else qio.r becomes 0 with the flag set, and nothing else
changes. -/
def Obligations.CoreQueues : Prop :=
  (∀ s r t p e rest, runsAt s t r → Shaped r → p < 68 → r.memErr = [] →
    (r.core (.eduno p)).sends = e :: rest →
    let h := e.q
    let n := slotBytes r h
    let data := if qKind r h = 0 then toBytesLE 8 e.item.toNat
      else (extRead r t .runner (coreBase + 0x100000 * p + e.item.toNat % 2 ^ 32) n).1
    let a0 := qStore r h + n * tailSlot r h
    h < 65536 → qCount r h < 65535 → qStore r h + n * max 1 (qCapacity r h) ≤ qdBase →
    completes (.sendItemStored t p) s fun u =>
      memRead u.mem a0 n = data ∧ qCount u h = qCount r h + 1 ∧ (u.core (.eduno p)).sends = rest ∧
      ∀ a, ¬ (a0 ≤ a ∧ a < a0 + n) → ¬ (qdAddr h + 0x1C ≤ a ∧ a < qdAddr h + 0x20) → memGet u.mem a = memGet r.mem a) ∧
  (∀ s r t p sup q, runsAt s t r → Shaped r → p < 68 →
    let w := CoreSel.eduno p
    let c := r.core w
    rcvOf c sup = some q →
    (r.memErr = [] → q.at' ≤ t → t ≤ q.expiry → rcvHasItem r p q = true → q.q < 65536 →
      completes (.receiveItemDelivered t p sup) s fun u =>
        (unitsFor (u.core w) sup).qioTo = false ∧ rcvOf (u.core w) sup = none ∧ qCount u q.q = qCount r q.q - 1 ∧
        qHead u q.q = (qHead r q.q + 1) % max 1 (qCapacity r q.q) ∧
        (qKind r q.q = 0 →
          (unitsFor (u.core w) sup).qioR = BitVec.ofNat 48 (ofBytesLE (memRead r.mem (qStore r q.q + 8 * qHead r q.q) 6))) ∧
        (qKind r q.q ≠ 0 → (unitsFor (u.core w) sup).qioR = BitVec.ofNat 48 (qLanding r q.q + slotBytes r q.q * qLslot r q.q) ∧
          qLslot u q.q = 1 - qLslot r q.q)) ∧
    (t < max q.at' q.expiry → exec (.receiveTimeout t p sup) s = .next r) ∧
    (max q.at' q.expiry ≤ t → (t = q.expiry ∨ q.sure = true) → rcvHasItem r p q = true →
      exec (.receiveTimeout t p sup) s = exec (.receiveItemDelivered t p sup) s) ∧
    (max q.at' q.expiry ≤ t → ¬ ((t = q.expiry ∨ q.sure = true) ∧ rcvHasItem r p q = true) →
      exec (.receiveTimeout t p sup) s = .next (r.setCore w
        (setRcv (setUnits c sup { unitsFor c sup with qioR := 0, qioTo := true }) sup none))))

/-- ENTRY presents to the core what it can take, and changes no register or byte (R228, R244). What an entry that
nothing chains does from cycle 80 to cycle 86 (R215, R216, R223, R226, R228): with what was in flight complete, the
255 bytes of the task-state block hold the interrupted state and no other byte changes; the handler, from cycle 96,
runs in supervisor mode from the offset that the vector named, with the cause and, for an exception, the address
recorded, and TSBR moved down by one frame. -/
def Obligations.Entry : Prop :=
  (∀ s r t w, runsAt s t r → selValid w = true → completes (.entry t w) s fun u =>
    PresentOnly (r.core w) (u.core w) ∧ u.mem = r.mem ∧ u.regs = r.regs ∧ ∀ v, v ≠ w → u.core v = r.core v) ∧
  (∀ (r : State) p e, Shaped r → p < 68 → r.memErr = [] →
    let w := CoreSel.eduno p
    let c := (drainCore r w (e.cycle0 + 80)).core w
    let u := (List.range 7).foldl (fun s i => match (s.core w).entering with
      | some e => entryStage s w e (e.cycle0 + 80 + i) | none => s) r
    (r.core w).entering = some e → e.stage = 3 → e.chained = false → e.req.cause.code ≠ 0x0D →
    frameOk r w (r.core w).tsbr true = true →
    memRead u.mem (localPhys w c.tsbr.toNat) 255 = tsbBytes c e.saved e.car e.rcv ∧
    (∀ a, ¬ (localPhys w c.tsbr.toNat ≤ a ∧ a < localPhys w c.tsbr.toNat + 255) → memGet u.mem a = memGet r.mem a) ∧
    (u.core w).pc = e.handler ∧ (u.core w).user = false ∧ (u.core w).readyAt = e.cycle0 + 96 ∧
    (u.core w).cause = causeWord (e.umode.getD c.user) e.req.cause (if e.req.cause.ticket.isSome then e.claimed.getD 2047 else 0) ∧
    (u.core w).baddr = (if e.req.cause.ticket.isSome then c.baddr else e.req.cause.baddr) ∧
    (u.core w).tsbr = c.tsbr - 0x300 ∧ (u.core w).g = c.g)

/-- What entry saves, exit restores (R226, R227, R230): from the bytes of a running core the registers, the mode, the pc, the
level, the cause and the loops come back, and registers that a block does not hold stay as they are. A ring header comes back
from its 24 bytes (R306, R307), for every value its fields can hold. -/
def Obligations.LayoutsRoundTrip : Prop :=
  (∀ (c c0 : Core) level bits, bits = 16 ∨ bits = 20 →
    c.g.length = 32 → c.a.length = 8 → c.m.length = 8 → c.cb.length = 4 → c.cl.length = 4 → c.p.toNat % 2 = 1 →
    c.phase = .running → c.pc < 2 ^ bits → level ≤ 16 ∨ level = 31 → c.loops.length = 2 →
    (∀ l ∈ c.loops, l.start < 2 ^ bits ∧ l.stop < 2 ^ bits ∧ l.count < 2 ^ 16) →
    let r := tsbRestore bits (tsbBytes c level none none) c0
    r.g = c.g.take 8 ++ c0.g.drop 8 ∧ r.a = c.a ∧ r.m = c.m ∧ r.cb = c.cb ∧ r.cl = c.cl ∧ r.p = c.p ∧ r.ln = c.ln ∧ r.bc = c.bc ∧
    r.user = c.user ∧ r.pc = c.pc ∧ r.phase = .running ∧ r.level = level ∧ r.cause = c.cause &&& 0xFFFFDF ∧ r.baddr = c.baddr ∧
    r.loops = c.loops ∧ r.acc = c0.acc ∧ r.bmvResume = c.bmvResume) ∧
  (∀ h : Hdr, h.typ < 16 → h.ver < 16 → h.hops < 128 → h.res0 < 16 → h.len < 2048 → h.src < 2 ^ 18 → h.epoch < 4 → h.aux < 4096 → h.dst < 2 ^ 18 →
    h.scope < 4 → h.res2 < 4096 → h.stamp < 2 ^ 32 → h.ctr < 2 ^ 64 →
    (hdrBytes h).length = 24 ∧ ∀ rest, parseHdr (hdrBytes h ++ rest) = h)

/-- A bundle comes back from its bytes (R92 to R99, R118, R119), whatever bytes follow, for every list of moves that the
encoding admits: slot, predicate, source, destination and immediate of each move. -/
def Obligations.BundleRoundTrip : Prop :=
  ∀ bar ms rest, bundleWf bar ms = true →
    decodeBundle bar (encodeBundle ms ++ rest) = .ok ⟨headerOf ms, (encodeBundle ms).length, ms⟩

/-! ### Runner queues -/

/-- DESCRIPTOR_WRITE (R278, R279, R296): an allowed write that does not set en puts the word into the descriptor and changes
nothing else; one that sets en leaves the queue enabled exactly when the descriptor is valid; any other write changes no byte,
and the first is recorded in RUN_ERR with kind 6 and the handle. ITEM_AGE_TIMEOUT (R293): when the oldest item not yet
reported has reached the queue's limit, the aged flag is set; before that nothing changes. -/
def Obligations.Descriptors : Prop :=
  (∀ s r t ini h off (v : W32), runsAt s t r → Shaped r → h < 65536 → off < 32 → off % 4 = 0 →
    let ok := descWriteOk r ini (decide (debugLevel r = 2)) h off
    (ok = true → ¬ (off = 4 ∧ bitOf v.toNat 31 = true) →
      exec (.descriptorWrite t ini h off v) s = .next (r.setQdWord h off v)) ∧
    (ok = true → off = 4 → bitOf v.toNat 31 = true → completes (.descriptorWrite t ini h off v) s fun u =>
      qEn u h = !qInvalid (r.setQdWord h off v) h ∧ (u.queue h).taken = 0 ∧
      ∀ a, ¬ (qdAddr h + 4 ≤ a ∧ a < qdAddr h + 8) → memGet u.mem a = memGet r.mem a) ∧
    (ok = false → completes (.descriptorWrite t ini h off v) s fun u =>
      u.mem = r.mem ∧ u.bit .runErr 0 = true ∧
      (r.bit .runErr 0 = false → u.fld .runErr 31 16 = h ∧ u.fld .runErr 11 8 = 6))) ∧
  (∀ s r t h b l l', runsAt s t r → Shaped r → h < 65536 → (r.queue h).born = l ++ (b, false) :: l' → (∀ x ∈ l, x.2 = true) →
    qEn r h = true →
    qTimeout r h ≠ 0 →
    (t < b + 1536 * qTimeout r h → exec (.itemAgeTimeout t h) s = .next r) ∧
    (b + 1536 * qTimeout r h ≤ t → completes (.itemAgeTimeout t h) s fun u =>
      (u.queue h).born = l ++ (b, true) :: l' ∧ u.qdFld h 0x18 29 29 = 1 ∧ qCount u h = qCount r h))

/-- INITIATOR_SEND and INITIATOR_RECEIVE by a register set (R297): an idle set becomes busy with the operation; a send
is judged at once, takes a credit when it is accepted, and sets the refused flag of the descriptor when it is not; a
busy set takes no command, whose write is only noted. INITIATOR_OP_END: the set is idle with its result; an accepted
send puts its item at the tail slot; a receive that finds an item brings it to RUN_IDL and RUN_IDH and drops it from
the queue; a refused one sets the refused flag. -/
def Obligations.InitiatorOps : Prop :=
  (∀ s r t i h, runsAt s t r → Shaped r → i < 2 → h < 65536 →
    let q := r.noteReg t (regOff .runIop i 0) (r.reg .runIop i)
    (r.bit .runIst 7 i = true → exec (.initiatorSend t i h) s = .next q ∧ exec (.initiatorReceive t i h) s = .next q) ∧
    (r.bit .runIst 7 i = false →
      (exec (.initiatorReceive t i h) s =
        .next { q.setBit .runIst 7 true i with iops := kput r.iops i ⟨h, true, 0, 0⟩ }) ∧
      completes (.initiatorSend t i h) s fun u =>
        u.bit .runIst 7 i = true ∧
        kget u.iops i = some ⟨h, false, BitVec.ofNat 48 ((r.reg .runIdl i).toNat + 2 ^ 32 * (r.reg .runIdh i).toNat), initSendResult r i h⟩ ∧
        if initSendResult r i h = 0 then qCredLeft u h = qCredLeft r h - 1 ∧ qCount u h = qCount r h
        else u.qdFld h 0x18 30 30 = 1 ∧ qCredLeft u h = qCredLeft r h)) ∧
  (∀ s r t i o, runsAt s t r → Shaped r → i < 2 → r.memErr = [] → kget r.iops i = some o → o.q < 65536 →
    qStore r o.q + 8 * max 1 (qCapacity r o.q) ≤ qdBase → qCount r o.q < 65535 →
    let code := if qEn r o.q = false then 2 else if qConsumer r o.q ≠ initEndpoint i then 3 else if qKind r o.q ≠ 0 then 6 else 0
    (o.recv = false → o.result ≠ 0 → o.result < 8 → completes (.initiatorOpEnd t i) s fun u =>
      u.iops = kdel r.iops i ∧ u.bit .runIst 7 i = false ∧ u.fld .runIst 6 4 i = o.result ∧ u.mem = r.mem) ∧
    (o.recv = false → o.result = 0 → qKind r o.q = 0 → completes (.initiatorOpEnd t i) s fun u =>
      u.iops = kdel r.iops i ∧ u.bit .runIst 7 i = false ∧ u.fld .runIst 6 4 i = 0 ∧
      memRead u.mem (qStore r o.q + 8 * tailSlot r o.q) 8 = toBytesLE 8 o.item.toNat ∧ qCount u o.q = qCount r o.q + 1) ∧
    (o.recv = true → code = 0 → qCount r o.q ≠ 0 →
      completes (.initiatorOpEnd t i) s fun u =>
        let v := ofBytesLE (memRead r.mem (qStore r o.q + 8 * qHead r o.q) 6)
        u.iops = kdel r.iops i ∧ u.bit .runIst 7 i = false ∧ u.fld .runIst 6 4 i = 0 ∧
        u.reg .runIdl i = BitVec.ofNat 32 v ∧ u.reg .runIdh i = BitVec.ofNat 32 (v / 2 ^ 32) ∧
        qCount u o.q = qCount r o.q - 1 ∧ qHead u o.q = (qHead r o.q + 1) % max 1 (qCapacity r o.q)) ∧
    (o.recv = true → code = 0 → qCount r o.q = 0 →
      completes (.initiatorOpEnd t i) s fun u =>
        u.iops = kdel r.iops i ∧ u.bit .runIst 7 i = false ∧ u.fld .runIst 6 4 i = 1 ∧ u.mem = r.mem) ∧
    (o.recv = true → code ≠ 0 → completes (.initiatorOpEnd t i) s fun u =>
      u.iops = kdel r.iops i ∧ u.bit .runIst 7 i = false ∧ u.fld .runIst 6 4 i = code ∧ u.qdFld o.q 0x18 30 30 = 1))

/-- INPUT_PLACEMENT (R32, R276, R292): nothing while the block cannot be complete or was placed; of a scheduled queue
from core to core without a delay stage, the block that the store holds, or zeros when none has been stored, lands in
the consumer's data memory at the slot of the next pour, and no byte outside it changes. SCHEDULED_FORWARD (R291):
nothing outside its span or a second time in it; of a queue between cores, the block committed in the pour that has
ended is copied from the producer's data memory into the slot of that pour, and no byte outside it changes; with none
committed no byte changes; with no output to forward that no queue feeds, the command without a queue records the pour
only. -/
def Obligations.ScheduledQueues : Prop :=
  (∀ s r t h p samples, runsAt s t r → Shaped r → h < 65536 →
    let m := (nextTick r t).1
    let n := 3 * qBsize r h
    let a0 := coreBase + 0x100000 * p + qLanding r h + n * (m % 2)
    (qEn r h = false ∨ qKind r h ≠ 2 ∨ (r.queue h).placed = some m ∨ inputReady r h t = false →
      exec (.inputPlacement t h samples) s = .next r) ∧
    (r.memErr = [] → r.coreOld.1 ≠ t →
    qEn r h = true → qKind r h = 2 → (r.queue h).placed ≠ some m → epClass (qProducer r h) = 0 → epClass (qConsumer r h) = 0 →
    stageOf r h = none → qChans r h * qPer r h = qBsize r h → landCore r (epIndex (qConsumer r h)) = some p → p < 68 →
    writeHeld r .runner p = false → qLanding r h + n * (m % 2) + n ≤ 524286 →
    completes (.inputPlacement t h samples) s fun u =>
      memRead u.mem a0 n = (match (r.queue h).lastSlot with
        | some sl => memRead r.mem (qStore r h + n * sl) n
        | none => List.replicate n 0) ∧
      (u.queue h).placed = some m ∧ ∀ a, ¬ (a0 ≤ a ∧ a < a0 + n) → memGet u.mem a = memGet r.mem a)) ∧
  (∀ s r t, runsAt s t r → Shaped r →
    let n := r.audio.ended
    let past := r.lastTick.isNone ∨ r.pourAt t * r.pourLen + 4096 ≤ t
    (∀ h, h < 65536 → (past ∨ qEn r h = false ∨ qKind r h ≠ 2 ∨ (r.queue h).fwd = some n) →
      exec (.scheduledForward t (some h)) s = .next r) ∧
    (∀ h, h < 65536 → ¬ past → qEn r h = true → qKind r h = 2 → (r.queue h).fwd ≠ some n → r.memErr = [] →
      epClass (qProducer r h) = 0 → epClass (qConsumer r h) = 0 →
      let k := slotBytes r h
      let a0 := qStore r h + k * (n % 2)
      ((r.queue h).committed.find? (fun x => decide (x.1 = n)) = none → completes (.scheduledForward t (some h)) s fun u =>
        (u.queue h).fwd = some n ∧ (u.queue h).lastSlot = (r.queue h).lastSlot ∧ u.mem = r.mem) ∧
      (∀ p item, (r.queue h).committed.find? (fun x => decide (x.1 = n)) = some (n, item) →
        r.physOf (epIndex (qProducer r h)) = some p → a0 + k ≤ qdBase →
        completes (.scheduledForward t (some h)) s fun u =>
          memRead u.mem a0 k = (extRead r t .runner (coreBase + 0x100000 * p + item.toNat % 2 ^ 32) k).1 ∧
          (u.queue h).lastSlot = some (n % 2) ∧ (u.queue h).fwd = some n ∧
          ∀ a, ¬ (a0 ≤ a ∧ a < a0 + k) → memGet u.mem a = memGet r.mem a)) ∧
    (past ∨ r.audio.unfed = some n → exec (.scheduledForward t none) s = .next r) ∧
    (¬ past → unfedTargets r = [] → r.audio.unfed ≠ some n →
      exec (.scheduledForward t none) s = .next { r with audio := { r.audio with unfed := some n } }))

/-! ### Ring and edge -/

/-- HEARTBEAT_RECEIVED, SUPERVISION_EXPIRY, REMOTE_FAULT_RECEIVED, PORT_WRAP and PORT_RETURNED (R328, R329, R331): a
port that is off or an edge port takes no heartbeat and no remote fault. On a port of the ring a heartbeat is recorded
and brings a lost port to Returning; 384 cycles without one, or a remote fault, make the port Lost; a port that has
been Lost for 96 cycles wraps; 1 ms of heartbeats with a verified link frame make a returning port Ready. -/
def Obligations.PortStates : Prop :=
  (∀ s r t p, runsAt s t r → p < 4 → portState r p = 0 ∨ portState r p = 5 →
    exec (.heartbeatReceived t p) s = .next r ∧ exec (.remoteFaultReceived t p) s = .next r) ∧
  (∀ s r t p, runsAt s t r → p < 4 → Shaped r → portState r p ≠ 0 → portState r p ≠ 5 →
    completes (.heartbeatReceived t p) s (fun u =>
      (u.rport p).lastBeat = t ∧ u.fld .zwrPstat 7 6 p = 1 ∧ portState u p = (if portState r p = 2 then 3 else portState r p) ∧
      portWrapped u p = portWrapped r p ∧ u.mem = r.mem) ∧
    (if t < (r.rport p).lastBeat + 384 then exec (.supervisionExpiry t p) s = .next r
      else completes (.supervisionExpiry t p) s fun u => portState u p = 2 ∧ u.bit .zwrPstat 6 p = false ∧ u.mem = r.mem) ∧
    completes (.remoteFaultReceived t p) s (fun u =>
      portState u p = 2 ∧ u.fld .zwrPstat 7 6 p = 3 ∧ (u.rport p).lastBeat = t ∧ u.mem = r.mem) ∧
    (if portState r p ≠ 2 ∨ portWrapped r p = true ∨ t < (r.rport p).since + 96 then exec (.portWrap t p) s = .next r
      else completes (.portWrap t p) s fun u => portWrapped u p = true ∧ portState u p = 2) ∧
    (∀ l, (r.rport p).linkOk = some l →
      if portState r p = 3 ∧ (r.rport p).since + 1536000 ≤ l then
        completes (.portReturned t p) s fun u => portState u p = 4 ∧ u.mem = r.mem
      else exec (.portReturned t p) s = .next r) ∧
    ((r.rport p).linkOk = none → exec (.portReturned t p) s = .next r))

/-- RING_FRAME_RECEIVED with no memory error (R305, R308, R310, R320 to R322): a port that is not open takes nothing;
a frame that fails the framing or header checks is recorded with the kind of its check, and one for this station that
fails another is recorded too; the first acceptable copy of a group of another station, by 4,096 cycles before the
tick of its pour, is written to the receive store at the slot of its stamp; a later first copy is not. -/
def Obligations.RingFrameReceived : Prop :=
  ∀ s r t p coded wire, runsAt s t r → p < 4 → r.memErr = [] → Shaped r →
    let bytes := wire.drop 7
    let h := parseHdr bytes
    let m := stampPour r t h.stamp
    let a0 := rxAddr r (p / 2) h.aux m
    (pairOn r (p / 2) = false ∨ portState r p = 2 → exec (.ringFrameReceived t p coded wire) s = .next r) ∧
    (pairOn r (p / 2) = true → portState r p = 1 → completes (.ringFrameReceived t p coded wire) s fun u =>
      match checkFrame r p t (coded && decide (wire.take 7 = startOctets)) bytes with
      | .error (c, k) => (c ≤ 2 → u.mem = r.mem ∧ u.bit .zwrErr 0 = true ∧ (r.bit .zwrErr 0 = false → u.fld .zwrErr 11 8 = k)) ∧
          (forMe r (p / 2) h = true → h.src ≠ ownAddr r (p / 2) → hopsSpent r (p / 2) h = false → u.bit .zwrErr 0 = true)
      | .ok pl => h.typ = 1 → h.src ≠ ownAddr r (p / 2) → hopsSpent r (p / 2) h = false → h.aux < groupsOf r (p / 2) →
          (r.rpair (p / 2)).rx.contains (h.aux, m) = false →
          if m * r.pourLen < t + 4096 then u.mem = r.mem ∧ (u.rpair (p / 2)).rx = (r.rpair (p / 2)).rx
          else memRead u.mem a0 pl.length = pl ∧ (u.rpair (p / 2)).rx.contains (h.aux, m) = true ∧
            ∀ a, ¬ (a0 ≤ a ∧ a < a0 + pl.length) → memGet u.mem a = memGet r.mem a)

/-- BEACON_SEND, DELAY_REQUEST_SEND and EPOCH_GRANT_SEND (R305, R314, R332, R455): nothing leaves a port that is not
live, or before it is due. On a live port when they are due the state records the stamp, registers and memory stay,
and where the keep holds the link key of the current epoch and REFB is present, one frame leaves the port in this
cycle, after the octets of its start block. -/
def Obligations.LinkFrames : Prop :=
  ∀ s r t p, runsAt s t r → p < 4 → Shaped r →
    let sent (u : State) := ∀ e key, (r.rkeys (p / 2)).cur = some e → linkKey r (p / 2) e.gen = some key →
      r.bit .pwrStat 20 = false →
      ∃ bytes, u.ring.out = .ring p t (startOctets ++ bytes) :: r.ring.out
    (portLive r p = false → exec (.beaconSend t p) s = .next r ∧ exec (.epochGrantSend t p) s = .next r) ∧
    ((∃ b, (r.rport p).beaconSent = some b ∧ t < b + 96000) → exec (.beaconSend t p) s = .next r) ∧
    ((r.rpair (p / 2)).upstream = none → exec (.delayRequestSend t (p / 2)) s = .next r) ∧
    (portLive r p = true →
      ((∀ b, (r.rport p).beaconSent = some b → b + 96000 ≤ t) → completes (.beaconSend t p) s fun u =>
        (u.rport p).beaconSent = some t ∧ u.regs = r.regs ∧ u.mem = r.mem ∧ sent u) ∧
      (∀ v, (r.rpair (p / 2)).upstream = some v → v = p % 2 → (∀ b, (r.rport p).reqSent = some b → b + 1536000 ≤ t) →
        completes (.delayRequestSend t (p / 2)) s fun u =>
          (u.rport p).reqSent = some t ∧ (u.rport p).req = some t ∧ u.regs = r.regs ∧ u.mem = r.mem ∧ sent u) ∧
      (∀ c, (r.rkeys (p / 2)).cur = some c → (∀ b, (r.rport p).grantSent = some b → b + 15360000 ≤ t) →
        completes (.epochGrantSend t p) s fun u =>
          (u.rport p).grantSent = some t ∧ u.regs = r.regs ∧ u.mem = r.mem ∧ sent u))

/-- UPSTREAM_TIMEOUT of a beacon that is 384,000 cycles old, and of no younger one, and ISLAND_LEADER_ELECTION at a
station that hears no lower number (R333, R335): the beacon is dropped; the station leads its island with no upstream.
TRAIN_ORIGIN records the train of its ring cycle, and what it brings leaves whole on the link of its direction, in the
slot of a group (R315, R317, R318; the ring cycle by log entry 47). GROUP_MISSING records a group whose copies have
not come by its deadline (R322). -/
def Obligations.RingTiming : Prop :=
  (∀ s r t, runsAt s t r → Shaped r →
    (∀ p b, p < 4 → (r.rport p).beacon = some b →
      if b.at' + 384000 ≤ t then completes (.upstreamTimeout t p) s fun u => (u.rport p).beacon = none ∧ u.mem = r.mem
      else exec (.upstreamTimeout t p) s = .next r) ∧
    (∀ q, q < 2 →
      let lower := ∃ p b, p / 2 = q ∧ liveBeacon r p t = some b ∧ b.leader < staOf r q
      ((r.rpair q).island = false ∨ r.bit .zwrTstat 25 q = true ∨ lower → exec (.islandLeaderElection t q) s = .next r) ∧
      ((r.rpair q).island = true → r.bit .zwrTstat 25 q = false → ¬ lower → completes (.islandLeaderElection t q) s fun u =>
        u.fld .zwrTstat 31 26 q = staOf r q ∧ u.bit .zwrTstat 25 q = true ∧ (u.rpair q).upstream = none ∧ u.mem = r.mem))) ∧
  (∀ s r t q, runsAt s t r → q < 2 → Shaped r → pairOn r q = true →
    (∀ west arrived,
      let came : Bool := arrived && decide (staOf r q ≠ 0)
      let least := if came then leastOrigin r q west else originOf r q west
      let m := (t - least) / r.pourLen
      if t < least ∨ nth (r.rpair q).trains (ofBool west) none = some m then exec (.trainOrigin t q west arrived) s = .next r
      else completes (.trainOrigin t q west arrived) s fun u =>
        (u.rpair q).trains = setNth (r.rpair q).trains (ofBool west) (some m) ∧
        (u.rpair q).origins = (if came then setNth (r.rpair q).origins (ofBool west) (some (t - m * r.pourLen)) else (r.rpair q).origins) ∧
        (∀ x ∈ u.ring.slots, x ∈ r.ring.slots ∨ (x.port = portOf q west ∧ x.whole = true ∧ ∃ k, x.at' = slotEnd t k)) ∧
        u.mem = r.mem) ∧
    (∀ g m, m * r.pourLen ≤ t + 4096 → g < groupsOf r q → (groupOwner r q g).isSome → groupOwner r q g ≠ some (staOf r q) →
      (r.rpair q).rx.contains (g, m) = false → completes (.groupMissing t q g m) s fun u =>
        g ∈ (u.rpair q).missing ∧ u.bit .zwrErr 0 = true ∧ u.mem = r.mem))

/-- UNRESERVED_FRAME_SEND, MAILBOX_SEND and CONTROL_TRANSMIT (R305, R315, R323, R327, R344): on an open port whose
line is free, the frame that is next and fits before the next slot leaves those that wait, a transit frame as it was
received after the octets of a start block; else nothing leaves. A mailbox takes at most 84 items from its queue once
a pour. An Ethernet frame of the transmit entry leaves its edge port, and a control frame of it, of at most 512 bytes
of payload, waits for the ring. -/
def Obligations.RingSends : Prop :=
  ∀ s r t, runsAt s t r → Shaped r → r.memErr = [] →
    (∀ p, p < 4 → portUp r p = false ∨ (r.rpair (p / 2)).joined = false ∨ t < (r.rport p).free ∨ nextHeld r p = none →
      exec (.unreservedFrameSend t p) s = .next r) ∧
    (∀ p f, p < 4 → portUp r p = true → (r.rpair (p / 2)).joined = true → (r.rport p).free ≤ t → nextHeld r p = some f →
      if fitsWindow r p t (wireLen f.payload.length) = false then exec (.unreservedFrameSend t p) s = .next r
      else completes (.unreservedFrameSend t p) s fun u =>
        (u.rpair (p / 2)).held = (r.rpair (p / 2)).held.erase f ∧ u.mem = r.mem ∧
        (f.cls % 2 = 0 → r.bit .pwrStat 20 = false → ∃ wrap, u.ring.out =
          .ring p t (startOctets ++ (hdrBytes { f.hdr with wrap := wrap } ++ f.payload ++ f.tag)) :: r.ring.out)) ∧
    (∀ m h, m < 4096 → (queueHandles r).find? (fun h => decide (qConsumer r h = 0x5000 + m)) = some h →
      if r.bit .zwrMbox 31 m = false ∨ kget r.ring.mailed m = some (r.pourAt t) ∨ qCount r h = 0 then
        exec (.mailboxSend t m) s = .next r
      else completes (.mailboxSend t m) s fun u =>
        kget u.ring.mailed m = some (r.pourAt t) ∧ qCount u h = qCount r h - min 84 (qCount r h)) ∧
    (∀ ini (v : W32), v.toNat % 2 = 1 → v.toNat < 4 → r.ring.ctxBusy = false →
      let d := memNat r.mem (crxBase r + 0x18000) 4
      let frame := memRead r.mem (crxBase r + 0x18000 + 4) (d % 2 ^ 11)
      let p := if bitOf d 16 then 3 else 2
      let q := v.toNat / 2
      let h := parseHdr frame
      (bitOf d 31 = true → completes (.controlTransmit t ini v) s fun u => u.mem = r.mem ∧
        u.ring.out = if edgeOn r p = true ∧ r.bit .pwrStat 20 = false then .eth p t frame :: r.ring.out else r.ring.out) ∧
      (bitOf d 31 = false → pairOn r q = false → completes (.controlTransmit t ini v) s fun u => u.mem = r.mem ∧ u.ring = r.ring) ∧
      (bitOf d 31 = false → pairOn r q = true → h.scope = 1 → h.typ = 2 → frame.length ≤ 536 →
        completes (.controlTransmit t ini v) s fun u => u.mem = r.mem ∧ u.ring.ctxBusy = true ∧
          (u.rpair q).held = (r.rpair q).held ++ [{
            cls := 1, west := false, cross := false, hdr := { h with src := ownAddr r q, west := false, hops := 0, wrap := false }
            payload := frame.drop 24, tag := [], ctx := true }]))

/-- EDGE_FRAME_RECEIVED, EDGE_STREAM_TRANSMIT and STREAM_SILENT (R339, R342 to R345): an edge port that is off takes
nothing; a frame that is no media packet and no PTP message enters the receive ring of the pair; a PTP message joins
those of its port, an event message with its stamp, and the port takes the state that the firmware gives it (log entry
43); a send stream gives its next packet and its media index moves on by the packet's samples, and a stream that is
none gives nothing; a receive stream with no packet for 16 packet times is told once. -/
def Obligations.Edge : Prop :=
  ∀ s r t, runsAt s t r → Shaped r → r.memErr = [] →
    (∀ p bytes, p = 2 ∨ p = 3 → edgeOn r p = false → exec (.edgeFrameReceived t p bytes) s = .next r) ∧
    (∀ p bytes, p = 2 ∨ p = 3 → edgeOn r p = true →
      (∀ x, parseUdp bytes = some x → x.isPtp = false ∧ (List.range 1024).find? (strMatches r p x) = none) → bytes.length ≤ 1532 →
      (r.fld .zwrCrx 11 6 + 1) % 64 ≠ r.fld .zwrCrx 5 0 → completes (.edgeFrameReceived t p bytes) s fun u =>
        let a0 := crxBase r + 1536 * r.fld .zwrCrx 11 6
        memRead u.mem (a0 + 4) bytes.length = bytes ∧
        memNat u.mem a0 4 = 2 ^ 31 + (if p = 3 then 2 ^ 16 else 0) + bytes.length ∧
        u.fld .zwrCrx 11 6 = (r.fld .zwrCrx 11 6 + 1) % 64) ∧
    (∀ p bytes x y, p = 2 ∨ p = 3 → edgeOn r p = true → parseUdp bytes = some x → x.isPtp = true →
      (List.range 1024).find? (strMatches r p x) = none → r.ring.ptp[p - 2]? = some y →
      completes (.edgeFrameReceived t p bytes) s fun u =>
        let log := (if x.dport = 319 then some t else none, false, x.data) :: y.log
        u.ring.ptp[p - 2]? = some ⟨Config.ptpState (p - 2) log, log⟩ ∧ u.mem = r.mem) ∧
    (∀ i, i < 1024 → strEn r i = false ∨ strSend r i = false ∨ edgeOn r (strPort r i) = false →
      exec (.edgeStreamTransmit t i) s = .next r) ∧
    (∀ i, i < 1024 → strEn r i = true → strSend r i = true → edgeOn r (strPort r i) = true → r.bit .pwrStat 20 = false →
      completes (.edgeStreamTransmit t i) s fun u =>
        let q := (kget r.ring.streamNext i).getD (mediaAt r t / strSamples r i * strSamples r i)
        kget u.ring.streamNext i = some (q + strSamples r i) ∧
        (∃ samples, samples.length = strSamples r i * strChans r i ∧
          u.ring.out = .rtp i t ((q + strWord r i 6) % 2 ^ 32) samples :: r.ring.out) ∧ u.mem = r.mem) ∧
    (∀ i a, i < 1024 → kget r.ring.streams i = some (a, false) → strEn r i = true → strSend r i = false →
      if t < a + 16 * strCycles r i then exec (.streamSilent t i) s = .next r
      else completes (.streamSilent t i) s fun u => kget u.ring.streams i = some (a, true) ∧ u.mem = r.mem)

/-! ### Crema and audio paths -/

/-- LIVE, START_NIGHT_SWEEP and OFF (R382): CRM_CMDST takes the result; a command that is taken waits for the next frame
boundary with its stamp, and one that is not leaves Crema as it is. -/
def Obligations.CremaModes : Prop :=
  ∀ s r t ini c, runsAt s t r → c < 32 → Shaped r →
    let took (op : Nat) (u : State) := u.fld .crmCmdst 2 0 = crmResult r op 0 c ∧ u.mem = r.mem ∧
      u.crema = if crmResult r op 0 c = 0 then (r.setCrm c { r.crm c with cmd := some (op, t) }).crema else r.crema
    completes (.crmLive t ini c) s (took 1) ∧ completes (.startNightSweep t ini c) s (took 2) ∧
    completes (.crmOff t ini c) s (took 3)

/-- START_REFLECTOMETRY, VELOCITY_CALIBRATION and ABORT_REFLECTOMETRY (R373, R375, R382): a run that is taken begins
with the next multiple of 256,000 cycles, no pulse made and the configuration of its wideband channel, and
CRM_WBw_STAT.busy is set; an abort of a run while Crema is enabled ends it, and any other changes no run.
REFLECT_PULSE adds a pulse that is due to the sums and moves the next on by 256,000 cycles; REFLECT_RUN_END ends a run
whose pulses are all made; before it is due neither changes anything. -/
def Obligations.CremaRuns : Prop :=
  (∀ s r t ini b, runsAt s t r → b < 8 → Shaped r →
    let started (op : Nat) (u : State) :=
      u.fld .crmCmdst 2 0 = crmResult r op b 0 ∧ u.mem = r.mem ∧
      if crmResult r op b 0 = 0 then
        u.bit .crmWbStat 0 b = true ∧ u.crmRun b = some
          { line := r.fld .crmWbCfg 31 27 b, e := r.fld .crmWbCfg 26 22 b, w := r.fld .crmWbCfg 21 16 b
            rho := r.fld .crmWbCfg 15 8 b, cal := decide (op = 5), next := (t / 256000 + 1) * 256000, count := 0
            sums := List.replicate 1024 0 }
      else u.crema = r.crema
    completes (.startReflectometry t ini b) s (started 4) ∧ completes (.velocityCalibration t ini b) s (started 5) ∧
    completes (.abortReflectometry t ini b) s fun u => u.fld .crmCmdst 2 0 = crmResult r 6 b 0 ∧
      if (r.crmRun b).isSome ∧ r.bit .crmCtl 0 = true then
        u.crmRun b = none ∧ u.bit .crmWbStat 0 b = false ∧ u.bit .crmWbStat 1 b = true ∧ u.bit .crmWbStat 2 b = true
      else u.crema = r.crema ∧ u.mem = r.mem) ∧
  (∀ s r t b x, runsAt s t r → b < 8 → Shaped r → r.crmRun b = some x →
    (t < x.next → exec (.reflectRunEnd t b) s = .next r ∧ ∀ samples, exec (.reflectPulse t b samples) s = .next r) ∧
    (x.next ≤ t → x.count < 2 ^ x.e → exec (.reflectRunEnd t b) s = .next r ∧ ∀ samples : List (BitVec 16), exec (.reflectPulse t b samples) s = .next (r.setCrmRun b (some { x with
      count := x.count + 1, next := x.next + 256000
      sums := x.sums.mapIdx fun i y => y + (samples.getD i 0).toInt }))) ∧
    (x.next ≤ t → 2 ^ x.e ≤ x.count → (∀ samples, exec (.reflectPulse t b samples) s = .next r) ∧
      completes (.reflectRunEnd t b) s fun u =>
      u.crmRun b = none ∧ u.bit .crmWbStat 0 b = false ∧ u.bit .crmWbStat 1 b = true))

/-- CREMA_FRAME_END and FAST_FAULT (R360, R361, R371): an Off channel takes nothing; after a Live frame the thresholds are
those of the frame, and the counts of open-like and short-like frames go on or start again; sixteen in a row put the fast
faults in force. -/
def Obligations.CremaFrames : Prop :=
  ∀ s r t c, runsAt s t r → c < 32 → Shaped r →
    (∀ m, crmMode r c = 0 → exec (.cremaFrameEnd t c m) s = .next r) ∧
    (∀ m, crmMode r c ≠ 0 → crmWasLive r c (t / 8192000 * 8192000) = true → completes (.cremaFrameEnd t c m) s fun u =>
      (u.crm c).prev = crmThresholds r c m ∧
      (u.crm c).openN = (if (crmFast r c m).1 = true ∧ m.overload = false then (r.crm c).openN + 1 else 0) ∧
      (u.crm c).shortN = (if (crmFast r c m).2 = true ∧ m.overload = false then (r.crm c).shortN + 1 else 0) ∧
      ((u.crm c).ovl = true ↔ (r.crm c).ovl = true ∨ m.overload = true) ∧ u.mem = r.mem) ∧
    (completes (.fastFault t c) s fun u =>
      (bitOf (crmFaults u c) 5 = (bitOf (crmFaults r c) 5 || decide (16 ≤ (r.crm c).shortN))) ∧
      (bitOf (crmFaults u c) 6 = (bitOf (crmFaults r c) 6 || decide (16 ≤ (r.crm c).openN))) ∧
      (∀ b, b < 12 → b ≠ 5 → b ≠ 6 → bitOf (crmFaults u c) b = bitOf (crmFaults r c) b) ∧ u.mem = r.mem)

/-- LIVE_WINDOW_END, NIGHT_STAGE_A_END and NIGHT_STAGE_B_END of a window or stage that has ended, with no queue for
its records and no memory error (R369, R370, R377, R378): it is judged once, the faults in force become those of the
judgement, and a record with the next sequence number and the stop stamp goes to the channel's place; a stage A with a
stage B to come writes none. A fault found in a live window is in force; one that is not found stays after the first
such window and ends with the second in a row (R370). With no window or stage that has ended, nothing changes. The
fields of a record that Crema computes are opaque (log entry 40), and nothing is stated of them. -/
def Obligations.CremaWindows : Prop :=
  (∀ s r t c w stop m, runsAt s t r → c < 32 → Shaped r → queueHandles r = [] → r.memErr = [] →
    ((r.crm c).done = some (w, stop) →
    let sq := (r.fld .crmChStat 17 2 c + 1) % 2 ^ 16
    let written (mode : Nat) (u : State) := u.fld .crmChStat 17 2 c = sq ∧
      memRead u.mem (crmBase r + 192 * (2 * c + sq % 2)) 12 =
        toBytesLE 4 (0x01000000 + c * 2 ^ 19 + mode * 2 ^ 17 + sq) ++ toBytesLE 8 stop
    (w.stage = 0 → completes (.liveWindowEnd t c m) s fun u =>
      (u.crm c).done = none ∧ written 1 u ∧
      crmFaults u c = if (crmJudge r c m false).2 = true then crmFaults r c else (crmLiveFaults r c (crmJudge r c m false).1 stop).1) ∧
    (w.stage = 1 → completes (.nightStageAEnd t c m) s fun u =>
      (u.crm c).done = none ∧ crmFaults u c = ((crmJudge r c m true).1 + (crmFaults r c &&& 0x60)) % 4096 ∧
      if (r.crm c).win.isSome then u.mem = r.mem else written 2 u) ∧
    (w.stage = 2 → completes (.nightStageBEnd t c m) s fun u =>
      (u.crm c).done = none ∧ written 2 u ∧ crmFaults u c = crmFaults r c))) ∧
  (∀ s r t c m, runsAt s t r → c < 32 → (r.crm c).done = none →
    exec (.liveWindowEnd t c m) s = .next r ∧ exec (.nightStageAEnd t c m) s = .next r ∧ exec (.nightStageBEnd t c m) s = .next r) ∧
  (∀ s c found stop b, b ∈ [0, 1, 2, 3, 9] →
    let f := crmLiveFaults s c found stop
    bitOf f.1 b = (bitOf found b || (bitOf (crmFaults s c) b && decide (nth (s.crm c).miss b 0 = 0))) ∧
    (b < (s.crm c).miss.length → nth f.2 b 0 = if bitOf found b = false ∧ bitOf (crmFaults s c) b = true ∧
      nth (s.crm c).miss b 0 = 0 then 1 else 0))

/-- EVAC_DEBOUNCED_CHANGE, EVAC_MESSAGE_START and EVAC_MESSAGE_END (R401 to R404): once the pin has been at its other
level for deb ticks, its debounced state changes; an active pin with a valid message that has not been used starts it,
any other pin starts nothing, and one whose entry is not valid uses it up; a message that does not loop leaves when
its end lies in the block now forwarded. -/
def Obligations.EvacMessages : Prop :=
  ∀ s r t e, runsAt s t r → e < 8 → Shaped r → r.memErr = [] →
    let x := r.evPin e
    (if x.count < max 1 (r.fld .aptEvacCfg 15 8 e) then exec (.evacDebouncedChange t e) s = .next r
      else completes (.evacDebouncedChange t e) s fun u =>
        evActive u e = !evActive r e ∧ (u.evPin e).count = 0 ∧ (u.evPin e).used = false ∧ u.mem = r.mem) ∧
    (evActive r e = false ∨ r.bit .aptEvacCfg 31 e = false ∨ x.used = true → exec (.evacMessageStart t e) s = .next r) ∧
    (evActive r e = true → r.bit .aptEvacCfg 31 e = true → x.used = false →
      let a := r.fld .aptFms 28 16 * 2 ^ 20 + 16 * r.fld .aptEvacCfg 5 0 e
      let off := memNat r.mem a 4 % 2 ^ 28
      let len := memNat r.mem (a + 4) 4 % 2 ^ 28
      completes (.evacMessageStart t e) s fun u =>
        (u.evPin e).used = true ∧ u.mem = r.mem ∧
        if len = 0 ∨ r.fld .aptFms 8 0 * 2 ^ 20 < off + 3 * len then (u.evPin e).phase = x.phase
        else (u.evPin e).phase = 1 ∧ (u.evPin e).pos = 0 ∧ (u.evPin e).off = off ∧ (u.evPin e).len = len ∧
          (u.evPin e).loop = bitOf (memNat r.mem (a + 12) 4) 0 ∧ u.bit .aptEvacStat (8 + e) = true) ∧
    (exec (.evacMessageEnd t e) s = .next (if x.phase = 1 ∧ x.loop = false ∧ x.len ≤ x.pos + r.pourSize
      then r.setEvPin e { x with phase := 2 } else r))

/-- BANK_FLIP_REQUEST and PLACEMENT_REQUEST (R407, R409): a flip waits for the first pour to come whose number ends in
the given 16 bits, and its bank shows it pending; a placement with rows that fit its core and room to wait joins those
that wait, and one that does not is reported in CAR_PLACE_STAT. PLACEMENT_COMPLETE (R410): the rows are in the core's
data memory, no other byte changes, and a copy that ends in its pour or later is reported late. -/
def Obligations.BanksAndPlacements : Prop :=
  (∀ s r t ini (v : W32), runsAt s t r →
    (reservedIn .carFlipCmd 0 v.toNat = false → completes (.bankFlipRequest t ini v) s fun u =>
      u.bit .carBankLen 17 (fieldOf v 5 0) = true ∧ u.mem = r.mem ∧
      ∃ n, kget u.audio.flips (fieldOf v 5 0) = some (n, bitOf v.toNat 15) ∧ n % 2 ^ 16 = fieldOf v 31 16 ∧
        r.pourAt t < n ∧ n ≤ r.pourAt t + 2 ^ 16) ∧
    (let rows := fieldOf v 15 0
     let addr := r.fld .carPlaceDst 18 0
     let waiting := (r.audio.places.filter fun p => p.run.isNone).length
     completes (.placementRequest t ini v) s fun u => u.mem = r.mem ∧
      if rows = 0 ∨ 524286 < addr + 24 * rows then u.bit .carPlaceStat 9 = true ∧ u.audio = r.audio
      else if 64 ≤ waiting then u.bit .carPlaceStat 8 = true ∧ u.audio = r.audio
      else ∃ n, u.audio.places = r.audio.places ++ [{
          bank := r.fld .carPlaceSrc 31 26, side := r.bit .carPlaceSrc 25, off := r.fld .carPlaceSrc 24 0
          l := r.fld .carPlaceDst 31 26, addr := addr, rows := rows, pour := n, run := none }] ∧
        n % 2 ^ 16 = fieldOf v 31 16 ∧ r.pourAt t + 2 ≤ n ∧ n < r.pourAt t + 2 + 2 ^ 16 ∧
        u.fld .carPlaceStat 6 0 = (waiting + 1) % 128)) ∧
  (∀ s r t, runsAt s t r →
    (r.audio.places.find? (fun p => p.run.isSome) = none → exec (.placementComplete t) s = .next r) ∧
    (∀ p q start, r.audio.places.find? (fun p => p.run.isSome) = some p → p.run = some (q, start) →
      t < start + (8 * p.rows + 40) → exec (.placementComplete t) s = .next r)) ∧
  (∀ s r t p q start, runsAt s t r → Shaped r → r.memErr = [] → r.coreOld.1 ≠ t →
    r.audio.places.find? (fun p => p.run.isSome) = some p → p.run = some (q, start) → q < 68 → start + (8 * p.rows + 40) ≤ t →
    writeHeld r .runner q = false → p.addr + 24 * p.rows ≤ 524286 →
    let a0 := coreBase + 0x100000 * q + p.addr
    completes (.placementComplete t) s fun u =>
      memRead u.mem a0 (24 * p.rows) = memRead r.mem (carBase + bankBase r p.bank p.side + p.off) (24 * p.rows) ∧
      (∀ a, ¬ (a0 ≤ a ∧ a < a0 + 24 * p.rows) → memGet u.mem a = memGet r.mem a) ∧
      u.audio.places.length + 1 = r.audio.places.length ∧
      (p.pour * r.pourLen ≤ t → u.bit .carPlaceStat 7 = true))

/-! ### Booting and the Barista pairs -/

/-- MODULE_RESET_RELEASE and IMAGE_CHOICE (R432, R433, R515): the release waits for PG and REFA, and then the choice of an
image is next; the choice names the image that R432 picks from the contents of the two devices, or recovery when there is
none. SECTION_APPLY and LOADER_CHECKS (R434 to R437): a section that the bus takes and whose digest matches is done, and the
last gives way to the checks; checks that pass save the boot copy; anything else counts a failed boot, records its cause and
asserts module reset. -/
def Obligations.BootStages : Prop :=
  (∀ s r t, runsAt s t r →
    (∀ puf rng, if r.power.resetOn = true ∧ r.power.pg = true ∧ r.bit .pwrStat 19 = false
      then completes (.moduleResetRelease t puf rng) s fun u =>
        u.power.resetOn = false ∧ u.boot.stage = .choice ∧ u.bit .rkpStat 2 = rng ∧ u.mem = r.mem
      else exec (.moduleResetRelease t puf rng) s = .next r) ∧
    (∀ a b, if r.boot.stage = .choice then completes (.imageChoice t a b) s fun u =>
        u.mem = r.mem ∧
        match pickImage (findFlash (findFlash r 0 a) 1 b) with
        | some (x, trial) => u.boot.stage = .sections ∧ u.fld .barStat 6 6 = x ∧ u.bit .barStat 5 = trial
        | none => u.boot.stage = .recovery
      else exec (.imageChoice t a b) s = .next r)) ∧
  (∀ s r t, runsAt s t r →
    let failed (cause : Nat) (u : State) := u.power.resetOn = true ∧ u.fld .barStat 19 16 = cause ∧ u.fld .pwrStat 26 24 = 3
    (r.boot.stage ≠ .sections → exec (.sectionApply t) s = .next r) ∧
    (r.boot.stage = .sections → r.boot.todo = [] →
      exec (.sectionApply t) s = .next { r with boot := { r.boot with stage := .checks } }) ∧
    (∀ x rest, r.boot.stage = .sections → r.boot.todo = x :: rest →
      let bs := sliceOf (nth r.boot.flash (r.fld .barStat 6 6) []) x.off x.len
      let q := applySection r x bs t
      completes (.sectionApply t) s fun u =>
        if q.1 = false then failed 2 u
        else if digestOk x bs = false then failed 1 u
        else u.boot.todo = rest ∧ u.boot.stage = (if rest = [] then .checks else .sections) ∧ u.mem = q.2.mem ∧ u.regs = q.2.regs) ∧
    (r.boot.stage ≠ .checks → exec (.loaderChecks t) s = .next r) ∧
    (r.boot.stage = .checks → completes (.loaderChecks t) s fun u =>
      if loaderChecks r = true then u.boot.stage = .ready ∧ u.boot.saved = true else failed 3 u))

/-- TAMP at the end of a cold boot (R437 to R439): SYS_TAMP is set and boot state is left; before the first tamp, cores 0 to
63 leave core reset and wait for a tick that comes no sooner than one pour later; the active pair starts the firmware of the
image. -/
def Obligations.TampRow : Prop :=
  ∀ s r t, runsAt s t r → Shaped r →
    if r.boot.stage = .ready ∧ r.boot.warm = false then completes (.tamp t) s fun u =>
      u.tamped = true ∧ inBoot u = false ∧ u.boot.stage = .done ∧ u.mem = r.mem ∧
      (r.tickMin = none → u.tickMin = some (t + (withPourCfg r).pourLen) ∧ tickSource u = 0 ∧
        ∀ p < 64, (u.core (.eduno p)).phase = .waiting ∧ (u.core (.eduno p)).user = false) ∧
      (u.core (.barista r.activePair)).phase = .running ∧ (u.core (.barista r.activePair)).pc = r.boot.entry
    else exec (.tamp t) s = .next r

/-- RECOVERY_IMAGE_WRITE, SET_GOOD_MARK, SET_BAD_MARK and MARK_PROGRAMMED (R430, R432, R461): in recovery a verified
image is written with its marks unset and the module resets; the active pair starts to program the good mark of the
booted image or the bad mark of the other; a programmed mark reads as set; a command that the pair may not give is
only noted. -/
def Obligations.MarksAndRecovery : Prop :=
  ∀ s r t, runsAt s t r → Shaped r →
    (∀ img, completes (.recoveryImageWrite t img) s fun u =>
      if r.boot.stage = .recovery ∧ (soundImage r img).isSome then
        u.power.resetOn = true ∧ u.fld .pwrStat 26 24 = 3 ∧
        nth u.boot.flash (recoveryDevice r) [] = img.mapIdx fun i b => if 0x10000 ≤ i ∧ i < 0x10005 then (0xFF : Byte) else b
      else u = r) ∧
    (r.bit .barStat 8 = false → r.pairWorks = true →
      completes (.setGoodMark t .barista) s (fun u =>
        u.bit .barStat 8 = true ∧ u.boot = { r.boot with marking := some (r.fld .barStat 6 6, 3) } ∧ u.mem = r.mem) ∧
      completes (.setBadMark t .barista) s fun u =>
        u.bit .barStat 8 = true ∧ u.boot = { r.boot with marking := some (1 - r.fld .barStat 6 6, 4) } ∧ u.mem = r.mem) ∧
    (∀ ini, ini ≠ .barista ∨ r.bit .barStat 8 = true ∨ r.pairWorks = false →
      exec (.setGoodMark t ini) s = .next (noted r t .barBootCmd 0) ∧ exec (.setBadMark t ini) s = .next (noted r t .barBootCmd 0)) ∧
    (r.boot.marking = none → exec (.markProgrammed t) s = .next r) ∧
    (∀ d k, d < 2 → r.boot.marking = some (d, k) → completes (.markProgrammed t) s fun u =>
      markSet u d k = true ∧ u.bit .barStat 8 = false ∧ u.boot.marking = none ∧ u.mem = r.mem)

/-- LOCKSTEP_MISMATCH, WATCHDOG_EXPIRY and WATCHDOG_SERVICE outside boot state with a standby and no takeover under
way (R419, R422, R423, R427): a fault of the active pair holds it in reset and begins a takeover; one of the standby
leaves no standby; the active pair's service restarts the watchdog, and any other write is only noted. With nothing
else due, a takeover is complete in the 64th cycle after the fault: the other pair is active, and the faulty one has
failed. -/
def Obligations.PairFaults : Prop :=
  (∀ s r t, runsAt s t r → Shaped r → inBoot r = false → r.boot.warm = false → r.bit .barStat 1 = true → r.pairs.faultAt = none →
    r.pairFailed 0 = false → r.pairFailed 1 = false →
    let a := r.activePair
    let begun (u : State) := (u.core (.barista a)).phase = .inReset ∧ u.pairs.faultAt = some (t, a) ∧ u.pairs.wdogAt = none ∧
      u.activePair = a
    ((r.core (.barista a)).phase ≠ .inReset → completes (.lockstepMismatch t a) s begun) ∧
    ((r.core (.barista (1 - a))).phase ≠ .inReset → completes (.lockstepMismatch t (1 - a)) s fun u =>
      (u.core (.barista (1 - a))).phase = .inReset ∧ u.pairFailed (1 - a) = true ∧ u.bit .barStat 1 = false ∧ u.pairs = r.pairs) ∧
    (∀ w, r.pairs.wdogAt = some w →
      (if w + wdogCycles r ≤ t then completes (.watchdogExpiry t) s begun else exec (.watchdogExpiry t) s = .next r) ∧
      exec (.watchdogService t .barista) s = .next ((noted r t .barWdogSvc 0).setPairs { r.pairs with wdogAt := some t }) ∧
      ∀ ini, ini ≠ .barista → exec (.watchdogService t ini) s = .next (noted r t .barWdogSvc 0))) ∧
  (∀ s c q, q < 2 → s.pairs.faultAt = some (c, q) → s.pairs.returned = true → (dueItems s).length = 1 → s.ntc ≤ c + 64 →
    s.power.asleep = none →
    let u := reach s (c + 64)
    u.ntc = c + 64 ∧ u.activePair = 1 - q ∧ u.pairFailed q = true ∧ u.pairs.faultAt = none ∧ u.bit .barStat 1 = false)

/-- SHADOW_WRITE (R420): the oldest write waiting is repeated at the same offset of the standby's memory; without a standby it
is dropped, and with none waiting nothing changes. RESTORE and RESTORE_COMPLETE (R426): the active pair starts the restore of
a failed pair; 6,144,000 cycles later that pair is the standby with the active pair's memory. -/
def Obligations.PairMemory : Prop :=
  (∀ s r t, runsAt s t r → Shaped r →
    (r.shadowQ = [] → exec (.shadowWrite t) s = .next r) ∧
    (∀ e rest, r.shadowQ = e :: rest →
      let a0 := sramBase + 0x100000 * e.1 + e.2.1
      if r.bit .barStat 1 = true then completes (.shadowWrite t) s fun u =>
        u.shadowQ = rest ∧ memRead u.mem a0 e.2.2.1.length = e.2.2.1 ∧
        ∀ a, ¬ (a0 ≤ a ∧ a < a0 + e.2.2.1.length) → memGet u.mem a = memGet r.mem a
      else exec (.shadowWrite t) s = .next { r with shadowQ := rest })) ∧
  (∀ s r t, runsAt s t r → Shaped r →
    let a := r.activePair
    (∀ ini, exec (.restorePair t ini) s = .next (if ini = .barista ∧ r.pairWorks = true ∧ r.pairFailed (1 - a) = true ∧
      r.bit .barStat 4 = false
      then (((noted r t .barCmd 0).setCore (.barista (1 - a)) Core.reset).setBit .barStat 4 true).setPairs
        { r.pairs with restoreAt := some t }
      else noted r t .barCmd 0)) ∧
    (r.pairs.restoreAt = none → exec (.restoreComplete t) s = .next r) ∧
    (∀ c, r.pairs.restoreAt = some c →
      if t < c + 6144000 then exec (.restoreComplete t) s = .next r
      else completes (.restoreComplete t) s fun u =>
        u.bit .barStat 1 = true ∧ u.bit .barStat 4 = false ∧ u.pairFailed (1 - a) = false ∧ u.pairs.restoreAt = none ∧
        ∀ i, i < 0x100000 → memGet u.mem (sramBase + 0x100000 * (1 - a) + i) = memGet r.mem (sramBase + 0x100000 * a + i)))

/-- WARM_REBOOT_BOOT_COPY, WARM_REBOOT_STAGED and WARM_REBOOT_TAMP (R441, R442): a warm reboot of the active pair of a
tamped device enters boot state with the pair held and the tamp off, and no other initiator or state starts one; it
ends with the tamp when its source verifies, the bus takes its sections and the checks pass; a source that does not
verify records cause 5 and leaves the boot copy to be tried. -/
def Obligations.WarmReboot : Prop :=
  ∀ s r t, runsAt s t r → Shaped r →
    (∀ ini, ini ≠ .barista ∨ r.pairWorks = false ∨ inBoot r = true ∨ r.tamped = false →
      exec (.warmRebootBootCopy t ini) s = .next (noted r t .barWarm 0) ∧
      exec (.warmRebootStaged t ini) s = .next (noted r t .barWarm 0)) ∧
    (r.boot.warm = false ∨ inBoot r = false → exec (.warmRebootTamp t) s = .next r) ∧
    (r.pairWorks = true → inBoot r = false → r.tamped = true →
      let begun (staged : Bool) (u : State) := u.boot.warm = true ∧ u.boot.fromStaged = staged ∧ u.boot.attempts = 0 ∧
        inBoot u = true ∧ u.tamped = false ∧ (u.core (.barista r.activePair)).phase = .inReset ∧
        u.fld .barStat 31 24 = min (r.fld .barStat 31 24 + 1) 255 ∧ u.mem = r.mem
      completes (.warmRebootBootCopy t .barista) s (begun false) ∧ completes (.warmRebootStaged t .barista) s (begun true)) ∧
    (r.boot.warm = true → inBoot r = true → completes (.warmRebootTamp t) s fun u =>
      (warmSource r = none → r.boot.attempts = 0 →
        u.fld .barStat 19 16 = 5 ∧ u.boot.attempts = 1 ∧ u.boot.fromStaged = false ∧ inBoot u = true) ∧
      (∀ vers m secs, warmSource r = some (vers, m, secs) → secs.all (fun x => digestOk x.1 x.2) = true →
        let q := secs.foldl (fun q x => if x.1.type = 1 then q else
          let y := applySection q.2 x.1 x.2 t
          (q.1 && y.1, y.2)) (true, r.setBoot { r.boot with decls := [] })
        q.1 = true → loaderChecks (withStaged q.2) = true →
        u.tamped = true ∧ inBoot u = false ∧ u.boot.stage = .done ∧ u.boot.warm = false))

/-! ### The Rarik keep -/

/-- The thirteen commands of the keep (R467): a set that is busy takes none; an idle set becomes busy with the command, its
parameter and its addresses, and the stamp; memory stays. A factory restore by set 0 is for the next tick (R465). -/
def Obligations.KeepCommands : Prop :=
  ∀ s r t set param, runsAt s t r → set < 3 →
    let started (op : Nat) (c : Instr) : Prop :=
      if r.bit .rkpCst 7 set = true then exec c s = .next (noted r t .rkpCmd set)
      else completes c s fun u =>
        u.bit .rkpCst 7 set = true ∧ u.mem = r.mem ∧
        kget u.keep.cmds set = some
          { op := op, param := param % 65536, at' := t, inp := keepAddr r .rkpInLo .rkpInHi set, out := keepAddr r .rkpOutLo .rkpOutHi set } ∧
        u.keep.restoreAt = if op = 0x30 ∧ set = 0 then some (r.keep.restoreAt.getD (r.pourAt t + 1)) else r.keep.restoreAt
    started 0x01 (.keepQuote t set param) ∧ started 0x02 (.keepCert t set param) ∧ started 0x03 (.keepRandom t set param) ∧
    started 0x10 (.sbkInstall t set param) ∧ started 0x11 (.epochPrepare t set param) ∧ started 0x12 (.epochAccept t set param) ∧
    started 0x20 (.raiseFloor t set param) ∧ started 0x21 (.slotProgram t set param) ∧ started 0x22 (.slotRevoke t set param) ∧
    started 0x30 (.restoreFactory t set param) ∧ started 0x31 (.logRead t set param) ∧ started 0x40 (.debugChallenge t set param) ∧
    started 0x41 (.debugUnlock t set param)

/-- KEEP_COMMAND_COMPLETE of the command that runs (R446 to R448, R457, R458, R467): the set is idle and holds the
result (the causes of results by log entry 53). An op that the set may not use ends with result 1; without the device
key a quote ends with result 6, and without a healthy generator random bytes do; a floor is raised, and a slot
revoked, only as the rules allow. A set whose command does not run is not touched. -/
def Obligations.KeepResults : Prop :=
  ∀ s r t set c, runsAt s t r → set < 3 → kget r.keep.cmds set = some c →
    (r.keep.running ≠ some set → exec (.keepCommandComplete t set) s = .next r) ∧
    (r.keep.running = some set → ¬ (c.op = 0x30 ∧ set = 0 ∧ r.keep.restoreAt.isSome) →
      let ends (P : State → Nat → Prop) := completes (.keepCommandComplete t set) s fun u =>
        u.bit .rkpCst 7 set = false ∧ u.keep.cmds = kdel r.keep.cmds set ∧ P u (u.fld .rkpCst 3 0 set)
      (keepAllowed r set c.op = false → ends fun u n => n = 1 ∧ u.mem = r.mem) ∧
      (c.op = 0x01 → ¬ (r.boot.stage = .recovery ∧ set = 0) → r.bit .rkpStat 0 = false → ends fun u n => n = 6 ∧ u.mem = r.mem) ∧
      (c.op = 0x03 → set = 1 → r.bit .rkpStat 2 = false → ends fun u n => n = 6 ∧ u.mem = r.mem) ∧
      (c.op = 0x20 → set = 0 → r.boot.stage ≠ .recovery → ends fun u n => u.mem = r.mem ∧
        if c.param < r.fld .rkpOtp 22 16 ∨ 64 < c.param ∨ r.keep.secVer < c.param ∨ r.bit .barStat 5 = true then
          n = 3 ∧ u.reg .rkpOtp = r.reg .rkpOtp
        else n = 0 ∧ u.fld .rkpOtp 22 16 = c.param ∧ u.fld .rkpOtp 15 0 = r.fld .rkpOtp 15 0) ∧
      (c.op = 0x22 → set = 0 → r.boot.stage ≠ .recovery → ends fun u n => u.mem = r.mem ∧
        let valid := (List.range 4).filter fun k => r.bit .rkpOtp (8 + k) && !r.bit .rkpOtp (12 + k)
        if c.param ∈ valid ∧ r.fld .rkpOtp 7 6 ≠ c.param ∧ 2 ≤ valid.length then
          n = 0 ∧ u.bit .rkpOtp (12 + c.param) = true ∧ ∀ b, b < 32 → b ≠ 12 + c.param → u.bit .rkpOtp b = r.bit .rkpOtp b
        else n = 3 ∧ u.reg .rkpOtp = r.reg .rkpOtp))

/-- RESTORE_FUSE_BURN, DRBG_RESEED, SPDM_REQUEST, QUERY, KEY_PROG, K_SET_GO and K_SET_STOP (R456, R457, R465, R503): a
burn that is due raises the restore count by one up to 256; a reseed clears the count of generate calls; a request
gets an answer, which is a free function of it (log entries 5 and 33); a key goes into the engine; the stream is
Secure once both directions of the set hold keys, and a set that is stopped loses the stream. -/
def Obligations.KeepEvents : Prop :=
  ∀ s r t, runsAt s t r →
    (if r.keep.fuseDue = false then exec (.restoreFuseBurn t) s = .next r else completes (.restoreFuseBurn t) s fun u =>
      u.fld .rkpOtp 31 23 = min (r.fld .rkpOtp 31 23 + 1) 256 ∧ u.keep.fuseDue = false ∧ u.mem = r.mem) ∧
    (∀ ok, if r.keep.calls < 65536 ∧ r.bit .rkpStat 2 = true then exec (.drbgReseed t ok) s = .next r
      else completes (.drbgReseed t ok) s fun u => u.keep.calls = 0 ∧ u.bit .rkpStat 2 = ok ∧ u.mem = r.mem) ∧
    (∀ msg, completes (.spdmRequest t msg) s fun u => u.regs = r.regs ∧ u.mem = r.mem ∧ u.freeSeq = r.freeSeq + 1 ∧
      ∃ x, x < 2 ^ 32 ∧ u.keep = { r.keep with doe := Config.spdmReply msg x }) ∧
    (completes (.ideQuery t) s fun u => u.regs = r.regs ∧ u.mem = r.mem ∧ u.freeSeq = r.freeSeq + 1 ∧
      ∃ x, x < 2 ^ 32 ∧ u.keep = { r.keep with doe := Config.spdmReply [] x }) ∧
    (∀ set dir key, set < 2 → dir < 2 → completes (.keyProg t set dir key) s fun u =>
      kget u.keep.ideKeys (2 * set + dir) = some key ∧ u.regs = r.regs ∧ u.mem = r.mem ∧
      ∀ k, k ≠ 2 * set + dir → kget u.keep.ideKeys k = kget r.keep.ideKeys k) ∧
    (∀ set, set < 2 →
      if (kget r.keep.ideKeys (2 * set)).isSome ∧ (kget r.keep.ideKeys (2 * set + 1)).isSome then
        completes (.kSetGo t set) s fun u => u.bit .pcxLstat 11 = true ∧ u.keep = { r.keep with ideSet := some set } ∧ u.mem = r.mem
      else exec (.kSetGo t set) s = .next r) ∧
    (∀ set, set < 2 → completes (.kSetStop t set) s fun u =>
      u.keep.ideKeys = kdel (kdel r.keep.ideKeys (2 * set)) (2 * set + 1) ∧ u.mem = r.mem ∧
      if r.keep.ideSet = some set then u.bit .pcxLstat 11 = false ∧ u.keep.ideSet = none
      else u.keep.ideSet = r.keep.ideSet ∧ u.bit .pcxLstat 11 = r.bit .pcxLstat 11)

/-! ### Live service, scrubbing and the bus -/

/-- TAKE_OVER, RETIRE_SPARE and TAKEOVER_COPY_COMPLETE (R470 to R473): a command of the active pair for a core that
does not wait yet joins the at most four that wait, and a fifth gives result 1; one of another initiator is only
noted; a spare that serves no core is retired; 10,923 cycles after its tick the copy is done: the spare's memories and
registers are those of the failing core, and no other byte changes. -/
def Obligations.Spares : Prop :=
  ∀ s r t, runsAt s t r →
    (∀ ini l, l < 64 →
      let waits := r.service.spareQ.any (fun e => decide (e.1 = l)) = true ∨ ∃ k, r.takeover = some k ∧ k.l = l
      (ini ≠ .barista ∨ r.pairWorks = false → exec (.takeOver t ini l) s = .next (noted r t .sysSpareCmd 0)) ∧
      (ini = .barista → r.pairWorks = true → completes (.takeOver t ini l) s fun u => u.mem = r.mem ∧ u.takeover = r.takeover ∧
        (waits → u.service = r.service ∧ u.fld .sysSpareStat 19 17 = 0) ∧
        (¬ waits → 4 ≤ r.service.spareQ.length → u.service = r.service ∧ u.fld .sysSpareStat 19 17 = 1) ∧
        (¬ waits → r.service.spareQ.length < 4 → u.service = { r.service with spareQ := r.service.spareQ ++ [(l, t)] } ∧
          u.fld .sysSpareStat 19 17 = 0 ∧ u.fld .sysSpareStat 22 20 = r.service.spareQ.length + 1))) ∧
    (∀ ini j, j < 4 →
      let used := (∃ k, r.takeover = some k ∧ k.s = 64 + j) ∨ (∃ l, r.lcoreOf (64 + j) = some l)
      (used → exec (.retireSpare t ini j) s = .next (noted r t .sysSpareCmd 0)) ∧
      (¬ used → completes (.retireSpare t ini j) s fun u =>
        u.bit .sysCfail j 2 = true ∧ u.fld .sysSpareStat 19 17 = 0 ∧ u.mem = r.mem)) ∧
    ((r.takeover = none → exec (.takeoverCopyComplete t) s = .next r) ∧
      (∀ k, r.takeover = some k → k.p < 68 → k.s < 68 → Shaped r → r.memErr = [] →
        if k.copied = true ∨ t < k.t0 * r.pourLen + 10923 then exec (.takeoverCopyComplete t) s = .next r
        else completes (.takeoverCopyComplete t) s fun u =>
          let b := coreBase + 0x100000 * k.s
          u.takeover = some { k with copied := true } ∧
          (∀ i, i < 0xA0000 → memGet u.mem (b + i) = memGet r.mem (coreBase + 0x100000 * k.p + i)) ∧
          (∀ a, ¬ (b ≤ a ∧ a < b + 0xA0000) → memGet u.mem a = memGet r.mem a) ∧
          (u.core (.eduno k.s)).g = (r.core (.eduno k.p)).g ∧ (u.core (.eduno k.s)).a = (r.core (.eduno k.p)).a ∧
          (u.core (.eduno k.s)).acc = (r.core (.eduno k.p)).acc ∧ (u.core (.eduno k.s)).pc = (r.core (.eduno k.p)).pc))

/-- AGING_MEASUREMENT and COUNTER_INTERVAL_CLOSE (R483, R485): once a minute a monitor records the slowdown, and its
state rises to caution and warning at the thresholds and never falls (the baseline is an opaque constant, log entry
13); a counter whose interval is over moves its count to the last value, starts again at what the closing cycle itself
counted (R54), and raises its alarm at its threshold. SCRUB_LINE (R210, R211): a correctable error is corrected and
counted; an uncorrectable one is recorded with its line, and stays; no byte changes; a line that was read in this pass
is not read again. -/
def Obligations.HealthAndScrub : Prop :=
  (∀ s r t, runsAt s t r →
    (∀ i d, if t % 92160000000 ≠ 0 ∨ 32 ≤ i then exec (.agingMeasurement t i d) s = .next r
      else completes (.agingMeasurement t i d) s fun u =>
        let slow := slowOf d (Config.agingBase i + 1)
        let a := r.fld .hltAge 31 30 i
        let b := if a = 0 ∧ (r.fld .hltAgeCfg 15 0 : Int) ≤ slow then 1 else a
        u.fld .hltAge 15 0 i = sfield 16 slow ∧ u.mem = r.mem ∧
        u.fld .hltAge 31 30 i = if b < 2 ∧ (r.fld .hltAgeCfg 31 16 : Int) ≤ slow then 2 else b) ∧
    (∀ k a, k < 32 → kget r.service.ivals k = some a →
      let n := r.fld .hltCntCfg 11 0 k
      if n = 0 ∨ r.pourAt t < a + n then exec (.counterIntervalClose t k) s = .next r
      else
        -- what the closing cycle itself counted belongs to the next interval (R54)
        let count := (r.reg .hltCntVal k).toNat
        let before := match kget r.service.counted k with | some x => if x.1 = t then x.2 else count | none => count
        completes (.counterIntervalClose t k) s fun u =>
          u.reg .hltCntLast k = BitVec.ofNat 32 before ∧ u.reg .hltCntVal k = BitVec.ofNat 32 (count - before % 2 ^ 32) ∧
          kget u.service.ivals k = some (r.pourAt t) ∧ u.mem = r.mem ∧
          (r.reg .hltCntThr k ≠ 0 → (r.reg .hltCntThr k).toNat ≤ before % 2 ^ 32 → u.bit .hltAlarm k = true)) ∧
    (∀ k, 32 ≤ k ∨ kget r.service.ivals k = none → exec (.counterIntervalClose t k) s = .next r)) ∧
  (∀ s r t a, runsAt s t r → Shaped r → a < 0x200000000 → r.memErr = [] →
    let p := scrubPass r t
    let scrubbed (u : State) := u.mem = r.mem ∧ (a / 64) ∈ u.service.scrubbed
    (p.service.scrubbed.contains (a / 64) = true → exec (.scrubLine t a []) s = .next p) ∧
    (p.service.scrubbed.contains (a / 64) = false →
      completes (.scrubLine t a [⟨a, .correctable, 0⟩]) s (fun u => scrubbed u ∧
        u.memErr = [] ∧ u.fld .carDramErr 31 16 = min (r.fld .carDramErr 31 16 + 1) 0xFFFF) ∧
      (bitOf (r.hwBits t (regOff .carDramErr 0 0)) 0 = false →
        completes (.scrubLine t a [⟨a, .uncorrectable, 0⟩]) s fun u => scrubbed u ∧
          u.memErr = [(a - a % 8, true)] ∧ u.bit .carDramErr 0 = true ∧
          (r.bit .carDramErr 0 = false → u.fld .carDramErr 7 4 = 0 ∧ u.reg .carDramErrAddr = BitVec.ofNat 32 (a / 64)))))

/-- EXTERNAL_PORT_ACCESS and JTAG_ACCESS (R185, R459, R531, R542): the pair reads and writes a core's data memory, and
the host does not; JTAG answers IDCODE at every level and in Sleep; at level 0 any access but to its own registers of
the keep (which it reaches at every level, the model's choice, log entry 35) ends with an error and changes nothing;
at level 2 it halts and releases cores and reaches the DRAM. -/
def Obligations.Ports : Prop :=
  ∀ s r t, reach s t = r →
    (r.power.asleep = none → Shaped r → r.memErr = [] → ∀ p off, p < 68 →
      let a0 := coreBase + 0x100000 * p + off
      (∀ n bs, exec (.externalPortAccess t .host p off n bs []) s = .next r) ∧
      (∀ n, 0 < n → off + n ≤ 0x7FFFE → r.coreOld.1 ≠ t → completes (.externalPortAccess t .barista p off n none []) s fun u =>
        kget u.resps 0 = some ⟨memRead r.mem a0 n, false⟩ ∧ u.mem = r.mem ∧ u.regs = r.regs) ∧
      (∀ n bs, bs ≠ [] → off + bs.length ≤ 0x7FFFE → r.coreOld.1 ≠ t → writeHeld r .barista p = false →
        completes (.externalPortAccess t .barista p off n (some bs) []) s fun u =>
          kget u.resps 0 = some ⟨[], false⟩ ∧ memRead u.mem a0 bs.length = bs ∧
          ∀ a, ¬ (a0 ≤ a ∧ a < a0 + bs.length) → memGet u.mem a = memGet r.mem a)) ∧
    (exec (.jtagAccess t .idcode) s = .next { r with resps := kput r.resps 2 ⟨toBytesLE 4 0x1816414B, false⟩ } ∧
      (r.power.asleep = none →
        (debugLevel r = 0 → ∀ a n bs w v,
          let err : State := { r with resps := kput r.resps 2 ⟨[], true⟩ }
          (jtagKeep a = false → exec (.jtagAccess t (.read a n)) s = .next err ∧ exec (.jtagAccess t (.write a bs)) s = .next err) ∧
          exec (.jtagAccess t (.halt w v)) s = .next err) ∧
        (debugLevel r = 2 →
          (∀ w v, selValid w = true → exec (.jtagAccess t (.halt w v)) s = .next (r.setCore w { r.core w with halted := v })) ∧
          (Shaped r → r.memErr = [] → ∀ a bs, bs ≠ [] → a + bs.length ≤ 0x200000000 →
            completes (.jtagAccess t (.write a bs)) s fun u =>
            kget u.resps 2 = some ⟨[], false⟩ ∧ memRead u.mem a bs.length = bs ∧
            ∀ b, ¬ (a ≤ b ∧ b < a + bs.length) → memGet u.mem b = memGet r.mem b))))

/-- REGISTER_WRITE (R7, R8, R12, R14 to R16, R439, R440): a write that is not of a word gives an error and changes
nothing; one off the registers changes none and is recorded while nothing is; a legal word goes into a register that
software writes freely; a written 1 clears a sticky bit that the hardware does not set in this cycle; outside the
loader's time a write that would change a tamped field leaves it and is recorded as a violation. -/
def Obligations.RegisterWrites : Prop :=
  ∀ s r t ini, runsAt s t r →
    (∀ off v, (0x2000000 ≤ off → exec (.registerWrite t ini off v) s = .next r) ∧
      (off < 0x2000000 → off % 4 ≠ 0 → exec (.registerWrite t ini off v) s = .next (r.answer ini [] true))) ∧
    (∀ off v, off < 0x2000000 → off % 4 = 0 → blockHeld r off = false → lookupReg off = none →
      completes (.registerWrite t ini off v) s fun u =>
        u.bit .sysRsvdSticky 0 = true ∧ u.mem = r.mem ∧
        (∀ o, o ≠ 0x40 → o ≠ 0x44 → kget u.regs o = kget r.regs o) ∧
        if r.bit .sysRsvdSticky 0 = true then u.bit .sysRsvdSticky 1 = true ∧ u.reg .sysRsvdAddr = r.reg .sysRsvdAddr
        else u.reg .sysRsvdAddr = BitVec.ofNat 32 off ∧
          u.fld .sysRsvdSticky 3 2 = (match ini with | .barista => 0 | .host => 1 | .jtag => 3)) ∧
    (∀ c (v : W32), c < 32 → v.toNat < 256 →
      completes (.registerWrite t ini (0x20200 + 16 * c) v) s fun u =>
        u = (noted r t .tmrCapCfg c).setReg .tmrCapCfg (u.reg .tmrCapCfg c) c ∧ u.fld .tmrCapCfg 7 0 c = v.toNat) ∧
    (∀ v : W32, v.toNat < 4 → completes (.registerWrite t ini 0xB0020 v) s fun u =>
      (∀ b < 2, u.bit .pwrLf b = (r.bit .pwrLf b && (!bitOf v.toNat b || bitOf (r.hwBits t 0xB0020) b))) ∧
      u.fld .pwrLf 31 2 = r.fld .pwrLf 31 2 ∧ u.mem = r.mem) ∧
    (∀ k (v : W32), k < 8 → v.toNat &&& 0x88888888 = 0 → ¬ (ini = .barista ∧ inBoot r = true ∧ r.tamped = false) →
      (r.reg .sysLclass k).toNat &&& 0x77777777 ≠ v.toNat →
      completes (.registerWrite t ini (0x80 + 4 * k) v) s fun u =>
        u.reg .sysLclass k = r.reg .sysLclass k ∧ u.bit .sysTampViol 0 = true ∧ u.mem = r.mem ∧
        (r.bit .sysTampViol 0 = false → u.fld .sysTampViol 31 8 = (0x80 + 4 * k) / 4 ∧
          u.fld .sysTampViol 3 2 = (match ini with | .barista => 0 | .host => 1 | .jtag => 3)))

/-! ### The host link -/

/-- PERST_DEASSERT, LINK_UP, LINK_DOWN, FLR, D_STATE_CHANGE and IDE_INTEGRITY_FAILURE (R489, R490, R502, R503): training
begins with a reference and an enabled link; a trained link is up at the lower of the two rates; a link that goes down, and a
function reset while it is up, leave D0 with MSI-X off, no bus mastering, no read outstanding and no ring enabled; a stream
that fails is Insecure. -/
def Obligations.HostLink : Prop :=
  ∀ s r t, runsAt s t r →
    let functionOff (u : State) := u.msixEn = false ∧ u.msixPend = [] ∧ u.pcie.bme = false ∧ u.pcie.reads = [] ∧
      u.fld .pcxLstat 1 0 = 0 ∧ (∀ j, j < 16 → hrEn u j = false) ∧ u.mem = r.mem
    (∀ ref, completes (.perstDeassert t ref) s fun u =>
      u.pcie.perst = false ∧ u.pcie.training = (ref && r.bit .pcxLcfg 0) ∧ u.regs = r.regs ∧ u.mem = r.mem) ∧
    (∀ rate width flit,
      if r.pcie.training = true ∧ r.bit .pcxLstat 9 = false ∧ r.pcie.perst = false ∧ r.bit .pcxLcfg 0 = true ∧
        width ∈ [1, 2, 4, 8] then
        completes (.linkUp t rate width flit) s fun u =>
          let got := min rate (r.fld .pcxLcfg 3 1)
          u.bit .pcxLstat 9 = true ∧ u.fld .pcxLstat 8 6 = got ∧ u.fld .pcxLstat 5 2 = width ∧
          u.bit .pcxLstat 10 = (flit || decide (got = 5)) ∧ u.pcie.training = false ∧ u.mem = r.mem
      else exec (.linkUp t rate width flit) s = .next r) ∧
    (∀ kind, completes (.linkDown t kind) s fun u =>
      functionOff u ∧ u.bit .pcxLstat 9 = false ∧ u.bit .pcxLstat 11 = false ∧ u.keep.ideKeys = [] ∧ u.keep.ideSet = none ∧
      u.pcie.perst = (r.pcie.perst || decide (kind = 2)) ∧ u.pcie.training = (!u.pcie.perst && r.bit .pcxLcfg 0)) ∧
    (if r.bit .pcxLstat 9 = true then completes (.flr t) s fun u =>
        functionOff u ∧ u.bit .pcxLstat 9 = true ∧ u.bit .pcxLstat 11 = r.bit .pcxLstat 11
      else exec (.flr t) s = .next r) ∧
    (∀ d3, if r.bit .pcxLstat 9 = true ∧ inD3 r ≠ d3 then completes (.dStateChange t d3) s fun u => inD3 u = d3 ∧ u.mem = r.mem
      else exec (.dStateChange t d3) s = .next r) ∧
    completes (.ideIntegrityFailure t) s fun u => u.bit .pcxLstat 11 = false ∧ u.keep.ideSet = none ∧ u.mem = r.mem

/-- CONFIG_REQUEST, BAR0_READ, BAR0_WRITE, BAR2_READ and BAR2_WRITE while the link is up (R489, R491 to R494): a
request that is not served is retried or unsupported and changes nothing else; a served read of a register gives its
word; a write outside the host's mask is recorded and changes no other register; an allowed request of an enabled
aperture reaches the DRAM where the aperture lies. The configuration space is opaque (log entry 33). -/
def Obligations.HostRequests : Prop :=
  ∀ s r t, runsAt s t r → r.bit .pcxLstat 9 = true →
    (∀ op, hostOpen r = false → exec (.configRequest t op) s = .next { r with pcie := { r.pcie with cpl := .retry, data := [] } }) ∧
    (hostOpen r = true →
      (∀ i, completes (.configRequest t (.read i)) s fun u => u.pcie.cpl = .success ∧ u.regs = r.regs ∧
        u.pcie.data = toBytesLE 4 ((kget r.pcie.cfg i).getD (Config.cfgWord i)).toNat) ∧
      (∀ i v, completes (.configRequest t (.write i v)) s fun u => u.pcie.cpl = .success ∧ kget u.pcie.cfg i = some v ∧
        u.mem = r.mem) ∧
      (∀ en fm, completes (.configRequest t (.msix en fm)) s fun u => u.pcie.cpl = .success ∧ u.msixEn = en ∧ u.msixFm = fm ∧
        (en = false → u.msixPend = []) ∧ u.regs = r.regs)) ∧
    (∀ off n be ide, barServed r ide = false →
      exec (.bar0Read t off n be ide) s = .next { r with pcie := { r.pcie with cpl := .unsupported, data := [] } } ∧
      (∀ bs, exec (.bar0Write t off bs be ide) s = .next r) ∧
      exec (.bar2Read t off n ide) s = .next { r with pcie := { r.pcie with cpl := .unsupported, data := [] } } ∧
      ∀ bs, exec (.bar2Write t off bs ide) s = .next r) ∧
    (∀ off ide, barServed r ide = true → r.boot.stage ≠ .recovery → off < 0x2000000 → off % 4 = 0 →
      let q := busRead r (hostBlock r off) off t
      exec (.bar0Read t off 4 true ide) s = .next { q.2 with pcie := { q.2.pcie with cpl := .success, data := toBytesLE 4 q.1.toNat } } ∧
      (∀ v : W32, hostBlock r off = true ∨ hostAlways off = true →
        exec (.bar0Write t off (toBytesLE 4 v.toNat) true ide) s = .next (busWrite r .host off v t)) ∧
      (∀ bs, bs.length = 4 → hostBlock r off = false → hostAlways off = false → completes (.bar0Write t off bs true ide) s fun u =>
        u.bit .pcxGstat 0 = true ∧ u.mem = r.mem ∧
        (r.reg .pcxGstat = 0 → u.reg .pcxGaddr = BitVec.ofNat 32 off) ∧
        ∀ o, o ≠ 0xA0010 → o ≠ 0xA0014 → ¬ (0x10200 ≤ o ∧ o < 0x10280) → kget u.regs o = kget r.regs o)) ∧
    (∀ o ide, barServed r ide = true → r.boot.stage ≠ .recovery → Shaped r → r.memErr = [] →
      let k := o / 0x20000000
      let x := o % 0x20000000
      let a := 0x100000 * r.fld .pcxApBase 27 0 k + x
      let allowed (n : Nat) (write : Bool) := k < 16 ∧ r.bit .pcxApCtl 0 k = true ∧
        x + n ≤ min 0x20000000 (0x100000 * r.fld .pcxApCtl 25 16 k) ∧ r.bit .pcxApCtl (if write then 1 else 2) k = true
      (∀ n, (¬ allowed n false → completes (.bar2Read t o n ide) s fun u =>
          u.pcie.cpl = .unsupported ∧ u.pcie.data = [] ∧ u.bit .pcxGstat 1 = true ∧ u.mem = r.mem) ∧
        (allowed n false → 0 < n → a + n ≤ 0x200000000 → completes (.bar2Read t o n ide) s fun u =>
          u.pcie.cpl = .success ∧ u.pcie.data = memRead r.mem a n ∧ u.mem = r.mem ∧ u.regs = r.regs)) ∧
      (∀ bs, (¬ allowed bs.length true → completes (.bar2Write t o bs ide) s fun u => u.bit .pcxGstat 1 = true ∧ u.mem = r.mem) ∧
        (allowed bs.length true → a + bs.length ≤ 0x200000000 → completes (.bar2Write t o bs ide) s fun u =>
          memRead u.mem a bs.length = bs ∧ u.regs = r.regs ∧
          ∀ b, ¬ (a ≤ b ∧ b < a + bs.length) → memGet u.mem b = memGet r.mem b)))

/-- HOST_RING_ENABLE, HOST_RING_ENTRY_WRITE and HOST_RING_PI_WRITE (R497, R498): enabling zeroes both indices and
leaves the ring enabled exactly when it can be bound to its queue; the oldest item goes to the entry of the producer
index, which moves on by one; the host's producer index is taken on a ring that the host produces for, and on no
other. HOST_READ_COMPLETION and HOST_READ_TIMEOUT (R498, R499, R504): a completion of the oldest read of a ring moves
the consumer index on by its entries; a failed or poisoned one, and a read that waits 50 ms, stop the ring with the
error and leave the index; one that answers no read is logged as unexpected (the classes of the log by log entry 32).
A write of a ring that the host does not produce for is only noted, and one that the BAR does not serve changes
nothing. -/
def Obligations.HostRings : Prop :=
  (∀ s r t j, runsAt s t r → j < 16 →
    (∀ ini (v : W32), reservedIn .pcxHrCfg j (v ||| 0x80000000).toNat = false → kget r.pcie.stopped j ≠ some t →
      completes (.hostRingEnable t ini j v) s fun u =>
        u.reg .pcxHrPi j = 0 ∧ u.reg .pcxHrCi j = 0 ∧ hrQueue u j = fieldOf v 15 0 ∧ hrDir u j = bitOf v.toNat 30 ∧
          hrReads u j = [] ∧
        hrEn u j = hrBinds u j ∧ (hrBinds u j = false → u.fld .pcxHrStat 6 4 j = 1) ∧ u.mem = r.mem) ∧
    (let h := hrQueue r j
     let ready := hrEn r j = true ∧ hrDir r j = false ∧ canMaster r = true ∧ qEn r h = true ∧ qCount r h ≠ 0 ∧
       (hrPi r j + 2 ^ 32 - hrCi r j) % 2 ^ 32 < hrSize r j
     (¬ ready → exec (.hostRingEntryWrite t j) s = .next r) ∧
     (ready → Shaped r → r.memErr = [] → qKind r h = 0 → completes (.hostRingEntryWrite t j) s fun u =>
       u.pcie.posted = (hrAddr r j + 8 * (hrPi r j % hrSize r j),
         BitVec.ofNat 48 (ofBytesLE (memRead r.mem (qStore r h + 8 * qHead r h) 6))) :: r.pcie.posted ∧
       u.reg .pcxHrPi j = r.reg .pcxHrPi j + 1 ∧ qCount u h = qCount r h - 1 ∧
       qHead u h = (qHead r h + 1) % max 1 (qCapacity r h))) ∧
    (∀ v ide, r.bit .pcxLstat 9 = true → barServed r ide = true → r.boot.stage ≠ .recovery →
      if hrDir r j = true then completes (.hostRingPiWrite t j v ide) s fun u => u.reg .pcxHrPi j = v ∧ u.mem = r.mem
      else exec (.hostRingPiWrite t j v ide) s = .next (noted r t .pcxHrPi j)) ∧
    (∀ v ide, r.bit .pcxLstat 9 = false ∨ barServed r ide = false → exec (.hostRingPiWrite t j v ide) s = .next r)) ∧
  (∀ s r t j, runsAt s t r → j < 16 →
    (r.pcie.reads.find? (fun q => decide (q.ring = j)) = none → exec (.hostReadTimeout t j) s = .next r ∧
      ∀ ok ep items, if r.bit .pcxLstat 9 = true then completes (.hostReadCompletion t j ok ep items) s fun u =>
          u.pcie.aer = 4 :: r.pcie.aer ∧ u.mem = r.mem
        else exec (.hostReadCompletion t j ok ep items) s = .next r) ∧
    (∀ q, r.pcie.reads.find? (fun q => decide (q.ring = j)) = some q → q.dead = false →
      let stopped (err : Nat) (u : State) := hrEn u j = false ∧ u.fld .pcxHrStat 6 4 j = err ∧ u.reg .pcxHrCi j = r.reg .pcxHrCi j ∧
        hrReads u j = [] ∧ u.mem = r.mem
      (∀ ep items, completes (.hostReadCompletion t j false ep items) s (stopped 3)) ∧
      (∀ items, completes (.hostReadCompletion t j true true items) s fun u => stopped 4 u ∧ u.pcie.aer = 7 :: r.pcie.aer) ∧
      (∀ items, completes (.hostReadCompletion t j true false items) s fun u =>
        u.reg .pcxHrCi j = BitVec.ofNat 32 (hrCi r j + q.count) ∧ hrEn u j = hrEn r j) ∧
      (if t < q.at' + 76800000 then exec (.hostReadTimeout t j) s = .next r
        else completes (.hostReadTimeout t j) s fun u => stopped 2 u ∧ u.pcie.aer = 5 :: r.pcie.aer ∧ u.bit .runErr 0 = true)))

/-- MSIX_FIRE and MSIX_UNMASK (R500, R501): vector 1024 + n is sent at once, or held pending while it or the function is
masked; an unmasked vector that was held is sent with its own address and data, and is held no longer. -/
def Obligations.MsixVectors : Prop :=
  ∀ s r t, runsAt s t r →
    let msg (v : Nat) := (msixWord r v 0 + 2 ^ 32 * msixWord r v 1, msixWord r v 2)
    (∀ ini (n : W32), n.toNat < 1024 →
      let v := 1024 + n.toNat
      let q := noted r t .pcxMsixFire 0
      if ini ≠ .barista ∨ r.pairWorks = false ∨ r.msixEn = false then exec (.msixFire t ini n) s = .next q
      else if r.msixFm = true ∨ r.pcie.bme = false ∨ bitOf (msixWord r v 3) 0 = true then
        completes (.msixFire t ini n) s fun u => v ∈ u.msixPend ∧ u.msixOut = r.msixOut ∧ u.regs = r.regs ∧ u.mem = r.mem
      else exec (.msixFire t ini n) s = .next { q with msixOut := msg v :: r.msixOut }) ∧
    (∀ v, v < 2048 →
      if r.bit .pcxLstat 9 = true ∧ barServed r true = true then completes (.msixUnmask t v) s fun u =>
        bitOf (msixWord u v 3) 0 = false ∧ u.regs = r.regs ∧ u.mem = r.mem ∧
        (v ∈ r.msixPend → r.msixEn = true → r.msixFm = false → r.pcie.bme = true → v ∉ u.msixPend ∧ msg v ∈ u.msixOut)
      else exec (.msixUnmask t v) s = .next r)

/-! ### Supplies, sleep, clocks, temperature and lands -/

/-- INPUT_OK_CHANGE, INPUT_REVERSED, INPUT_OVERVOLTAGE, INPUT_RECONNECT, VHOLD_LOW, HOLDUP_EXHAUSTED and PG_RELEASE (R511 to
R516): the flags of one input follow the event, and whether the module runs from hold-up follows both inputs; beyond the
ratings there is a fault; exhausted hold-up switches the rails off; PG rises with an input that is ok. -/
def Obligations.Supplies : Prop :=
  ∀ s r t, reach s t = r →
    (∀ (b : Bool) va vb,
      let o (k : Nat) := (if b then 0 else 4) + k
      let flags (ok ov rev : Bool) (u : State) := u.bit .pwrStat (o 1) = ok ∧ u.bit .pwrStat (o 2) = ov ∧
        u.bit .pwrStat (o 3) = rev ∧
        (∀ k, 1 ≤ k → k < 4 → u.bit .pwrStat (4 - o 0 + k) = r.bit .pwrStat (4 - o 0 + k)) ∧
        u.bit .pwrStat 22 = (!u.bit .pwrStat 5 && !u.bit .pwrStat 1) ∧ u.mem = r.mem ∧
        (u.bit .pwrStat 4 = (u.bit .pwrStat 5 && (!u.bit .pwrStat 1 || decide (vb ≤ va + 100)))) ∧
        (u.bit .pwrStat 0 = (u.bit .pwrStat 1 && (!u.bit .pwrStat 5 || decide (va ≤ vb + 100))))
      let ok := r.bit .pwrStat (o 1)
      let ov := r.bit .pwrStat (o 2)
      let rev := r.bit .pwrStat (o 3)
      (∀ ok', completes (.inputOkChange t b ok' va vb) s fun u => flags ok' (ov && !ok') (rev && !ok') u ∧
        u.power.resetOn = (r.power.resetOn || (ok' && !r.power.pg && !r.power.shutdown))) ∧
      (∀ mv, if 60000 < mv then exec (.inputReversed t b mv va vb) s = .fault .beyondRatings
        else completes (.inputReversed t b mv va vb) s (flags false ov true)) ∧
      (if 80000 < (if b then vb else va) then exec (.inputOvervoltage t b va vb) s = .fault .beyondRatings
        else completes (.inputOvervoltage t b va vb) s (flags false true rev)) ∧
      (if ov = true then completes (.inputReconnect t b va vb) s (flags ok false rev) else exec (.inputReconnect t b va vb) s = .next r)) ∧
    (∀ v, completes (.vholdLow t v) s fun u => u.fld .pwrStat 15 8 = v % 256 ∧ u.fld .pwrStat 7 0 = r.fld .pwrStat 7 0 ∧
      u.mem = r.mem) ∧
    (if r.bit .pwrStat 22 = true then completes (.holdupExhausted t) s fun u =>
        u.mem = [] ∧ u.power.pg = false ∧ u.power.resetOn = true ∧ u.fld .pwrStat 26 24 = 4 ∧ u.boot.flash = r.boot.flash
      else exec (.holdupExhausted t) s = .next r) ∧
    exec (.pgRelease t) s = .next (if r.power.shutdown = false ∧ (r.bit .pwrStat 5 = true ∨ r.bit .pwrStat 1 = true) then
      { r with power := { r.power with pg := true } } else r)

/-- MODULE_RESET, SLEEP_REQUEST and WAKE_EVENT (R516 to R520): a reset records its cause, keeps memory (the model's
choice, log entry 17), the flash, the site number and the commands still to come, and leaves every core as after
reset; a request of the active pair with a wake source waits for a tick; an enabled source (which ones there are, log
entry 34) ends Sleep, with the next tick a pour later or more, or drops a request that waits. -/
def Obligations.ResetAndSleep : Prop :=
  ∀ s r t, reach s t = r →
    (∀ why, completes (.moduleReset t why) s fun u =>
      u.power.resetOn = true ∧ u.power.asleep = none ∧ u.fld .pwrStat 26 24 = why % 8 ∧ u.mem = r.mem ∧
        u.boot.flash = r.boot.flash ∧ u.site = r.site ∧
      u.pending = r.pending ∧ u.cores = List.replicate 68 Core.reset ∧ u.baristas = List.replicate 2 Core.reset ∧
      u.map = (List.range 64).map some ∧ u.fld .pwrStat 7 0 = r.fld .pwrStat 7 0 ∧ u.reg .rkpOtp = r.reg .rkpOtp) ∧
    (r.power.asleep = none → ∀ ini, exec (.sleepRequest t ini) s = .next (
      if ini = .barista ∧ r.pairWorks = true ∧ r.reg .pwrWake ≠ 0 ∧ r.power.sleepReq = none then
        { noted r t .pwrSleep 0 with power := { r.power with sleepReq := some t } } else noted r t .pwrSleep 0)) ∧
    (∀ b, (12 ≤ b ∨ r.bit .pwrWake b = false → exec (.wakeEvent t b) s = .next r) ∧
      (b < 12 → r.bit .pwrWake b = true →
        (r.power.asleep = none → exec (.wakeEvent t b) s = .next { r with power := { r.power with sleepReq := none } }) ∧
        (∀ e, r.power.asleep = some e → completes (.wakeEvent t b) s fun u =>
          u.power = { r.power with asleep := none } ∧ u.tickMin = some (t + r.pourLen) ∧ u.mem = r.mem ∧
          u.pairs.wdogAt = r.pairs.wdogAt.map (fun w => w + (t - (e + 1))))))

/-- The reference clocks, RING_TIME_LOST and the temperature commands (R38, R42, R522, R525): a reference's flag
follows its loss and return, and no other bit changes; a loss of ring time is noted, and in the cycle after it the
tick source becomes Holdover, with no step of the NTC, and the device an island; the hot flag comes at 105 °C and goes
below 100 °C; at 120 °C the module shuts down, and below 100 °C it may start again. -/
def Obligations.ClocksAndHeat : Prop :=
  ∀ s r t, reach s t = r →
    (∀ c bit v, (c, bit, v) ∈ [(Instr.refaLost t, 19, true), (.refaReturn t, 19, false), (.refbLost t, 20, true), (.refbReturn t, 20, false)] →
      if r.bit .pwrStat bit = v then exec c s = .next r
      else completes c s fun u => u.bit .pwrStat bit = v ∧ (∀ b, b < 32 → b ≠ bit → u.bit .pwrStat b = r.bit .pwrStat b) ∧
        u.mem = r.mem) ∧
    (r.power.asleep = none → exec (.ringTimeLost t) s = .next (
      if tickSource r = 1 ∨ tickSource r = 3 then { r with lossAt := some t } else r)) ∧
    (tickSource r = 1 ∨ tickSource r = 3 → let u := holdover r (t + 1)
      tickSource u = 2 ∧ u.stretchOff = none ∧ u.lossAt = none ∧ u.ntc = r.ntc ∧ u.lastTick = r.lastTick ∧ u.mem = r.mem ∧
      (Shaped r → ∀ q, q < 2 → pairOn r q = true → (u.rpair q).island = true)) ∧
    (∀ m a, completes (.temperatureUpdate t m a) s fun u =>
      let v := (BitVec.ofNat 10 m).toInt
      u.fld .pwrTemp 25 16 = m % 1024 ∧ u.fld .pwrTemp 9 0 = a % 1024 ∧ u.mem = r.mem ∧
      u.bit .pwrStat 21 = if 420 ≤ v then true else if v < 400 then false else r.bit .pwrStat 21) ∧
    (if 480 ≤ tmain r then completes (.thermalShutdown t) s fun u =>
        u.power.shutdown = true ∧ u.power.pg = false ∧ u.power.resetOn = true ∧ u.fld .pwrStat 26 24 = 2 ∧ u.mem = []
      else exec (.thermalShutdown t) s = .next r) ∧
    exec (.thermalRestart t) s = .next (if tmain r < 400 then { r with power := { r.power with shutdown := false } } else r)

/-- LAND_SWITCH_OPEN, LAND_SWITCH_CLOSE, LAND_FAULT and OPEN_INPUT_TEST (R507 to R510): the first land fault is recorded with
its row, column and kind while no record is valid; kinds 2 and 3 open the switch, and a switch that closes opens no other; a
land that has no switch, or no fault of the kind, takes nothing. -/
def Obligations.Lands : Prop :=
  ∀ s r t, reach s t = r →
    let recorded (row col kind : Nat) (u : State) := u.bit .pwrLf 0 = true ∧ u.mem = r.mem ∧
      (r.bit .pwrLf 0 = false → u.fld .pwrLf 31 26 = row ∧ u.fld .pwrLf 25 20 = col ∧ u.fld .pwrLf 19 16 = kind)
    (∀ row col low, if landSwitched row col = true then completes (.landSwitchOpen t row col low) s fun u =>
        recorded row col (if low then 3 else 2) u ∧ landOpen u row col = true
      else exec (.landSwitchOpen t row col low) s = .next r) ∧
    (∀ row col level, if landOpen r row col = true then completes (.landSwitchClose t row col level) s fun u =>
        landOpen u row col = false ∧ u.mem = r.mem ∧
        ∀ k, k ≠ landKey row col → u.power.openLands.contains k = r.power.openLands.contains k
      else exec (.landSwitchClose t row col level) s = .next r) ∧
    (∀ row col kind, if faultFits row col kind = true then completes (.landFault t row col kind) s fun u =>
        recorded row col kind u ∧
        if kind = 2 ∨ kind = 3 then landOpen u row col = true else u.power.openLands = r.power.openLands
      else exec (.landFault t row col kind) s = .next r) ∧
    (∀ lands : List (Nat × Nat), match lands.filter (fun x => decide (landClass x.1 x.2 = .io33) && landIsInput r x.1 x.2) with
      | [] => exec (.openInputTest t lands) s = .next r
      | x :: _ => completes (.openInputTest t lands) s fun u => recorded x.1 x.2 4 u ∧ u.power.openLands = r.power.openLands)

/-! ### The block as a machine -/

/-- A step takes the command at the front of the queue and runs it with the queue's rest, which no command changes. With an
empty queue a cycle passes, or none while module reset is asserted (the model's choice, log entry 1); a command that names
nothing the block has only lets time reach its stamp (the model's choice, log entry 18). -/
def Obligations.StepTakesFront : Prop :=
  ∀ s : State,
    (∀ c rest, s.pending = c :: rest → step s = exec c { s with pending := rest }) ∧
    (∀ c u, exec c s = .next u → u.pending = s.pending) ∧
    (s.pending = [] → step s = .next (if s.power.resetOn = true then s else { s with ntc := s.ntc + 1 })) ∧
    (∀ c t, wellFormed c = false → c.stamp = some t → (reach s t).power.asleep = none → exec c s = .next (reach s t))

/-- What reset leaves (R28, R36, R69, R83, R212, R254, R414, R438, and the reset columns of TMR_POUR_CFG, BAR_WINw and the ORL
registers): the counter, the pour configuration, the map and the windows at the values the spec gives; every core in core
reset, in supervisor mode, at base level and held; nothing pending; the shape and the memory in the form that every step
keeps. -/
def Obligations.ResetState : Prop :=
  let s := State.reset
  Shaped s ∧ s.pending = [] ∧ s.mem = [] ∧ s.ntc = 0 ∧ s.lastTick = none ∧ s.tamped = false ∧
  (∀ l, l < 64 → s.physOf l = some l) ∧ s.pourLen = 32000 / 2 * 4 ∧ s.pourSize = 4 ∧
  (∀ w, selValid w = true → (s.core w).phase = .inReset ∧ (s.core w).user = false ∧ (s.core w).level = 31 ∧ (s.core w).hold = true ∧
    (s.core w).p = 1 ∧ (s.core w).rstack = [] ∧ (s.core w).stbuf = [] ∧ (s.core w).tsbr = 0x0007FB00) ∧
  (∀ j, j < 8 → (s.reg .barWin j).toNat = [0x200, 0x300, 0x100, 0x110, 0, 1, 2, 3].getD j 0) ∧
  (∀ k, k < 32 → s.reg .orlMask k = 0xFFFFFFFF ∧ s.reg .orlPend k = 0 ∧ s.reg .orlInsvc k = 0) ∧
  (∀ n, n < 264 → chanArmed s n = false ∧ (s.chan n).count = 0)

/-- Every command that ends in a next state leaves the device with as many of each thing as it has, and memory in its
canonical form: one entry for each address, addresses rising, and no entry for a byte that reads as an unlisted one. -/
def Obligations.ShapeKept : Prop :=
  ∀ s u, Shaped s → step s = .next u → Shaped u
end

