-- ==== Sys2Proof/Laws/Registers.lean ====
section
/-! SUPPORT. What a write of a register with no RWB field comes to, and which registers hold what. -/

namespace Sys2Proof.Machine

/-- Whether a register has no RWB field. -/
def plainReg (n : RegName) : Bool := (regRow n).fields.all fun f => f.acc != .rwb

theorem planField_plain {old v hw old' hw' : Nat} {o tamp o' tamp' : Bool} {p q : Plan} {f : Field} (hf : f.acc ≠ .rwb)
    (hr : p.rsvd = q.rsvd) :
    (planField old v hw o tamp p f).rsvd = (planField old' v hw' o' tamp' q f).rsvd ∧
      (planField old v hw o tamp p f).viol = p.viol ∧ (planField old v hw o tamp p f).rwb = p.rwb := by
  obtain ⟨hi, lo, acc, rst, legal⟩ := f
  cases acc <;> simp_all [planField]

theorem planFold_plain {old v hw old' hw' : Nat} {o tamp o' tamp' : Bool} (l : List Field) (hl : ∀ f ∈ l, f.acc ≠ .rwb) :
    ∀ p q : Plan, p.rsvd = q.rsvd →
    (l.foldl (planField old v hw o tamp) p).rsvd = (l.foldl (planField old' v hw' o' tamp') q).rsvd ∧
      (l.foldl (planField old v hw o tamp) p).viol = p.viol ∧ (l.foldl (planField old v hw o tamp) p).rwb = p.rwb := by
  induction l with
  | nil => exact fun p q h => ⟨h, rfl, rfl⟩
  | cons f l ih =>
    intro p q h
    have h1 := planField_plain (old := old) (v := v) (hw := hw) (old' := old') (hw' := hw') (o := o) (tamp := tamp)
      (o' := o') (tamp' := tamp') (hl f (by simp)) h
    have h2 := ih (fun g hg => hl g (List.mem_cons_of_mem _ hg)) _ _ h1.1
    exact ⟨h2.1, h2.2.1.trans h1.2.1, h2.2.2.trans h1.2.2⟩

theorem planWrite_plain {n : RegName} {i old v hw : Nat} {o : Bool} (hn : plainReg n = true) :
    (planWrite n i old v hw o).rsvd = reservedIn n i v ∧ (planWrite n i old v hw o).viol = false ∧
      (planWrite n i old v hw o).rwb = old := by
  have hl : ∀ f ∈ (regRow n).fields.filter (fun f => !fixedField n i f), f.acc ≠ .rwb := by
    intro f hf
    have := List.all_eq_true.mp hn f (List.mem_of_mem_filter hf)
    simpa using this
  have h := planFold_plain (old := old) (v := v) (hw := hw) (old' := 0) (hw' := 0) (o := o) (tamp := n == .sysTamp)
    (o' := false) (tamp' := n == .sysTamp) _ hl
    { word := old, rwb := old, rsvd := decide (fieldBits n v ≠ v % 2 ^ 32) || !wordLegal n v || (n == .sysCfail && i == 2 && decide (16 ≤ v))
      viol := false }
    { word := 0, rwb := 0, rsvd := decide (fieldBits n v ≠ v % 2 ^ 32) || !wordLegal n v || (n == .sysCfail && i == 2 && decide (16 ≤ v))
      viol := false } rfl
  exact h

/-- The mask of a register with no RWB field is empty, so its RWB word does not count. -/
theorem mergeRwb_plain {n : RegName} (word rwb : Nat) (hm : accMask n (fun a => a == .rwb) = 0) :
    mergeRwb n word rwb = BitVec.ofNat 32 word := by
  simp [mergeRwb, hm]

/-- A write of a register with no RWB field and no reserved value stores what the access codes make of the word (R8, R13). -/
theorem busWrite_plain {s : State} {ini : Ini} {n : RegName} {i j : Nat} {v : W32} {t : Nat}
    (hl : lookupReg (regOff n i j) = some (n, i, j)) (hb : blockHeld s (regOff n i j) = false) (hn : plainReg n = true)
    (hm : accMask n (fun a => a == .rwb) = 0) (hr : reservedIn n i v.toNat = false) :
    busWrite s ini (regOff n i j) v t = regStore (s.noteReg t (regOff n i j) (s.reg n i j)) ini n i j (cleanWord n v.toNat)
      (BitVec.ofNat 32 (planWrite n i (regView s n i j t).toNat v.toNat (s.hwBits t (regOff n i j)) (rwbOpen s ini n)).word)
      t := by
  have h := planWrite_plain (n := n) (i := i) (old := (regView s n i j t).toNat) (v := v.toNat)
    (hw := s.hwBits t (regOff n i j)) (o := rwbOpen s ini n) hn
  simp only [busWrite, hb, hl, h.1, h.2.1, h.2.2, hr, mergeRwb_plain _ _ hm]
  simp

/-- The same for the write that a command makes of instance i. -/
theorem regPut_plain {s : State} {ini : Ini} {n : RegName} {i : Nat} {v : W32} {t : Nat} (hi : i < (regRow n).n1)
    (hl : lookupReg (regOff n i 0) = some (n, i, 0)) (hb : blockHeld s (regOff n i 0) = false) (hn : plainReg n = true)
    (hm : accMask n (fun a => a == .rwb) = 0) (hr : reservedIn n i v.toNat = false) :
    regPut s ini n i v t = regStore (s.noteReg t (regOff n i 0) (s.reg n i 0)) ini n i 0 (cleanWord n v.toNat)
      (BitVec.ofNat 32 (planWrite n i (regView s n i 0 t).toNat v.toNat (s.hwBits t (regOff n i 0)) (rwbOpen s ini n)).word)
      t := by
  rw [regPut, if_pos hi, busWrite_plain hl hb hn hm hr]

/-- No takeover holds an offset outside the CORE blocks. -/
theorem blockHeld_low (s : State) {off : Nat} (h : off < 0x400000) : blockHeld s off = false := by
  have : ¬ 0x400000 ≤ off := by omega
  simp [blockHeld, this]

/-- A register whose fields all take the written word, in every instance. -/
def wordReg (n : RegName) : Bool :=
  (regRow n).fields.all fun f => f.acc == .rw || f.acc == .wo

theorem planField_legal {old v hw : Nat} {o tamp : Bool} {p : Plan} {f : Field} (hf : f.acc = .rw ∨ f.acc = .wo) :
    (planField old v hw o tamp p f).rsvd = (p.rsvd || !fieldLegal f (bitsOf v f.lo (f.hi + 1 - f.lo))) := by
  obtain ⟨hi, lo, acc, rst, legal⟩ := f
  rcases hf with rfl | rfl <;> simp [planField]

theorem planFold_legal {old v hw : Nat} {o tamp : Bool} (l : List Field) (hl : ∀ f ∈ l, f.acc = .rw ∨ f.acc = .wo) :
    ∀ p : Plan, (l.foldl (planField old v hw o tamp) p).rsvd = false →
      p.rsvd = false ∧ ∀ f ∈ l, fieldLegal f (bitsOf v f.lo (f.hi + 1 - f.lo)) = true := by
  induction l with
  | nil => exact fun p h => ⟨h, by simp⟩
  | cons f l ih =>
    intro p h
    have h1 := ih (fun g hg => hl g (List.mem_cons_of_mem _ hg)) _ h
    rw [planField_legal (hl f (by simp))] at h1
    simp only [Bool.or_eq_false_iff, Bool.not_eq_false'] at h1
    exact ⟨h1.1.1, by simpa using ⟨h1.1.2, h1.2⟩⟩

theorem cleanFold_legal (v : Nat) (l : List Field) (hl : ∀ f ∈ l, fieldLegal f (bitsOf v f.lo (f.hi + 1 - f.lo)) = true) :
    ∀ a : Nat, l.foldl (fun a f =>
      let w := bitsOf v f.lo (f.hi + 1 - f.lo)
      a + (if fieldLegal f w then w else f.rst) * 2 ^ f.lo) a =
      l.foldl (fun a f => a + bitsOf v f.lo (f.hi + 1 - f.lo) * 2 ^ f.lo) a := by
  induction l with
  | nil => exact fun _ => rfl
  | cons f l ih =>
    intro a
    have h1 : fieldLegal f (bitsOf v f.lo (f.hi + 1 - f.lo)) = true := hl f (by simp)
    simp only [List.foldl_cons, h1, if_true]
    exact ih (fun g hg => hl g (List.mem_cons_of_mem _ hg)) _

/-- A written word with no reserved bit and no reserved value is taken as it is (R12, R13). -/
theorem cleanWord_legal {n : RegName} {i : Nat} {v : W32} (hn : wordReg n = true)
    (hf : (regRow n).fields.filter (fun f => !fixedField n i f) = (regRow n).fields)
    (hr : reservedIn n i v.toNat = false) : cleanWord n v.toNat = v := by
  have hl : ∀ f ∈ (regRow n).fields, f.acc = .rw ∨ f.acc = .wo := by
    intro f hm
    simpa using List.all_eq_true.mp hn f hm
  have h := hr
  simp only [reservedIn, planWrite, hf] at h
  have h1 := planFold_legal _ hl _ h
  have h2 := h1.1
  simp only [Bool.or_eq_false_iff, decide_eq_false_iff_not, not_not, Bool.not_eq_false'] at h2
  have h3 : legalWord n v.toNat = v.toNat := by simp [legalWord, h2.1.2]
  simp only [cleanWord, h3]
  rw [cleanFold_legal _ _ h1.2]
  have h4 := h2.1.1
  unfold fieldBits at h4
  rw [h4, Nat.mod_eq_of_lt v.isLt]
  simp

/-- A write, that a command makes, of a register whose fields all take the written word (R8): what it stores, and that it is
not recorded. -/
theorem regPut_legal {s : State} {ini : Ini} {n : RegName} {i : Nat} {v : W32} {t : Nat} (hi : i < (regRow n).n1)
    (hl : lookupReg (regOff n i 0) = some (n, i, 0)) (ho : regOff n i 0 < 0x400000) (hn : wordReg n = true)
    (hf : (regRow n).fields.filter (fun f => !fixedField n i f) = (regRow n).fields)
    (hr : reservedIn n i v.toNat = false) : ∃ w, regPut s ini n i v t = regStore (s.noteReg t (regOff n i 0) (s.reg n i 0)) ini n i 0 v w t := by
  have hp : plainReg n = true := by
    simp only [plainReg, wordReg, List.all_eq_true] at *
    intro f hm
    rcases by simpa using hn f hm with h | h <;> simp [h]
  have hm : accMask n (fun a => a == .rwb) = 0 := by
    have : ∀ l : List Field, (∀ f ∈ l, f.acc ≠ .rwb) → ∀ a : Nat, l.foldl (fun a x =>
        if (fun a => a == Acc.rwb) x.acc then a + (2 ^ (x.hi + 1 - x.lo) - 1) * 2 ^ x.lo else a) a = a := by
      intro l
      induction l with
      | nil => exact fun _ _ => rfl
      | cons f l ih =>
        intro h a
        have h1 : (f.acc == Acc.rwb) = false := by simpa using h f (by simp)
        simp only [List.foldl_cons, h1]
        exact ih (fun g hg => h g (List.mem_cons_of_mem _ hg)) a
    exact this _ (fun f hm => by simpa using List.all_eq_true.mp hp f hm) 0
  have h := regPut_plain (s := s) (ini := ini) (t := t) hi hl (blockHeld_low _ ho) hp hm hr
  rw [cleanWord_legal hn hf hr] at h
  exact ⟨_, h⟩

end Sys2Proof.Machine
end

