-- ==== Sys2Proof/Laws/Commands.lean ====
section
/-! SUPPORT. What a command that writes a command register comes to: the operation of that register. -/

namespace Sys2Proof.Machine

/-- A command of the core clock finds the state that time leaves. -/
theorem awake_runs {s r : State} {t : Nat} (h : runsAt s t r) (f : State → State) : awake s t f = f r := by
  obtain ⟨rfl, h2⟩ := h
  simp [awake, h2]

/-- A command that Sleep does not stop finds the same state. -/
theorem now_runs {s r : State} {t : Nat} (h : runsAt s t r) (f : State → State) : now s t f = f r := by
  rw [now, h.1]

/-- An index below the bound takes the effect. -/
theorem upTo_lt {n i : Nat} (h : i < n) (s : State) (f : State → State) : upTo n i s f = f s := if_pos h

/-- A core of the device takes the effect. -/
theorem onCore_valid {w : CoreSel} (h : selValid w = true) (s : State) (f : State → State) : onCore w s f = f s := if_pos h

/-- A write of TMR_CTLn with no reserved bit or value. -/
theorem put_tmrCtl {s : State} {ini : Ini} {i : Nat} {v : W32} {t : Nat} (hi : i < 128) (hr : reservedIn .tmrCtl i v.toNat = false) :
    regPut s ini .tmrCtl i v t = ctlWrite (noted s t .tmrCtl i) i v t := by
  have hl : ∀ k < 128, lookupReg (regOff .tmrCtl k 0) = some (.tmrCtl, k, 0) := by decide
  obtain ⟨w, h⟩ := regPut_legal (s := s) (ini := ini) (t := t) (n := .tmrCtl) hi (hl i hi)
    (by simp [regOff, regRow]; omega) (by decide) rfl hr
  exact h

/-- A write of TMR_PCTL with no reserved bit or value. -/
theorem put_tmrPctl {s : State} {ini : Ini} {i : Nat} {v : W32} {t : Nat} (hi : i < 136) (hr : reservedIn .tmrPctl i v.toNat = false) :
    regPut s ini .tmrPctl i v t = ctlWrite (noted s t .tmrPctl i) (128 + i) v t := by
  have hl : ∀ k < 136, lookupReg (regOff .tmrPctl k 0) = some (.tmrPctl, k, 0) := by decide
  obtain ⟨w, h⟩ := regPut_legal (s := s) (ini := ini) (t := t) (n := .tmrPctl) hi (hl i hi)
    (by simp [regOff, regRow]; omega) (by decide) rfl hr
  exact h

/-- A write of TMR_CMPLn with no reserved bit or value. -/
theorem put_tmrCmpl {s : State} {ini : Ini} {i : Nat} {v : W32} {t : Nat} (hi : i < 128) :
    regPut s ini .tmrCmpl i v t = stageCompare (noted s t .tmrCmpl i) i v := by
  have hl : ∀ k < 128, lookupReg (regOff .tmrCmpl k 0) = some (.tmrCmpl, k, 0) := by decide
  have hr : reservedIn .tmrCmpl i v.toNat = false := by
    have := v.isLt
    simp [reservedIn, planWrite, planField, regRow, fd, fieldBits, bitsOf, Nat.shiftRight_eq_div_pow, wordLegal, fieldLegal, fixedField]
  obtain ⟨w, h⟩ := regPut_legal (s := s) (ini := ini) (t := t) (n := .tmrCmpl) hi (hl i hi)
    (by simp [regOff, regRow]; omega) (by decide) rfl hr
  exact h

/-- A write of TMR_PCMPL with no reserved bit or value. -/
theorem put_tmrPcmpl {s : State} {ini : Ini} {i : Nat} {v : W32} {t : Nat} (hi : i < 136) :
    regPut s ini .tmrPcmpl i v t = stageCompare (noted s t .tmrPcmpl i) (128 + i) v := by
  have hl : ∀ k < 136, lookupReg (regOff .tmrPcmpl k 0) = some (.tmrPcmpl, k, 0) := by decide
  have hr : reservedIn .tmrPcmpl i v.toNat = false := by
    have := v.isLt
    simp [reservedIn, planWrite, planField, regRow, fd, fieldBits, bitsOf, Nat.shiftRight_eq_div_pow, wordLegal, fieldLegal, fixedField]
  obtain ⟨w, h⟩ := regPut_legal (s := s) (ini := ini) (t := t) (n := .tmrPcmpl) hi (hl i hi)
    (by simp [regOff, regRow]; omega) (by decide) rfl hr
  exact h

/-- A write of TMR_CMPHn with no reserved bit or value. -/
theorem put_tmrCmph {s : State} {ini : Ini} {i : Nat} {v : W32} {t : Nat} (hi : i < 128) (hr : reservedIn .tmrCmph i v.toNat = false) :
    regPut s ini .tmrCmph i v t = commitCompare (noted s t .tmrCmph i) i v t := by
  have hl : ∀ k < 128, lookupReg (regOff .tmrCmph k 0) = some (.tmrCmph, k, 0) := by decide
  obtain ⟨w, h⟩ := regPut_legal (s := s) (ini := ini) (t := t) (n := .tmrCmph) hi (hl i hi)
    (by simp [regOff, regRow]; omega) (by decide) rfl hr
  exact h

/-- A write of TMR_PCMPH with no reserved bit or value. -/
theorem put_tmrPcmph {s : State} {ini : Ini} {i : Nat} {v : W32} {t : Nat} (hi : i < 136) (hr : reservedIn .tmrPcmph i v.toNat = false) :
    regPut s ini .tmrPcmph i v t = commitCompare (noted s t .tmrPcmph i) (128 + i) v t := by
  have hl : ∀ k < 136, lookupReg (regOff .tmrPcmph k 0) = some (.tmrPcmph, k, 0) := by decide
  obtain ⟨w, h⟩ := regPut_legal (s := s) (ini := ini) (t := t) (n := .tmrPcmph) hi (hl i hi)
    (by simp [regOff, regRow]; omega) (by decide) rfl hr
  exact h

/-- A write of TMR_GSTART with no reserved bit or value. -/
theorem put_tmrGstart {s : State} {ini : Ini} {v : W32} {t : Nat} (hr : reservedIn .tmrGstart 0 v.toNat = false) :
    regPut s ini .tmrGstart 0 v t = startGroups (noted s t .tmrGstart 0) v t := by
  have hl : lookupReg (regOff .tmrGstart 0 0) = some (.tmrGstart, 0, 0) := by decide
  obtain ⟨w, h⟩ := regPut_legal (s := s) (ini := ini) (t := t) (n := .tmrGstart) (by decide) hl (by decide) (by decide) rfl hr
  exact h

/-- A write of TMR_SNAP_CMD with no reserved bit or value. -/
theorem put_tmrSnapCmd {s : State} {ini : Ini} {v : W32} {t : Nat} (hr : reservedIn .tmrSnapCmd 0 v.toNat = false) :
    regPut s ini .tmrSnapCmd 0 v t = snapshot (noted s t .tmrSnapCmd 0) (iniNum ini) (fieldOf v 9 8) (fieldOf v 7 0) t := by
  have hl : lookupReg (regOff .tmrSnapCmd 0 0) = some (.tmrSnapCmd, 0, 0) := by decide
  obtain ⟨w, h⟩ := regPut_legal (s := s) (ini := ini) (t := t) (n := .tmrSnapCmd) (by decide) hl (by decide) (by decide) rfl hr
  exact h

/-- A write of RUN_IOP with no reserved bit or value. -/
theorem put_runIop {s : State} {ini : Ini} {i : Nat} {v : W32} {t : Nat} (hi : i < 2) (hr : reservedIn .runIop i v.toNat = false) :
    regPut s ini .runIop i v t =
      if bitOf v.toNat 31 then initReceive (noted s t .runIop i) i (fieldOf v 15 0) else initSend (noted s t .runIop i) i (fieldOf v 15 0) t := by
  have hl : ∀ k < 2, lookupReg (regOff .runIop k 0) = some (.runIop, k, 0) := by decide
  obtain ⟨w, h⟩ := regPut_legal (s := s) (ini := ini) (t := t) (n := .runIop) hi (hl i hi)
    (by simp [regOff, regRow]; omega) (by decide) rfl hr
  exact h

/-- A write of ZWR_CTX_CMD with no reserved bit or value. -/
theorem put_zwrCtxCmd {s : State} {ini : Ini} {v : W32} {t : Nat} (hr : reservedIn .zwrCtxCmd 0 v.toNat = false) :
    regPut s ini .zwrCtxCmd 0 v t = controlTransmit (noted s t .zwrCtxCmd 0) v t := by
  have hl : lookupReg (regOff .zwrCtxCmd 0 0) = some (.zwrCtxCmd, 0, 0) := by decide
  obtain ⟨w, h⟩ := regPut_legal (s := s) (ini := ini) (t := t) (n := .zwrCtxCmd) (by decide) hl (by decide) (by decide) rfl hr
  exact h

/-- A write of CRM_CMD with no reserved bit or value. -/
theorem put_crmCmd {s : State} {ini : Ini} {v : W32} {t : Nat} (hr : reservedIn .crmCmd 0 v.toNat = false) :
    regPut s ini .crmCmd 0 v t = crmCommand (noted s t .crmCmd 0) (fieldOf v 31 28) (fieldOf v 10 8) (fieldOf v 4 0) t := by
  have hl : lookupReg (regOff .crmCmd 0 0) = some (.crmCmd, 0, 0) := by decide
  obtain ⟨w, h⟩ := regPut_legal (s := s) (ini := ini) (t := t) (n := .crmCmd) (by decide) hl (by decide) (by decide) rfl hr
  exact h

/-- A write of CAR_FLIP_CMD with no reserved bit or value. -/
theorem put_carFlipCmd {s : State} {ini : Ini} {v : W32} {t : Nat} (hr : reservedIn .carFlipCmd 0 v.toNat = false) :
    regPut s ini .carFlipCmd 0 v t = flipRequest (noted s t .carFlipCmd 0) v t := by
  have hl : lookupReg (regOff .carFlipCmd 0 0) = some (.carFlipCmd, 0, 0) := by decide
  obtain ⟨w, h⟩ := regPut_legal (s := s) (ini := ini) (t := t) (n := .carFlipCmd) (by decide) hl (by decide) (by decide) rfl hr
  exact h

/-- A write of CAR_PLACE_CMD with no reserved bit or value. -/
theorem put_carPlaceCmd {s : State} {ini : Ini} {v : W32} {t : Nat} (hr : reservedIn .carPlaceCmd 0 v.toNat = false) :
    regPut s ini .carPlaceCmd 0 v t = placeRequest (noted s t .carPlaceCmd 0) v t := by
  have hl : lookupReg (regOff .carPlaceCmd 0 0) = some (.carPlaceCmd, 0, 0) := by decide
  obtain ⟨w, h⟩ := regPut_legal (s := s) (ini := ini) (t := t) (n := .carPlaceCmd) (by decide) hl (by decide) (by decide) rfl hr
  exact h

/-- A write of BAR_WDOG_SVC with no reserved bit or value. -/
theorem put_barWdogSvc {s : State} {ini : Ini} {v : W32} {t : Nat} (hr : reservedIn .barWdogSvc 0 v.toNat = false) :
    regPut s ini .barWdogSvc 0 v t = wdogService (noted s t .barWdogSvc 0) ini v t := by
  have hl : lookupReg (regOff .barWdogSvc 0 0) = some (.barWdogSvc, 0, 0) := by decide
  obtain ⟨w, h⟩ := regPut_legal (s := s) (ini := ini) (t := t) (n := .barWdogSvc) (by decide) hl (by decide) (by decide) rfl hr
  exact h

/-- A write of BAR_WARM with no reserved bit or value. -/
theorem put_barWarm {s : State} {ini : Ini} {v : W32} {t : Nat} (hr : reservedIn .barWarm 0 v.toNat = false) :
    regPut s ini .barWarm 0 v t = warmWrite (noted s t .barWarm 0) ini v t := by
  have hl : lookupReg (regOff .barWarm 0 0) = some (.barWarm, 0, 0) := by decide
  obtain ⟨w, h⟩ := regPut_legal (s := s) (ini := ini) (t := t) (n := .barWarm) (by decide) hl (by decide) (by decide) rfl hr
  exact h

/-- A write of BAR_BOOT_CMD with no reserved bit or value. -/
theorem put_barBootCmd {s : State} {ini : Ini} {v : W32} {t : Nat} (hr : reservedIn .barBootCmd 0 v.toNat = false) :
    regPut s ini .barBootCmd 0 v t = markWrite (noted s t .barBootCmd 0) ini v := by
  have hl : lookupReg (regOff .barBootCmd 0 0) = some (.barBootCmd, 0, 0) := by decide
  obtain ⟨w, h⟩ := regPut_legal (s := s) (ini := ini) (t := t) (n := .barBootCmd) (by decide) hl (by decide) (by decide) rfl hr
  exact h

/-- A write of BAR_CMD with no reserved bit or value. -/
theorem put_barCmd {s : State} {ini : Ini} {v : W32} {t : Nat} (hr : reservedIn .barCmd 0 v.toNat = false) :
    regPut s ini .barCmd 0 v t = restoreWrite (noted s t .barCmd 0) ini v t := by
  have hl : lookupReg (regOff .barCmd 0 0) = some (.barCmd, 0, 0) := by decide
  obtain ⟨w, h⟩ := regPut_legal (s := s) (ini := ini) (t := t) (n := .barCmd) (by decide) hl (by decide) (by decide) rfl hr
  exact h

/-- A write of RKP_CMD with no reserved bit or value. -/
theorem put_rkpCmd {s : State} {ini : Ini} {i : Nat} {v : W32} {t : Nat} (hi : i < 3) (hr : reservedIn .rkpCmd i v.toNat = false) :
    regPut s ini .rkpCmd i v t = keepStart (noted s t .rkpCmd i) i (fieldOf v 31 24) (fieldOf v 15 0) t := by
  have hl : ∀ k < 3, lookupReg (regOff .rkpCmd k 0) = some (.rkpCmd, k, 0) := by decide
  obtain ⟨w, h⟩ := regPut_legal (s := s) (ini := ini) (t := t) (n := .rkpCmd) hi (hl i hi)
    (by simp [regOff, regRow]; omega) (by decide) rfl hr
  exact h

/-- A write of PCX_MSIX_FIRE with no reserved bit or value. -/
theorem put_pcxMsixFire {s : State} {ini : Ini} {v : W32} {t : Nat} (hr : reservedIn .pcxMsixFire 0 v.toNat = false) :
    regPut s ini .pcxMsixFire 0 v t = msixFire (noted s t .pcxMsixFire 0) ini v := by
  have hl : lookupReg (regOff .pcxMsixFire 0 0) = some (.pcxMsixFire, 0, 0) := by decide
  obtain ⟨w, h⟩ := regPut_legal (s := s) (ini := ini) (t := t) (n := .pcxMsixFire) (by decide) hl (by decide) (by decide) rfl hr
  exact h

/-- A write of PWR_SLEEP with no reserved bit or value. -/
theorem put_pwrSleep {s : State} {ini : Ini} {v : W32} {t : Nat} (hr : reservedIn .pwrSleep 0 v.toNat = false) :
    regPut s ini .pwrSleep 0 v t = sleepWrite (noted s t .pwrSleep 0) ini v t := by
  have hl : lookupReg (regOff .pwrSleep 0 0) = some (.pwrSleep, 0, 0) := by decide
  obtain ⟨w, h⟩ := regPut_legal (s := s) (ini := ini) (t := t) (n := .pwrSleep) (by decide) hl (by decide) (by decide) rfl hr
  exact h

/-- A write of SYS_SPARE_CMD with no reserved bit or value. -/
theorem put_sysSpareCmd {s : State} {ini : Ini} {v : W32} {t : Nat} (hr : reservedIn .sysSpareCmd 0 v.toNat = false) :
    regPut s ini .sysSpareCmd 0 v t = spareWrite (noted s t .sysSpareCmd 0) ini v t := by
  have hl : lookupReg (regOff .sysSpareCmd 0 0) = some (.sysSpareCmd, 0, 0) := by decide
  obtain ⟨w, h⟩ := regPut_legal (s := s) (ini := ini) (t := t) (n := .sysSpareCmd) (by decide) hl (by decide) (by decide) rfl hr
  exact h

/-- A write of ORL_PENDk with no reserved bit or value. -/
theorem put_orlPend {s : State} {ini : Ini} {i : Nat} {v : W32} {t : Nat} (hi : i < 32) :
    regPut s ini .orlPend i v t = pendWrite (noted s t .orlPend i) i v t := by
  have hl : ∀ k < 32, lookupReg (regOff .orlPend k 0) = some (.orlPend, k, 0) := by decide
  have hr : reservedIn .orlPend i v.toNat = false := by
    have := v.isLt
    simp [reservedIn, planWrite, planField, regRow, fd, fieldBits, bitsOf, Nat.shiftRight_eq_div_pow, wordLegal, fieldLegal, fixedField]
  obtain ⟨w, h⟩ := regPut_legal (s := s) (ini := ini) (t := t) (n := .orlPend) hi (hl i hi)
    (by simp [regOff, regRow]; omega) (by decide) rfl hr
  exact h

/-- A write of ORL_PPENDp with no reserved bit or value. -/
theorem put_orlPpend {s : State} {ini : Ini} {i : Nat} {v : W32} {t : Nat} (hi : i < 68) (hr : reservedIn .orlPpend i v.toNat = false) :
    regPut s ini .orlPpend i v t = privPendWrite (noted s t .orlPpend i) i v t := by
  have hl : ∀ k < 68, lookupReg (regOff .orlPpend k 0) = some (.orlPpend, k, 0) := by decide
  obtain ⟨w, h⟩ := regPut_legal (s := s) (ini := ini) (t := t) (n := .orlPpend) hi (hl i hi)
    (by simp [regOff, regRow]; omega) (by decide) rfl hr
  exact h

/-- A write of ORL_INSVCk with no reserved bit. -/
theorem put_orlInsvc {s : State} {ini : Ini} {i : Nat} {v : W32} {t : Nat} (hi : i < 32) :
    regPut s ini .orlInsvc i v t = insvcWrite (noted s t .orlInsvc i) i v t := by
  have hl : ∀ k < 32, lookupReg (regOff .orlInsvc k 0) = some (.orlInsvc, k, 0) := by decide
  have hr : reservedIn .orlInsvc i v.toNat = false := by
    have := v.isLt
    simp [reservedIn, planWrite, planField, regRow, fd, fieldBits, bitsOf, Nat.shiftRight_eq_div_pow, wordLegal, fixedField]
  have hc : cleanWord .orlInsvc v.toNat = v := by
    have := v.isLt
    simp [cleanWord, regRow, fd, fieldLegal, legalWord, wordLegal, bitsOf]
    exact BitVec.eq_of_toNat_eq (by simp; omega)
  rw [regPut_plain hi (hl i hi) (blockHeld_low _ (by simp [regOff, regRow]; omega)) (by decide) (by decide) hr]
  simp only [regStore, hc, noted]

/-- A write of ORL_PINSVCp with no reserved bit. -/
theorem put_orlPinsvc {s : State} {ini : Ini} {i : Nat} {v : W32} {t : Nat} (hi : i < 68) (hr : reservedIn .orlPinsvc i v.toNat = false) :
    regPut s ini .orlPinsvc i v t = privInsvcWrite (noted s t .orlPinsvc i) i v t := by
  have hl : ∀ k < 68, lookupReg (regOff .orlPinsvc k 0) = some (.orlPinsvc, k, 0) := by decide
  have hc : cleanWord .orlPinsvc v.toNat = v := by
    have hv := v.isLt
    have h := hr
    simp [reservedIn, planWrite, planField, regRow, fd, fieldBits, wordLegal, fixedField] at h
    simp [cleanWord, regRow, fd, fieldLegal, legalWord, wordLegal, h]
    exact BitVec.eq_of_toNat_eq (by simp; omega)
  rw [regPut_plain hi (hl i hi) (blockHeld_low _ (by simp [regOff, regRow]; omega)) (by decide) (by decide) hr]
  simp only [regStore, hc, noted]

end Sys2Proof.Machine
end

