-- ==== Sys2Proof/Laws/Keyed.lean ====
section
/-! SUPPORT. Laws of keyed lists. -/

namespace Sys2Proof.Machine

variable {α : Type}

@[simp] theorem kget_nil (a : Nat) : kget ([] : List (Nat × α)) a = none := rfl

/-- A key reads what was last put there. -/
@[simp] theorem kget_kput_same (l : List (Nat × α)) (a : Nat) (x : α) : kget (kput l a x) a = some x := by
  induction l with
  | nil => simp [kput, kget]
  | cons c rest ih =>
    obtain ⟨k, v⟩ := c
    unfold kput
    split_ifs with h1 h2
    · simp [kget]
    · simp [kget]
    · unfold kget
      simp only [h2, if_false, h1]
      exact ih

/-- Another key reads as before. -/
@[simp] theorem kget_kput_ne (l : List (Nat × α)) {a b : Nat} (x : α) (h : b ≠ a) :
    kget (kput l a x) b = kget l b := by
  have h' : a ≠ b := fun e => h e.symm
  induction l with
  | nil =>
    simp [kput, kget, h']
  | cons c rest ih =>
    obtain ⟨k, v⟩ := c
    unfold kput
    split_ifs with h1 h2
    · by_cases hb : b < a
      · have : k ≠ b := by omega
        have : b < k := by omega
        simp [kget, *]
      · simp [kget, h', hb]
    · subst h2
      simp [kget, h']
    · simp only [kget, ih]

theorem kget_kput (l : List (Nat × α)) (a b : Nat) (x : α) :
    kget (kput l a x) b = if b = a then some x else kget l b := by
  split_ifs with h
  · subst h; simp
  · simp [h]

/-- Putting twice at one key is putting once. -/
theorem kput_kput_same (l : List (Nat × α)) (a : Nat) (x y : α) : kput (kput l a x) a y = kput l a y := by
  induction l with
  | nil => simp [kput]
  | cons c rest ih =>
    obtain ⟨k, v⟩ := c
    simp only [kput]
    split_ifs with h1 h2 <;> simp_all [kput]

end Sys2Proof.Machine
end

