-- ==== Sys2Proof/Laws/Memory.lean ====
section
/-! SUPPORT. Laws of memory: every operation keeps the canonical form, and a byte reads what was last written to it. -/

namespace Sys2Proof.Machine

/-! ### The canonical form -/

theorem wfFrom_mono {m : List Host.Cell} {lo lo' : Nat} (h : wfFrom lo m = true) (hl : lo' ≤ lo) : wfFrom lo' m = true := by
  cases m with
  | nil => rfl
  | cons c rest =>
    obtain ⟨k, v⟩ := c
    simp only [wfFrom, Bool.and_eq_true, decide_eq_true_eq] at h ⊢
    exact ⟨⟨by omega, h.1.2⟩, h.2⟩

theorem wfFrom_cons {lo k : Nat} {v : Byte} {rest : List Host.Cell} :
    wfFrom lo ((k, v) :: rest) = true ↔ (lo ≤ k ∧ v ≠ memDefault) ∧ wfFrom (k + 1) rest = true := by
  simp only [wfFrom, Bool.and_eq_true, decide_eq_true_eq]

theorem kput_wfFrom {m : List Host.Cell} {lo a : Nat} {b : Byte} (h : wfFrom lo m = true) (ha : lo ≤ a)
    (hb : b ≠ memDefault) : wfFrom lo (kput m a b) = true := by
  induction m generalizing lo with
  | nil => simp [kput, wfFrom, ha, hb]
  | cons c rest ih =>
    obtain ⟨k, v⟩ := c
    have h' := wfFrom_cons.1 h
    unfold kput
    split_ifs with h1 h2
    · exact wfFrom_cons.2 ⟨⟨ha, hb⟩, wfFrom_cons.2 ⟨⟨by omega, h'.1.2⟩, h'.2⟩⟩
    · subst h2
      exact wfFrom_cons.2 ⟨⟨ha, hb⟩, h'.2⟩
    · exact wfFrom_cons.2 ⟨h'.1, ih h'.2 (by omega)⟩

theorem kdel_wfFrom {m : List Host.Cell} {lo a : Nat} (h : wfFrom lo m = true) : wfFrom lo (kdel m a) = true := by
  induction m generalizing lo with
  | nil => rfl
  | cons c rest ih =>
    obtain ⟨k, v⟩ := c
    have h' := wfFrom_cons.1 h
    unfold kdel
    split_ifs with h1 h2
    · exact wfFrom_mono h'.2 (by omega)
    · exact h
    · exact wfFrom_cons.2 ⟨h'.1, ih h'.2⟩

/-- Writing a byte keeps the canonical form. -/
theorem memSet_wf {m : List Host.Cell} {a : Nat} {b : Byte} (h : Memory.wf m = true) : Memory.wf (memSet m a b) = true := by
  unfold memSet
  split_ifs with hb
  · exact kdel_wfFrom h
  · exact kput_wfFrom h (Nat.zero_le _) hb

/-- Writing bytes keeps the canonical form. -/
theorem memWrite_wf {m : List Host.Cell} {a : Nat} {bs : List Byte} (h : Memory.wf m = true) :
    Memory.wf (memWrite m a bs) = true := by
  induction bs generalizing m a with
  | nil => exact h
  | cons b bs ih => exact ih (memSet_wf h)

/-- So does writing bytes outside some units. -/
theorem writeSkipping_wf {m : List Host.Cell} {skip : List Nat} {a : Nat} {bs : List Byte} (h : Memory.wf m = true) :
    Memory.wf (writeSkipping m skip a bs) = true := by
  induction bs generalizing m a with
  | nil => exact h
  | cons b bs ih =>
    refine ih ?_
    split_ifs
    · exact h
    · exact memSet_wf h

/-- Dropping entries keeps the canonical form. -/
theorem filter_wfFrom {m : List Host.Cell} {lo : Nat} {f : Host.Cell → Bool} (h : wfFrom lo m = true) :
    wfFrom lo (m.filter f) = true := by
  induction m generalizing lo with
  | nil => rfl
  | cons c rest ih =>
    obtain ⟨k, v⟩ := c
    have h' := wfFrom_cons.1 h
    rw [List.filter_cons]
    split_ifs
    · exact wfFrom_cons.2 ⟨h'.1, ih h'.2⟩
    · exact wfFrom_mono (ih h'.2) (by omega)

/-- Writing the bytes of a list, whatever address and value each gives, keeps the canonical form. -/
theorem foldl_memSet_wf {β : Type} {l : List β} {m : List Host.Cell} {f : β → Nat} {g : β → Byte}
    (h : Memory.wf m = true) : Memory.wf (l.foldl (fun m c => memSet m (f c) (g c)) m) = true := by
  induction l generalizing m with
  | nil => exact h
  | cons c l ih => exact ih (memSet_wf h)

/-- Copying a range keeps the canonical form. -/
theorem copyRange_wf {s : State} {src dst n : Nat} (h : Memory.wf s.mem = true) :
    Memory.wf (copyRange s src dst n).mem = true :=
  foldl_memSet_wf (filter_wfFrom h)

theorem setQdWord_wf {s : State} {h off : Nat} {v : W32} (hm : Memory.wf s.mem = true) :
    Memory.wf (s.setQdWord h off v).mem = true := memWrite_wf hm

theorem setQdFld_wf {s : State} {h off hi lo v : Nat} (hm : Memory.wf s.mem = true) :
    Memory.wf (s.setQdFld h off hi lo v).mem = true := memWrite_wf hm

theorem reset_wf : Memory.wf State.reset.mem = true := rfl

/-! ### Reading what was written -/

theorem kget_kdel_ne {m : List Host.Cell} {lo a b : Nat} (h : wfFrom lo m = true) (hn : b ≠ a) :
    kget (kdel m a) b = kget m b := by
  induction m generalizing lo with
  | nil => rfl
  | cons c rest ih =>
    obtain ⟨k, v⟩ := c
    have h' := wfFrom_cons.1 h
    have hn' : a ≠ b := fun e => hn e.symm
    unfold kdel
    split_ifs with h1 h2
    · subst h1
      simp only [kget, hn', if_false]
      split_ifs with h3
      · cases rest with
        | nil => rfl
        | cons d rest =>
          obtain ⟨k', v'⟩ := d
          have h2 := wfFrom_cons.1 h'.2
          have h4 : k' ≠ b := by omega
          have h5 : b < k' := by omega
          simp [kget, h4, h5]
      · rfl
    · rfl
    · simp only [kget, ih h'.2]

theorem kget_below {m : List Host.Cell} {lo a : Nat} (h : wfFrom lo m = true) (ha : a < lo) : kget m a = none := by
  cases m with
  | nil => rfl
  | cons c rest =>
    obtain ⟨k, v⟩ := c
    have h' := wfFrom_cons.1 h
    have h1 : k ≠ a := by omega
    have h2 : a < k := by omega
    simp [kget, h1, h2]

theorem kget_kdel_same {m : List Host.Cell} {lo a : Nat} (h : wfFrom lo m = true) : kget (kdel m a) a = none := by
  induction m generalizing lo with
  | nil => rfl
  | cons c rest ih =>
    obtain ⟨k, v⟩ := c
    have h' := wfFrom_cons.1 h
    unfold kdel
    split_ifs with h1 h2
    · subst h1
      exact kget_below h'.2 (Nat.lt_succ_self _)
    · simp [kget, h1, h2]
    · simp only [kget, h1, h2, if_false]
      exact ih h'.2

/-- A byte reads what was written to it. -/
theorem memGet_memSet_same {m : List Host.Cell} {a : Nat} {b : Byte} (h : Memory.wf m = true) :
    memGet (memSet m a b) a = b := by
  unfold memSet memGet
  split_ifs with hb
  · rw [kget_kdel_same h, hb]; rfl
  · simp

/-- A write leaves every other byte alone. -/
theorem memGet_memSet_ne {m : List Host.Cell} {a c : Nat} {b : Byte} (h : Memory.wf m = true) (hn : c ≠ a) :
    memGet (memSet m a b) c = memGet m c := by
  unfold memSet memGet
  split_ifs with hb
  · rw [kget_kdel_ne h hn]
  · simp [hn]

theorem memGet_memWrite_out {m : List Host.Cell} {a c : Nat} {bs : List Byte} (h : Memory.wf m = true)
    (hc : c < a ∨ a + bs.length ≤ c) : memGet (memWrite m a bs) c = memGet m c := by
  induction bs generalizing m a with
  | nil => rfl
  | cons b bs ih =>
    simp only [List.length_cons] at hc
    simp only [memWrite]
    rw [ih (memSet_wf h) (by omega), memGet_memSet_ne h (by omega)]

theorem memGet_memWrite_in {m : List Host.Cell} {a i : Nat} {bs : List Byte} (h : Memory.wf m = true)
    (hi : i < bs.length) : memGet (memWrite m a bs) (a + i) = bs.getD i 0 := by
  induction bs generalizing m a i with
  | nil => simp at hi
  | cons b bs ih =>
    simp only [List.length_cons] at hi
    simp only [memWrite]
    cases i with
    | zero =>
      rw [memGet_memWrite_out (memSet_wf h) (by omega), Nat.add_zero, memGet_memSet_same h]
      rfl
    | succ i =>
      have e : a + (i + 1) = a + 1 + i := by omega
      rw [e, ih (memSet_wf h) (by omega)]
      rfl

/-- Bytes read back as written. -/
theorem memRead_memWrite {m : List Host.Cell} {a : Nat} {bs : List Byte} (h : Memory.wf m = true) :
    memRead (memWrite m a bs) a bs.length = bs := by
  induction bs generalizing m a with
  | nil => rfl
  | cons b bs ih =>
    simp only [List.length_cons, memRead, memWrite]
    rw [memGet_memWrite_out (memSet_wf h) (by omega), memGet_memSet_same h, ih (memSet_wf h)]

end Sys2Proof.Machine
end

