-- ==== Sys2Proof/Laws/State.lean ====
section
/-! SUPPORT. Laws of State: for each named update, what every field holds after it. -/

namespace Sys2Proof.Machine

variable (s : State)

/-! ### setReg -/

@[simp] theorem setReg_pending (n : RegName) (v : W32) (i j : Nat) : (s.setReg n v i j).pending = s.pending := rfl
@[simp] theorem setReg_ntc (n : RegName) (v : W32) (i j : Nat) : (s.setReg n v i j).ntc = s.ntc := rfl
@[simp] theorem setReg_tickMin (n : RegName) (v : W32) (i j : Nat) : (s.setReg n v i j).tickMin = s.tickMin := rfl
@[simp] theorem setReg_lastTick (n : RegName) (v : W32) (i j : Nat) : (s.setReg n v i j).lastTick = s.lastTick := rfl
@[simp] theorem setReg_stretch (n : RegName) (v : W32) (i j : Nat) : (s.setReg n v i j).stretch = s.stretch := rfl
@[simp] theorem setReg_freeSeq (n : RegName) (v : W32) (i j : Nat) : (s.setReg n v i j).freeSeq = s.freeSeq := rfl
@[simp] theorem setReg_hwSet (n : RegName) (v : W32) (i j : Nat) : (s.setReg n v i j).hwSet = s.hwSet := rfl
@[simp] theorem setReg_deferred (n : RegName) (v : W32) (i j : Nat) : (s.setReg n v i j).deferred = s.deferred := rfl
@[simp] theorem setReg_mem (n : RegName) (v : W32) (i j : Nat) : (s.setReg n v i j).mem = s.mem := rfl
@[simp] theorem setReg_memErr (n : RegName) (v : W32) (i j : Nat) : (s.setReg n v i j).memErr = s.memErr := rfl
@[simp] theorem setReg_extOld (n : RegName) (v : W32) (i j : Nat) : (s.setReg n v i j).extOld = s.extOld := rfl
@[simp] theorem setReg_coreOld (n : RegName) (v : W32) (i j : Nat) : (s.setReg n v i j).coreOld = s.coreOld := rfl
@[simp] theorem setReg_shadowQ (n : RegName) (v : W32) (i j : Nat) : (s.setReg n v i j).shadowQ = s.shadowQ := rfl
@[simp] theorem setReg_resps (n : RegName) (v : W32) (i j : Nat) : (s.setReg n v i j).resps = s.resps := rfl
@[simp] theorem setReg_cores (n : RegName) (v : W32) (i j : Nat) : (s.setReg n v i j).cores = s.cores := rfl
@[simp] theorem setReg_baristas (n : RegName) (v : W32) (i j : Nat) : (s.setReg n v i j).baristas = s.baristas := rfl
@[simp] theorem setReg_map (n : RegName) (v : W32) (i j : Nat) : (s.setReg n v i j).map = s.map := rfl
@[simp] theorem setReg_srcs (n : RegName) (v : W32) (i j : Nat) : (s.setReg n v i j).srcs = s.srcs := rfl
@[simp] theorem setReg_privSpan (n : RegName) (v : W32) (i j : Nat) : (s.setReg n v i j).privSpan = s.privSpan := rfl
@[simp] theorem setReg_carLast (n : RegName) (v : W32) (i j : Nat) : (s.setReg n v i j).carLast = s.carLast := rfl
@[simp] theorem setReg_chans (n : RegName) (v : W32) (i j : Nat) : (s.setReg n v i j).chans = s.chans := rfl
@[simp] theorem setReg_capts (n : RegName) (v : W32) (i j : Nat) : (s.setReg n v i j).capts = s.capts := rfl
@[simp] theorem setReg_tpExt (n : RegName) (v : W32) (i j : Nat) : (s.setReg n v i j).tpExt = s.tpExt := rfl
@[simp] theorem setReg_tpHist (n : RegName) (v : W32) (i j : Nat) : (s.setReg n v i j).tpHist = s.tpHist := rfl
@[simp] theorem setReg_pinActs (n : RegName) (v : W32) (i j : Nat) : (s.setReg n v i j).pinActs = s.pinActs := rfl
@[simp] theorem setReg_grpAt (n : RegName) (v : W32) (i j : Nat) : (s.setReg n v i j).grpAt = s.grpAt := rfl
@[simp] theorem setReg_queues (n : RegName) (v : W32) (i j : Nat) : (s.setReg n v i j).queues = s.queues := rfl
@[simp] theorem setReg_iops (n : RegName) (v : W32) (i j : Nat) : (s.setReg n v i j).iops = s.iops := rfl
@[simp] theorem setReg_takeover (n : RegName) (v : W32) (i j : Nat) : (s.setReg n v i j).takeover = s.takeover := rfl
@[simp] theorem setReg_msixEn (n : RegName) (v : W32) (i j : Nat) : (s.setReg n v i j).msixEn = s.msixEn := rfl
@[simp] theorem setReg_msixFm (n : RegName) (v : W32) (i j : Nat) : (s.setReg n v i j).msixFm = s.msixFm := rfl
@[simp] theorem setReg_msix (n : RegName) (v : W32) (i j : Nat) : (s.setReg n v i j).msix = s.msix := rfl
@[simp] theorem setReg_msixPend (n : RegName) (v : W32) (i j : Nat) : (s.setReg n v i j).msixPend = s.msixPend := rfl
@[simp] theorem setReg_msixOut (n : RegName) (v : W32) (i j : Nat) : (s.setReg n v i j).msixOut = s.msixOut := rfl
@[simp] theorem setReg_ring (n : RegName) (v : W32) (i j : Nat) : (s.setReg n v i j).ring = s.ring := rfl
@[simp] theorem setReg_stretchOff (n : RegName) (v : W32) (i j : Nat) : (s.setReg n v i j).stretchOff = s.stretchOff := rfl
@[simp] theorem setReg_crema (n : RegName) (v : W32) (i j : Nat) : (s.setReg n v i j).crema = s.crema := rfl
@[simp] theorem setReg_audio (n : RegName) (v : W32) (i j : Nat) : (s.setReg n v i j).audio = s.audio := rfl
@[simp] theorem setReg_keep (n : RegName) (v : W32) (i j : Nat) : (s.setReg n v i j).keep = s.keep := rfl
@[simp] theorem setReg_boot (n : RegName) (v : W32) (i j : Nat) : (s.setReg n v i j).boot = s.boot := rfl
@[simp] theorem setReg_pairs (n : RegName) (v : W32) (i j : Nat) : (s.setReg n v i j).pairs = s.pairs := rfl
@[simp] theorem setReg_pcie (n : RegName) (v : W32) (i j : Nat) : (s.setReg n v i j).pcie = s.pcie := rfl
@[simp] theorem setReg_power (n : RegName) (v : W32) (i j : Nat) : (s.setReg n v i j).power = s.power := rfl
@[simp] theorem setReg_service (n : RegName) (v : W32) (i j : Nat) : (s.setReg n v i j).service = s.service := rfl
@[simp] theorem setReg_regWas (n : RegName) (v : W32) (i j : Nat) : (s.setReg n v i j).regWas = s.regWas := rfl
@[simp] theorem setReg_tpForce (n : RegName) (v : W32) (i j : Nat) : (s.setReg n v i j).tpForce = s.tpForce := rfl
@[simp] theorem setReg_snaps (n : RegName) (v : W32) (i j : Nat) : (s.setReg n v i j).snaps = s.snaps := rfl
@[simp] theorem setReg_lossAt (n : RegName) (v : W32) (i j : Nat) : (s.setReg n v i j).lossAt = s.lossAt := rfl
@[simp] theorem setReg_site (n : RegName) (v : W32) (i j : Nat) : (s.setReg n v i j).site = s.site := rfl

/-! ### setFld -/

@[simp] theorem setFld_pending (n : RegName) (hi lo v i j : Nat) : (s.setFld n hi lo v i j).pending = s.pending := rfl
@[simp] theorem setFld_ntc (n : RegName) (hi lo v i j : Nat) : (s.setFld n hi lo v i j).ntc = s.ntc := rfl
@[simp] theorem setFld_tickMin (n : RegName) (hi lo v i j : Nat) : (s.setFld n hi lo v i j).tickMin = s.tickMin := rfl
@[simp] theorem setFld_lastTick (n : RegName) (hi lo v i j : Nat) : (s.setFld n hi lo v i j).lastTick = s.lastTick := rfl
@[simp] theorem setFld_stretch (n : RegName) (hi lo v i j : Nat) : (s.setFld n hi lo v i j).stretch = s.stretch := rfl
@[simp] theorem setFld_freeSeq (n : RegName) (hi lo v i j : Nat) : (s.setFld n hi lo v i j).freeSeq = s.freeSeq := rfl
@[simp] theorem setFld_hwSet (n : RegName) (hi lo v i j : Nat) : (s.setFld n hi lo v i j).hwSet = s.hwSet := rfl
@[simp] theorem setFld_deferred (n : RegName) (hi lo v i j : Nat) : (s.setFld n hi lo v i j).deferred = s.deferred := rfl
@[simp] theorem setFld_mem (n : RegName) (hi lo v i j : Nat) : (s.setFld n hi lo v i j).mem = s.mem := rfl
@[simp] theorem setFld_memErr (n : RegName) (hi lo v i j : Nat) : (s.setFld n hi lo v i j).memErr = s.memErr := rfl
@[simp] theorem setFld_extOld (n : RegName) (hi lo v i j : Nat) : (s.setFld n hi lo v i j).extOld = s.extOld := rfl
@[simp] theorem setFld_coreOld (n : RegName) (hi lo v i j : Nat) : (s.setFld n hi lo v i j).coreOld = s.coreOld := rfl
@[simp] theorem setFld_shadowQ (n : RegName) (hi lo v i j : Nat) : (s.setFld n hi lo v i j).shadowQ = s.shadowQ := rfl
@[simp] theorem setFld_resps (n : RegName) (hi lo v i j : Nat) : (s.setFld n hi lo v i j).resps = s.resps := rfl
@[simp] theorem setFld_cores (n : RegName) (hi lo v i j : Nat) : (s.setFld n hi lo v i j).cores = s.cores := rfl
@[simp] theorem setFld_baristas (n : RegName) (hi lo v i j : Nat) : (s.setFld n hi lo v i j).baristas = s.baristas := rfl
@[simp] theorem setFld_map (n : RegName) (hi lo v i j : Nat) : (s.setFld n hi lo v i j).map = s.map := rfl
@[simp] theorem setFld_srcs (n : RegName) (hi lo v i j : Nat) : (s.setFld n hi lo v i j).srcs = s.srcs := rfl
@[simp] theorem setFld_privSpan (n : RegName) (hi lo v i j : Nat) : (s.setFld n hi lo v i j).privSpan = s.privSpan := rfl
@[simp] theorem setFld_carLast (n : RegName) (hi lo v i j : Nat) : (s.setFld n hi lo v i j).carLast = s.carLast := rfl
@[simp] theorem setFld_chans (n : RegName) (hi lo v i j : Nat) : (s.setFld n hi lo v i j).chans = s.chans := rfl
@[simp] theorem setFld_capts (n : RegName) (hi lo v i j : Nat) : (s.setFld n hi lo v i j).capts = s.capts := rfl
@[simp] theorem setFld_tpExt (n : RegName) (hi lo v i j : Nat) : (s.setFld n hi lo v i j).tpExt = s.tpExt := rfl
@[simp] theorem setFld_tpHist (n : RegName) (hi lo v i j : Nat) : (s.setFld n hi lo v i j).tpHist = s.tpHist := rfl
@[simp] theorem setFld_pinActs (n : RegName) (hi lo v i j : Nat) : (s.setFld n hi lo v i j).pinActs = s.pinActs := rfl
@[simp] theorem setFld_grpAt (n : RegName) (hi lo v i j : Nat) : (s.setFld n hi lo v i j).grpAt = s.grpAt := rfl
@[simp] theorem setFld_queues (n : RegName) (hi lo v i j : Nat) : (s.setFld n hi lo v i j).queues = s.queues := rfl
@[simp] theorem setFld_iops (n : RegName) (hi lo v i j : Nat) : (s.setFld n hi lo v i j).iops = s.iops := rfl
@[simp] theorem setFld_takeover (n : RegName) (hi lo v i j : Nat) : (s.setFld n hi lo v i j).takeover = s.takeover := rfl
@[simp] theorem setFld_msixEn (n : RegName) (hi lo v i j : Nat) : (s.setFld n hi lo v i j).msixEn = s.msixEn := rfl
@[simp] theorem setFld_msixFm (n : RegName) (hi lo v i j : Nat) : (s.setFld n hi lo v i j).msixFm = s.msixFm := rfl
@[simp] theorem setFld_msix (n : RegName) (hi lo v i j : Nat) : (s.setFld n hi lo v i j).msix = s.msix := rfl
@[simp] theorem setFld_msixPend (n : RegName) (hi lo v i j : Nat) : (s.setFld n hi lo v i j).msixPend = s.msixPend := rfl
@[simp] theorem setFld_msixOut (n : RegName) (hi lo v i j : Nat) : (s.setFld n hi lo v i j).msixOut = s.msixOut := rfl
@[simp] theorem setFld_ring (n : RegName) (hi lo v i j : Nat) : (s.setFld n hi lo v i j).ring = s.ring := rfl
@[simp] theorem setFld_stretchOff (n : RegName) (hi lo v i j : Nat) : (s.setFld n hi lo v i j).stretchOff = s.stretchOff := rfl
@[simp] theorem setFld_crema (n : RegName) (hi lo v i j : Nat) : (s.setFld n hi lo v i j).crema = s.crema := rfl
@[simp] theorem setFld_audio (n : RegName) (hi lo v i j : Nat) : (s.setFld n hi lo v i j).audio = s.audio := rfl
@[simp] theorem setFld_keep (n : RegName) (hi lo v i j : Nat) : (s.setFld n hi lo v i j).keep = s.keep := rfl
@[simp] theorem setFld_boot (n : RegName) (hi lo v i j : Nat) : (s.setFld n hi lo v i j).boot = s.boot := rfl
@[simp] theorem setFld_pairs (n : RegName) (hi lo v i j : Nat) : (s.setFld n hi lo v i j).pairs = s.pairs := rfl
@[simp] theorem setFld_pcie (n : RegName) (hi lo v i j : Nat) : (s.setFld n hi lo v i j).pcie = s.pcie := rfl
@[simp] theorem setFld_power (n : RegName) (hi lo v i j : Nat) : (s.setFld n hi lo v i j).power = s.power := rfl
@[simp] theorem setFld_service (n : RegName) (hi lo v i j : Nat) : (s.setFld n hi lo v i j).service = s.service := rfl
@[simp] theorem setFld_regWas (n : RegName) (hi lo v i j : Nat) : (s.setFld n hi lo v i j).regWas = s.regWas := rfl
@[simp] theorem setFld_tpForce (n : RegName) (hi lo v i j : Nat) : (s.setFld n hi lo v i j).tpForce = s.tpForce := rfl
@[simp] theorem setFld_snaps (n : RegName) (hi lo v i j : Nat) : (s.setFld n hi lo v i j).snaps = s.snaps := rfl
@[simp] theorem setFld_lossAt (n : RegName) (hi lo v i j : Nat) : (s.setFld n hi lo v i j).lossAt = s.lossAt := rfl
@[simp] theorem setFld_site (n : RegName) (hi lo v i j : Nat) : (s.setFld n hi lo v i j).site = s.site := rfl

/-! ### setBit -/

@[simp] theorem setBit_pending (n : RegName) (b : Nat) (v : Bool) (i j : Nat) : (s.setBit n b v i j).pending = s.pending := rfl
@[simp] theorem setBit_ntc (n : RegName) (b : Nat) (v : Bool) (i j : Nat) : (s.setBit n b v i j).ntc = s.ntc := rfl
@[simp] theorem setBit_tickMin (n : RegName) (b : Nat) (v : Bool) (i j : Nat) : (s.setBit n b v i j).tickMin = s.tickMin := rfl
@[simp] theorem setBit_lastTick (n : RegName) (b : Nat) (v : Bool) (i j : Nat) : (s.setBit n b v i j).lastTick = s.lastTick := rfl
@[simp] theorem setBit_stretch (n : RegName) (b : Nat) (v : Bool) (i j : Nat) : (s.setBit n b v i j).stretch = s.stretch := rfl
@[simp] theorem setBit_freeSeq (n : RegName) (b : Nat) (v : Bool) (i j : Nat) : (s.setBit n b v i j).freeSeq = s.freeSeq := rfl
@[simp] theorem setBit_hwSet (n : RegName) (b : Nat) (v : Bool) (i j : Nat) : (s.setBit n b v i j).hwSet = s.hwSet := rfl
@[simp] theorem setBit_deferred (n : RegName) (b : Nat) (v : Bool) (i j : Nat) : (s.setBit n b v i j).deferred = s.deferred := rfl
@[simp] theorem setBit_mem (n : RegName) (b : Nat) (v : Bool) (i j : Nat) : (s.setBit n b v i j).mem = s.mem := rfl
@[simp] theorem setBit_memErr (n : RegName) (b : Nat) (v : Bool) (i j : Nat) : (s.setBit n b v i j).memErr = s.memErr := rfl
@[simp] theorem setBit_extOld (n : RegName) (b : Nat) (v : Bool) (i j : Nat) : (s.setBit n b v i j).extOld = s.extOld := rfl
@[simp] theorem setBit_coreOld (n : RegName) (b : Nat) (v : Bool) (i j : Nat) : (s.setBit n b v i j).coreOld = s.coreOld := rfl
@[simp] theorem setBit_shadowQ (n : RegName) (b : Nat) (v : Bool) (i j : Nat) : (s.setBit n b v i j).shadowQ = s.shadowQ := rfl
@[simp] theorem setBit_resps (n : RegName) (b : Nat) (v : Bool) (i j : Nat) : (s.setBit n b v i j).resps = s.resps := rfl
@[simp] theorem setBit_cores (n : RegName) (b : Nat) (v : Bool) (i j : Nat) : (s.setBit n b v i j).cores = s.cores := rfl
@[simp] theorem setBit_baristas (n : RegName) (b : Nat) (v : Bool) (i j : Nat) : (s.setBit n b v i j).baristas = s.baristas := rfl
@[simp] theorem setBit_map (n : RegName) (b : Nat) (v : Bool) (i j : Nat) : (s.setBit n b v i j).map = s.map := rfl
@[simp] theorem setBit_srcs (n : RegName) (b : Nat) (v : Bool) (i j : Nat) : (s.setBit n b v i j).srcs = s.srcs := rfl
@[simp] theorem setBit_privSpan (n : RegName) (b : Nat) (v : Bool) (i j : Nat) : (s.setBit n b v i j).privSpan = s.privSpan := rfl
@[simp] theorem setBit_carLast (n : RegName) (b : Nat) (v : Bool) (i j : Nat) : (s.setBit n b v i j).carLast = s.carLast := rfl
@[simp] theorem setBit_chans (n : RegName) (b : Nat) (v : Bool) (i j : Nat) : (s.setBit n b v i j).chans = s.chans := rfl
@[simp] theorem setBit_capts (n : RegName) (b : Nat) (v : Bool) (i j : Nat) : (s.setBit n b v i j).capts = s.capts := rfl
@[simp] theorem setBit_tpExt (n : RegName) (b : Nat) (v : Bool) (i j : Nat) : (s.setBit n b v i j).tpExt = s.tpExt := rfl
@[simp] theorem setBit_tpHist (n : RegName) (b : Nat) (v : Bool) (i j : Nat) : (s.setBit n b v i j).tpHist = s.tpHist := rfl
@[simp] theorem setBit_pinActs (n : RegName) (b : Nat) (v : Bool) (i j : Nat) : (s.setBit n b v i j).pinActs = s.pinActs := rfl
@[simp] theorem setBit_grpAt (n : RegName) (b : Nat) (v : Bool) (i j : Nat) : (s.setBit n b v i j).grpAt = s.grpAt := rfl
@[simp] theorem setBit_queues (n : RegName) (b : Nat) (v : Bool) (i j : Nat) : (s.setBit n b v i j).queues = s.queues := rfl
@[simp] theorem setBit_iops (n : RegName) (b : Nat) (v : Bool) (i j : Nat) : (s.setBit n b v i j).iops = s.iops := rfl
@[simp] theorem setBit_takeover (n : RegName) (b : Nat) (v : Bool) (i j : Nat) : (s.setBit n b v i j).takeover = s.takeover := rfl
@[simp] theorem setBit_msixEn (n : RegName) (b : Nat) (v : Bool) (i j : Nat) : (s.setBit n b v i j).msixEn = s.msixEn := rfl
@[simp] theorem setBit_msixFm (n : RegName) (b : Nat) (v : Bool) (i j : Nat) : (s.setBit n b v i j).msixFm = s.msixFm := rfl
@[simp] theorem setBit_msix (n : RegName) (b : Nat) (v : Bool) (i j : Nat) : (s.setBit n b v i j).msix = s.msix := rfl
@[simp] theorem setBit_msixPend (n : RegName) (b : Nat) (v : Bool) (i j : Nat) : (s.setBit n b v i j).msixPend = s.msixPend := rfl
@[simp] theorem setBit_msixOut (n : RegName) (b : Nat) (v : Bool) (i j : Nat) : (s.setBit n b v i j).msixOut = s.msixOut := rfl
@[simp] theorem setBit_ring (n : RegName) (b : Nat) (v : Bool) (i j : Nat) : (s.setBit n b v i j).ring = s.ring := rfl
@[simp] theorem setBit_stretchOff (n : RegName) (b : Nat) (v : Bool) (i j : Nat) : (s.setBit n b v i j).stretchOff = s.stretchOff := rfl
@[simp] theorem setBit_crema (n : RegName) (b : Nat) (v : Bool) (i j : Nat) : (s.setBit n b v i j).crema = s.crema := rfl
@[simp] theorem setBit_audio (n : RegName) (b : Nat) (v : Bool) (i j : Nat) : (s.setBit n b v i j).audio = s.audio := rfl
@[simp] theorem setBit_keep (n : RegName) (b : Nat) (v : Bool) (i j : Nat) : (s.setBit n b v i j).keep = s.keep := rfl
@[simp] theorem setBit_boot (n : RegName) (b : Nat) (v : Bool) (i j : Nat) : (s.setBit n b v i j).boot = s.boot := rfl
@[simp] theorem setBit_pairs (n : RegName) (b : Nat) (v : Bool) (i j : Nat) : (s.setBit n b v i j).pairs = s.pairs := rfl
@[simp] theorem setBit_pcie (n : RegName) (b : Nat) (v : Bool) (i j : Nat) : (s.setBit n b v i j).pcie = s.pcie := rfl
@[simp] theorem setBit_power (n : RegName) (b : Nat) (v : Bool) (i j : Nat) : (s.setBit n b v i j).power = s.power := rfl
@[simp] theorem setBit_service (n : RegName) (b : Nat) (v : Bool) (i j : Nat) : (s.setBit n b v i j).service = s.service := rfl
@[simp] theorem setBit_regWas (n : RegName) (b : Nat) (v : Bool) (i j : Nat) : (s.setBit n b v i j).regWas = s.regWas := rfl
@[simp] theorem setBit_tpForce (n : RegName) (b : Nat) (v : Bool) (i j : Nat) : (s.setBit n b v i j).tpForce = s.tpForce := rfl
@[simp] theorem setBit_snaps (n : RegName) (b : Nat) (v : Bool) (i j : Nat) : (s.setBit n b v i j).snaps = s.snaps := rfl
@[simp] theorem setBit_lossAt (n : RegName) (b : Nat) (v : Bool) (i j : Nat) : (s.setBit n b v i j).lossAt = s.lossAt := rfl
@[simp] theorem setBit_site (n : RegName) (b : Nat) (v : Bool) (i j : Nat) : (s.setBit n b v i j).site = s.site := rfl

/-! ### raise -/

@[simp] theorem raise_pending (t : Nat) (n : RegName) (bits i j : Nat) : (s.raise t n bits i j).pending = s.pending := rfl
@[simp] theorem raise_ntc (t : Nat) (n : RegName) (bits i j : Nat) : (s.raise t n bits i j).ntc = s.ntc := rfl
@[simp] theorem raise_tickMin (t : Nat) (n : RegName) (bits i j : Nat) : (s.raise t n bits i j).tickMin = s.tickMin := rfl
@[simp] theorem raise_lastTick (t : Nat) (n : RegName) (bits i j : Nat) : (s.raise t n bits i j).lastTick = s.lastTick := rfl
@[simp] theorem raise_stretch (t : Nat) (n : RegName) (bits i j : Nat) : (s.raise t n bits i j).stretch = s.stretch := rfl
@[simp] theorem raise_freeSeq (t : Nat) (n : RegName) (bits i j : Nat) : (s.raise t n bits i j).freeSeq = s.freeSeq := rfl
@[simp] theorem raise_deferred (t : Nat) (n : RegName) (bits i j : Nat) : (s.raise t n bits i j).deferred = s.deferred := rfl
@[simp] theorem raise_mem (t : Nat) (n : RegName) (bits i j : Nat) : (s.raise t n bits i j).mem = s.mem := rfl
@[simp] theorem raise_memErr (t : Nat) (n : RegName) (bits i j : Nat) : (s.raise t n bits i j).memErr = s.memErr := rfl
@[simp] theorem raise_extOld (t : Nat) (n : RegName) (bits i j : Nat) : (s.raise t n bits i j).extOld = s.extOld := rfl
@[simp] theorem raise_coreOld (t : Nat) (n : RegName) (bits i j : Nat) : (s.raise t n bits i j).coreOld = s.coreOld := rfl
@[simp] theorem raise_shadowQ (t : Nat) (n : RegName) (bits i j : Nat) : (s.raise t n bits i j).shadowQ = s.shadowQ := rfl
@[simp] theorem raise_resps (t : Nat) (n : RegName) (bits i j : Nat) : (s.raise t n bits i j).resps = s.resps := rfl
@[simp] theorem raise_cores (t : Nat) (n : RegName) (bits i j : Nat) : (s.raise t n bits i j).cores = s.cores := rfl
@[simp] theorem raise_baristas (t : Nat) (n : RegName) (bits i j : Nat) : (s.raise t n bits i j).baristas = s.baristas := rfl
@[simp] theorem raise_map (t : Nat) (n : RegName) (bits i j : Nat) : (s.raise t n bits i j).map = s.map := rfl
@[simp] theorem raise_srcs (t : Nat) (n : RegName) (bits i j : Nat) : (s.raise t n bits i j).srcs = s.srcs := rfl
@[simp] theorem raise_privSpan (t : Nat) (n : RegName) (bits i j : Nat) : (s.raise t n bits i j).privSpan = s.privSpan := rfl
@[simp] theorem raise_carLast (t : Nat) (n : RegName) (bits i j : Nat) : (s.raise t n bits i j).carLast = s.carLast := rfl
@[simp] theorem raise_chans (t : Nat) (n : RegName) (bits i j : Nat) : (s.raise t n bits i j).chans = s.chans := rfl
@[simp] theorem raise_capts (t : Nat) (n : RegName) (bits i j : Nat) : (s.raise t n bits i j).capts = s.capts := rfl
@[simp] theorem raise_tpExt (t : Nat) (n : RegName) (bits i j : Nat) : (s.raise t n bits i j).tpExt = s.tpExt := rfl
@[simp] theorem raise_tpHist (t : Nat) (n : RegName) (bits i j : Nat) : (s.raise t n bits i j).tpHist = s.tpHist := rfl
@[simp] theorem raise_pinActs (t : Nat) (n : RegName) (bits i j : Nat) : (s.raise t n bits i j).pinActs = s.pinActs := rfl
@[simp] theorem raise_grpAt (t : Nat) (n : RegName) (bits i j : Nat) : (s.raise t n bits i j).grpAt = s.grpAt := rfl
@[simp] theorem raise_queues (t : Nat) (n : RegName) (bits i j : Nat) : (s.raise t n bits i j).queues = s.queues := rfl
@[simp] theorem raise_iops (t : Nat) (n : RegName) (bits i j : Nat) : (s.raise t n bits i j).iops = s.iops := rfl
@[simp] theorem raise_takeover (t : Nat) (n : RegName) (bits i j : Nat) : (s.raise t n bits i j).takeover = s.takeover := rfl
@[simp] theorem raise_msixEn (t : Nat) (n : RegName) (bits i j : Nat) : (s.raise t n bits i j).msixEn = s.msixEn := rfl
@[simp] theorem raise_msixFm (t : Nat) (n : RegName) (bits i j : Nat) : (s.raise t n bits i j).msixFm = s.msixFm := rfl
@[simp] theorem raise_msix (t : Nat) (n : RegName) (bits i j : Nat) : (s.raise t n bits i j).msix = s.msix := rfl
@[simp] theorem raise_msixPend (t : Nat) (n : RegName) (bits i j : Nat) : (s.raise t n bits i j).msixPend = s.msixPend := rfl
@[simp] theorem raise_msixOut (t : Nat) (n : RegName) (bits i j : Nat) : (s.raise t n bits i j).msixOut = s.msixOut := rfl
@[simp] theorem raise_ring (t : Nat) (n : RegName) (bits i j : Nat) : (s.raise t n bits i j).ring = s.ring := rfl
@[simp] theorem raise_stretchOff (t : Nat) (n : RegName) (bits i j : Nat) : (s.raise t n bits i j).stretchOff = s.stretchOff := rfl
@[simp] theorem raise_crema (t : Nat) (n : RegName) (bits i j : Nat) : (s.raise t n bits i j).crema = s.crema := rfl
@[simp] theorem raise_audio (t : Nat) (n : RegName) (bits i j : Nat) : (s.raise t n bits i j).audio = s.audio := rfl
@[simp] theorem raise_keep (t : Nat) (n : RegName) (bits i j : Nat) : (s.raise t n bits i j).keep = s.keep := rfl
@[simp] theorem raise_boot (t : Nat) (n : RegName) (bits i j : Nat) : (s.raise t n bits i j).boot = s.boot := rfl
@[simp] theorem raise_pairs (t : Nat) (n : RegName) (bits i j : Nat) : (s.raise t n bits i j).pairs = s.pairs := rfl
@[simp] theorem raise_pcie (t : Nat) (n : RegName) (bits i j : Nat) : (s.raise t n bits i j).pcie = s.pcie := rfl
@[simp] theorem raise_power (t : Nat) (n : RegName) (bits i j : Nat) : (s.raise t n bits i j).power = s.power := rfl
@[simp] theorem raise_service (t : Nat) (n : RegName) (bits i j : Nat) : (s.raise t n bits i j).service = s.service := rfl
@[simp] theorem raise_regWas (t : Nat) (n : RegName) (bits i j : Nat) : (s.raise t n bits i j).regWas = s.regWas := rfl
@[simp] theorem raise_tpForce (t : Nat) (n : RegName) (bits i j : Nat) : (s.raise t n bits i j).tpForce = s.tpForce := rfl
@[simp] theorem raise_snaps (t : Nat) (n : RegName) (bits i j : Nat) : (s.raise t n bits i j).snaps = s.snaps := rfl
@[simp] theorem raise_lossAt (t : Nat) (n : RegName) (bits i j : Nat) : (s.raise t n bits i j).lossAt = s.lossAt := rfl
@[simp] theorem raise_site (t : Nat) (n : RegName) (bits i j : Nat) : (s.raise t n bits i j).site = s.site := rfl

/-! ### setCore -/

@[simp] theorem setCore_pending (w : CoreSel) (c : Core) : (s.setCore w c).pending = s.pending := by cases w <;> rfl
@[simp] theorem setCore_ntc (w : CoreSel) (c : Core) : (s.setCore w c).ntc = s.ntc := by cases w <;> rfl
@[simp] theorem setCore_tickMin (w : CoreSel) (c : Core) : (s.setCore w c).tickMin = s.tickMin := by cases w <;> rfl
@[simp] theorem setCore_lastTick (w : CoreSel) (c : Core) : (s.setCore w c).lastTick = s.lastTick := by cases w <;> rfl
@[simp] theorem setCore_stretch (w : CoreSel) (c : Core) : (s.setCore w c).stretch = s.stretch := by cases w <;> rfl
@[simp] theorem setCore_freeSeq (w : CoreSel) (c : Core) : (s.setCore w c).freeSeq = s.freeSeq := by cases w <;> rfl
@[simp] theorem setCore_regs (w : CoreSel) (c : Core) : (s.setCore w c).regs = s.regs := by cases w <;> rfl
@[simp] theorem setCore_hwSet (w : CoreSel) (c : Core) : (s.setCore w c).hwSet = s.hwSet := by cases w <;> rfl
@[simp] theorem setCore_deferred (w : CoreSel) (c : Core) : (s.setCore w c).deferred = s.deferred := by cases w <;> rfl
@[simp] theorem setCore_mem (w : CoreSel) (c : Core) : (s.setCore w c).mem = s.mem := by cases w <;> rfl
@[simp] theorem setCore_memErr (w : CoreSel) (c : Core) : (s.setCore w c).memErr = s.memErr := by cases w <;> rfl
@[simp] theorem setCore_extOld (w : CoreSel) (c : Core) : (s.setCore w c).extOld = s.extOld := by cases w <;> rfl
@[simp] theorem setCore_coreOld (w : CoreSel) (c : Core) : (s.setCore w c).coreOld = s.coreOld := by cases w <;> rfl
@[simp] theorem setCore_shadowQ (w : CoreSel) (c : Core) : (s.setCore w c).shadowQ = s.shadowQ := by cases w <;> rfl
@[simp] theorem setCore_resps (w : CoreSel) (c : Core) : (s.setCore w c).resps = s.resps := by cases w <;> rfl
@[simp] theorem setCore_map (w : CoreSel) (c : Core) : (s.setCore w c).map = s.map := by cases w <;> rfl
@[simp] theorem setCore_srcs (w : CoreSel) (c : Core) : (s.setCore w c).srcs = s.srcs := by cases w <;> rfl
@[simp] theorem setCore_privSpan (w : CoreSel) (c : Core) : (s.setCore w c).privSpan = s.privSpan := by cases w <;> rfl
@[simp] theorem setCore_carLast (w : CoreSel) (c : Core) : (s.setCore w c).carLast = s.carLast := by cases w <;> rfl
@[simp] theorem setCore_chans (w : CoreSel) (c : Core) : (s.setCore w c).chans = s.chans := by cases w <;> rfl
@[simp] theorem setCore_capts (w : CoreSel) (c : Core) : (s.setCore w c).capts = s.capts := by cases w <;> rfl
@[simp] theorem setCore_tpExt (w : CoreSel) (c : Core) : (s.setCore w c).tpExt = s.tpExt := by cases w <;> rfl
@[simp] theorem setCore_tpHist (w : CoreSel) (c : Core) : (s.setCore w c).tpHist = s.tpHist := by cases w <;> rfl
@[simp] theorem setCore_pinActs (w : CoreSel) (c : Core) : (s.setCore w c).pinActs = s.pinActs := by cases w <;> rfl
@[simp] theorem setCore_grpAt (w : CoreSel) (c : Core) : (s.setCore w c).grpAt = s.grpAt := by cases w <;> rfl
@[simp] theorem setCore_queues (w : CoreSel) (c : Core) : (s.setCore w c).queues = s.queues := by cases w <;> rfl
@[simp] theorem setCore_iops (w : CoreSel) (c : Core) : (s.setCore w c).iops = s.iops := by cases w <;> rfl
@[simp] theorem setCore_takeover (w : CoreSel) (c : Core) : (s.setCore w c).takeover = s.takeover := by cases w <;> rfl
@[simp] theorem setCore_msixEn (w : CoreSel) (c : Core) : (s.setCore w c).msixEn = s.msixEn := by cases w <;> rfl
@[simp] theorem setCore_msixFm (w : CoreSel) (c : Core) : (s.setCore w c).msixFm = s.msixFm := by cases w <;> rfl
@[simp] theorem setCore_msix (w : CoreSel) (c : Core) : (s.setCore w c).msix = s.msix := by cases w <;> rfl
@[simp] theorem setCore_msixPend (w : CoreSel) (c : Core) : (s.setCore w c).msixPend = s.msixPend := by cases w <;> rfl
@[simp] theorem setCore_msixOut (w : CoreSel) (c : Core) : (s.setCore w c).msixOut = s.msixOut := by cases w <;> rfl
@[simp] theorem setCore_ring (w : CoreSel) (c : Core) : (s.setCore w c).ring = s.ring := by cases w <;> rfl
@[simp] theorem setCore_stretchOff (w : CoreSel) (c : Core) : (s.setCore w c).stretchOff = s.stretchOff := by cases w <;> rfl
@[simp] theorem setCore_crema (w : CoreSel) (c : Core) : (s.setCore w c).crema = s.crema := by cases w <;> rfl
@[simp] theorem setCore_audio (w : CoreSel) (c : Core) : (s.setCore w c).audio = s.audio := by cases w <;> rfl
@[simp] theorem setCore_keep (w : CoreSel) (c : Core) : (s.setCore w c).keep = s.keep := by cases w <;> rfl
@[simp] theorem setCore_boot (w : CoreSel) (c : Core) : (s.setCore w c).boot = s.boot := by cases w <;> rfl
@[simp] theorem setCore_pairs (w : CoreSel) (c : Core) : (s.setCore w c).pairs = s.pairs := by cases w <;> rfl
@[simp] theorem setCore_pcie (w : CoreSel) (c : Core) : (s.setCore w c).pcie = s.pcie := by cases w <;> rfl
@[simp] theorem setCore_power (w : CoreSel) (c : Core) : (s.setCore w c).power = s.power := by cases w <;> rfl
@[simp] theorem setCore_service (w : CoreSel) (c : Core) : (s.setCore w c).service = s.service := by cases w <;> rfl
@[simp] theorem setCore_regWas (w : CoreSel) (c : Core) : (s.setCore w c).regWas = s.regWas := by cases w <;> rfl
@[simp] theorem setCore_tpForce (w : CoreSel) (c : Core) : (s.setCore w c).tpForce = s.tpForce := by cases w <;> rfl
@[simp] theorem setCore_snaps (w : CoreSel) (c : Core) : (s.setCore w c).snaps = s.snaps := by cases w <;> rfl
@[simp] theorem setCore_lossAt (w : CoreSel) (c : Core) : (s.setCore w c).lossAt = s.lossAt := by cases w <;> rfl
@[simp] theorem setCore_site (w : CoreSel) (c : Core) : (s.setCore w c).site = s.site := by cases w <;> rfl

/-! ### setQueue -/

@[simp] theorem setQueue_pending (h : Nat) (q : QueueSt) : (s.setQueue h q).pending = s.pending := rfl
@[simp] theorem setQueue_ntc (h : Nat) (q : QueueSt) : (s.setQueue h q).ntc = s.ntc := rfl
@[simp] theorem setQueue_tickMin (h : Nat) (q : QueueSt) : (s.setQueue h q).tickMin = s.tickMin := rfl
@[simp] theorem setQueue_lastTick (h : Nat) (q : QueueSt) : (s.setQueue h q).lastTick = s.lastTick := rfl
@[simp] theorem setQueue_stretch (h : Nat) (q : QueueSt) : (s.setQueue h q).stretch = s.stretch := rfl
@[simp] theorem setQueue_freeSeq (h : Nat) (q : QueueSt) : (s.setQueue h q).freeSeq = s.freeSeq := rfl
@[simp] theorem setQueue_regs (h : Nat) (q : QueueSt) : (s.setQueue h q).regs = s.regs := rfl
@[simp] theorem setQueue_hwSet (h : Nat) (q : QueueSt) : (s.setQueue h q).hwSet = s.hwSet := rfl
@[simp] theorem setQueue_deferred (h : Nat) (q : QueueSt) : (s.setQueue h q).deferred = s.deferred := rfl
@[simp] theorem setQueue_mem (h : Nat) (q : QueueSt) : (s.setQueue h q).mem = s.mem := rfl
@[simp] theorem setQueue_memErr (h : Nat) (q : QueueSt) : (s.setQueue h q).memErr = s.memErr := rfl
@[simp] theorem setQueue_extOld (h : Nat) (q : QueueSt) : (s.setQueue h q).extOld = s.extOld := rfl
@[simp] theorem setQueue_coreOld (h : Nat) (q : QueueSt) : (s.setQueue h q).coreOld = s.coreOld := rfl
@[simp] theorem setQueue_shadowQ (h : Nat) (q : QueueSt) : (s.setQueue h q).shadowQ = s.shadowQ := rfl
@[simp] theorem setQueue_resps (h : Nat) (q : QueueSt) : (s.setQueue h q).resps = s.resps := rfl
@[simp] theorem setQueue_cores (h : Nat) (q : QueueSt) : (s.setQueue h q).cores = s.cores := rfl
@[simp] theorem setQueue_baristas (h : Nat) (q : QueueSt) : (s.setQueue h q).baristas = s.baristas := rfl
@[simp] theorem setQueue_map (h : Nat) (q : QueueSt) : (s.setQueue h q).map = s.map := rfl
@[simp] theorem setQueue_srcs (h : Nat) (q : QueueSt) : (s.setQueue h q).srcs = s.srcs := rfl
@[simp] theorem setQueue_privSpan (h : Nat) (q : QueueSt) : (s.setQueue h q).privSpan = s.privSpan := rfl
@[simp] theorem setQueue_carLast (h : Nat) (q : QueueSt) : (s.setQueue h q).carLast = s.carLast := rfl
@[simp] theorem setQueue_chans (h : Nat) (q : QueueSt) : (s.setQueue h q).chans = s.chans := rfl
@[simp] theorem setQueue_capts (h : Nat) (q : QueueSt) : (s.setQueue h q).capts = s.capts := rfl
@[simp] theorem setQueue_tpExt (h : Nat) (q : QueueSt) : (s.setQueue h q).tpExt = s.tpExt := rfl
@[simp] theorem setQueue_tpHist (h : Nat) (q : QueueSt) : (s.setQueue h q).tpHist = s.tpHist := rfl
@[simp] theorem setQueue_pinActs (h : Nat) (q : QueueSt) : (s.setQueue h q).pinActs = s.pinActs := rfl
@[simp] theorem setQueue_grpAt (h : Nat) (q : QueueSt) : (s.setQueue h q).grpAt = s.grpAt := rfl
@[simp] theorem setQueue_iops (h : Nat) (q : QueueSt) : (s.setQueue h q).iops = s.iops := rfl
@[simp] theorem setQueue_takeover (h : Nat) (q : QueueSt) : (s.setQueue h q).takeover = s.takeover := rfl
@[simp] theorem setQueue_msixEn (h : Nat) (q : QueueSt) : (s.setQueue h q).msixEn = s.msixEn := rfl
@[simp] theorem setQueue_msixFm (h : Nat) (q : QueueSt) : (s.setQueue h q).msixFm = s.msixFm := rfl
@[simp] theorem setQueue_msix (h : Nat) (q : QueueSt) : (s.setQueue h q).msix = s.msix := rfl
@[simp] theorem setQueue_msixPend (h : Nat) (q : QueueSt) : (s.setQueue h q).msixPend = s.msixPend := rfl
@[simp] theorem setQueue_msixOut (h : Nat) (q : QueueSt) : (s.setQueue h q).msixOut = s.msixOut := rfl
@[simp] theorem setQueue_ring (h : Nat) (q : QueueSt) : (s.setQueue h q).ring = s.ring := rfl
@[simp] theorem setQueue_stretchOff (h : Nat) (q : QueueSt) : (s.setQueue h q).stretchOff = s.stretchOff := rfl
@[simp] theorem setQueue_crema (h : Nat) (q : QueueSt) : (s.setQueue h q).crema = s.crema := rfl
@[simp] theorem setQueue_audio (h : Nat) (q : QueueSt) : (s.setQueue h q).audio = s.audio := rfl
@[simp] theorem setQueue_keep (h : Nat) (q : QueueSt) : (s.setQueue h q).keep = s.keep := rfl
@[simp] theorem setQueue_boot (h : Nat) (q : QueueSt) : (s.setQueue h q).boot = s.boot := rfl
@[simp] theorem setQueue_pairs (h : Nat) (q : QueueSt) : (s.setQueue h q).pairs = s.pairs := rfl
@[simp] theorem setQueue_pcie (h : Nat) (q : QueueSt) : (s.setQueue h q).pcie = s.pcie := rfl
@[simp] theorem setQueue_power (h : Nat) (q : QueueSt) : (s.setQueue h q).power = s.power := rfl
@[simp] theorem setQueue_service (h : Nat) (q : QueueSt) : (s.setQueue h q).service = s.service := rfl
@[simp] theorem setQueue_regWas (h : Nat) (q : QueueSt) : (s.setQueue h q).regWas = s.regWas := rfl
@[simp] theorem setQueue_tpForce (h : Nat) (q : QueueSt) : (s.setQueue h q).tpForce = s.tpForce := rfl
@[simp] theorem setQueue_snaps (h : Nat) (q : QueueSt) : (s.setQueue h q).snaps = s.snaps := rfl
@[simp] theorem setQueue_lossAt (h : Nat) (q : QueueSt) : (s.setQueue h q).lossAt = s.lossAt := rfl
@[simp] theorem setQueue_site (h : Nat) (q : QueueSt) : (s.setQueue h q).site = s.site := rfl

/-! ### setQdWord -/

@[simp] theorem setQdWord_pending (h off : Nat) (v : W32) : (s.setQdWord h off v).pending = s.pending := rfl
@[simp] theorem setQdWord_ntc (h off : Nat) (v : W32) : (s.setQdWord h off v).ntc = s.ntc := rfl
@[simp] theorem setQdWord_tickMin (h off : Nat) (v : W32) : (s.setQdWord h off v).tickMin = s.tickMin := rfl
@[simp] theorem setQdWord_lastTick (h off : Nat) (v : W32) : (s.setQdWord h off v).lastTick = s.lastTick := rfl
@[simp] theorem setQdWord_stretch (h off : Nat) (v : W32) : (s.setQdWord h off v).stretch = s.stretch := rfl
@[simp] theorem setQdWord_freeSeq (h off : Nat) (v : W32) : (s.setQdWord h off v).freeSeq = s.freeSeq := rfl
@[simp] theorem setQdWord_regs (h off : Nat) (v : W32) : (s.setQdWord h off v).regs = s.regs := rfl
@[simp] theorem setQdWord_hwSet (h off : Nat) (v : W32) : (s.setQdWord h off v).hwSet = s.hwSet := rfl
@[simp] theorem setQdWord_deferred (h off : Nat) (v : W32) : (s.setQdWord h off v).deferred = s.deferred := rfl
@[simp] theorem setQdWord_memErr (h off : Nat) (v : W32) : (s.setQdWord h off v).memErr = s.memErr := rfl
@[simp] theorem setQdWord_extOld (h off : Nat) (v : W32) : (s.setQdWord h off v).extOld = s.extOld := rfl
@[simp] theorem setQdWord_coreOld (h off : Nat) (v : W32) : (s.setQdWord h off v).coreOld = s.coreOld := rfl
@[simp] theorem setQdWord_shadowQ (h off : Nat) (v : W32) : (s.setQdWord h off v).shadowQ = s.shadowQ := rfl
@[simp] theorem setQdWord_resps (h off : Nat) (v : W32) : (s.setQdWord h off v).resps = s.resps := rfl
@[simp] theorem setQdWord_cores (h off : Nat) (v : W32) : (s.setQdWord h off v).cores = s.cores := rfl
@[simp] theorem setQdWord_baristas (h off : Nat) (v : W32) : (s.setQdWord h off v).baristas = s.baristas := rfl
@[simp] theorem setQdWord_map (h off : Nat) (v : W32) : (s.setQdWord h off v).map = s.map := rfl
@[simp] theorem setQdWord_srcs (h off : Nat) (v : W32) : (s.setQdWord h off v).srcs = s.srcs := rfl
@[simp] theorem setQdWord_privSpan (h off : Nat) (v : W32) : (s.setQdWord h off v).privSpan = s.privSpan := rfl
@[simp] theorem setQdWord_carLast (h off : Nat) (v : W32) : (s.setQdWord h off v).carLast = s.carLast := rfl
@[simp] theorem setQdWord_chans (h off : Nat) (v : W32) : (s.setQdWord h off v).chans = s.chans := rfl
@[simp] theorem setQdWord_capts (h off : Nat) (v : W32) : (s.setQdWord h off v).capts = s.capts := rfl
@[simp] theorem setQdWord_tpExt (h off : Nat) (v : W32) : (s.setQdWord h off v).tpExt = s.tpExt := rfl
@[simp] theorem setQdWord_tpHist (h off : Nat) (v : W32) : (s.setQdWord h off v).tpHist = s.tpHist := rfl
@[simp] theorem setQdWord_pinActs (h off : Nat) (v : W32) : (s.setQdWord h off v).pinActs = s.pinActs := rfl
@[simp] theorem setQdWord_grpAt (h off : Nat) (v : W32) : (s.setQdWord h off v).grpAt = s.grpAt := rfl
@[simp] theorem setQdWord_queues (h off : Nat) (v : W32) : (s.setQdWord h off v).queues = s.queues := rfl
@[simp] theorem setQdWord_iops (h off : Nat) (v : W32) : (s.setQdWord h off v).iops = s.iops := rfl
@[simp] theorem setQdWord_takeover (h off : Nat) (v : W32) : (s.setQdWord h off v).takeover = s.takeover := rfl
@[simp] theorem setQdWord_msixEn (h off : Nat) (v : W32) : (s.setQdWord h off v).msixEn = s.msixEn := rfl
@[simp] theorem setQdWord_msixFm (h off : Nat) (v : W32) : (s.setQdWord h off v).msixFm = s.msixFm := rfl
@[simp] theorem setQdWord_msix (h off : Nat) (v : W32) : (s.setQdWord h off v).msix = s.msix := rfl
@[simp] theorem setQdWord_msixPend (h off : Nat) (v : W32) : (s.setQdWord h off v).msixPend = s.msixPend := rfl
@[simp] theorem setQdWord_msixOut (h off : Nat) (v : W32) : (s.setQdWord h off v).msixOut = s.msixOut := rfl
@[simp] theorem setQdWord_ring (h off : Nat) (v : W32) : (s.setQdWord h off v).ring = s.ring := rfl
@[simp] theorem setQdWord_stretchOff (h off : Nat) (v : W32) : (s.setQdWord h off v).stretchOff = s.stretchOff := rfl
@[simp] theorem setQdWord_crema (h off : Nat) (v : W32) : (s.setQdWord h off v).crema = s.crema := rfl
@[simp] theorem setQdWord_audio (h off : Nat) (v : W32) : (s.setQdWord h off v).audio = s.audio := rfl
@[simp] theorem setQdWord_keep (h off : Nat) (v : W32) : (s.setQdWord h off v).keep = s.keep := rfl
@[simp] theorem setQdWord_boot (h off : Nat) (v : W32) : (s.setQdWord h off v).boot = s.boot := rfl
@[simp] theorem setQdWord_pairs (h off : Nat) (v : W32) : (s.setQdWord h off v).pairs = s.pairs := rfl
@[simp] theorem setQdWord_pcie (h off : Nat) (v : W32) : (s.setQdWord h off v).pcie = s.pcie := rfl
@[simp] theorem setQdWord_power (h off : Nat) (v : W32) : (s.setQdWord h off v).power = s.power := rfl
@[simp] theorem setQdWord_service (h off : Nat) (v : W32) : (s.setQdWord h off v).service = s.service := rfl
@[simp] theorem setQdWord_regWas (h off : Nat) (v : W32) : (s.setQdWord h off v).regWas = s.regWas := rfl
@[simp] theorem setQdWord_tpForce (h off : Nat) (v : W32) : (s.setQdWord h off v).tpForce = s.tpForce := rfl
@[simp] theorem setQdWord_snaps (h off : Nat) (v : W32) : (s.setQdWord h off v).snaps = s.snaps := rfl
@[simp] theorem setQdWord_lossAt (h off : Nat) (v : W32) : (s.setQdWord h off v).lossAt = s.lossAt := rfl
@[simp] theorem setQdWord_site (h off : Nat) (v : W32) : (s.setQdWord h off v).site = s.site := rfl

/-! ### setQdFld -/

@[simp] theorem setQdFld_pending (h off hi lo v : Nat) : (s.setQdFld h off hi lo v).pending = s.pending := rfl
@[simp] theorem setQdFld_ntc (h off hi lo v : Nat) : (s.setQdFld h off hi lo v).ntc = s.ntc := rfl
@[simp] theorem setQdFld_tickMin (h off hi lo v : Nat) : (s.setQdFld h off hi lo v).tickMin = s.tickMin := rfl
@[simp] theorem setQdFld_lastTick (h off hi lo v : Nat) : (s.setQdFld h off hi lo v).lastTick = s.lastTick := rfl
@[simp] theorem setQdFld_stretch (h off hi lo v : Nat) : (s.setQdFld h off hi lo v).stretch = s.stretch := rfl
@[simp] theorem setQdFld_freeSeq (h off hi lo v : Nat) : (s.setQdFld h off hi lo v).freeSeq = s.freeSeq := rfl
@[simp] theorem setQdFld_regs (h off hi lo v : Nat) : (s.setQdFld h off hi lo v).regs = s.regs := rfl
@[simp] theorem setQdFld_hwSet (h off hi lo v : Nat) : (s.setQdFld h off hi lo v).hwSet = s.hwSet := rfl
@[simp] theorem setQdFld_deferred (h off hi lo v : Nat) : (s.setQdFld h off hi lo v).deferred = s.deferred := rfl
@[simp] theorem setQdFld_memErr (h off hi lo v : Nat) : (s.setQdFld h off hi lo v).memErr = s.memErr := rfl
@[simp] theorem setQdFld_extOld (h off hi lo v : Nat) : (s.setQdFld h off hi lo v).extOld = s.extOld := rfl
@[simp] theorem setQdFld_coreOld (h off hi lo v : Nat) : (s.setQdFld h off hi lo v).coreOld = s.coreOld := rfl
@[simp] theorem setQdFld_shadowQ (h off hi lo v : Nat) : (s.setQdFld h off hi lo v).shadowQ = s.shadowQ := rfl
@[simp] theorem setQdFld_resps (h off hi lo v : Nat) : (s.setQdFld h off hi lo v).resps = s.resps := rfl
@[simp] theorem setQdFld_cores (h off hi lo v : Nat) : (s.setQdFld h off hi lo v).cores = s.cores := rfl
@[simp] theorem setQdFld_baristas (h off hi lo v : Nat) : (s.setQdFld h off hi lo v).baristas = s.baristas := rfl
@[simp] theorem setQdFld_map (h off hi lo v : Nat) : (s.setQdFld h off hi lo v).map = s.map := rfl
@[simp] theorem setQdFld_srcs (h off hi lo v : Nat) : (s.setQdFld h off hi lo v).srcs = s.srcs := rfl
@[simp] theorem setQdFld_privSpan (h off hi lo v : Nat) : (s.setQdFld h off hi lo v).privSpan = s.privSpan := rfl
@[simp] theorem setQdFld_carLast (h off hi lo v : Nat) : (s.setQdFld h off hi lo v).carLast = s.carLast := rfl
@[simp] theorem setQdFld_chans (h off hi lo v : Nat) : (s.setQdFld h off hi lo v).chans = s.chans := rfl
@[simp] theorem setQdFld_capts (h off hi lo v : Nat) : (s.setQdFld h off hi lo v).capts = s.capts := rfl
@[simp] theorem setQdFld_tpExt (h off hi lo v : Nat) : (s.setQdFld h off hi lo v).tpExt = s.tpExt := rfl
@[simp] theorem setQdFld_tpHist (h off hi lo v : Nat) : (s.setQdFld h off hi lo v).tpHist = s.tpHist := rfl
@[simp] theorem setQdFld_pinActs (h off hi lo v : Nat) : (s.setQdFld h off hi lo v).pinActs = s.pinActs := rfl
@[simp] theorem setQdFld_grpAt (h off hi lo v : Nat) : (s.setQdFld h off hi lo v).grpAt = s.grpAt := rfl
@[simp] theorem setQdFld_queues (h off hi lo v : Nat) : (s.setQdFld h off hi lo v).queues = s.queues := rfl
@[simp] theorem setQdFld_iops (h off hi lo v : Nat) : (s.setQdFld h off hi lo v).iops = s.iops := rfl
@[simp] theorem setQdFld_takeover (h off hi lo v : Nat) : (s.setQdFld h off hi lo v).takeover = s.takeover := rfl
@[simp] theorem setQdFld_msixEn (h off hi lo v : Nat) : (s.setQdFld h off hi lo v).msixEn = s.msixEn := rfl
@[simp] theorem setQdFld_msixFm (h off hi lo v : Nat) : (s.setQdFld h off hi lo v).msixFm = s.msixFm := rfl
@[simp] theorem setQdFld_msix (h off hi lo v : Nat) : (s.setQdFld h off hi lo v).msix = s.msix := rfl
@[simp] theorem setQdFld_msixPend (h off hi lo v : Nat) : (s.setQdFld h off hi lo v).msixPend = s.msixPend := rfl
@[simp] theorem setQdFld_msixOut (h off hi lo v : Nat) : (s.setQdFld h off hi lo v).msixOut = s.msixOut := rfl
@[simp] theorem setQdFld_ring (h off hi lo v : Nat) : (s.setQdFld h off hi lo v).ring = s.ring := rfl
@[simp] theorem setQdFld_stretchOff (h off hi lo v : Nat) : (s.setQdFld h off hi lo v).stretchOff = s.stretchOff := rfl
@[simp] theorem setQdFld_crema (h off hi lo v : Nat) : (s.setQdFld h off hi lo v).crema = s.crema := rfl
@[simp] theorem setQdFld_audio (h off hi lo v : Nat) : (s.setQdFld h off hi lo v).audio = s.audio := rfl
@[simp] theorem setQdFld_keep (h off hi lo v : Nat) : (s.setQdFld h off hi lo v).keep = s.keep := rfl
@[simp] theorem setQdFld_boot (h off hi lo v : Nat) : (s.setQdFld h off hi lo v).boot = s.boot := rfl
@[simp] theorem setQdFld_pairs (h off hi lo v : Nat) : (s.setQdFld h off hi lo v).pairs = s.pairs := rfl
@[simp] theorem setQdFld_pcie (h off hi lo v : Nat) : (s.setQdFld h off hi lo v).pcie = s.pcie := rfl
@[simp] theorem setQdFld_power (h off hi lo v : Nat) : (s.setQdFld h off hi lo v).power = s.power := rfl
@[simp] theorem setQdFld_service (h off hi lo v : Nat) : (s.setQdFld h off hi lo v).service = s.service := rfl
@[simp] theorem setQdFld_regWas (h off hi lo v : Nat) : (s.setQdFld h off hi lo v).regWas = s.regWas := rfl
@[simp] theorem setQdFld_tpForce (h off hi lo v : Nat) : (s.setQdFld h off hi lo v).tpForce = s.tpForce := rfl
@[simp] theorem setQdFld_snaps (h off hi lo v : Nat) : (s.setQdFld h off hi lo v).snaps = s.snaps := rfl
@[simp] theorem setQdFld_lossAt (h off hi lo v : Nat) : (s.setQdFld h off hi lo v).lossAt = s.lossAt := rfl
@[simp] theorem setQdFld_site (h off hi lo v : Nat) : (s.setQdFld h off hi lo v).site = s.site := rfl

/-! ### answer -/

@[simp] theorem answer_pending (i : Ini) (d : List Byte) (e : Bool) : (s.answer i d e).pending = s.pending := rfl
@[simp] theorem answer_ntc (i : Ini) (d : List Byte) (e : Bool) : (s.answer i d e).ntc = s.ntc := rfl
@[simp] theorem answer_tickMin (i : Ini) (d : List Byte) (e : Bool) : (s.answer i d e).tickMin = s.tickMin := rfl
@[simp] theorem answer_lastTick (i : Ini) (d : List Byte) (e : Bool) : (s.answer i d e).lastTick = s.lastTick := rfl
@[simp] theorem answer_stretch (i : Ini) (d : List Byte) (e : Bool) : (s.answer i d e).stretch = s.stretch := rfl
@[simp] theorem answer_freeSeq (i : Ini) (d : List Byte) (e : Bool) : (s.answer i d e).freeSeq = s.freeSeq := rfl
@[simp] theorem answer_regs (i : Ini) (d : List Byte) (e : Bool) : (s.answer i d e).regs = s.regs := rfl
@[simp] theorem answer_hwSet (i : Ini) (d : List Byte) (e : Bool) : (s.answer i d e).hwSet = s.hwSet := rfl
@[simp] theorem answer_deferred (i : Ini) (d : List Byte) (e : Bool) : (s.answer i d e).deferred = s.deferred := rfl
@[simp] theorem answer_mem (i : Ini) (d : List Byte) (e : Bool) : (s.answer i d e).mem = s.mem := rfl
@[simp] theorem answer_memErr (i : Ini) (d : List Byte) (e : Bool) : (s.answer i d e).memErr = s.memErr := rfl
@[simp] theorem answer_extOld (i : Ini) (d : List Byte) (e : Bool) : (s.answer i d e).extOld = s.extOld := rfl
@[simp] theorem answer_coreOld (i : Ini) (d : List Byte) (e : Bool) : (s.answer i d e).coreOld = s.coreOld := rfl
@[simp] theorem answer_shadowQ (i : Ini) (d : List Byte) (e : Bool) : (s.answer i d e).shadowQ = s.shadowQ := rfl
@[simp] theorem answer_cores (i : Ini) (d : List Byte) (e : Bool) : (s.answer i d e).cores = s.cores := rfl
@[simp] theorem answer_baristas (i : Ini) (d : List Byte) (e : Bool) : (s.answer i d e).baristas = s.baristas := rfl
@[simp] theorem answer_map (i : Ini) (d : List Byte) (e : Bool) : (s.answer i d e).map = s.map := rfl
@[simp] theorem answer_srcs (i : Ini) (d : List Byte) (e : Bool) : (s.answer i d e).srcs = s.srcs := rfl
@[simp] theorem answer_privSpan (i : Ini) (d : List Byte) (e : Bool) : (s.answer i d e).privSpan = s.privSpan := rfl
@[simp] theorem answer_carLast (i : Ini) (d : List Byte) (e : Bool) : (s.answer i d e).carLast = s.carLast := rfl
@[simp] theorem answer_chans (i : Ini) (d : List Byte) (e : Bool) : (s.answer i d e).chans = s.chans := rfl
@[simp] theorem answer_capts (i : Ini) (d : List Byte) (e : Bool) : (s.answer i d e).capts = s.capts := rfl
@[simp] theorem answer_tpExt (i : Ini) (d : List Byte) (e : Bool) : (s.answer i d e).tpExt = s.tpExt := rfl
@[simp] theorem answer_tpHist (i : Ini) (d : List Byte) (e : Bool) : (s.answer i d e).tpHist = s.tpHist := rfl
@[simp] theorem answer_pinActs (i : Ini) (d : List Byte) (e : Bool) : (s.answer i d e).pinActs = s.pinActs := rfl
@[simp] theorem answer_grpAt (i : Ini) (d : List Byte) (e : Bool) : (s.answer i d e).grpAt = s.grpAt := rfl
@[simp] theorem answer_queues (i : Ini) (d : List Byte) (e : Bool) : (s.answer i d e).queues = s.queues := rfl
@[simp] theorem answer_iops (i : Ini) (d : List Byte) (e : Bool) : (s.answer i d e).iops = s.iops := rfl
@[simp] theorem answer_takeover (i : Ini) (d : List Byte) (e : Bool) : (s.answer i d e).takeover = s.takeover := rfl
@[simp] theorem answer_msixEn (i : Ini) (d : List Byte) (e : Bool) : (s.answer i d e).msixEn = s.msixEn := rfl
@[simp] theorem answer_msixFm (i : Ini) (d : List Byte) (e : Bool) : (s.answer i d e).msixFm = s.msixFm := rfl
@[simp] theorem answer_msix (i : Ini) (d : List Byte) (e : Bool) : (s.answer i d e).msix = s.msix := rfl
@[simp] theorem answer_msixPend (i : Ini) (d : List Byte) (e : Bool) : (s.answer i d e).msixPend = s.msixPend := rfl
@[simp] theorem answer_msixOut (i : Ini) (d : List Byte) (e : Bool) : (s.answer i d e).msixOut = s.msixOut := rfl
@[simp] theorem answer_ring (i : Ini) (d : List Byte) (e : Bool) : (s.answer i d e).ring = s.ring := rfl
@[simp] theorem answer_stretchOff (i : Ini) (d : List Byte) (e : Bool) : (s.answer i d e).stretchOff = s.stretchOff := rfl
@[simp] theorem answer_crema (i : Ini) (d : List Byte) (e : Bool) : (s.answer i d e).crema = s.crema := rfl
@[simp] theorem answer_audio (i : Ini) (d : List Byte) (e : Bool) : (s.answer i d e).audio = s.audio := rfl
@[simp] theorem answer_keep (i : Ini) (d : List Byte) (e : Bool) : (s.answer i d e).keep = s.keep := rfl
@[simp] theorem answer_boot (i : Ini) (d : List Byte) (e : Bool) : (s.answer i d e).boot = s.boot := rfl
@[simp] theorem answer_pairs (i : Ini) (d : List Byte) (e : Bool) : (s.answer i d e).pairs = s.pairs := rfl
@[simp] theorem answer_pcie (i : Ini) (d : List Byte) (e : Bool) : (s.answer i d e).pcie = s.pcie := rfl
@[simp] theorem answer_power (i : Ini) (d : List Byte) (e : Bool) : (s.answer i d e).power = s.power := rfl
@[simp] theorem answer_service (i : Ini) (d : List Byte) (e : Bool) : (s.answer i d e).service = s.service := rfl
@[simp] theorem answer_regWas (i : Ini) (d : List Byte) (e : Bool) : (s.answer i d e).regWas = s.regWas := rfl
@[simp] theorem answer_tpForce (i : Ini) (d : List Byte) (e : Bool) : (s.answer i d e).tpForce = s.tpForce := rfl
@[simp] theorem answer_snaps (i : Ini) (d : List Byte) (e : Bool) : (s.answer i d e).snaps = s.snaps := rfl
@[simp] theorem answer_lossAt (i : Ini) (d : List Byte) (e : Bool) : (s.answer i d e).lossAt = s.lossAt := rfl
@[simp] theorem answer_site (i : Ini) (d : List Byte) (e : Bool) : (s.answer i d e).site = s.site := rfl

/-! ### setSrc -/

@[simp] theorem setSrc_pending (n : Nat) (x : SrcSt) : (s.setSrc n x).pending = s.pending := rfl
@[simp] theorem setSrc_ntc (n : Nat) (x : SrcSt) : (s.setSrc n x).ntc = s.ntc := rfl
@[simp] theorem setSrc_tickMin (n : Nat) (x : SrcSt) : (s.setSrc n x).tickMin = s.tickMin := rfl
@[simp] theorem setSrc_lastTick (n : Nat) (x : SrcSt) : (s.setSrc n x).lastTick = s.lastTick := rfl
@[simp] theorem setSrc_stretch (n : Nat) (x : SrcSt) : (s.setSrc n x).stretch = s.stretch := rfl
@[simp] theorem setSrc_freeSeq (n : Nat) (x : SrcSt) : (s.setSrc n x).freeSeq = s.freeSeq := rfl
@[simp] theorem setSrc_regs (n : Nat) (x : SrcSt) : (s.setSrc n x).regs = s.regs := rfl
@[simp] theorem setSrc_hwSet (n : Nat) (x : SrcSt) : (s.setSrc n x).hwSet = s.hwSet := rfl
@[simp] theorem setSrc_deferred (n : Nat) (x : SrcSt) : (s.setSrc n x).deferred = s.deferred := rfl
@[simp] theorem setSrc_mem (n : Nat) (x : SrcSt) : (s.setSrc n x).mem = s.mem := rfl
@[simp] theorem setSrc_memErr (n : Nat) (x : SrcSt) : (s.setSrc n x).memErr = s.memErr := rfl
@[simp] theorem setSrc_extOld (n : Nat) (x : SrcSt) : (s.setSrc n x).extOld = s.extOld := rfl
@[simp] theorem setSrc_coreOld (n : Nat) (x : SrcSt) : (s.setSrc n x).coreOld = s.coreOld := rfl
@[simp] theorem setSrc_shadowQ (n : Nat) (x : SrcSt) : (s.setSrc n x).shadowQ = s.shadowQ := rfl
@[simp] theorem setSrc_resps (n : Nat) (x : SrcSt) : (s.setSrc n x).resps = s.resps := rfl
@[simp] theorem setSrc_cores (n : Nat) (x : SrcSt) : (s.setSrc n x).cores = s.cores := rfl
@[simp] theorem setSrc_baristas (n : Nat) (x : SrcSt) : (s.setSrc n x).baristas = s.baristas := rfl
@[simp] theorem setSrc_map (n : Nat) (x : SrcSt) : (s.setSrc n x).map = s.map := rfl
@[simp] theorem setSrc_privSpan (n : Nat) (x : SrcSt) : (s.setSrc n x).privSpan = s.privSpan := rfl
@[simp] theorem setSrc_carLast (n : Nat) (x : SrcSt) : (s.setSrc n x).carLast = s.carLast := rfl
@[simp] theorem setSrc_chans (n : Nat) (x : SrcSt) : (s.setSrc n x).chans = s.chans := rfl
@[simp] theorem setSrc_capts (n : Nat) (x : SrcSt) : (s.setSrc n x).capts = s.capts := rfl
@[simp] theorem setSrc_tpExt (n : Nat) (x : SrcSt) : (s.setSrc n x).tpExt = s.tpExt := rfl
@[simp] theorem setSrc_tpHist (n : Nat) (x : SrcSt) : (s.setSrc n x).tpHist = s.tpHist := rfl
@[simp] theorem setSrc_pinActs (n : Nat) (x : SrcSt) : (s.setSrc n x).pinActs = s.pinActs := rfl
@[simp] theorem setSrc_grpAt (n : Nat) (x : SrcSt) : (s.setSrc n x).grpAt = s.grpAt := rfl
@[simp] theorem setSrc_queues (n : Nat) (x : SrcSt) : (s.setSrc n x).queues = s.queues := rfl
@[simp] theorem setSrc_iops (n : Nat) (x : SrcSt) : (s.setSrc n x).iops = s.iops := rfl
@[simp] theorem setSrc_takeover (n : Nat) (x : SrcSt) : (s.setSrc n x).takeover = s.takeover := rfl
@[simp] theorem setSrc_msixEn (n : Nat) (x : SrcSt) : (s.setSrc n x).msixEn = s.msixEn := rfl
@[simp] theorem setSrc_msixFm (n : Nat) (x : SrcSt) : (s.setSrc n x).msixFm = s.msixFm := rfl
@[simp] theorem setSrc_msix (n : Nat) (x : SrcSt) : (s.setSrc n x).msix = s.msix := rfl
@[simp] theorem setSrc_msixPend (n : Nat) (x : SrcSt) : (s.setSrc n x).msixPend = s.msixPend := rfl
@[simp] theorem setSrc_msixOut (n : Nat) (x : SrcSt) : (s.setSrc n x).msixOut = s.msixOut := rfl
@[simp] theorem setSrc_ring (n : Nat) (x : SrcSt) : (s.setSrc n x).ring = s.ring := rfl
@[simp] theorem setSrc_stretchOff (n : Nat) (x : SrcSt) : (s.setSrc n x).stretchOff = s.stretchOff := rfl
@[simp] theorem setSrc_crema (n : Nat) (x : SrcSt) : (s.setSrc n x).crema = s.crema := rfl
@[simp] theorem setSrc_audio (n : Nat) (x : SrcSt) : (s.setSrc n x).audio = s.audio := rfl
@[simp] theorem setSrc_keep (n : Nat) (x : SrcSt) : (s.setSrc n x).keep = s.keep := rfl
@[simp] theorem setSrc_boot (n : Nat) (x : SrcSt) : (s.setSrc n x).boot = s.boot := rfl
@[simp] theorem setSrc_pairs (n : Nat) (x : SrcSt) : (s.setSrc n x).pairs = s.pairs := rfl
@[simp] theorem setSrc_pcie (n : Nat) (x : SrcSt) : (s.setSrc n x).pcie = s.pcie := rfl
@[simp] theorem setSrc_power (n : Nat) (x : SrcSt) : (s.setSrc n x).power = s.power := rfl
@[simp] theorem setSrc_service (n : Nat) (x : SrcSt) : (s.setSrc n x).service = s.service := rfl
@[simp] theorem setSrc_regWas (n : Nat) (x : SrcSt) : (s.setSrc n x).regWas = s.regWas := rfl
@[simp] theorem setSrc_tpForce (n : Nat) (x : SrcSt) : (s.setSrc n x).tpForce = s.tpForce := rfl
@[simp] theorem setSrc_snaps (n : Nat) (x : SrcSt) : (s.setSrc n x).snaps = s.snaps := rfl
@[simp] theorem setSrc_lossAt (n : Nat) (x : SrcSt) : (s.setSrc n x).lossAt = s.lossAt := rfl
@[simp] theorem setSrc_site (n : Nat) (x : SrcSt) : (s.setSrc n x).site = s.site := rfl

/-! ### setChan -/

@[simp] theorem setChan_pending (n : Nat) (x : Chan) : (s.setChan n x).pending = s.pending := rfl
@[simp] theorem setChan_ntc (n : Nat) (x : Chan) : (s.setChan n x).ntc = s.ntc := rfl
@[simp] theorem setChan_tickMin (n : Nat) (x : Chan) : (s.setChan n x).tickMin = s.tickMin := rfl
@[simp] theorem setChan_lastTick (n : Nat) (x : Chan) : (s.setChan n x).lastTick = s.lastTick := rfl
@[simp] theorem setChan_stretch (n : Nat) (x : Chan) : (s.setChan n x).stretch = s.stretch := rfl
@[simp] theorem setChan_freeSeq (n : Nat) (x : Chan) : (s.setChan n x).freeSeq = s.freeSeq := rfl
@[simp] theorem setChan_regs (n : Nat) (x : Chan) : (s.setChan n x).regs = s.regs := rfl
@[simp] theorem setChan_hwSet (n : Nat) (x : Chan) : (s.setChan n x).hwSet = s.hwSet := rfl
@[simp] theorem setChan_deferred (n : Nat) (x : Chan) : (s.setChan n x).deferred = s.deferred := rfl
@[simp] theorem setChan_mem (n : Nat) (x : Chan) : (s.setChan n x).mem = s.mem := rfl
@[simp] theorem setChan_memErr (n : Nat) (x : Chan) : (s.setChan n x).memErr = s.memErr := rfl
@[simp] theorem setChan_extOld (n : Nat) (x : Chan) : (s.setChan n x).extOld = s.extOld := rfl
@[simp] theorem setChan_coreOld (n : Nat) (x : Chan) : (s.setChan n x).coreOld = s.coreOld := rfl
@[simp] theorem setChan_shadowQ (n : Nat) (x : Chan) : (s.setChan n x).shadowQ = s.shadowQ := rfl
@[simp] theorem setChan_resps (n : Nat) (x : Chan) : (s.setChan n x).resps = s.resps := rfl
@[simp] theorem setChan_cores (n : Nat) (x : Chan) : (s.setChan n x).cores = s.cores := rfl
@[simp] theorem setChan_baristas (n : Nat) (x : Chan) : (s.setChan n x).baristas = s.baristas := rfl
@[simp] theorem setChan_map (n : Nat) (x : Chan) : (s.setChan n x).map = s.map := rfl
@[simp] theorem setChan_srcs (n : Nat) (x : Chan) : (s.setChan n x).srcs = s.srcs := rfl
@[simp] theorem setChan_privSpan (n : Nat) (x : Chan) : (s.setChan n x).privSpan = s.privSpan := rfl
@[simp] theorem setChan_carLast (n : Nat) (x : Chan) : (s.setChan n x).carLast = s.carLast := rfl
@[simp] theorem setChan_capts (n : Nat) (x : Chan) : (s.setChan n x).capts = s.capts := rfl
@[simp] theorem setChan_tpExt (n : Nat) (x : Chan) : (s.setChan n x).tpExt = s.tpExt := rfl
@[simp] theorem setChan_tpHist (n : Nat) (x : Chan) : (s.setChan n x).tpHist = s.tpHist := rfl
@[simp] theorem setChan_pinActs (n : Nat) (x : Chan) : (s.setChan n x).pinActs = s.pinActs := rfl
@[simp] theorem setChan_grpAt (n : Nat) (x : Chan) : (s.setChan n x).grpAt = s.grpAt := rfl
@[simp] theorem setChan_queues (n : Nat) (x : Chan) : (s.setChan n x).queues = s.queues := rfl
@[simp] theorem setChan_iops (n : Nat) (x : Chan) : (s.setChan n x).iops = s.iops := rfl
@[simp] theorem setChan_takeover (n : Nat) (x : Chan) : (s.setChan n x).takeover = s.takeover := rfl
@[simp] theorem setChan_msixEn (n : Nat) (x : Chan) : (s.setChan n x).msixEn = s.msixEn := rfl
@[simp] theorem setChan_msixFm (n : Nat) (x : Chan) : (s.setChan n x).msixFm = s.msixFm := rfl
@[simp] theorem setChan_msix (n : Nat) (x : Chan) : (s.setChan n x).msix = s.msix := rfl
@[simp] theorem setChan_msixPend (n : Nat) (x : Chan) : (s.setChan n x).msixPend = s.msixPend := rfl
@[simp] theorem setChan_msixOut (n : Nat) (x : Chan) : (s.setChan n x).msixOut = s.msixOut := rfl
@[simp] theorem setChan_ring (n : Nat) (x : Chan) : (s.setChan n x).ring = s.ring := rfl
@[simp] theorem setChan_stretchOff (n : Nat) (x : Chan) : (s.setChan n x).stretchOff = s.stretchOff := rfl
@[simp] theorem setChan_crema (n : Nat) (x : Chan) : (s.setChan n x).crema = s.crema := rfl
@[simp] theorem setChan_audio (n : Nat) (x : Chan) : (s.setChan n x).audio = s.audio := rfl
@[simp] theorem setChan_keep (n : Nat) (x : Chan) : (s.setChan n x).keep = s.keep := rfl
@[simp] theorem setChan_boot (n : Nat) (x : Chan) : (s.setChan n x).boot = s.boot := rfl
@[simp] theorem setChan_pairs (n : Nat) (x : Chan) : (s.setChan n x).pairs = s.pairs := rfl
@[simp] theorem setChan_pcie (n : Nat) (x : Chan) : (s.setChan n x).pcie = s.pcie := rfl
@[simp] theorem setChan_power (n : Nat) (x : Chan) : (s.setChan n x).power = s.power := rfl
@[simp] theorem setChan_service (n : Nat) (x : Chan) : (s.setChan n x).service = s.service := rfl
@[simp] theorem setChan_regWas (n : Nat) (x : Chan) : (s.setChan n x).regWas = s.regWas := rfl
@[simp] theorem setChan_tpForce (n : Nat) (x : Chan) : (s.setChan n x).tpForce = s.tpForce := rfl
@[simp] theorem setChan_snaps (n : Nat) (x : Chan) : (s.setChan n x).snaps = s.snaps := rfl
@[simp] theorem setChan_lossAt (n : Nat) (x : Chan) : (s.setChan n x).lossAt = s.lossAt := rfl
@[simp] theorem setChan_site (n : Nat) (x : Chan) : (s.setChan n x).site = s.site := rfl

/-! ### setRport -/

@[simp] theorem setRport_pending (p : Nat) (x : RPort) : (s.setRport p x).pending = s.pending := rfl
@[simp] theorem setRport_ntc (p : Nat) (x : RPort) : (s.setRport p x).ntc = s.ntc := rfl
@[simp] theorem setRport_tickMin (p : Nat) (x : RPort) : (s.setRport p x).tickMin = s.tickMin := rfl
@[simp] theorem setRport_lastTick (p : Nat) (x : RPort) : (s.setRport p x).lastTick = s.lastTick := rfl
@[simp] theorem setRport_stretch (p : Nat) (x : RPort) : (s.setRport p x).stretch = s.stretch := rfl
@[simp] theorem setRport_freeSeq (p : Nat) (x : RPort) : (s.setRport p x).freeSeq = s.freeSeq := rfl
@[simp] theorem setRport_regs (p : Nat) (x : RPort) : (s.setRport p x).regs = s.regs := rfl
@[simp] theorem setRport_hwSet (p : Nat) (x : RPort) : (s.setRport p x).hwSet = s.hwSet := rfl
@[simp] theorem setRport_deferred (p : Nat) (x : RPort) : (s.setRport p x).deferred = s.deferred := rfl
@[simp] theorem setRport_mem (p : Nat) (x : RPort) : (s.setRport p x).mem = s.mem := rfl
@[simp] theorem setRport_memErr (p : Nat) (x : RPort) : (s.setRport p x).memErr = s.memErr := rfl
@[simp] theorem setRport_extOld (p : Nat) (x : RPort) : (s.setRport p x).extOld = s.extOld := rfl
@[simp] theorem setRport_coreOld (p : Nat) (x : RPort) : (s.setRport p x).coreOld = s.coreOld := rfl
@[simp] theorem setRport_shadowQ (p : Nat) (x : RPort) : (s.setRport p x).shadowQ = s.shadowQ := rfl
@[simp] theorem setRport_resps (p : Nat) (x : RPort) : (s.setRport p x).resps = s.resps := rfl
@[simp] theorem setRport_cores (p : Nat) (x : RPort) : (s.setRport p x).cores = s.cores := rfl
@[simp] theorem setRport_baristas (p : Nat) (x : RPort) : (s.setRport p x).baristas = s.baristas := rfl
@[simp] theorem setRport_map (p : Nat) (x : RPort) : (s.setRport p x).map = s.map := rfl
@[simp] theorem setRport_srcs (p : Nat) (x : RPort) : (s.setRport p x).srcs = s.srcs := rfl
@[simp] theorem setRport_privSpan (p : Nat) (x : RPort) : (s.setRport p x).privSpan = s.privSpan := rfl
@[simp] theorem setRport_carLast (p : Nat) (x : RPort) : (s.setRport p x).carLast = s.carLast := rfl
@[simp] theorem setRport_chans (p : Nat) (x : RPort) : (s.setRport p x).chans = s.chans := rfl
@[simp] theorem setRport_capts (p : Nat) (x : RPort) : (s.setRport p x).capts = s.capts := rfl
@[simp] theorem setRport_tpExt (p : Nat) (x : RPort) : (s.setRport p x).tpExt = s.tpExt := rfl
@[simp] theorem setRport_tpHist (p : Nat) (x : RPort) : (s.setRport p x).tpHist = s.tpHist := rfl
@[simp] theorem setRport_pinActs (p : Nat) (x : RPort) : (s.setRport p x).pinActs = s.pinActs := rfl
@[simp] theorem setRport_grpAt (p : Nat) (x : RPort) : (s.setRport p x).grpAt = s.grpAt := rfl
@[simp] theorem setRport_queues (p : Nat) (x : RPort) : (s.setRport p x).queues = s.queues := rfl
@[simp] theorem setRport_iops (p : Nat) (x : RPort) : (s.setRport p x).iops = s.iops := rfl
@[simp] theorem setRport_takeover (p : Nat) (x : RPort) : (s.setRport p x).takeover = s.takeover := rfl
@[simp] theorem setRport_msixEn (p : Nat) (x : RPort) : (s.setRport p x).msixEn = s.msixEn := rfl
@[simp] theorem setRport_msixFm (p : Nat) (x : RPort) : (s.setRport p x).msixFm = s.msixFm := rfl
@[simp] theorem setRport_msix (p : Nat) (x : RPort) : (s.setRport p x).msix = s.msix := rfl
@[simp] theorem setRport_msixPend (p : Nat) (x : RPort) : (s.setRport p x).msixPend = s.msixPend := rfl
@[simp] theorem setRport_msixOut (p : Nat) (x : RPort) : (s.setRport p x).msixOut = s.msixOut := rfl
@[simp] theorem setRport_stretchOff (p : Nat) (x : RPort) : (s.setRport p x).stretchOff = s.stretchOff := rfl
@[simp] theorem setRport_crema (p : Nat) (x : RPort) : (s.setRport p x).crema = s.crema := rfl
@[simp] theorem setRport_audio (p : Nat) (x : RPort) : (s.setRport p x).audio = s.audio := rfl
@[simp] theorem setRport_keep (p : Nat) (x : RPort) : (s.setRport p x).keep = s.keep := rfl
@[simp] theorem setRport_boot (p : Nat) (x : RPort) : (s.setRport p x).boot = s.boot := rfl
@[simp] theorem setRport_pairs (p : Nat) (x : RPort) : (s.setRport p x).pairs = s.pairs := rfl
@[simp] theorem setRport_pcie (p : Nat) (x : RPort) : (s.setRport p x).pcie = s.pcie := rfl
@[simp] theorem setRport_power (p : Nat) (x : RPort) : (s.setRport p x).power = s.power := rfl
@[simp] theorem setRport_service (p : Nat) (x : RPort) : (s.setRport p x).service = s.service := rfl
@[simp] theorem setRport_regWas (p : Nat) (x : RPort) : (s.setRport p x).regWas = s.regWas := rfl
@[simp] theorem setRport_tpForce (p : Nat) (x : RPort) : (s.setRport p x).tpForce = s.tpForce := rfl
@[simp] theorem setRport_snaps (p : Nat) (x : RPort) : (s.setRport p x).snaps = s.snaps := rfl
@[simp] theorem setRport_lossAt (p : Nat) (x : RPort) : (s.setRport p x).lossAt = s.lossAt := rfl
@[simp] theorem setRport_site (p : Nat) (x : RPort) : (s.setRport p x).site = s.site := rfl

/-! ### setRpair -/

@[simp] theorem setRpair_pending (r : Nat) (x : RPair) : (s.setRpair r x).pending = s.pending := rfl
@[simp] theorem setRpair_ntc (r : Nat) (x : RPair) : (s.setRpair r x).ntc = s.ntc := rfl
@[simp] theorem setRpair_tickMin (r : Nat) (x : RPair) : (s.setRpair r x).tickMin = s.tickMin := rfl
@[simp] theorem setRpair_lastTick (r : Nat) (x : RPair) : (s.setRpair r x).lastTick = s.lastTick := rfl
@[simp] theorem setRpair_stretch (r : Nat) (x : RPair) : (s.setRpair r x).stretch = s.stretch := rfl
@[simp] theorem setRpair_freeSeq (r : Nat) (x : RPair) : (s.setRpair r x).freeSeq = s.freeSeq := rfl
@[simp] theorem setRpair_regs (r : Nat) (x : RPair) : (s.setRpair r x).regs = s.regs := rfl
@[simp] theorem setRpair_hwSet (r : Nat) (x : RPair) : (s.setRpair r x).hwSet = s.hwSet := rfl
@[simp] theorem setRpair_deferred (r : Nat) (x : RPair) : (s.setRpair r x).deferred = s.deferred := rfl
@[simp] theorem setRpair_mem (r : Nat) (x : RPair) : (s.setRpair r x).mem = s.mem := rfl
@[simp] theorem setRpair_memErr (r : Nat) (x : RPair) : (s.setRpair r x).memErr = s.memErr := rfl
@[simp] theorem setRpair_extOld (r : Nat) (x : RPair) : (s.setRpair r x).extOld = s.extOld := rfl
@[simp] theorem setRpair_coreOld (r : Nat) (x : RPair) : (s.setRpair r x).coreOld = s.coreOld := rfl
@[simp] theorem setRpair_shadowQ (r : Nat) (x : RPair) : (s.setRpair r x).shadowQ = s.shadowQ := rfl
@[simp] theorem setRpair_resps (r : Nat) (x : RPair) : (s.setRpair r x).resps = s.resps := rfl
@[simp] theorem setRpair_cores (r : Nat) (x : RPair) : (s.setRpair r x).cores = s.cores := rfl
@[simp] theorem setRpair_baristas (r : Nat) (x : RPair) : (s.setRpair r x).baristas = s.baristas := rfl
@[simp] theorem setRpair_map (r : Nat) (x : RPair) : (s.setRpair r x).map = s.map := rfl
@[simp] theorem setRpair_srcs (r : Nat) (x : RPair) : (s.setRpair r x).srcs = s.srcs := rfl
@[simp] theorem setRpair_privSpan (r : Nat) (x : RPair) : (s.setRpair r x).privSpan = s.privSpan := rfl
@[simp] theorem setRpair_carLast (r : Nat) (x : RPair) : (s.setRpair r x).carLast = s.carLast := rfl
@[simp] theorem setRpair_chans (r : Nat) (x : RPair) : (s.setRpair r x).chans = s.chans := rfl
@[simp] theorem setRpair_capts (r : Nat) (x : RPair) : (s.setRpair r x).capts = s.capts := rfl
@[simp] theorem setRpair_tpExt (r : Nat) (x : RPair) : (s.setRpair r x).tpExt = s.tpExt := rfl
@[simp] theorem setRpair_tpHist (r : Nat) (x : RPair) : (s.setRpair r x).tpHist = s.tpHist := rfl
@[simp] theorem setRpair_pinActs (r : Nat) (x : RPair) : (s.setRpair r x).pinActs = s.pinActs := rfl
@[simp] theorem setRpair_grpAt (r : Nat) (x : RPair) : (s.setRpair r x).grpAt = s.grpAt := rfl
@[simp] theorem setRpair_queues (r : Nat) (x : RPair) : (s.setRpair r x).queues = s.queues := rfl
@[simp] theorem setRpair_iops (r : Nat) (x : RPair) : (s.setRpair r x).iops = s.iops := rfl
@[simp] theorem setRpair_takeover (r : Nat) (x : RPair) : (s.setRpair r x).takeover = s.takeover := rfl
@[simp] theorem setRpair_msixEn (r : Nat) (x : RPair) : (s.setRpair r x).msixEn = s.msixEn := rfl
@[simp] theorem setRpair_msixFm (r : Nat) (x : RPair) : (s.setRpair r x).msixFm = s.msixFm := rfl
@[simp] theorem setRpair_msix (r : Nat) (x : RPair) : (s.setRpair r x).msix = s.msix := rfl
@[simp] theorem setRpair_msixPend (r : Nat) (x : RPair) : (s.setRpair r x).msixPend = s.msixPend := rfl
@[simp] theorem setRpair_msixOut (r : Nat) (x : RPair) : (s.setRpair r x).msixOut = s.msixOut := rfl
@[simp] theorem setRpair_stretchOff (r : Nat) (x : RPair) : (s.setRpair r x).stretchOff = s.stretchOff := rfl
@[simp] theorem setRpair_crema (r : Nat) (x : RPair) : (s.setRpair r x).crema = s.crema := rfl
@[simp] theorem setRpair_audio (r : Nat) (x : RPair) : (s.setRpair r x).audio = s.audio := rfl
@[simp] theorem setRpair_keep (r : Nat) (x : RPair) : (s.setRpair r x).keep = s.keep := rfl
@[simp] theorem setRpair_boot (r : Nat) (x : RPair) : (s.setRpair r x).boot = s.boot := rfl
@[simp] theorem setRpair_pairs (r : Nat) (x : RPair) : (s.setRpair r x).pairs = s.pairs := rfl
@[simp] theorem setRpair_pcie (r : Nat) (x : RPair) : (s.setRpair r x).pcie = s.pcie := rfl
@[simp] theorem setRpair_power (r : Nat) (x : RPair) : (s.setRpair r x).power = s.power := rfl
@[simp] theorem setRpair_service (r : Nat) (x : RPair) : (s.setRpair r x).service = s.service := rfl
@[simp] theorem setRpair_regWas (r : Nat) (x : RPair) : (s.setRpair r x).regWas = s.regWas := rfl
@[simp] theorem setRpair_tpForce (r : Nat) (x : RPair) : (s.setRpair r x).tpForce = s.tpForce := rfl
@[simp] theorem setRpair_snaps (r : Nat) (x : RPair) : (s.setRpair r x).snaps = s.snaps := rfl
@[simp] theorem setRpair_lossAt (r : Nat) (x : RPair) : (s.setRpair r x).lossAt = s.lossAt := rfl
@[simp] theorem setRpair_site (r : Nat) (x : RPair) : (s.setRpair r x).site = s.site := rfl

/-! ### setCrm -/

@[simp] theorem setCrm_pending (c : Nat) (x : CrmChan) : (s.setCrm c x).pending = s.pending := rfl
@[simp] theorem setCrm_ntc (c : Nat) (x : CrmChan) : (s.setCrm c x).ntc = s.ntc := rfl
@[simp] theorem setCrm_tickMin (c : Nat) (x : CrmChan) : (s.setCrm c x).tickMin = s.tickMin := rfl
@[simp] theorem setCrm_lastTick (c : Nat) (x : CrmChan) : (s.setCrm c x).lastTick = s.lastTick := rfl
@[simp] theorem setCrm_stretch (c : Nat) (x : CrmChan) : (s.setCrm c x).stretch = s.stretch := rfl
@[simp] theorem setCrm_freeSeq (c : Nat) (x : CrmChan) : (s.setCrm c x).freeSeq = s.freeSeq := rfl
@[simp] theorem setCrm_regs (c : Nat) (x : CrmChan) : (s.setCrm c x).regs = s.regs := rfl
@[simp] theorem setCrm_hwSet (c : Nat) (x : CrmChan) : (s.setCrm c x).hwSet = s.hwSet := rfl
@[simp] theorem setCrm_deferred (c : Nat) (x : CrmChan) : (s.setCrm c x).deferred = s.deferred := rfl
@[simp] theorem setCrm_mem (c : Nat) (x : CrmChan) : (s.setCrm c x).mem = s.mem := rfl
@[simp] theorem setCrm_memErr (c : Nat) (x : CrmChan) : (s.setCrm c x).memErr = s.memErr := rfl
@[simp] theorem setCrm_extOld (c : Nat) (x : CrmChan) : (s.setCrm c x).extOld = s.extOld := rfl
@[simp] theorem setCrm_coreOld (c : Nat) (x : CrmChan) : (s.setCrm c x).coreOld = s.coreOld := rfl
@[simp] theorem setCrm_shadowQ (c : Nat) (x : CrmChan) : (s.setCrm c x).shadowQ = s.shadowQ := rfl
@[simp] theorem setCrm_resps (c : Nat) (x : CrmChan) : (s.setCrm c x).resps = s.resps := rfl
@[simp] theorem setCrm_cores (c : Nat) (x : CrmChan) : (s.setCrm c x).cores = s.cores := rfl
@[simp] theorem setCrm_baristas (c : Nat) (x : CrmChan) : (s.setCrm c x).baristas = s.baristas := rfl
@[simp] theorem setCrm_map (c : Nat) (x : CrmChan) : (s.setCrm c x).map = s.map := rfl
@[simp] theorem setCrm_srcs (c : Nat) (x : CrmChan) : (s.setCrm c x).srcs = s.srcs := rfl
@[simp] theorem setCrm_privSpan (c : Nat) (x : CrmChan) : (s.setCrm c x).privSpan = s.privSpan := rfl
@[simp] theorem setCrm_carLast (c : Nat) (x : CrmChan) : (s.setCrm c x).carLast = s.carLast := rfl
@[simp] theorem setCrm_chans (c : Nat) (x : CrmChan) : (s.setCrm c x).chans = s.chans := rfl
@[simp] theorem setCrm_capts (c : Nat) (x : CrmChan) : (s.setCrm c x).capts = s.capts := rfl
@[simp] theorem setCrm_tpExt (c : Nat) (x : CrmChan) : (s.setCrm c x).tpExt = s.tpExt := rfl
@[simp] theorem setCrm_tpHist (c : Nat) (x : CrmChan) : (s.setCrm c x).tpHist = s.tpHist := rfl
@[simp] theorem setCrm_pinActs (c : Nat) (x : CrmChan) : (s.setCrm c x).pinActs = s.pinActs := rfl
@[simp] theorem setCrm_grpAt (c : Nat) (x : CrmChan) : (s.setCrm c x).grpAt = s.grpAt := rfl
@[simp] theorem setCrm_queues (c : Nat) (x : CrmChan) : (s.setCrm c x).queues = s.queues := rfl
@[simp] theorem setCrm_iops (c : Nat) (x : CrmChan) : (s.setCrm c x).iops = s.iops := rfl
@[simp] theorem setCrm_takeover (c : Nat) (x : CrmChan) : (s.setCrm c x).takeover = s.takeover := rfl
@[simp] theorem setCrm_msixEn (c : Nat) (x : CrmChan) : (s.setCrm c x).msixEn = s.msixEn := rfl
@[simp] theorem setCrm_msixFm (c : Nat) (x : CrmChan) : (s.setCrm c x).msixFm = s.msixFm := rfl
@[simp] theorem setCrm_msix (c : Nat) (x : CrmChan) : (s.setCrm c x).msix = s.msix := rfl
@[simp] theorem setCrm_msixPend (c : Nat) (x : CrmChan) : (s.setCrm c x).msixPend = s.msixPend := rfl
@[simp] theorem setCrm_msixOut (c : Nat) (x : CrmChan) : (s.setCrm c x).msixOut = s.msixOut := rfl
@[simp] theorem setCrm_ring (c : Nat) (x : CrmChan) : (s.setCrm c x).ring = s.ring := rfl
@[simp] theorem setCrm_stretchOff (c : Nat) (x : CrmChan) : (s.setCrm c x).stretchOff = s.stretchOff := rfl
@[simp] theorem setCrm_audio (c : Nat) (x : CrmChan) : (s.setCrm c x).audio = s.audio := rfl
@[simp] theorem setCrm_keep (c : Nat) (x : CrmChan) : (s.setCrm c x).keep = s.keep := rfl
@[simp] theorem setCrm_boot (c : Nat) (x : CrmChan) : (s.setCrm c x).boot = s.boot := rfl
@[simp] theorem setCrm_pairs (c : Nat) (x : CrmChan) : (s.setCrm c x).pairs = s.pairs := rfl
@[simp] theorem setCrm_pcie (c : Nat) (x : CrmChan) : (s.setCrm c x).pcie = s.pcie := rfl
@[simp] theorem setCrm_power (c : Nat) (x : CrmChan) : (s.setCrm c x).power = s.power := rfl
@[simp] theorem setCrm_service (c : Nat) (x : CrmChan) : (s.setCrm c x).service = s.service := rfl
@[simp] theorem setCrm_regWas (c : Nat) (x : CrmChan) : (s.setCrm c x).regWas = s.regWas := rfl
@[simp] theorem setCrm_tpForce (c : Nat) (x : CrmChan) : (s.setCrm c x).tpForce = s.tpForce := rfl
@[simp] theorem setCrm_snaps (c : Nat) (x : CrmChan) : (s.setCrm c x).snaps = s.snaps := rfl
@[simp] theorem setCrm_lossAt (c : Nat) (x : CrmChan) : (s.setCrm c x).lossAt = s.lossAt := rfl
@[simp] theorem setCrm_site (c : Nat) (x : CrmChan) : (s.setCrm c x).site = s.site := rfl

/-! ### setBoot -/

@[simp] theorem setBoot_pending (x : Boot) : (s.setBoot x).pending = s.pending := rfl
@[simp] theorem setBoot_ntc (x : Boot) : (s.setBoot x).ntc = s.ntc := rfl
@[simp] theorem setBoot_tickMin (x : Boot) : (s.setBoot x).tickMin = s.tickMin := rfl
@[simp] theorem setBoot_lastTick (x : Boot) : (s.setBoot x).lastTick = s.lastTick := rfl
@[simp] theorem setBoot_stretch (x : Boot) : (s.setBoot x).stretch = s.stretch := rfl
@[simp] theorem setBoot_freeSeq (x : Boot) : (s.setBoot x).freeSeq = s.freeSeq := rfl
@[simp] theorem setBoot_regs (x : Boot) : (s.setBoot x).regs = s.regs := rfl
@[simp] theorem setBoot_hwSet (x : Boot) : (s.setBoot x).hwSet = s.hwSet := rfl
@[simp] theorem setBoot_deferred (x : Boot) : (s.setBoot x).deferred = s.deferred := rfl
@[simp] theorem setBoot_mem (x : Boot) : (s.setBoot x).mem = s.mem := rfl
@[simp] theorem setBoot_memErr (x : Boot) : (s.setBoot x).memErr = s.memErr := rfl
@[simp] theorem setBoot_extOld (x : Boot) : (s.setBoot x).extOld = s.extOld := rfl
@[simp] theorem setBoot_coreOld (x : Boot) : (s.setBoot x).coreOld = s.coreOld := rfl
@[simp] theorem setBoot_shadowQ (x : Boot) : (s.setBoot x).shadowQ = s.shadowQ := rfl
@[simp] theorem setBoot_resps (x : Boot) : (s.setBoot x).resps = s.resps := rfl
@[simp] theorem setBoot_cores (x : Boot) : (s.setBoot x).cores = s.cores := rfl
@[simp] theorem setBoot_baristas (x : Boot) : (s.setBoot x).baristas = s.baristas := rfl
@[simp] theorem setBoot_map (x : Boot) : (s.setBoot x).map = s.map := rfl
@[simp] theorem setBoot_srcs (x : Boot) : (s.setBoot x).srcs = s.srcs := rfl
@[simp] theorem setBoot_privSpan (x : Boot) : (s.setBoot x).privSpan = s.privSpan := rfl
@[simp] theorem setBoot_carLast (x : Boot) : (s.setBoot x).carLast = s.carLast := rfl
@[simp] theorem setBoot_chans (x : Boot) : (s.setBoot x).chans = s.chans := rfl
@[simp] theorem setBoot_capts (x : Boot) : (s.setBoot x).capts = s.capts := rfl
@[simp] theorem setBoot_tpExt (x : Boot) : (s.setBoot x).tpExt = s.tpExt := rfl
@[simp] theorem setBoot_tpHist (x : Boot) : (s.setBoot x).tpHist = s.tpHist := rfl
@[simp] theorem setBoot_pinActs (x : Boot) : (s.setBoot x).pinActs = s.pinActs := rfl
@[simp] theorem setBoot_grpAt (x : Boot) : (s.setBoot x).grpAt = s.grpAt := rfl
@[simp] theorem setBoot_queues (x : Boot) : (s.setBoot x).queues = s.queues := rfl
@[simp] theorem setBoot_iops (x : Boot) : (s.setBoot x).iops = s.iops := rfl
@[simp] theorem setBoot_takeover (x : Boot) : (s.setBoot x).takeover = s.takeover := rfl
@[simp] theorem setBoot_msixEn (x : Boot) : (s.setBoot x).msixEn = s.msixEn := rfl
@[simp] theorem setBoot_msixFm (x : Boot) : (s.setBoot x).msixFm = s.msixFm := rfl
@[simp] theorem setBoot_msix (x : Boot) : (s.setBoot x).msix = s.msix := rfl
@[simp] theorem setBoot_msixPend (x : Boot) : (s.setBoot x).msixPend = s.msixPend := rfl
@[simp] theorem setBoot_msixOut (x : Boot) : (s.setBoot x).msixOut = s.msixOut := rfl
@[simp] theorem setBoot_ring (x : Boot) : (s.setBoot x).ring = s.ring := rfl
@[simp] theorem setBoot_stretchOff (x : Boot) : (s.setBoot x).stretchOff = s.stretchOff := rfl
@[simp] theorem setBoot_crema (x : Boot) : (s.setBoot x).crema = s.crema := rfl
@[simp] theorem setBoot_audio (x : Boot) : (s.setBoot x).audio = s.audio := rfl
@[simp] theorem setBoot_keep (x : Boot) : (s.setBoot x).keep = s.keep := rfl
@[simp] theorem setBoot_pairs (x : Boot) : (s.setBoot x).pairs = s.pairs := rfl
@[simp] theorem setBoot_pcie (x : Boot) : (s.setBoot x).pcie = s.pcie := rfl
@[simp] theorem setBoot_power (x : Boot) : (s.setBoot x).power = s.power := rfl
@[simp] theorem setBoot_service (x : Boot) : (s.setBoot x).service = s.service := rfl
@[simp] theorem setBoot_regWas (x : Boot) : (s.setBoot x).regWas = s.regWas := rfl
@[simp] theorem setBoot_tpForce (x : Boot) : (s.setBoot x).tpForce = s.tpForce := rfl
@[simp] theorem setBoot_snaps (x : Boot) : (s.setBoot x).snaps = s.snaps := rfl
@[simp] theorem setBoot_lossAt (x : Boot) : (s.setBoot x).lossAt = s.lossAt := rfl
@[simp] theorem setBoot_site (x : Boot) : (s.setBoot x).site = s.site := rfl

/-! ### setPairs -/

@[simp] theorem setPairs_pending (x : Pairs) : (s.setPairs x).pending = s.pending := rfl
@[simp] theorem setPairs_ntc (x : Pairs) : (s.setPairs x).ntc = s.ntc := rfl
@[simp] theorem setPairs_tickMin (x : Pairs) : (s.setPairs x).tickMin = s.tickMin := rfl
@[simp] theorem setPairs_lastTick (x : Pairs) : (s.setPairs x).lastTick = s.lastTick := rfl
@[simp] theorem setPairs_stretch (x : Pairs) : (s.setPairs x).stretch = s.stretch := rfl
@[simp] theorem setPairs_freeSeq (x : Pairs) : (s.setPairs x).freeSeq = s.freeSeq := rfl
@[simp] theorem setPairs_regs (x : Pairs) : (s.setPairs x).regs = s.regs := rfl
@[simp] theorem setPairs_hwSet (x : Pairs) : (s.setPairs x).hwSet = s.hwSet := rfl
@[simp] theorem setPairs_deferred (x : Pairs) : (s.setPairs x).deferred = s.deferred := rfl
@[simp] theorem setPairs_mem (x : Pairs) : (s.setPairs x).mem = s.mem := rfl
@[simp] theorem setPairs_memErr (x : Pairs) : (s.setPairs x).memErr = s.memErr := rfl
@[simp] theorem setPairs_extOld (x : Pairs) : (s.setPairs x).extOld = s.extOld := rfl
@[simp] theorem setPairs_coreOld (x : Pairs) : (s.setPairs x).coreOld = s.coreOld := rfl
@[simp] theorem setPairs_shadowQ (x : Pairs) : (s.setPairs x).shadowQ = s.shadowQ := rfl
@[simp] theorem setPairs_resps (x : Pairs) : (s.setPairs x).resps = s.resps := rfl
@[simp] theorem setPairs_cores (x : Pairs) : (s.setPairs x).cores = s.cores := rfl
@[simp] theorem setPairs_baristas (x : Pairs) : (s.setPairs x).baristas = s.baristas := rfl
@[simp] theorem setPairs_map (x : Pairs) : (s.setPairs x).map = s.map := rfl
@[simp] theorem setPairs_srcs (x : Pairs) : (s.setPairs x).srcs = s.srcs := rfl
@[simp] theorem setPairs_privSpan (x : Pairs) : (s.setPairs x).privSpan = s.privSpan := rfl
@[simp] theorem setPairs_carLast (x : Pairs) : (s.setPairs x).carLast = s.carLast := rfl
@[simp] theorem setPairs_chans (x : Pairs) : (s.setPairs x).chans = s.chans := rfl
@[simp] theorem setPairs_capts (x : Pairs) : (s.setPairs x).capts = s.capts := rfl
@[simp] theorem setPairs_tpExt (x : Pairs) : (s.setPairs x).tpExt = s.tpExt := rfl
@[simp] theorem setPairs_tpHist (x : Pairs) : (s.setPairs x).tpHist = s.tpHist := rfl
@[simp] theorem setPairs_pinActs (x : Pairs) : (s.setPairs x).pinActs = s.pinActs := rfl
@[simp] theorem setPairs_grpAt (x : Pairs) : (s.setPairs x).grpAt = s.grpAt := rfl
@[simp] theorem setPairs_queues (x : Pairs) : (s.setPairs x).queues = s.queues := rfl
@[simp] theorem setPairs_iops (x : Pairs) : (s.setPairs x).iops = s.iops := rfl
@[simp] theorem setPairs_takeover (x : Pairs) : (s.setPairs x).takeover = s.takeover := rfl
@[simp] theorem setPairs_msixEn (x : Pairs) : (s.setPairs x).msixEn = s.msixEn := rfl
@[simp] theorem setPairs_msixFm (x : Pairs) : (s.setPairs x).msixFm = s.msixFm := rfl
@[simp] theorem setPairs_msix (x : Pairs) : (s.setPairs x).msix = s.msix := rfl
@[simp] theorem setPairs_msixPend (x : Pairs) : (s.setPairs x).msixPend = s.msixPend := rfl
@[simp] theorem setPairs_msixOut (x : Pairs) : (s.setPairs x).msixOut = s.msixOut := rfl
@[simp] theorem setPairs_ring (x : Pairs) : (s.setPairs x).ring = s.ring := rfl
@[simp] theorem setPairs_stretchOff (x : Pairs) : (s.setPairs x).stretchOff = s.stretchOff := rfl
@[simp] theorem setPairs_crema (x : Pairs) : (s.setPairs x).crema = s.crema := rfl
@[simp] theorem setPairs_audio (x : Pairs) : (s.setPairs x).audio = s.audio := rfl
@[simp] theorem setPairs_keep (x : Pairs) : (s.setPairs x).keep = s.keep := rfl
@[simp] theorem setPairs_boot (x : Pairs) : (s.setPairs x).boot = s.boot := rfl
@[simp] theorem setPairs_pcie (x : Pairs) : (s.setPairs x).pcie = s.pcie := rfl
@[simp] theorem setPairs_power (x : Pairs) : (s.setPairs x).power = s.power := rfl
@[simp] theorem setPairs_service (x : Pairs) : (s.setPairs x).service = s.service := rfl
@[simp] theorem setPairs_regWas (x : Pairs) : (s.setPairs x).regWas = s.regWas := rfl
@[simp] theorem setPairs_tpForce (x : Pairs) : (s.setPairs x).tpForce = s.tpForce := rfl
@[simp] theorem setPairs_snaps (x : Pairs) : (s.setPairs x).snaps = s.snaps := rfl
@[simp] theorem setPairs_lossAt (x : Pairs) : (s.setPairs x).lossAt = s.lossAt := rfl
@[simp] theorem setPairs_site (x : Pairs) : (s.setPairs x).site = s.site := rfl

/-! ### setKeep -/

@[simp] theorem setKeep_pending (x : Keep) : (s.setKeep x).pending = s.pending := rfl
@[simp] theorem setKeep_ntc (x : Keep) : (s.setKeep x).ntc = s.ntc := rfl
@[simp] theorem setKeep_tickMin (x : Keep) : (s.setKeep x).tickMin = s.tickMin := rfl
@[simp] theorem setKeep_lastTick (x : Keep) : (s.setKeep x).lastTick = s.lastTick := rfl
@[simp] theorem setKeep_stretch (x : Keep) : (s.setKeep x).stretch = s.stretch := rfl
@[simp] theorem setKeep_freeSeq (x : Keep) : (s.setKeep x).freeSeq = s.freeSeq := rfl
@[simp] theorem setKeep_regs (x : Keep) : (s.setKeep x).regs = s.regs := rfl
@[simp] theorem setKeep_hwSet (x : Keep) : (s.setKeep x).hwSet = s.hwSet := rfl
@[simp] theorem setKeep_deferred (x : Keep) : (s.setKeep x).deferred = s.deferred := rfl
@[simp] theorem setKeep_mem (x : Keep) : (s.setKeep x).mem = s.mem := rfl
@[simp] theorem setKeep_memErr (x : Keep) : (s.setKeep x).memErr = s.memErr := rfl
@[simp] theorem setKeep_extOld (x : Keep) : (s.setKeep x).extOld = s.extOld := rfl
@[simp] theorem setKeep_coreOld (x : Keep) : (s.setKeep x).coreOld = s.coreOld := rfl
@[simp] theorem setKeep_shadowQ (x : Keep) : (s.setKeep x).shadowQ = s.shadowQ := rfl
@[simp] theorem setKeep_resps (x : Keep) : (s.setKeep x).resps = s.resps := rfl
@[simp] theorem setKeep_cores (x : Keep) : (s.setKeep x).cores = s.cores := rfl
@[simp] theorem setKeep_baristas (x : Keep) : (s.setKeep x).baristas = s.baristas := rfl
@[simp] theorem setKeep_map (x : Keep) : (s.setKeep x).map = s.map := rfl
@[simp] theorem setKeep_srcs (x : Keep) : (s.setKeep x).srcs = s.srcs := rfl
@[simp] theorem setKeep_privSpan (x : Keep) : (s.setKeep x).privSpan = s.privSpan := rfl
@[simp] theorem setKeep_carLast (x : Keep) : (s.setKeep x).carLast = s.carLast := rfl
@[simp] theorem setKeep_chans (x : Keep) : (s.setKeep x).chans = s.chans := rfl
@[simp] theorem setKeep_capts (x : Keep) : (s.setKeep x).capts = s.capts := rfl
@[simp] theorem setKeep_tpExt (x : Keep) : (s.setKeep x).tpExt = s.tpExt := rfl
@[simp] theorem setKeep_tpHist (x : Keep) : (s.setKeep x).tpHist = s.tpHist := rfl
@[simp] theorem setKeep_pinActs (x : Keep) : (s.setKeep x).pinActs = s.pinActs := rfl
@[simp] theorem setKeep_grpAt (x : Keep) : (s.setKeep x).grpAt = s.grpAt := rfl
@[simp] theorem setKeep_queues (x : Keep) : (s.setKeep x).queues = s.queues := rfl
@[simp] theorem setKeep_iops (x : Keep) : (s.setKeep x).iops = s.iops := rfl
@[simp] theorem setKeep_takeover (x : Keep) : (s.setKeep x).takeover = s.takeover := rfl
@[simp] theorem setKeep_msixEn (x : Keep) : (s.setKeep x).msixEn = s.msixEn := rfl
@[simp] theorem setKeep_msixFm (x : Keep) : (s.setKeep x).msixFm = s.msixFm := rfl
@[simp] theorem setKeep_msix (x : Keep) : (s.setKeep x).msix = s.msix := rfl
@[simp] theorem setKeep_msixPend (x : Keep) : (s.setKeep x).msixPend = s.msixPend := rfl
@[simp] theorem setKeep_msixOut (x : Keep) : (s.setKeep x).msixOut = s.msixOut := rfl
@[simp] theorem setKeep_ring (x : Keep) : (s.setKeep x).ring = s.ring := rfl
@[simp] theorem setKeep_stretchOff (x : Keep) : (s.setKeep x).stretchOff = s.stretchOff := rfl
@[simp] theorem setKeep_crema (x : Keep) : (s.setKeep x).crema = s.crema := rfl
@[simp] theorem setKeep_audio (x : Keep) : (s.setKeep x).audio = s.audio := rfl
@[simp] theorem setKeep_boot (x : Keep) : (s.setKeep x).boot = s.boot := rfl
@[simp] theorem setKeep_pairs (x : Keep) : (s.setKeep x).pairs = s.pairs := rfl
@[simp] theorem setKeep_pcie (x : Keep) : (s.setKeep x).pcie = s.pcie := rfl
@[simp] theorem setKeep_power (x : Keep) : (s.setKeep x).power = s.power := rfl
@[simp] theorem setKeep_service (x : Keep) : (s.setKeep x).service = s.service := rfl
@[simp] theorem setKeep_regWas (x : Keep) : (s.setKeep x).regWas = s.regWas := rfl
@[simp] theorem setKeep_tpForce (x : Keep) : (s.setKeep x).tpForce = s.tpForce := rfl
@[simp] theorem setKeep_snaps (x : Keep) : (s.setKeep x).snaps = s.snaps := rfl
@[simp] theorem setKeep_lossAt (x : Keep) : (s.setKeep x).lossAt = s.lossAt := rfl
@[simp] theorem setKeep_site (x : Keep) : (s.setKeep x).site = s.site := rfl

/-! ### setPcie -/

@[simp] theorem setPcie_pending (x : Pcie) : (s.setPcie x).pending = s.pending := rfl
@[simp] theorem setPcie_ntc (x : Pcie) : (s.setPcie x).ntc = s.ntc := rfl
@[simp] theorem setPcie_tickMin (x : Pcie) : (s.setPcie x).tickMin = s.tickMin := rfl
@[simp] theorem setPcie_lastTick (x : Pcie) : (s.setPcie x).lastTick = s.lastTick := rfl
@[simp] theorem setPcie_stretch (x : Pcie) : (s.setPcie x).stretch = s.stretch := rfl
@[simp] theorem setPcie_freeSeq (x : Pcie) : (s.setPcie x).freeSeq = s.freeSeq := rfl
@[simp] theorem setPcie_regs (x : Pcie) : (s.setPcie x).regs = s.regs := rfl
@[simp] theorem setPcie_hwSet (x : Pcie) : (s.setPcie x).hwSet = s.hwSet := rfl
@[simp] theorem setPcie_deferred (x : Pcie) : (s.setPcie x).deferred = s.deferred := rfl
@[simp] theorem setPcie_mem (x : Pcie) : (s.setPcie x).mem = s.mem := rfl
@[simp] theorem setPcie_memErr (x : Pcie) : (s.setPcie x).memErr = s.memErr := rfl
@[simp] theorem setPcie_extOld (x : Pcie) : (s.setPcie x).extOld = s.extOld := rfl
@[simp] theorem setPcie_coreOld (x : Pcie) : (s.setPcie x).coreOld = s.coreOld := rfl
@[simp] theorem setPcie_shadowQ (x : Pcie) : (s.setPcie x).shadowQ = s.shadowQ := rfl
@[simp] theorem setPcie_resps (x : Pcie) : (s.setPcie x).resps = s.resps := rfl
@[simp] theorem setPcie_cores (x : Pcie) : (s.setPcie x).cores = s.cores := rfl
@[simp] theorem setPcie_baristas (x : Pcie) : (s.setPcie x).baristas = s.baristas := rfl
@[simp] theorem setPcie_map (x : Pcie) : (s.setPcie x).map = s.map := rfl
@[simp] theorem setPcie_srcs (x : Pcie) : (s.setPcie x).srcs = s.srcs := rfl
@[simp] theorem setPcie_privSpan (x : Pcie) : (s.setPcie x).privSpan = s.privSpan := rfl
@[simp] theorem setPcie_carLast (x : Pcie) : (s.setPcie x).carLast = s.carLast := rfl
@[simp] theorem setPcie_chans (x : Pcie) : (s.setPcie x).chans = s.chans := rfl
@[simp] theorem setPcie_capts (x : Pcie) : (s.setPcie x).capts = s.capts := rfl
@[simp] theorem setPcie_tpExt (x : Pcie) : (s.setPcie x).tpExt = s.tpExt := rfl
@[simp] theorem setPcie_tpHist (x : Pcie) : (s.setPcie x).tpHist = s.tpHist := rfl
@[simp] theorem setPcie_pinActs (x : Pcie) : (s.setPcie x).pinActs = s.pinActs := rfl
@[simp] theorem setPcie_grpAt (x : Pcie) : (s.setPcie x).grpAt = s.grpAt := rfl
@[simp] theorem setPcie_queues (x : Pcie) : (s.setPcie x).queues = s.queues := rfl
@[simp] theorem setPcie_iops (x : Pcie) : (s.setPcie x).iops = s.iops := rfl
@[simp] theorem setPcie_takeover (x : Pcie) : (s.setPcie x).takeover = s.takeover := rfl
@[simp] theorem setPcie_msixEn (x : Pcie) : (s.setPcie x).msixEn = s.msixEn := rfl
@[simp] theorem setPcie_msixFm (x : Pcie) : (s.setPcie x).msixFm = s.msixFm := rfl
@[simp] theorem setPcie_msix (x : Pcie) : (s.setPcie x).msix = s.msix := rfl
@[simp] theorem setPcie_msixPend (x : Pcie) : (s.setPcie x).msixPend = s.msixPend := rfl
@[simp] theorem setPcie_msixOut (x : Pcie) : (s.setPcie x).msixOut = s.msixOut := rfl
@[simp] theorem setPcie_ring (x : Pcie) : (s.setPcie x).ring = s.ring := rfl
@[simp] theorem setPcie_stretchOff (x : Pcie) : (s.setPcie x).stretchOff = s.stretchOff := rfl
@[simp] theorem setPcie_crema (x : Pcie) : (s.setPcie x).crema = s.crema := rfl
@[simp] theorem setPcie_audio (x : Pcie) : (s.setPcie x).audio = s.audio := rfl
@[simp] theorem setPcie_keep (x : Pcie) : (s.setPcie x).keep = s.keep := rfl
@[simp] theorem setPcie_boot (x : Pcie) : (s.setPcie x).boot = s.boot := rfl
@[simp] theorem setPcie_pairs (x : Pcie) : (s.setPcie x).pairs = s.pairs := rfl
@[simp] theorem setPcie_power (x : Pcie) : (s.setPcie x).power = s.power := rfl
@[simp] theorem setPcie_service (x : Pcie) : (s.setPcie x).service = s.service := rfl
@[simp] theorem setPcie_regWas (x : Pcie) : (s.setPcie x).regWas = s.regWas := rfl
@[simp] theorem setPcie_tpForce (x : Pcie) : (s.setPcie x).tpForce = s.tpForce := rfl
@[simp] theorem setPcie_snaps (x : Pcie) : (s.setPcie x).snaps = s.snaps := rfl
@[simp] theorem setPcie_lossAt (x : Pcie) : (s.setPcie x).lossAt = s.lossAt := rfl
@[simp] theorem setPcie_site (x : Pcie) : (s.setPcie x).site = s.site := rfl

/-! ### setPower -/

@[simp] theorem setPower_pending (x : Power) : (s.setPower x).pending = s.pending := rfl
@[simp] theorem setPower_ntc (x : Power) : (s.setPower x).ntc = s.ntc := rfl
@[simp] theorem setPower_tickMin (x : Power) : (s.setPower x).tickMin = s.tickMin := rfl
@[simp] theorem setPower_lastTick (x : Power) : (s.setPower x).lastTick = s.lastTick := rfl
@[simp] theorem setPower_stretch (x : Power) : (s.setPower x).stretch = s.stretch := rfl
@[simp] theorem setPower_freeSeq (x : Power) : (s.setPower x).freeSeq = s.freeSeq := rfl
@[simp] theorem setPower_regs (x : Power) : (s.setPower x).regs = s.regs := rfl
@[simp] theorem setPower_hwSet (x : Power) : (s.setPower x).hwSet = s.hwSet := rfl
@[simp] theorem setPower_deferred (x : Power) : (s.setPower x).deferred = s.deferred := rfl
@[simp] theorem setPower_mem (x : Power) : (s.setPower x).mem = s.mem := rfl
@[simp] theorem setPower_memErr (x : Power) : (s.setPower x).memErr = s.memErr := rfl
@[simp] theorem setPower_extOld (x : Power) : (s.setPower x).extOld = s.extOld := rfl
@[simp] theorem setPower_coreOld (x : Power) : (s.setPower x).coreOld = s.coreOld := rfl
@[simp] theorem setPower_shadowQ (x : Power) : (s.setPower x).shadowQ = s.shadowQ := rfl
@[simp] theorem setPower_resps (x : Power) : (s.setPower x).resps = s.resps := rfl
@[simp] theorem setPower_cores (x : Power) : (s.setPower x).cores = s.cores := rfl
@[simp] theorem setPower_baristas (x : Power) : (s.setPower x).baristas = s.baristas := rfl
@[simp] theorem setPower_map (x : Power) : (s.setPower x).map = s.map := rfl
@[simp] theorem setPower_srcs (x : Power) : (s.setPower x).srcs = s.srcs := rfl
@[simp] theorem setPower_privSpan (x : Power) : (s.setPower x).privSpan = s.privSpan := rfl
@[simp] theorem setPower_carLast (x : Power) : (s.setPower x).carLast = s.carLast := rfl
@[simp] theorem setPower_chans (x : Power) : (s.setPower x).chans = s.chans := rfl
@[simp] theorem setPower_capts (x : Power) : (s.setPower x).capts = s.capts := rfl
@[simp] theorem setPower_tpExt (x : Power) : (s.setPower x).tpExt = s.tpExt := rfl
@[simp] theorem setPower_tpHist (x : Power) : (s.setPower x).tpHist = s.tpHist := rfl
@[simp] theorem setPower_pinActs (x : Power) : (s.setPower x).pinActs = s.pinActs := rfl
@[simp] theorem setPower_grpAt (x : Power) : (s.setPower x).grpAt = s.grpAt := rfl
@[simp] theorem setPower_queues (x : Power) : (s.setPower x).queues = s.queues := rfl
@[simp] theorem setPower_iops (x : Power) : (s.setPower x).iops = s.iops := rfl
@[simp] theorem setPower_takeover (x : Power) : (s.setPower x).takeover = s.takeover := rfl
@[simp] theorem setPower_msixEn (x : Power) : (s.setPower x).msixEn = s.msixEn := rfl
@[simp] theorem setPower_msixFm (x : Power) : (s.setPower x).msixFm = s.msixFm := rfl
@[simp] theorem setPower_msix (x : Power) : (s.setPower x).msix = s.msix := rfl
@[simp] theorem setPower_msixPend (x : Power) : (s.setPower x).msixPend = s.msixPend := rfl
@[simp] theorem setPower_msixOut (x : Power) : (s.setPower x).msixOut = s.msixOut := rfl
@[simp] theorem setPower_ring (x : Power) : (s.setPower x).ring = s.ring := rfl
@[simp] theorem setPower_stretchOff (x : Power) : (s.setPower x).stretchOff = s.stretchOff := rfl
@[simp] theorem setPower_crema (x : Power) : (s.setPower x).crema = s.crema := rfl
@[simp] theorem setPower_audio (x : Power) : (s.setPower x).audio = s.audio := rfl
@[simp] theorem setPower_keep (x : Power) : (s.setPower x).keep = s.keep := rfl
@[simp] theorem setPower_boot (x : Power) : (s.setPower x).boot = s.boot := rfl
@[simp] theorem setPower_pairs (x : Power) : (s.setPower x).pairs = s.pairs := rfl
@[simp] theorem setPower_pcie (x : Power) : (s.setPower x).pcie = s.pcie := rfl
@[simp] theorem setPower_service (x : Power) : (s.setPower x).service = s.service := rfl
@[simp] theorem setPower_regWas (x : Power) : (s.setPower x).regWas = s.regWas := rfl
@[simp] theorem setPower_tpForce (x : Power) : (s.setPower x).tpForce = s.tpForce := rfl
@[simp] theorem setPower_snaps (x : Power) : (s.setPower x).snaps = s.snaps := rfl
@[simp] theorem setPower_lossAt (x : Power) : (s.setPower x).lossAt = s.lossAt := rfl
@[simp] theorem setPower_site (x : Power) : (s.setPower x).site = s.site := rfl

/-! ### setService -/

@[simp] theorem setService_pending (x : Service) : (s.setService x).pending = s.pending := rfl
@[simp] theorem setService_ntc (x : Service) : (s.setService x).ntc = s.ntc := rfl
@[simp] theorem setService_tickMin (x : Service) : (s.setService x).tickMin = s.tickMin := rfl
@[simp] theorem setService_lastTick (x : Service) : (s.setService x).lastTick = s.lastTick := rfl
@[simp] theorem setService_stretch (x : Service) : (s.setService x).stretch = s.stretch := rfl
@[simp] theorem setService_freeSeq (x : Service) : (s.setService x).freeSeq = s.freeSeq := rfl
@[simp] theorem setService_regs (x : Service) : (s.setService x).regs = s.regs := rfl
@[simp] theorem setService_hwSet (x : Service) : (s.setService x).hwSet = s.hwSet := rfl
@[simp] theorem setService_deferred (x : Service) : (s.setService x).deferred = s.deferred := rfl
@[simp] theorem setService_mem (x : Service) : (s.setService x).mem = s.mem := rfl
@[simp] theorem setService_memErr (x : Service) : (s.setService x).memErr = s.memErr := rfl
@[simp] theorem setService_extOld (x : Service) : (s.setService x).extOld = s.extOld := rfl
@[simp] theorem setService_coreOld (x : Service) : (s.setService x).coreOld = s.coreOld := rfl
@[simp] theorem setService_shadowQ (x : Service) : (s.setService x).shadowQ = s.shadowQ := rfl
@[simp] theorem setService_resps (x : Service) : (s.setService x).resps = s.resps := rfl
@[simp] theorem setService_cores (x : Service) : (s.setService x).cores = s.cores := rfl
@[simp] theorem setService_baristas (x : Service) : (s.setService x).baristas = s.baristas := rfl
@[simp] theorem setService_map (x : Service) : (s.setService x).map = s.map := rfl
@[simp] theorem setService_srcs (x : Service) : (s.setService x).srcs = s.srcs := rfl
@[simp] theorem setService_privSpan (x : Service) : (s.setService x).privSpan = s.privSpan := rfl
@[simp] theorem setService_carLast (x : Service) : (s.setService x).carLast = s.carLast := rfl
@[simp] theorem setService_chans (x : Service) : (s.setService x).chans = s.chans := rfl
@[simp] theorem setService_capts (x : Service) : (s.setService x).capts = s.capts := rfl
@[simp] theorem setService_tpExt (x : Service) : (s.setService x).tpExt = s.tpExt := rfl
@[simp] theorem setService_tpHist (x : Service) : (s.setService x).tpHist = s.tpHist := rfl
@[simp] theorem setService_pinActs (x : Service) : (s.setService x).pinActs = s.pinActs := rfl
@[simp] theorem setService_grpAt (x : Service) : (s.setService x).grpAt = s.grpAt := rfl
@[simp] theorem setService_queues (x : Service) : (s.setService x).queues = s.queues := rfl
@[simp] theorem setService_iops (x : Service) : (s.setService x).iops = s.iops := rfl
@[simp] theorem setService_takeover (x : Service) : (s.setService x).takeover = s.takeover := rfl
@[simp] theorem setService_msixEn (x : Service) : (s.setService x).msixEn = s.msixEn := rfl
@[simp] theorem setService_msixFm (x : Service) : (s.setService x).msixFm = s.msixFm := rfl
@[simp] theorem setService_msix (x : Service) : (s.setService x).msix = s.msix := rfl
@[simp] theorem setService_msixPend (x : Service) : (s.setService x).msixPend = s.msixPend := rfl
@[simp] theorem setService_msixOut (x : Service) : (s.setService x).msixOut = s.msixOut := rfl
@[simp] theorem setService_ring (x : Service) : (s.setService x).ring = s.ring := rfl
@[simp] theorem setService_stretchOff (x : Service) : (s.setService x).stretchOff = s.stretchOff := rfl
@[simp] theorem setService_crema (x : Service) : (s.setService x).crema = s.crema := rfl
@[simp] theorem setService_audio (x : Service) : (s.setService x).audio = s.audio := rfl
@[simp] theorem setService_keep (x : Service) : (s.setService x).keep = s.keep := rfl
@[simp] theorem setService_boot (x : Service) : (s.setService x).boot = s.boot := rfl
@[simp] theorem setService_pairs (x : Service) : (s.setService x).pairs = s.pairs := rfl
@[simp] theorem setService_pcie (x : Service) : (s.setService x).pcie = s.pcie := rfl
@[simp] theorem setService_power (x : Service) : (s.setService x).power = s.power := rfl
@[simp] theorem setService_regWas (x : Service) : (s.setService x).regWas = s.regWas := rfl
@[simp] theorem setService_tpForce (x : Service) : (s.setService x).tpForce = s.tpForce := rfl
@[simp] theorem setService_snaps (x : Service) : (s.setService x).snaps = s.snaps := rfl
@[simp] theorem setService_lossAt (x : Service) : (s.setService x).lossAt = s.lossAt := rfl
@[simp] theorem setService_site (x : Service) : (s.setService x).site = s.site := rfl

/-! ### What the updated field holds -/

@[simp] theorem setQueue_queues (h : Nat) (q : QueueSt) : (s.setQueue h q).queues = kput s.queues h q := rfl
@[simp] theorem answer_resps (i : Ini) (d : List Byte) (e : Bool) : (s.answer i d e).resps = kput s.resps (iniNum i) ⟨d, e⟩ := rfl
@[simp] theorem setSrc_srcs (n : Nat) (x : SrcSt) : (s.setSrc n x).srcs = kput s.srcs n x := rfl
@[simp] theorem setChan_chans (n : Nat) (x : Chan) : (s.setChan n x).chans = kput s.chans n x := rfl
@[simp] theorem setBoot_boot (x : Boot) : (s.setBoot x).boot = x := rfl
@[simp] theorem setPairs_pairs (x : Pairs) : (s.setPairs x).pairs = x := rfl
@[simp] theorem setKeep_keep (x : Keep) : (s.setKeep x).keep = x := rfl
@[simp] theorem setPcie_pcie (x : Pcie) : (s.setPcie x).pcie = x := rfl
@[simp] theorem setPower_power (x : Power) : (s.setPower x).power = x := rfl
@[simp] theorem setService_service (x : Service) : (s.setService x).service = x := rfl

/-! ### Registers -/

/-- A register instance reads what hardware put there. -/
@[simp] theorem reg_setReg_same (n : RegName) (v : W32) (i j : Nat) : (s.setReg n v i j).reg n i j = v := by
  simp [State.reg, State.setReg]

/-- Another instance reads as before. -/
theorem reg_setReg_ne {n m : RegName} {i j k l : Nat} (v : W32) (h : regOff m k l ≠ regOff n i j) :
    (s.setReg n v i j).reg m k l = s.reg m k l := by
  simp [State.reg, State.setReg, h]

/-- What a state's registers read depends on them alone. -/
theorem reg_congr {s t : State} (h : t.regs = s.regs) (n : RegName) (i j : Nat) : t.reg n i j = s.reg n i j := by
  simp [State.reg, h]

theorem fld_congr {s t : State} (h : t.regs = s.regs) (n : RegName) (hi lo i j : Nat) :
    t.fld n hi lo i j = s.fld n hi lo i j := by
  simp [State.fld, reg_congr h]

theorem bit_congr {s t : State} (h : t.regs = s.regs) (n : RegName) (b i j : Nat) : t.bit n b i j = s.bit n b i j := by
  simp [State.bit, reg_congr h]

/-- Hardware setting bits of a register. -/
@[simp] theorem reg_raise_same (t : Nat) (n : RegName) (bits i j : Nat) :
    (s.raise t n bits i j).reg n i j = BitVec.ofNat 32 ((s.reg n i j).toNat ||| bits) := by
  simp [State.reg, State.raise, State.setReg]

theorem reg_raise_ne {n m : RegName} {i j k l : Nat} (t bits : Nat) (h : regOff m k l ≠ regOff n i j) :
    (s.raise t n bits i j).reg m k l = s.reg m k l := by
  simp [State.reg, State.raise, State.setReg, h]

@[simp] theorem reg_setFld_same (n : RegName) (hi lo v i j : Nat) :
    (s.setFld n hi lo v i j).reg n i j = withField (s.reg n i j) hi lo v := by
  simp [State.setFld]

theorem reg_setFld_ne {n m : RegName} {i j k l : Nat} (hi lo v : Nat) (h : regOff m k l ≠ regOff n i j) :
    (s.setFld n hi lo v i j).reg m k l = s.reg m k l := reg_setReg_ne s _ h

theorem reg_setBit_ne {n m : RegName} {i j k l : Nat} (b : Nat) (v : Bool) (h : regOff m k l ≠ regOff n i j) :
    (s.setBit n b v i j).reg m k l = s.reg m k l := reg_setReg_ne s _ h

/-! ### Cores -/

theorem nth_setNth_same {α : Type} {l : List α} {i : Nat} (v d : α) (h : i < l.length) : nth (setNth l i v) i d = v := by
  simp [nth, setNth, List.getD, h]

theorem nth_setNth_ne {α : Type} {l : List α} {i k : Nat} (v d : α) (h : k ≠ i) : nth (setNth l i v) k d = nth l k d := by
  simp [nth, setNth, List.getD, List.getElem?_set_ne h.symm]

@[simp] theorem setNth_length {α : Type} (l : List α) (i : Nat) (v : α) : (setNth l i v).length = l.length := by
  simp [setNth]

/-- A core of the device reads as it was set. -/
theorem core_setCore_same {p : Nat} (c : Core) (h : p < s.cores.length) :
    (s.setCore (.eduno p) c).core (.eduno p) = c := nth_setNth_same _ _ h

theorem core_setCore_pair {r : Nat} (c : Core) (h : r < s.baristas.length) :
    (s.setCore (.barista r) c).core (.barista r) = c := nth_setNth_same _ _ h

/-- Every other core stands. -/
theorem core_setCore_ne {w v : CoreSel} (c : Core) (h : v ≠ w) : (s.setCore w c).core v = s.core v := by
  cases w <;> cases v <;> simp only [State.core, State.setCore] <;> first
    | rfl
    | exact nth_setNth_ne _ _ (fun e => h (by rw [e]))

end Sys2Proof.Machine
end

