-- ==== Sys2Proof/Laws/Kept.lean ====
section
/-! SUPPORT. What no command changes, and how a proof that an operation keeps it is put together. -/

namespace Sys2Proof.Machine

/-- How many ports, pairs, Crema channels, runs, EVAC pins and flash devices the parts of a state have. -/
abbrev widthsOf (r : Ring) (c : Crema) (a : Audio) (b : Boot) : List Nat :=
  [r.ports.length, r.pairs.length, c.chans.length, c.runs.length, a.pins.length, b.flash.length]

def State.widths (s : State) : List Nat := widthsOf s.ring s.crema s.audio s.boot

/-- What no command changes: the queue, and how many of each thing there are; and that memory keeps its canonical form. -/
structure Kept (s t : State) : Prop where
  pending : t.pending = s.pending
  cores : s.cores.length = 68 → t.cores.length = 68
  baristas : s.baristas.length = 2 → t.baristas.length = 2
  map : s.map.length = 64 → t.map.length = 64
  mem : Memory.wf s.mem = true → Memory.wf t.mem = true
  widths : s.widths = [4, 2, 32, 8, 8, 2] → t.widths = [4, 2, 32, 8, 8, 2]

theorem wf_nil : Memory.wf [] = true := rfl

theorem Kept.refl (s : State) : Kept s s := ⟨rfl, id, id, id, id, id⟩

theorem Kept.trans {s t u : State} (h : Kept s t) (k : Kept t u) : Kept s u :=
  ⟨k.pending.trans h.pending, k.cores ∘ h.cores, k.baristas ∘ h.baristas, k.map ∘ h.map, k.mem ∘ h.mem, k.widths ∘ h.widths⟩

theorem Kept.ite {s t u : State} {c : Prop} [Decidable c] (h : Kept s t) (k : Kept s u) : Kept s
    (if c then t else u) := by
  split_ifs <;> assumption

theorem Kept.snd {α : Type} {p : α × State} {x : α} {s t : State} (h : p = (x, t)) (k : Kept s p.2) : Kept s t := by
  subst h; exact k

theorem Kept.thd {α β : Type} {p : α × β × State} {x : α} {y : β} {s t : State} (h : p = (x, y, t))
    (k : Kept s p.2.2) :
    Kept s t := by
  subst h; exact k

theorem Kept.foldl2 {α β : Type} {s0 : State} {a : β × State} {f : β × State → α → β × State} {l : List α}
    (h : Kept s0 a.2) (hf : ∀ a x, Kept a.2 (f a x).2) : Kept s0 (l.foldl f a).2 := by
  induction l generalizing a with
  | nil => exact h
  | cons x l ih => exact ih (h.trans (hf a x))

theorem Kept.foldl3 {α β γ : Type} {s0 : State} {a : β × γ × State} {f : β × γ × State → α → β × γ × State} {l : List
    α}
    (h : Kept s0 a.2.2) (hf : ∀ a x, Kept a.2.2 (f a x).2.2) : Kept s0 (l.foldl f a).2.2 := by
  induction l generalizing a with
  | nil => exact h
  | cons x l ih => exact ih (h.trans (hf a x))

theorem Kept.foldl {α : Type} {s0 s : State} {f : State → α → State} {l : List α}
    (h : Kept s0 s) (hf : ∀ s x, Kept s (f s x)) : Kept s0 (l.foldl f s) := by
  induction l generalizing s with
  | nil => exact h
  | cons x l ih => exact ih (h.trans (hf s x))

theorem Kept.upd {s0 s : State} (h : Kept s0 s) {x0 : Nat} {x1 : Option Nat} {x2 : Option Nat}
    {x3 : Option (Nat × Nat)} {x4 : Nat} {x5 : List (Nat × W32)} {x6 : List (Nat × Nat × Nat)}
    {x7 : Nat × List (Nat × W32)} {x8 : List Deferred} {x9 : List Host.Cell} {x10 : List (Nat × Bool)}
    {x11 : Nat × List (Nat × Byte)} {x12 : Nat × List (Nat × Byte)} {x13 : List (Nat × Nat × List Byte × Nat)}
    {x14 : List (Nat × Resp)} {x15 : List Core} {x16 : List Core} {x17 : List (Option Nat)}
    {x18 : List (Nat × SrcSt)} {x19 : List (Nat × Nat)} {x20 : List (Nat × Nat × Nat)} {x21 : List (Nat × Chan)}
    {x22 : List (Nat × Capt)} {x23 : BitVec 32} {x24 : BitVec 32} {x25 : List (Nat × W32 × W32)}
    {x26 : List (Nat × Nat × Nat)} {x27 : List (Nat × Nat)} {x28 : List (Nat × Nat × Nat)}
    {x29 : List (Nat × QueueSt)} {x30 : List (Nat × IOp)} {x31 : Option Takeover} {x32 : Bool} {x33 : Bool}
    {x34 : List (Nat × Nat)} {x35 : List Nat} {x36 : List (Nat × Nat)} {x37 : Ring} {x38 : Option Int}
    {x39 : Option Nat} {x40 : Crema} {x41 : Audio} {x42 : Keep} {x43 : Boot} {x44 : Pairs} {x45 : Pcie}
    {x46 : Power} {x47 : Service} {x48 : BitVec 12}
    (hc : x15.length = s.cores.length) (hb : x16.length = s.baristas.length) (hm : x17.length = s.map.length)
    (hw : Memory.wf s.mem = true → Memory.wf x9 = true)
    (hz : widthsOf x37 x40 x41 x43 = widthsOf s.ring s.crema s.audio s.boot) :
    Kept s0 ⟨s.pending, x0, x1, x2, x3, x4, x5, x6, x7, x8, x9, x10, x11, x12, x13, x14, x15, x16, x17, x18, x19,
      x20, x21, x22, x23, x24, x25, x26, x27, x28, x29, x30, x31, x32, x33, x34, x35, x36, x37, x38, x39, x40, x41,
      x42, x43, x44, x45, x46, x47, x48⟩ :=
  h.trans ⟨rfl, fun e => hc.trans e, fun e => hb.trans e, fun e => hm.trans e, hw, fun e => hz.trans e⟩

end Sys2Proof.Machine
end

