-- ==== Sys2Proof/Laws/KeptRail.lean ====
section
/-! SUPPORT. Operations of the rail, the timers and the memories keep what `Kept` says. -/

set_option linter.unusedTactic false
set_option linter.unreachableTactic false
set_option linter.unusedVariables false

namespace Sys2Proof.Machine

theorem setReg_kept {sK : State} (s : State) (n : RegName) (v : W32) (i : Nat) (j : Nat) (hK : Kept sK s) :
    Kept sK (State.setReg s n v i j) := by
  unfold State.setReg
  (try dsimp only)
  repeat' (first | with_reducible assumption | dsimp only | exact id | refine Kept.upd ?_ ?_ ?_ ?_ ?_ ?_)

theorem setFld_kept {sK : State} (s : State) (n : RegName) (hi lo v : Nat) (i : Nat) (j : Nat) (hK : Kept sK s) :
    Kept sK (State.setFld s n hi lo v i j) := by
  unfold State.setFld
  (try dsimp only)
  repeat' (first | with_reducible assumption | with_reducible exact Kept.refl _ | with_reducible apply setReg_kept)

theorem setBit_kept {sK : State} (s : State) (n : RegName) (b : Nat) (v : Bool) (i : Nat) (j : Nat) (hK : Kept sK s) :
    Kept sK (State.setBit s n b v i j) := by
  unfold State.setBit
  (try dsimp only)
  repeat' (first | with_reducible assumption | with_reducible exact Kept.refl _ | with_reducible apply setFld_kept)

theorem raise_kept {sK : State} (s : State) (t : Nat) (n : RegName) (bits : Nat) (i : Nat) (j : Nat)
    (hK : Kept sK s) :
    Kept sK (State.raise s t n bits i j) := by
  unfold State.raise
  (try dsimp only)
  repeat' (first | with_reducible assumption | with_reducible exact Kept.refl _ | dsimp only | exact id
                 | refine Kept.upd ?_ ?_ ?_ ?_ ?_ ?_)

theorem noteReg_kept {sK : State} (s : State) (t off : Nat) (v : W32) (hK : Kept sK s) :
    Kept sK (State.noteReg s t off v) := by
  unfold State.noteReg
  (try dsimp only)
  repeat' (first | with_reducible assumption | dsimp only | exact id | refine Kept.upd ?_ ?_ ?_ ?_ ?_ ?_)

theorem setNote_kept {sK : State} (s : State) (t off : Nat) (v : W32) (hK : Kept sK s) :
    Kept sK (State.setNote s t off v) := by
  unfold State.setNote
  (try dsimp only)
  repeat' (first | with_reducible assumption | dsimp only | exact id | refine Kept.upd ?_ ?_ ?_ ?_ ?_ ?_)

theorem record_kept {sK : State} (s : State) (t : Nat) (n : RegName) (w : W32) (i : Nat) (hK : Kept sK s) :
    Kept sK (State.record s t n w i) := by
  unfold State.record
  (try dsimp only)
  repeat' (first | with_reducible assumption | with_reducible apply raise_kept | with_reducible apply setReg_kept
                 | with_reducible apply Kept.ite)

theorem free_kept {sK : State} (s : State) (kind w : Nat) (hK : Kept sK s) :
    Kept sK (State.free s kind w).2 := by
  unfold State.free
  (try dsimp only)
  repeat' (first | with_reducible assumption | dsimp only | exact id | refine Kept.upd ?_ ?_ ?_ ?_ ?_ ?_)

theorem setCore_kept {sK : State} (s : State) (w : CoreSel) (c : Core) (hK : Kept sK s) :
    Kept sK (State.setCore s w c) := by
  unfold State.setCore
  (try dsimp only)
  repeat' (first | with_reducible assumption | split | refine Kept.upd ?_ ?_ ?_ ?_ ?_ ?_ | (simp; done))

theorem withPourCfg_kept {sK : State} (s : State) (hK : Kept sK s) :
    Kept sK (withPourCfg s) := by
  unfold withPourCfg
  (try dsimp only)
  repeat' (first | with_reducible assumption | with_reducible exact Kept.refl _ | with_reducible apply setReg_kept
                 | split)

theorem setQueue_kept {sK : State} (s : State) (h : Nat) (q : QueueSt) (hK : Kept sK s) :
    Kept sK (State.setQueue s h q) := by
  unfold State.setQueue
  (try dsimp only)
  repeat' (first | with_reducible assumption | dsimp only | exact id | refine Kept.upd ?_ ?_ ?_ ?_ ?_ ?_)

theorem setQdWord_kept {sK : State} (s : State) (h off : Nat) (v : W32) (hK : Kept sK s) :
    Kept sK (State.setQdWord s h off v) := by
  unfold State.setQdWord
  (try dsimp only)
  repeat' (first | with_reducible assumption | dsimp only | exact fun h => memWrite_wf h
                 | refine Kept.upd ?_ ?_ ?_ ?_ ?_ ?_)

theorem setQdFld_kept {sK : State} (s : State) (h off hi lo v : Nat) (hK : Kept sK s) :
    Kept sK (State.setQdFld s h off hi lo v) := by
  unfold State.setQdFld
  (try dsimp only)
  repeat' (first | with_reducible assumption | with_reducible exact Kept.refl _ | with_reducible apply setQdWord_kept)

theorem answer_kept {sK : State} (s : State) (i : Ini) (data : List Byte) (err : Bool) (hK : Kept sK s) :
    Kept sK (State.answer s i data err) := by
  unfold State.answer
  (try dsimp only)
  repeat' (first | with_reducible assumption | dsimp only | exact id | refine Kept.upd ?_ ?_ ?_ ?_ ?_ ?_)

theorem setSrc_kept {sK : State} (s : State) (n : Nat) (x : SrcSt) (hK : Kept sK s) :
    Kept sK (State.setSrc s n x) := by
  unfold State.setSrc
  (try dsimp only)
  repeat' (first | with_reducible assumption | dsimp only | exact id | refine Kept.upd ?_ ?_ ?_ ?_ ?_ ?_)

theorem presentCore_kept {sK : State} (s : State) (w : CoreSel) (t : Nat) (hK : Kept sK s) :
    Kept sK (presentCore s w t) := by
  unfold presentCore
  (try dsimp only)
  repeat' (first | with_reducible assumption | with_reducible apply setCore_kept | split)

theorem presentTarget_kept {sK : State} (s : State) (n t : Nat) (hK : Kept sK s) :
    Kept sK (presentTarget s n t) := by
  unfold presentTarget
  (try dsimp only)
  repeat' (first | with_reducible assumption | with_reducible apply presentCore_kept | split)

theorem presentAll_kept {sK : State} (s : State) (t : Nat) (hK : Kept sK s) :
    Kept sK (presentAll s t) := by
  unfold presentAll
  (try dsimp only)
  repeat' (first | with_reducible assumption | with_reducible exact Kept.refl _
                 | with_reducible apply presentCore_kept | with_reducible refine Kept.foldl ?_ ?_ | intro _)

theorem msixDue_kept {sK : State} (s : State) (v : Nat) (hK : Kept sK s) :
    Kept sK (msixDue s v) := by
  unfold msixDue
  (try dsimp only)
  repeat' (first | with_reducible assumption | with_reducible apply Kept.ite | dsimp only | exact id
                 | refine Kept.upd ?_ ?_ ?_ ?_ ?_ ?_)

theorem mirror_kept {sK : State} (s : State) (n : Nat) (hK : Kept sK s) :
    Kept sK (mirror s n) := by
  unfold mirror
  (try dsimp only)
  repeat' (first | with_reducible assumption | with_reducible apply msixDue_kept | with_reducible apply Kept.ite)

theorem release_kept {sK : State} (s : State) (n t : Nat) (hK : Kept sK s) :
    Kept sK (release s n t) := by
  unfold release
  (try dsimp only)
  repeat' (first | with_reducible assumption | with_reducible apply mirror_kept | with_reducible apply raise_kept)

theorem windowEnd_kept {sK : State} (s : State) (n t : Nat) (hK : Kept sK s) :
    Kept sK (windowEnd s n t) := by
  unfold windowEnd
  (try dsimp only)
  repeat' (first | with_reducible assumption | with_reducible apply release_kept | with_reducible apply setSrc_kept
                 | split)

theorem srcEvent_kept {sK : State} (s : State) (n t : Nat) (hK : Kept sK s) :
    Kept sK (srcEvent s n t) := by
  unfold srcEvent
  (try dsimp only)
  repeat' (first | with_reducible assumption | with_reducible apply windowEnd_kept | with_reducible apply release_kept
                 | with_reducible apply setSrc_kept | with_reducible apply Kept.ite)

theorem fallEdge_kept {sK : State} (s : State) (n f : Nat) (hK : Kept sK s) :
    Kept sK (fallEdge s n f) := by
  unfold fallEdge
  (try dsimp only)
  repeat' (first | with_reducible assumption | with_reducible apply setSrc_kept
                 | with_reducible apply presentTarget_kept | with_reducible apply mirror_kept
                 | with_reducible apply srcEvent_kept | with_reducible apply Kept.ite)

theorem settleFalls_kept {sK : State} (s : State) (t : Nat) (hK : Kept sK s) :
    Kept sK (settleFalls s t) := by
  unfold settleFalls
  (try dsimp only)
  repeat' (first | with_reducible assumption | with_reducible exact Kept.refl _ | with_reducible apply fallEdge_kept
                 | with_reducible refine Kept.foldl ?_ ?_ | intro _ | split)

theorem latchEdge_kept {sK : State} (s : State) (n : Nat) (hK : Kept sK s) :
    Kept sK (latchEdge s n) := by
  unfold latchEdge
  (try dsimp only)
  repeat' (first | with_reducible assumption | with_reducible apply setSrc_kept | with_reducible apply Kept.ite)

theorem pulse_kept {sK : State} (s : State) (n t : Nat) (hK : Kept sK s) :
    Kept sK (pulse s n t) := by
  unfold pulse
  (try dsimp only)
  repeat' (first | with_reducible assumption | with_reducible apply latchEdge_kept | with_reducible apply setSrc_kept
                 | with_reducible apply presentTarget_kept | with_reducible apply mirror_kept
                 | with_reducible apply srcEvent_kept | with_reducible apply Kept.ite)

theorem setLevel_kept {sK : State} (s : State) (n : Nat) (v : Bool) (t : Nat) (hK : Kept sK s) :
    Kept sK (setLevel s n v t) := by
  unfold setLevel
  (try dsimp only)
  repeat' (first | with_reducible assumption | with_reducible apply setSrc_kept | with_reducible apply latchEdge_kept
                 | with_reducible apply presentTarget_kept | with_reducible apply mirror_kept
                 | with_reducible apply srcEvent_kept | with_reducible apply Kept.ite)

theorem privPulse_kept {sK : State} (s : State) (p n t : Nat) (hK : Kept sK s) :
    Kept sK (privPulse s p n t) := by
  unfold privPulse
  (try dsimp only)
  repeat' (first | with_reducible assumption | with_reducible apply presentCore_kept | with_reducible apply Kept.ite
                 | dsimp only | exact id | refine Kept.upd ?_ ?_ ?_ ?_ ?_ ?_)

theorem countOne_kept {sK : State} (s : State) (t code idx m n : Nat) (hK : Kept sK s) :
    Kept sK (countOne s t code idx m n) := by
  unfold countOne
  (try dsimp only)
  repeat' (first | with_reducible assumption | with_reducible apply pulse_kept | with_reducible apply Kept.ite
                 | dsimp only | exact id | refine Kept.upd ?_ ?_ ?_ ?_ ?_ ?_)

theorem countEvents_kept {sK : State} (s : State) (t code idx m : Nat) (hK : Kept sK s) :
    Kept sK (countEvents s t code idx m) := by
  unfold countEvents
  (try dsimp only)
  repeat' (first | with_reducible assumption | with_reducible exact Kept.refl _ | with_reducible apply countOne_kept
                 | with_reducible apply Kept.ite | with_reducible refine Kept.foldl ?_ ?_ | intro _)

theorem countEvent_kept {sK : State} (s : State) (t code idx : Nat) (hK : Kept sK s) :
    Kept sK (countEvent s t code idx) := by
  unfold countEvent
  (try dsimp only)
  repeat' (first | with_reducible assumption | with_reducible apply countEvents_kept)

theorem takeShared_kept {sK : State} (s : State) (n t : Nat) (hK : Kept sK s) :
    Kept sK (takeShared s n t) := by
  unfold takeShared
  (try dsimp only)
  repeat' (first | with_reducible assumption | with_reducible apply setBit_kept | with_reducible apply Kept.ite)

theorem takePrivate_kept {sK : State} (s : State) (p n t : Nat) (hK : Kept sK s) :
    Kept sK (takePrivate s p n t) := by
  unfold takePrivate
  (try dsimp only)
  repeat' (first | with_reducible assumption | with_reducible apply setBit_kept | with_reducible apply Kept.ite)

theorem claimCore_kept {sK : State} (s : State) (p ticket t : Nat) (hK : Kept sK s) :
    Kept sK (claimCore s p ticket t).2 := by
  unfold claimCore
  (try dsimp only)
  repeat' (first | with_reducible assumption | with_reducible apply countEvent_kept
                 | with_reducible apply takeShared_kept | with_reducible apply takePrivate_kept | split)

theorem completeShared_kept {sK : State} (s : State) (n t : Nat) (hK : Kept sK s) :
    Kept sK (completeShared s n t) := by
  unfold completeShared
  (try dsimp only)
  repeat' (first | with_reducible assumption | with_reducible apply setBit_kept | with_reducible apply mirror_kept
                 | with_reducible apply presentTarget_kept | with_reducible apply Kept.ite)

theorem completeTicket_kept {sK : State} (s : State) (p n t : Nat) (hK : Kept sK s) :
    Kept sK (completeTicket s p n t) := by
  unfold completeTicket
  (try dsimp only)
  repeat' (first | with_reducible assumption | with_reducible apply completeShared_kept
                 | with_reducible apply presentCore_kept | with_reducible apply setBit_kept
                 | with_reducible apply Kept.ite)

theorem barClaim_kept {sK : State} (s : State) (t : Nat) (hK : Kept sK s) :
    Kept sK (barClaim s t).2 := by
  unfold barClaim
  (try dsimp only)
  repeat' (first | with_reducible assumption | with_reducible apply countEvent_kept
                 | with_reducible apply takeShared_kept | split)

theorem returnService_kept {sK : State} (s : State) (f : Nat → Bool) (t : Nat) (hK : Kept sK s) :
    Kept sK (returnService s f t) := by
  unfold returnService
  (try dsimp only)
  repeat' (first | with_reducible assumption | with_reducible exact Kept.refl _
                 | with_reducible apply completeShared_kept | with_reducible apply setBit_kept
                 | with_reducible apply Kept.ite | with_reducible refine Kept.foldl ?_ ?_ | intro _)

theorem pendWrite_kept {sK : State} (s : State) (k : Nat) (v : W32) (t : Nat) (hK : Kept sK s) :
    Kept sK (pendWrite s k v t) := by
  unfold pendWrite
  (try dsimp only)
  repeat' (first | with_reducible assumption | with_reducible apply setReg_kept | with_reducible apply presentAll_kept
                 | with_reducible apply raise_kept)

theorem privPendWrite_kept {sK : State} (s : State) (p : Nat) (v : W32) (t : Nat) (hK : Kept sK s) :
    Kept sK (privPendWrite s p v t) := by
  unfold privPendWrite
  (try dsimp only)
  repeat' (first | with_reducible assumption | with_reducible apply setReg_kept
                 | with_reducible apply presentCore_kept | with_reducible apply raise_kept)

theorem insvcWrite_kept {sK : State} (s : State) (k : Nat) (v : W32) (t : Nat) (hK : Kept sK s) :
    Kept sK (insvcWrite s k v t) := by
  unfold insvcWrite
  (try dsimp only)
  repeat' (first | with_reducible assumption | with_reducible exact Kept.refl _
                 | with_reducible apply completeShared_kept | with_reducible apply Kept.ite
                 | with_reducible refine Kept.foldl ?_ ?_ | intro _)

theorem privInsvcWrite_kept {sK : State} (s : State) (p : Nat) (v : W32) (t : Nat) (hK : Kept sK s) :
    Kept sK (privInsvcWrite s p v t) := by
  unfold privInsvcWrite
  (try dsimp only)
  repeat' (first | with_reducible assumption | with_reducible apply presentCore_kept
                 | with_reducible apply setReg_kept)

theorem pourEntry_kept {sK : State} (s : State) (p t : Nat) (tick : Bool) (hK : Kept sK s) :
    Kept sK (pourEntry s p t tick) := by
  unfold pourEntry
  (try dsimp only)
  repeat' (first | with_reducible assumption | with_reducible apply setFld_kept | with_reducible apply setCore_kept
                 | with_reducible apply Kept.ite)

theorem claimEntry_kept {sK : State} (s : State) (p t : Nat) (hK : Kept sK s) :
    Kept sK (claimEntry s p t) := by
  unfold claimEntry
  (try dsimp only)
  repeat' (first | with_reducible assumption | with_reducible apply claimCore_kept | with_reducible apply setCore_kept
                 | split)

theorem setChan_kept {sK : State} (s : State) (n : Nat) (c : Chan) (hK : Kept sK s) :
    Kept sK (State.setChan s n c) := by
  unfold State.setChan
  (try dsimp only)
  repeat' (first | with_reducible assumption | dsimp only | exact id | refine Kept.upd ?_ ?_ ?_ ?_ ?_ ?_)

theorem setChanCtl_kept {sK : State} (s : State) (n : Nat) (v : W32) (hK : Kept sK s) :
    Kept sK (setChanCtl s n v) := by
  unfold setChanCtl
  (try dsimp only)
  repeat' (first | with_reducible assumption | with_reducible apply setReg_kept | with_reducible apply Kept.ite)

theorem setAtOnce_kept {sK : State} (s : State) (n : Nat) (v : Bool) (hK : Kept sK s) :
    Kept sK (setAtOnce s n v) := by
  unfold setAtOnce
  (try dsimp only)
  repeat' (first | with_reducible assumption | with_reducible apply setBit_kept | with_reducible apply Kept.ite)

theorem raiseStat_kept {sK : State} (s : State) (n t bits : Nat) (hK : Kept sK s) :
    Kept sK (raiseStat s n t bits) := by
  unfold raiseStat
  (try dsimp only)
  repeat' (first | with_reducible assumption | with_reducible apply raise_kept | with_reducible apply Kept.ite)

theorem chanPulse_kept {sK : State} (s : State) (n t : Nat) (hK : Kept sK s) :
    Kept sK (chanPulse s n t) := by
  unfold chanPulse
  (try dsimp only)
  repeat' (first | with_reducible assumption | with_reducible apply pulse_kept | with_reducible apply privPulse_kept
                 | with_reducible apply Kept.ite)

theorem setPins_kept {sK : State} (s : State) (out dir : W32) (t : Nat) (hK : Kept sK s) :
    Kept sK (setPins s out dir t) := by
  unfold setPins
  (try dsimp only)
  repeat' (first | with_reducible assumption | dsimp only | exact id | refine Kept.upd ?_ ?_ ?_ ?_ ?_ ?_)

theorem landLevel_kept {sK : State} (s : State) (i : Nat) (v : Bool) (t : Nat) (hK : Kept sK s) :
    Kept sK (landLevel s i v t) := by
  unfold landLevel
  (try dsimp only)
  repeat' (first | with_reducible assumption | dsimp only | exact id | refine Kept.upd ?_ ?_ ?_ ?_ ?_ ?_)

theorem pinAction_kept {sK : State} (s : State) (n act : Nat) (ovf : Bool) (t : Nat) (hK : Kept sK s) :
    Kept sK (pinAction s n act ovf t) := by
  unfold pinAction
  (try dsimp only)
  repeat' (first | with_reducible assumption | with_reducible apply Kept.ite | dsimp only | exact id
                 | refine Kept.upd ?_ ?_ ?_ ?_ ?_ ?_)

theorem writePinOut_kept {sK : State} (s : State) (v : W32) (t : Nat) (hK : Kept sK s) :
    Kept sK (writePinOut s v t) := by
  unfold writePinOut
  (try dsimp only)
  repeat' (first | with_reducible assumption | with_reducible apply setPins_kept)

theorem matchChan_kept {sK : State} (s : State) (n t : Nat) (atOnce : Bool) (hK : Kept sK s) :
    Kept sK (matchChan s n t atOnce) := by
  unfold matchChan
  (try dsimp only)
  repeat' (first | with_reducible assumption | with_reducible apply setChanCtl_kept
                 | with_reducible apply setAtOnce_kept | with_reducible apply raiseStat_kept
                 | with_reducible apply chanPulse_kept | with_reducible apply pinAction_kept)

theorem overflowChan_kept {sK : State} (s : State) (n t : Nat) (hK : Kept sK s) :
    Kept sK (overflowChan s n t) := by
  unfold overflowChan
  (try dsimp only)
  repeat' (first | with_reducible assumption | with_reducible apply raiseStat_kept
                 | with_reducible apply pinAction_kept | with_reducible apply chanPulse_kept
                 | with_reducible apply Kept.ite)

theorem settleChan_kept {sK : State} (s : State) (n t : Nat) (hK : Kept sK s) :
    Kept sK (settleChan s n t) := by
  unfold settleChan
  (try dsimp only)
  repeat' (first | with_reducible assumption | with_reducible apply setChan_kept
                 | with_reducible apply overflowChan_kept | with_reducible apply matchChan_kept
                 | with_reducible apply setChanCtl_kept | with_reducible apply Kept.ite)

theorem armChan_kept {sK : State} (s : State) (n t load : Nat) (hK : Kept sK s) :
    Kept sK (armChan s n t load) := by
  unfold armChan
  (try dsimp only)
  repeat' (first | with_reducible assumption | with_reducible apply setChanCtl_kept
                 | with_reducible apply setChan_kept)

theorem stepChan_kept {sK : State} (s : State) (n clk t : Nat) (hK : Kept sK s) :
    Kept sK (stepChan s n clk t) := by
  unfold stepChan
  (try dsimp only)
  repeat' (first | with_reducible assumption | with_reducible apply setChan_kept | with_reducible apply Kept.ite)

theorem ctlWrite_kept {sK : State} (s : State) (n : Nat) (w : W32) (t : Nat) (hK : Kept sK s) :
    Kept sK (ctlWrite s n w t) := by
  unfold ctlWrite
  (try dsimp only)
  repeat' (first | with_reducible assumption | with_reducible apply setChan_kept
                 | with_reducible apply setChanCtl_kept | with_reducible apply armChan_kept
                 | with_reducible apply Kept.ite)

theorem stageCompare_kept {sK : State} (s : State) (n : Nat) (v : W32) (hK : Kept sK s) :
    Kept sK (stageCompare s n v) := by
  unfold stageCompare
  (try dsimp only)
  repeat' (first | with_reducible assumption | with_reducible apply setChan_kept)

theorem commitCompare_kept {sK : State} (s : State) (n : Nat) (v : W32) (t : Nat) (hK : Kept sK s) :
    Kept sK (commitCompare s n v t) := by
  unfold commitCompare
  (try dsimp only)
  repeat' (first | with_reducible assumption | with_reducible apply setChan_kept)

theorem armMembers_kept {sK : State} (s : State) (t step : Nat) (ms : List Nat) (hK : Kept sK s) :
    Kept sK (armMembers s t step ms) := by
  unfold armMembers
  (try dsimp only)
  repeat' (first | with_reducible assumption | with_reducible exact Kept.refl _ | with_reducible apply armChan_kept
                 | with_reducible refine Kept.foldl ?_ ?_ | intro _)

theorem startGroup_kept {sK : State} (s : State) (g t : Nat) (hK : Kept sK s) :
    Kept sK (startGroup s g t) := by
  unfold startGroup
  (try dsimp only)
  repeat' (first | with_reducible assumption | with_reducible apply armMembers_kept | with_reducible apply Kept.ite
                 | dsimp only | exact id | refine Kept.upd ?_ ?_ ?_ ?_ ?_ ?_)

theorem startGroups_kept {sK : State} (s : State) (v : W32) (t : Nat) (hK : Kept sK s) :
    Kept sK (startGroups s v t) := by
  unfold startGroups
  (try dsimp only)
  repeat' (first | with_reducible assumption | with_reducible exact Kept.refl _ | with_reducible apply startGroup_kept
                 | with_reducible apply Kept.ite | with_reducible refine Kept.foldl ?_ ?_ | intro _)

theorem tickChan_kept {sK : State} (t : Nat) (s : State) (n : Nat) (hK : Kept sK s) :
    Kept sK (tickChan t s n) := by
  unfold tickChan
  (try dsimp only)
  repeat' (first | with_reducible assumption | with_reducible apply armChan_kept | with_reducible apply stepChan_kept
                 | with_reducible apply Kept.ite)

theorem timersTick_kept {sK : State} (s : State) (t : Nat) (hK : Kept sK s) :
    Kept sK (timersTick s t) := by
  unfold timersTick
  (try dsimp only)
  repeat' (first | with_reducible assumption | with_reducible exact Kept.refl _ | with_reducible apply startGroup_kept
                 | with_reducible apply tickChan_kept | with_reducible apply Kept.ite
                 | with_reducible refine Kept.foldl ?_ ?_ | dsimp only | intro _ | refine Kept.upd ?_ ?_ ?_ ?_ ?_ ?_)

theorem rebaseChans_kept {sK : State} (s : State) (old new : Nat) (hK : Kept sK s) :
    Kept sK (rebaseChans s old new) := by
  unfold rebaseChans
  (try dsimp only)
  repeat' (first | with_reducible assumption | with_reducible exact Kept.refl _ | with_reducible apply setChan_kept
                 | with_reducible refine Kept.foldl ?_ ?_ | intro _)

theorem settleChans_kept {sK : State} (s : State) (t : Nat) (hK : Kept sK s) :
    Kept sK (settleChans s t) := by
  unfold settleChans
  (try dsimp only)
  repeat' (first | with_reducible assumption | with_reducible exact Kept.refl _ | with_reducible apply settleChan_kept
                 | with_reducible apply Kept.ite | with_reducible refine Kept.foldl ?_ ?_ | intro _)

theorem snapChan_kept {sK : State} (s : State) (i n t : Nat) (hK : Kept sK s) :
    Kept sK (snapChan s i n t) := by
  unfold snapChan
  (try dsimp only)
  repeat' (first | with_reducible assumption | with_reducible apply setReg_kept)

theorem snapshot_kept {sK : State} (s : State) (i kind idx t : Nat) (hK : Kept sK s) :
    Kept sK (snapshot s i kind idx t) := by
  unfold snapshot
  (try dsimp only)
  repeat' (first | with_reducible assumption | dsimp only | exact id | split | refine Kept.upd ?_ ?_ ?_ ?_ ?_ ?_)

theorem snapsEnd_kept {sK : State} (s : State) (t : Nat) (hK : Kept sK s) :
    Kept sK (snapsEnd s t) := by
  unfold snapsEnd
  (try dsimp only)
  repeat' (first | with_reducible assumption | with_reducible exact Kept.refl _
                 | with_reducible refine Kept.foldl ?_ ?_ | dsimp only | intro _ | refine Kept.upd ?_ ?_ ?_ ?_ ?_ ?_)

theorem setCapt_kept {sK : State} (s : State) (c : Nat) (x : Capt) (hK : Kept sK s) :
    Kept sK (setCapt s c x) := by
  unfold setCapt
  (try dsimp only)
  repeat' (first | with_reducible assumption | dsimp only | exact id | refine Kept.upd ?_ ?_ ?_ ?_ ?_ ?_)

theorem captEvent_kept {sK : State} (s : State) (c t : Nat) (hK : Kept sK s) :
    Kept sK (captEvent s c t) := by
  unfold captEvent
  (try dsimp only)
  repeat' (first | with_reducible assumption | with_reducible apply setCapt_kept | with_reducible apply raise_kept
                 | with_reducible apply pulse_kept | with_reducible apply Kept.ite)

theorem captRead_kept {sK : State} (s : State) (c t : Nat) (hK : Kept sK s) :
    Kept sK (captRead s c t).2 := by
  unfold captRead
  (try dsimp only)
  repeat' (first | with_reducible assumption | with_reducible apply setCapt_kept | with_reducible apply setReg_kept)

theorem pinEdge_kept {sK : State} (s : State) (pin : Nat) (rising : Bool) (t : Nat) (hK : Kept sK s) :
    Kept sK (pinEdge s pin rising t) := by
  unfold pinEdge
  (try dsimp only)
  repeat' (first | with_reducible assumption | with_reducible exact Kept.refl _ | with_reducible apply landLevel_kept
                 | with_reducible apply captEvent_kept | with_reducible apply Kept.ite
                 | with_reducible refine Kept.foldl ?_ ?_ | intro _)

theorem pinClock_kept {sK : State} (s : State) (pin t : Nat) (hK : Kept sK s) :
    Kept sK (pinClock s pin t) := by
  unfold pinClock
  (try dsimp only)
  repeat' (first | with_reducible assumption | with_reducible exact Kept.refl _ | with_reducible apply stepChan_kept
                 | with_reducible apply landLevel_kept | with_reducible apply Kept.ite
                 | with_reducible refine Kept.foldl ?_ ?_ | intro _)

theorem upset_kept {sK : State} (s : State) (x : Upset) (hK : Kept sK s) :
    Kept sK (upset s x) := by
  unfold upset
  (try dsimp only)
  repeat' (first | with_reducible assumption | dsimp only | exact fun h => memWrite_wf h
                 | refine Kept.upd ?_ ?_ ?_ ?_ ?_ ?_)

theorem upsets_kept {sK : State} (s : State) (l : List Upset) (hK : Kept sK s) :
    Kept sK (upsets s l) := by
  unfold upsets
  (try dsimp only)
  repeat' (first | with_reducible assumption | with_reducible exact Kept.refl _ | with_reducible apply upset_kept
                 | with_reducible refine Kept.foldl ?_ ?_ | intro _)

theorem takeRounds_kept {sK : State} (s : State) (t num : Nat) (us : List Nat) (hK : Kept sK s) :
    Kept sK (takeRounds s t num us) := by
  unfold takeRounds
  (try dsimp only)
  repeat' (first | with_reducible assumption | dsimp only | exact id | refine Kept.upd ?_ ?_ ?_ ?_ ?_ ?_)

theorem carRounds_kept {sK : State} (s : State) (t : Nat) (w : MemWho) (us : List Nat) (hK : Kept sK s) :
    Kept sK (carRounds s t w us) := by
  unfold carRounds
  (try dsimp only)
  repeat' (first | with_reducible assumption | with_reducible apply takeRounds_kept | split)

theorem corrected_kept {sK : State} (s : State) (t u : Nat) (hK : Kept sK s) :
    Kept sK (corrected s t u) := by
  unfold corrected
  (try dsimp only)
  repeat' (first | with_reducible assumption | with_reducible apply countEvent_kept | dsimp only | exact id | split
                 | refine Kept.upd ?_ ?_ ?_ ?_ ?_ ?_)

theorem carafeUe_kept {sK : State} (s : State) (t : Nat) (w : MemWho) (u : Nat) (late : Bool) (hK : Kept sK s) :
    Kept sK (carafeUe s t w u late) := by
  unfold carafeUe
  (try dsimp only)
  repeat' (first | with_reducible assumption | with_reducible apply raise_kept | with_reducible apply setFld_kept
                 | with_reducible apply setReg_kept | with_reducible apply pulse_kept | with_reducible apply Kept.ite)

theorem dramUe_kept {sK : State} (s : State) (t : Nat) (w : MemWho) (u : Nat) (hK : Kept sK s) :
    Kept sK (dramUe s t w u) := by
  unfold dramUe
  (try dsimp only)
  repeat' (first | with_reducible assumption | with_reducible apply setFld_kept | with_reducible apply raise_kept
                 | with_reducible apply setReg_kept | with_reducible apply pulse_kept | with_reducible apply Kept.ite)

theorem uncorrectable_kept {sK : State} (s : State) (t : Nat) (w : MemWho) (u : Nat) (hK : Kept sK s) :
    Kept sK (uncorrectable s t w u) := by
  unfold uncorrectable
  (try dsimp only)
  repeat' (first | with_reducible assumption | with_reducible apply dramUe_kept | with_reducible apply carafeUe_kept
                 | with_reducible apply pulse_kept | with_reducible apply countEvent_kept | split)

theorem correctUnits_kept {sK : State} (s : State) (t : Nat) (us : List Nat) (hK : Kept sK s) :
    Kept sK (correctUnits s t us) := by
  unfold correctUnits
  (try dsimp only)
  repeat' (first | with_reducible assumption | with_reducible exact Kept.refl _ | with_reducible apply corrected_kept
                 | with_reducible apply Kept.ite | with_reducible refine Kept.foldl ?_ ?_ | intro _)

theorem readPhys_kept {sK : State} (s : State) (t : Nat) (w : MemWho) (a n : Nat) (hK : Kept sK s) :
    Kept sK (readPhys s t w a n).2.2 := by
  unfold readPhys
  (try dsimp only)
  repeat' (first | with_reducible assumption | with_reducible exact Kept.refl _
                 | with_reducible apply correctUnits_kept | with_reducible apply carRounds_kept
                 | with_reducible apply uncorrectable_kept | with_reducible refine Kept.foldl ?_ ?_ | intro _)

theorem repairUnits_kept {sK : State} (s : State) (t a n : Nat) (us : List Nat) (hK : Kept sK s) :
    Kept sK (repairUnits s t a n us) := by
  unfold repairUnits
  (try dsimp only)
  repeat' (first | with_reducible assumption | with_reducible exact Kept.refl _ | with_reducible apply corrected_kept
                 | with_reducible apply Kept.ite | with_reducible refine Kept.foldl ?_ ?_ | dsimp only | intro _
                 | refine Kept.upd ?_ ?_ ?_ ?_ ?_ ?_)

theorem writePhys_kept {sK : State} (s : State) (t : Nat) (w : MemWho) (a : Nat) (bs : List Byte) (hK : Kept sK s) :
    Kept sK (writePhys s t w a bs).2 := by
  unfold writePhys
  (try dsimp only)
  repeat' (first | with_reducible assumption | with_reducible exact Kept.refl _
                 | with_reducible apply repairUnits_kept | with_reducible apply carRounds_kept
                 | with_reducible apply uncorrectable_kept | with_reducible refine Kept.foldl ?_ ?_ | dsimp only
                 | exact fun h => writeSkipping_wf h | intro _ | refine Kept.upd ?_ ?_ ?_ ?_ ?_ ?_)

theorem extWrite_kept {sK : State} (s : State) (t : Nat) (w : MemWho) (a : Nat) (bs : List Byte) (hK : Kept sK s) :
    Kept sK (extWrite s t w a bs).2 := by
  unfold extWrite
  (try dsimp only)
  repeat' (first | with_reducible assumption | with_reducible apply writePhys_kept | with_reducible apply setCore_kept
                 | dsimp only | exact id | split | refine Kept.upd ?_ ?_ ?_ ?_ ?_ ?_)

theorem extRead_kept {sK : State} (s : State) (t : Nat) (w : MemWho) (a n : Nat) (hK : Kept sK s) :
    Kept sK (extRead s t w a n).2.2 := by
  unfold extRead
  (try dsimp only)
  repeat' (first | with_reducible assumption | with_reducible apply readPhys_kept)

theorem carLoadStart_kept {sK : State} (s : State) (w : CoreSel) (off kind slot : Nat) (sup : Bool) (t : Nat)
    (hK : Kept sK s) :
    Kept sK (carLoadStart s w off kind slot sup t) := by
  unfold carLoadStart
  (try dsimp only)
  repeat' (first | with_reducible assumption | with_reducible apply setCore_kept
                 | with_reducible apply countEvent_kept | split)

theorem carStoreStart_kept {sK : State} (s : State) (w : CoreSel) (off kind : Nat) (v : W48) (t : Nat)
    (hK : Kept sK s) :
    Kept sK (carStoreStart s w off kind v t) := by
  unfold carStoreStart
  (try dsimp only)
  repeat' (first | with_reducible assumption | with_reducible apply setCore_kept | with_reducible apply Kept.ite)

theorem grantLoad_kept {sK : State} (s : State) (w : CoreSel) (sup : Bool) (i t : Nat) (hK : Kept sK s) :
    Kept sK (grantLoad s w sup i t) := by
  unfold grantLoad
  (try dsimp only)
  repeat' (first | with_reducible assumption | with_reducible apply readPhys_kept | with_reducible apply setCore_kept
                 | split)

theorem grantStore_kept {sK : State} (s : State) (w : CoreSel) (i t : Nat) (hK : Kept sK s) :
    Kept sK (grantStore s w i t) := by
  unfold grantStore
  (try dsimp only)
  repeat' (first | with_reducible assumption | with_reducible exact Kept.refl _
                 | with_reducible apply repairUnits_kept | with_reducible apply carafeUe_kept
                 | with_reducible apply setCore_kept | with_reducible refine Kept.foldl ?_ ?_ | dsimp only
                 | exact fun h => writeSkipping_wf h | intro _ | split | refine Kept.upd ?_ ?_ ?_ ?_ ?_ ?_)

theorem carafeGrant_kept {sK : State} (s : State) (half t : Nat) (hK : Kept sK s) :
    Kept sK (carafeGrant s half t) := by
  unfold carafeGrant
  (try dsimp only)
  repeat' (first | with_reducible assumption | with_reducible exact Kept.refl _ | with_reducible apply grantLoad_kept
                 | with_reducible apply grantStore_kept | dsimp only | exact id | split
                 | refine Kept.upd ?_ ?_ ?_ ?_ ?_ ?_)

theorem carBlend_kept {sK : State} (s : State) (w : CoreSel) (ld : CarLoad) (t : Nat) (hK : Kept sK s) :
    Kept sK (carBlend s w ld t).2 := by
  unfold carBlend
  (try dsimp only)
  repeat' (first | with_reducible assumption | with_reducible apply readPhys_kept | split)

theorem carDeliver_kept {sK : State} (s : State) (w : CoreSel) (sup : Bool) (t : Nat) (hK : Kept sK s) :
    Kept sK (carDeliver s w sup t) := by
  unfold carDeliver
  (try dsimp only)
  repeat' (first | with_reducible assumption | with_reducible apply carBlend_kept | with_reducible apply setCore_kept
                 | split)

theorem grantNow_kept {sK : State} (s : State) (w : CoreSel) (off n i t : Nat) (granted : List Nat)
    (f : State → State) (hK : Kept sK s) (hf : ∀ s, Kept sK s → Kept sK (f s)) :
    Kept sK (grantNow s w off n i t granted f) := by
  unfold grantNow
  (try dsimp only)
  repeat' (first | with_reducible assumption | with_reducible apply hf | with_reducible apply takeRounds_kept | split)

theorem loadReady_kept {sK : State} (s : State) (w : CoreSel) (sup : Bool) (ld : CarLoad) (t : Nat) (hK : Kept sK s) :
    Kept sK (loadReady s w sup ld t) := by
  unfold loadReady
  (try dsimp only)
  repeat' (first | with_reducible assumption | with_reducible apply grantNow_kept
                 | with_reducible apply grantLoad_kept | with_reducible apply carDeliver_kept
                 | with_reducible apply Kept.ite | intro _)

theorem carafeLoadReady_kept {sK : State} (s : State) (w : CoreSel) (t : Nat) (hK : Kept sK s) :
    Kept sK (carafeLoadReady s w t) := by
  unfold carafeLoadReady
  (try dsimp only)
  repeat' (first | with_reducible assumption | with_reducible apply loadReady_kept | split)

theorem storePerformed_kept {sK : State} (s : State) (w : CoreSel) (t : Nat) (hK : Kept sK s) :
    Kept sK (storePerformed s w t) := by
  unfold storePerformed
  (try dsimp only)
  repeat' (first | with_reducible assumption | with_reducible apply grantNow_kept
                 | with_reducible apply grantStore_kept | with_reducible apply presentCore_kept
                 | with_reducible apply setCore_kept | intro _ | split)

end Sys2Proof.Machine
end

