-- ==== Sys2Proof/Laws/KeptRing.lean ====
section
/-! SUPPORT. Operations of the Runner, the ring and the edge keep what `Kept` says. -/

set_option linter.unusedTactic false
set_option linter.unreachableTactic false
set_option linter.unusedVariables false

namespace Sys2Proof.Machine

theorem runErr_kept {sK : State} (s : State) (t h kind : Nat) (hK : Kept sK s) :
    Kept sK (runErr s t h kind) := by
  unfold runErr
  (try dsimp only)
  repeat' (first | with_reducible assumption | with_reducible apply record_kept | with_reducible apply pulse_kept)

theorem queueErr_kept {sK : State} (s : State) (t h kind : Nat) (hK : Kept sK s) :
    Kept sK (queueErr s t h kind) := by
  unfold queueErr
  (try dsimp only)
  repeat' (first | with_reducible assumption | with_reducible apply runErr_kept | with_reducible apply setQdFld_kept
                 | with_reducible apply pulse_kept | with_reducible apply Kept.ite)

theorem enableQueue_kept {sK : State} (s : State) (t h : Nat) (hK : Kept sK s) :
    Kept sK (enableQueue s t h) := by
  unfold enableQueue
  (try dsimp only)
  repeat' (first | with_reducible assumption | with_reducible apply runErr_kept | with_reducible apply setQueue_kept
                 | with_reducible apply Kept.ite)

theorem clearEn_kept {sK : State} (s : State) (h : Nat) (hK : Kept sK s) :
    Kept sK (clearEn s h) := by
  unfold clearEn
  (try dsimp only)
  repeat' (first | with_reducible assumption | with_reducible apply setQdFld_kept
                 | with_reducible apply setQueue_kept)

theorem watermarkEvent_kept {sK : State} (s : State) (t h : Nat) (hK : Kept sK s) :
    Kept sK (watermarkEvent s t h) := by
  unfold watermarkEvent
  (try dsimp only)
  repeat' (first | with_reducible assumption | with_reducible apply privPulse_kept | with_reducible apply pulse_kept
                 | split)

theorem appendItem_kept {sK : State} (s : State) (t h : Nat) (hK : Kept sK s) :
    Kept sK (appendItem s t h) := by
  unfold appendItem
  (try dsimp only)
  repeat' (first | with_reducible assumption | with_reducible apply setQdFld_kept
                 | with_reducible apply watermarkEvent_kept | with_reducible apply setQueue_kept)

theorem refuse_kept {sK : State} (s : State) (t h who : Nat) (hK : Kept sK s) :
    Kept sK (refuse s t h who) := by
  unfold refuse
  (try dsimp only)
  repeat' (first | with_reducible assumption | with_reducible apply countEvent_kept
                 | with_reducible apply setQdFld_kept | with_reducible apply privPulse_kept
                 | with_reducible apply Kept.ite)

theorem dropItem_kept {sK : State} (s : State) (h : Nat) (hK : Kept sK s) :
    Kept sK (dropItem s h) := by
  unfold dropItem
  (try dsimp only)
  repeat' (first | with_reducible assumption | with_reducible apply setQdFld_kept
                 | with_reducible apply setQueue_kept)

theorem coreSend_kept {sK : State} (s : State) (p h : Nat) (item : W48) (t : Nat) (hK : Kept sK s) :
    Kept sK (coreSend s p h item t) := by
  unfold coreSend
  (try dsimp only)
  repeat' (first | with_reducible assumption | with_reducible apply refuse_kept | with_reducible apply setQdFld_kept
                 | with_reducible apply setCore_kept | with_reducible apply Kept.ite)

theorem readBlock_kept {sK : State} (s : State) (t h p addr n : Nat) (hK : Kept sK s) :
    Kept sK (readBlock s t h p addr n).2 := by
  unfold readBlock
  (try dsimp only)
  repeat' (first | with_reducible assumption | with_reducible apply extRead_kept | with_reducible apply queueErr_kept
                 | split)

theorem readSlot_kept {sK : State} (s : State) (t h slot : Nat) (hK : Kept sK s) :
    Kept sK (readSlot s t h slot).2 := by
  unfold readSlot
  (try dsimp only)
  repeat' (first | with_reducible assumption | with_reducible apply readPhys_kept | with_reducible apply queueErr_kept
                 | split)

theorem writeSlot_kept {sK : State} (s : State) (t h slot : Nat) (bs : List Byte) (hK : Kept sK s) :
    Kept sK (writeSlot s t h slot bs) := by
  unfold writeSlot
  (try dsimp only)
  repeat' (first | with_reducible assumption | with_reducible apply writePhys_kept
                 | with_reducible apply queueErr_kept | with_reducible apply Kept.ite)

theorem sendStored_kept {sK : State} (s : State) (p t : Nat) (hK : Kept sK s) :
    Kept sK (sendStored s p t) := by
  unfold sendStored
  (try dsimp only)
  repeat' (first | with_reducible assumption | with_reducible apply setCore_kept
                 | with_reducible apply appendItem_kept | with_reducible apply writeSlot_kept
                 | with_reducible apply readBlock_kept | split)

theorem portSend_kept {sK : State} (s : State) (t h : Nat) (item : W48) (hK : Kept sK s) :
    Kept sK (portSend s t h item) := by
  unfold portSend
  (try dsimp only)
  repeat' (first | with_reducible assumption | with_reducible apply setQdFld_kept
                 | with_reducible apply appendItem_kept | with_reducible apply writeSlot_kept)

theorem coreReceive_kept {sK : State} (s : State) (p h timeout : Nat) (sup : Bool) (t : Nat) (hK : Kept sK s) :
    Kept sK (coreReceive s p h timeout sup t) := by
  unfold coreReceive
  (try dsimp only)
  repeat' (first | with_reducible assumption | with_reducible apply refuse_kept | with_reducible apply setCore_kept
                 | with_reducible apply Kept.ite)

theorem landBlock_kept {sK : State} (s : State) (t h p : Nat) (bs : List Byte) (hK : Kept sK s) :
    Kept sK (landBlock s t h p bs).2 := by
  unfold landBlock
  (try dsimp only)
  repeat' (first | with_reducible assumption | with_reducible apply extWrite_kept | with_reducible apply runErr_kept
                 | with_reducible apply setQdFld_kept | with_reducible apply Kept.ite)

theorem rcvTake_kept {sK : State} (s : State) (p : Nat) (sup : Bool) (r : Rcv) (t : Nat) (hK : Kept sK s) :
    Kept sK (rcvTake s p sup r t) := by
  unfold rcvTake
  (try dsimp only)
  repeat' (first | with_reducible assumption | with_reducible apply readSlot_kept | with_reducible apply dropItem_kept
                 | with_reducible apply landBlock_kept | with_reducible apply setCore_kept | split)

theorem receiveDelivered_kept {sK : State} (s : State) (p : Nat) (sup : Bool) (t : Nat) (hK : Kept sK s) :
    Kept sK (receiveDelivered s p sup t) := by
  unfold receiveDelivered
  (try dsimp only)
  repeat' (first | with_reducible assumption | with_reducible apply rcvTake_kept | split)

theorem receiveTimeout_kept {sK : State} (s : State) (p : Nat) (sup : Bool) (t : Nat) (hK : Kept sK s) :
    Kept sK (receiveTimeout s p sup t) := by
  unfold receiveTimeout
  (try dsimp only)
  repeat' (first | with_reducible assumption | with_reducible apply rcvTake_kept | with_reducible apply setCore_kept
                 | split)

theorem commitReleases_kept {sK : State} (s : State) (p t : Nat) (hK : Kept sK s) :
    Kept sK (commitReleases s p t) := by
  unfold commitReleases
  (try dsimp only)
  repeat' (first | with_reducible assumption | with_reducible exact Kept.refl _ | with_reducible apply setCore_kept
                 | with_reducible apply setQueue_kept | with_reducible apply Kept.ite
                 | with_reducible refine Kept.foldl ?_ ?_ | intro _)

theorem dropCommitted_kept {sK : State} (s : State) (p m : Nat) (hK : Kept sK s) :
    Kept sK (dropCommitted s p m) := by
  unfold dropCommitted
  (try dsimp only)
  repeat' (first | with_reducible assumption | with_reducible exact Kept.refl _ | with_reducible apply setQueue_kept
                 | with_reducible refine Kept.foldl ?_ ?_ | intro _ | split)

theorem initSend_kept {sK : State} (s : State) (i h t : Nat) (hK : Kept sK s) :
    Kept sK (initSend s i h t) := by
  unfold initSend
  (try dsimp only)
  repeat' (first | with_reducible assumption | with_reducible apply setQdFld_kept | with_reducible apply refuse_kept
                 | with_reducible apply Kept.ite | dsimp only | exact id | refine Kept.upd ?_ ?_ ?_ ?_ ?_ ?_)

theorem initReceive_kept {sK : State} (s : State) (i h : Nat) (hK : Kept sK s) :
    Kept sK (initReceive s i h) := by
  unfold initReceive
  (try dsimp only)
  repeat' (first | with_reducible assumption | with_reducible apply Kept.ite | dsimp only | exact id
                 | refine Kept.upd ?_ ?_ ?_ ?_ ?_ ?_)

theorem initOpEnd_kept {sK : State} (s : State) (i t : Nat) (hK : Kept sK s) :
    Kept sK (initOpEnd s i t) := by
  unfold initOpEnd
  (try dsimp only)
  repeat' (first | with_reducible assumption | with_reducible apply readSlot_kept | with_reducible apply dropItem_kept
                 | with_reducible apply refuse_kept | with_reducible apply appendItem_kept
                 | with_reducible apply writeSlot_kept | dsimp only | exact id | split
                 | refine Kept.upd ?_ ?_ ?_ ?_ ?_ ?_)

theorem itemAge_kept {sK : State} (s : State) (h t : Nat) (hK : Kept sK s) :
    Kept sK (itemAge s h t) := by
  unfold itemAge
  (try dsimp only)
  repeat' (first | with_reducible assumption | with_reducible apply setQueue_kept | with_reducible apply setQdFld_kept
                 | with_reducible apply pulse_kept | split)

theorem descWrite_kept {sK : State} (s : State) (i : Ini) (full : Bool) (h off : Nat) (v : W32) (t : Nat)
    (hK : Kept sK s) :
    Kept sK (descWrite s i full h off v t) := by
  unfold descWrite
  (try dsimp only)
  repeat' (first | with_reducible assumption | with_reducible apply setQdWord_kept
                 | with_reducible apply enableQueue_kept | with_reducible apply runErr_kept
                 | with_reducible apply Kept.ite)

theorem runnerTick_kept {sK : State} (s : State) (t : Nat) (hK : Kept sK s) :
    Kept sK (runnerTick s t) := by
  unfold runnerTick
  (try dsimp only)
  repeat' (first | with_reducible assumption | with_reducible exact Kept.refl _ | with_reducible apply countEvent_kept
                 | with_reducible apply runErr_kept | with_reducible apply setQdFld_kept
                 | with_reducible apply Kept.ite | with_reducible refine Kept.foldl ?_ ?_ | intro _
                 | refine Kept.upd ?_ ?_ ?_ ?_ ?_ ?_ | (simp; done))

theorem setRport_kept {sK : State} (s : State) (p : Nat) (x : RPort) (hK : Kept sK s) :
    Kept sK (State.setRport s p x) := by
  unfold State.setRport
  (try dsimp only)
  repeat' (first | with_reducible assumption | refine Kept.upd ?_ ?_ ?_ ?_ ?_ ?_ | (simp; done))

theorem setRpair_kept {sK : State} (s : State) (r : Nat) (x : RPair) (hK : Kept sK s) :
    Kept sK (State.setRpair s r x) := by
  unfold State.setRpair
  (try dsimp only)
  repeat' (first | with_reducible assumption | refine Kept.upd ?_ ?_ ?_ ?_ ?_ ?_ | (simp; done))

theorem setRkeys_kept {sK : State} (s : State) (r : Nat) (x : RingKeys) (hK : Kept sK s) :
    Kept sK (State.setRkeys s r x) := by
  unfold State.setRkeys
  (try dsimp only)
  repeat' (first | with_reducible assumption | dsimp only | exact id | refine Kept.upd ?_ ?_ ?_ ?_ ?_ ?_)

theorem emit_kept {sK : State} (s : State) (o : WireOut) (hK : Kept sK s) :
    Kept sK (State.emit s o) := by
  unfold State.emit
  (try dsimp only)
  repeat' (first | with_reducible assumption | with_reducible apply Kept.ite | dsimp only | exact id
                 | refine Kept.upd ?_ ?_ ?_ ?_ ?_ ?_)

theorem emitFrame_kept {sK : State} (s : State) (port t : Nat) (bytes : List Byte) (hK : Kept sK s) :
    Kept sK (State.emitFrame s port t bytes) := by
  unfold State.emitFrame
  (try dsimp only)
  repeat' (first | with_reducible assumption | with_reducible exact Kept.refl _ | with_reducible apply emit_kept)

theorem ringErr_kept {sK : State} (s : State) (t src port kind : Nat) (hK : Kept sK s) :
    Kept sK (ringErr s t src port kind) := by
  unfold ringErr
  (try dsimp only)
  repeat' (first | with_reducible assumption | with_reducible exact Kept.refl _ | with_reducible apply record_kept)

theorem setPortState_kept {sK : State} (s : State) (p st t : Nat) (hK : Kept sK s) :
    Kept sK (setPortState s p st t) := by
  unfold setPortState
  (try dsimp only)
  repeat' (first | with_reducible assumption | with_reducible apply setFld_kept | with_reducible apply raise_kept
                 | with_reducible apply pulse_kept | with_reducible apply setRport_kept
                 | with_reducible apply Kept.ite)

theorem configPort_kept {sK : State} (s : State) (p t : Nat) (hK : Kept sK s) :
    Kept sK (configPort s p t) := by
  unfold configPort
  (try dsimp only)
  repeat' (first | with_reducible assumption | with_reducible apply setPortState_kept
                 | with_reducible apply setBit_kept | with_reducible apply Kept.ite)

theorem sealFrame_kept {sK : State} (s : State) (r pour : Nat) (h : Hdr) (payload : List Byte) (hK : Kept sK s) :
    Kept sK (sealFrame s r pour h payload).2 := by
  unfold sealFrame
  (try dsimp only)
  repeat' (first | with_reducible assumption | with_reducible exact Kept.refl _ | with_reducible apply setRpair_kept
                 | split)

theorem sealSend_kept {sK : State} (s : State) (r port t pour : Nat) (h : Hdr) (payload : List Byte)
    (hK : Kept sK s) :
    Kept sK (sealSend s r port t pour h payload) := by
  unfold sealSend
  (try dsimp only)
  repeat' (first | with_reducible assumption | with_reducible apply sealFrame_kept
                 | with_reducible apply emitFrame_kept | with_reducible refine Kept.snd ‹_› ?_ | split)

theorem holdFrame_kept {sK : State} (s : State) (r : Nat) (f : Held) (hK : Kept sK s) :
    Kept sK (holdFrame s r f) := by
  unfold holdFrame
  (try dsimp only)
  repeat' (first | with_reducible assumption | with_reducible exact Kept.refl _ | with_reducible apply setRpair_kept)

theorem crossTo_kept {sK : State} (s : State) (t r port : Nat) (h : Hdr) (payload : List Byte) (hK : Kept sK s) :
    Kept sK (crossTo s t r port h payload) := by
  unfold crossTo
  (try dsimp only)
  repeat' (first | with_reducible assumption | with_reducible apply pulse_kept | with_reducible apply ringErr_kept
                 | with_reducible apply countEvent_kept | with_reducible apply holdFrame_kept
                 | with_reducible apply Kept.ite)

theorem sendLocal_kept {sK : State} (s : State) (t r : Nat) (ctx : Bool) (h : Hdr) (payload : List Byte)
    (hK : Kept sK s) :
    Kept sK (sendLocal s t r ctx h payload) := by
  unfold sendLocal
  (try dsimp only)
  repeat' (first | with_reducible assumption | with_reducible apply holdFrame_kept | with_reducible apply crossTo_kept
                 | with_reducible apply countEvent_kept | split)

theorem unreservedSend_kept {sK : State} (s : State) (port t : Nat) (hK : Kept sK s) :
    Kept sK (unreservedSend s port t) := by
  unfold unreservedSend
  (try dsimp only)
  repeat' (first | with_reducible assumption | with_reducible apply setRpair_kept | with_reducible apply setRport_kept
                 | with_reducible apply emitFrame_kept | with_reducible apply sealSend_kept | dsimp only | exact id
                 | split | refine Kept.upd ?_ ?_ ?_ ?_ ?_ ?_)

theorem crxWrite_kept {sK : State} (s : State) (t : Nat) (edge : Bool) (port : Nat) (frame : List Byte)
    (hK : Kept sK s) :
    Kept sK (crxWrite s t edge port frame) := by
  unfold crxWrite
  (try dsimp only)
  repeat' (first | with_reducible assumption | with_reducible apply countEvent_kept
                 | with_reducible apply writePhys_kept | with_reducible apply pulse_kept
                 | with_reducible apply setFld_kept | with_reducible apply Kept.ite)

theorem announce_kept {sK : State} (s : State) (t r op : Nat) (vals : List Nat) (hK : Kept sK s) :
    Kept sK (announce s t r op vals) := by
  unfold announce
  (try dsimp only)
  repeat' (first | with_reducible assumption | with_reducible exact Kept.refl _ | with_reducible apply sendLocal_kept)

theorem notice_kept {sK : State} (s : State) (t r op : Nat) (vals : List Nat) (hK : Kept sK s) :
    Kept sK (notice s t r op vals) := by
  unfold notice
  (try dsimp only)
  repeat' (first | with_reducible assumption | with_reducible apply announce_kept
                 | with_reducible apply crxWrite_kept)

theorem enterLost_kept {sK : State} (s : State) (p t : Nat) (hK : Kept sK s) :
    Kept sK (enterLost s p t) := by
  unfold enterLost
  (try dsimp only)
  repeat' (first | with_reducible assumption | with_reducible exact Kept.refl _
                 | with_reducible apply setPortState_kept | with_reducible apply Kept.ite)

theorem heartbeat_kept {sK : State} (s : State) (p t : Nat) (hK : Kept sK s) :
    Kept sK (heartbeat s p t) := by
  unfold heartbeat
  (try dsimp only)
  repeat' (first | with_reducible assumption | with_reducible apply setRport_kept | with_reducible apply setFld_kept
                 | with_reducible apply setPortState_kept | with_reducible apply Kept.ite)

theorem supervisionExpiry_kept {sK : State} (s : State) (p t : Nat) (hK : Kept sK s) :
    Kept sK (supervisionExpiry s p t) := by
  unfold supervisionExpiry
  (try dsimp only)
  repeat' (first | with_reducible assumption | with_reducible apply enterLost_kept | with_reducible apply setBit_kept
                 | with_reducible apply Kept.ite)

theorem remoteFault_kept {sK : State} (s : State) (p t : Nat) (hK : Kept sK s) :
    Kept sK (remoteFault s p t) := by
  unfold remoteFault
  (try dsimp only)
  repeat' (first | with_reducible assumption | with_reducible apply enterLost_kept
                 | with_reducible apply setRport_kept | with_reducible apply setFld_kept
                 | with_reducible apply Kept.ite)

theorem portWrap_kept {sK : State} (s : State) (p t : Nat) (hK : Kept sK s) :
    Kept sK (portWrap s p t) := by
  unfold portWrap
  (try dsimp only)
  repeat' (first | with_reducible assumption | with_reducible apply setBit_kept | with_reducible apply pulse_kept
                 | with_reducible apply notice_kept | with_reducible apply Kept.ite)

theorem portReturned_kept {sK : State} (s : State) (p t : Nat) (hK : Kept sK s) :
    Kept sK (portReturned s p t) := by
  unfold portReturned
  (try dsimp only)
  repeat' (first | with_reducible assumption | with_reducible exact Kept.refl _
                 | with_reducible apply setPortState_kept | split)

theorem unwrapAt_kept {sK : State} (s : State) (p t : Nat) (hK : Kept sK s) :
    Kept sK (unwrapAt s p t) := by
  unfold unwrapAt
  (try dsimp only)
  repeat' (first | with_reducible assumption | with_reducible apply supervisionExpiry_kept
                 | with_reducible apply setPortState_kept | with_reducible apply setBit_kept
                 | with_reducible apply pulse_kept | with_reducible apply notice_kept | with_reducible apply Kept.ite)

theorem setTickSource_kept {sK : State} (s : State) (v : Nat) (hK : Kept sK s) :
    Kept sK (setTickSource s v) := by
  unfold setTickSource
  (try dsimp only)
  repeat' (first | with_reducible assumption | with_reducible exact Kept.refl _ | with_reducible apply setFld_kept)

theorem holdover_kept {sK : State} (s : State) (t : Nat) (hK : Kept sK s) :
    Kept sK (holdover s t) := by
  unfold holdover
  (try dsimp only)
  repeat' (first | with_reducible assumption | with_reducible exact Kept.refl _ | with_reducible apply pulse_kept
                 | with_reducible apply setRpair_kept | with_reducible apply Kept.ite
                 | with_reducible refine Kept.foldl ?_ ?_ | dsimp only | intro _ | refine Kept.upd ?_ ?_ ?_ ?_ ?_ ?_)

theorem ringTimeLost_kept {sK : State} (s : State) (t : Nat) (hK : Kept sK s) :
    Kept sK (ringTimeLost s t) := by
  unfold ringTimeLost
  (try dsimp only)
  repeat' (first | with_reducible assumption | with_reducible apply Kept.ite | dsimp only | exact id
                 | refine Kept.upd ?_ ?_ ?_ ?_ ?_ ?_)

theorem judgeOffset_kept {sK : State} (s : State) (off : Int) (hK : Kept sK s) :
    Kept sK (judgeOffset s off) := by
  unfold judgeOffset
  (try dsimp only)
  repeat' (first | with_reducible assumption | with_reducible exact Kept.refl _ | with_reducible apply Kept.ite
                 | dsimp only | exact id | refine Kept.upd ?_ ?_ ?_ ?_ ?_ ?_)

theorem chooseUpstream_kept {sK : State} (s : State) (r t : Nat) (hK : Kept sK s) :
    Kept sK (chooseUpstream s r t) := by
  unfold chooseUpstream
  (try dsimp only)
  repeat' (first | with_reducible assumption | with_reducible apply setReg_kept | with_reducible apply setRpair_kept
                 | with_reducible apply ringTimeLost_kept | with_reducible apply announce_kept
                 | with_reducible apply pulse_kept | split)

theorem upstreamTimeout_kept {sK : State} (s : State) (p t : Nat) (hK : Kept sK s) :
    Kept sK (upstreamTimeout s p t) := by
  unfold upstreamTimeout
  (try dsimp only)
  repeat' (first | with_reducible assumption | with_reducible apply chooseUpstream_kept
                 | with_reducible apply setRport_kept | split)

theorem islandElection_kept {sK : State} (s : State) (r t : Nat) (hK : Kept sK s) :
    Kept sK (islandElection s r t) := by
  unfold islandElection
  (try dsimp only)
  repeat' (first | with_reducible assumption | with_reducible apply setReg_kept | with_reducible apply announce_kept
                 | with_reducible apply setRpair_kept | with_reducible apply pulse_kept
                 | with_reducible apply Kept.ite)

theorem sendLink_kept {sK : State} (s : State) (p sub t : Nat) (rest : List Nat) (hK : Kept sK s) :
    Kept sK (sendLink s p sub t rest) := by
  unfold sendLink
  (try dsimp only)
  repeat' (first | with_reducible assumption | with_reducible exact Kept.refl _ | with_reducible apply sealSend_kept)

theorem beaconSend_kept {sK : State} (s : State) (p t : Nat) (hK : Kept sK s) :
    Kept sK (beaconSend s p t) := by
  unfold beaconSend
  (try dsimp only)
  repeat' (first | with_reducible assumption | with_reducible apply sendLink_kept | with_reducible apply setRport_kept
                 | with_reducible apply Kept.ite)

theorem delayRequestSend_kept {sK : State} (s : State) (r t : Nat) (hK : Kept sK s) :
    Kept sK (delayRequestSend s r t) := by
  unfold delayRequestSend
  (try dsimp only)
  repeat' (first | with_reducible assumption | with_reducible apply sendLink_kept | with_reducible apply setRport_kept
                 | split)

theorem grantSend_kept {sK : State} (s : State) (p t : Nat) (hK : Kept sK s) :
    Kept sK (grantSend s p t) := by
  unfold grantSend
  (try dsimp only)
  repeat' (first | with_reducible assumption | with_reducible apply sendLink_kept | with_reducible apply setRport_kept
                 | split)

theorem installGrant_kept {sK : State} (s : State) (r : Nat) (w : Nat → Nat) (hK : Kept sK s) :
    Kept sK (installGrant s r w) := by
  unfold installGrant
  (try dsimp only)
  repeat' (first | with_reducible assumption | with_reducible exact Kept.refl _ | with_reducible apply setRkeys_kept
                 | with_reducible apply Kept.ite)

theorem linkReceived_kept {sK : State} (s : State) (p t : Nat) (payload : List Byte) (hK : Kept sK s) :
    Kept sK (linkReceived s p t payload) := by
  unfold linkReceived
  (try dsimp only)
  repeat' (first | with_reducible assumption | with_reducible apply setRport_kept
                 | with_reducible apply chooseUpstream_kept | with_reducible apply judgeOffset_kept
                 | with_reducible apply sendLink_kept | with_reducible apply setFld_kept
                 | with_reducible apply pulse_kept | with_reducible apply ringErr_kept
                 | with_reducible apply installGrant_kept | split)

theorem slot_kept {sK : State} (s : State) (x : Slotted) (hK : Kept sK s) :
    Kept sK (State.slot s x) := by
  unfold State.slot
  (try dsimp only)
  repeat' (first | with_reducible assumption | dsimp only | exact id | refine Kept.upd ?_ ?_ ?_ ?_ ?_ ?_)

theorem leaveSlot_kept {sK : State} (s : State) (x : Slotted) (hK : Kept sK s) :
    Kept sK (leaveSlot s x) := by
  unfold leaveSlot
  (try dsimp only)
  repeat' (first | with_reducible assumption | with_reducible exact Kept.refl _ | with_reducible apply emit_kept
                 | with_reducible apply Kept.ite | dsimp only | exact id | refine Kept.upd ?_ ?_ ?_ ?_ ?_ ?_)

theorem sendGroup_kept {sK : State} (s : State) (r m t : Nat) (west : Bool) (gi : Nat × Nat) (hK : Kept sK s) :
    Kept sK (sendGroup s r m t west gi) := by
  unfold sendGroup
  (try dsimp only)
  repeat' (first | with_reducible assumption | with_reducible apply readPhys_kept
                 | with_reducible apply sealFrame_kept | with_reducible apply slot_kept
                 | with_reducible refine Kept.snd ‹_› ?_ | split)

theorem sendHead_kept {sK : State} (s : State) (r m t : Nat) (west : Bool) (hK : Kept sK s) :
    Kept sK (sendHead s r m t west) := by
  unfold sendHead
  (try dsimp only)
  repeat' (first | with_reducible assumption | with_reducible exact Kept.refl _ | with_reducible apply setRpair_kept
                 | with_reducible apply slot_kept | with_reducible refine Kept.foldl ?_ ?_ | intro _)

theorem trainOrigin_kept {sK : State} (s : State) (r : Nat) (west arrived : Bool) (t : Nat) (hK : Kept sK s) :
    Kept sK (trainOrigin s r west arrived t) := by
  unfold trainOrigin
  (try dsimp only)
  repeat' (first | with_reducible assumption | with_reducible exact Kept.refl _ | with_reducible apply setRpair_kept
                 | with_reducible apply sendHead_kept | with_reducible apply sendGroup_kept
                 | with_reducible apply Kept.ite | with_reducible refine Kept.foldl ?_ ?_ | intro _)

theorem writeGroup_kept {sK : State} (s : State) (t r g u : Nat) (payload : List Byte) (hK : Kept sK s) :
    Kept sK (writeGroup s t r g u payload) := by
  unfold writeGroup
  (try dsimp only)
  repeat' (first | with_reducible assumption | with_reducible apply writePhys_kept | with_reducible apply runErr_kept
                 | with_reducible apply Kept.ite)

theorem groupReceived_kept {sK : State} (s : State) (p t : Nat) (h : Hdr) (u : Nat) (payload : List Byte)
    (hK : Kept sK s) :
    Kept sK (groupReceived s p t h u payload) := by
  unfold groupReceived
  (try dsimp only)
  repeat' (first | with_reducible assumption | with_reducible apply ringErr_kept
                 | with_reducible apply writeGroup_kept | with_reducible apply setRpair_kept
                 | with_reducible apply countEvents_kept | with_reducible apply Kept.ite)

theorem groupMissing_kept {sK : State} (s : State) (r g m t : Nat) (hK : Kept sK s) :
    Kept sK (groupMissing s r g m t) := by
  unfold groupMissing
  (try dsimp only)
  repeat' (first | with_reducible assumption | with_reducible apply setRpair_kept | with_reducible apply pulse_kept
                 | with_reducible apply countEvent_kept | with_reducible apply ringErr_kept
                 | with_reducible apply Kept.ite)

theorem mailItem_kept {sK : State} (t port src m : Nat) (s : State) (item : W48) (hK : Kept sK s) :
    Kept sK (mailItem t port src m s item) := by
  unfold mailItem
  (try dsimp only)
  repeat' (first | with_reducible assumption | with_reducible apply portSend_kept
                 | with_reducible apply countEvent_kept | with_reducible apply ringErr_kept
                 | with_reducible apply setQdFld_kept | split)

theorem deliverFrame_kept {sK : State} (s : State) (p t : Nat) (h : Hdr) (payload : List Byte) (hK : Kept sK s) :
    Kept sK (deliverFrame s p t h payload) := by
  unfold deliverFrame
  (try dsimp only)
  repeat' (first | with_reducible assumption | with_reducible exact Kept.refl _ | with_reducible apply countEvent_kept
                 | with_reducible apply crxWrite_kept | with_reducible apply mailItem_kept
                 | with_reducible apply Kept.ite | with_reducible refine Kept.foldl ?_ ?_ | intro _)

theorem transit_kept {sK : State} (s : State) (p : Nat) (h : Hdr) (ct tag : List Byte) (hK : Kept sK s) :
    Kept sK (transit s p h ct tag) := by
  unfold transit
  (try dsimp only)
  repeat' (first | with_reducible assumption | with_reducible exact Kept.refl _ | with_reducible apply holdFrame_kept
                 | with_reducible apply Kept.ite)

theorem forwardScheduled_kept {sK : State} (s : State) (p t u : Nat) (h : Hdr) (whole : Bool) (rest : List Byte)
    (hK : Kept sK s) :
    Kept sK (forwardScheduled s p t u h whole rest) := by
  unfold forwardScheduled
  (try dsimp only)
  repeat' (first | with_reducible assumption | with_reducible apply setRpair_kept | with_reducible apply slot_kept
                 | with_reducible apply Kept.ite)

theorem discardFrame_kept {sK : State} (s : State) (p t src check kind : Nat) (hK : Kept sK s) :
    Kept sK (discardFrame s p t src check kind) := by
  unfold discardFrame
  (try dsimp only)
  repeat' (first | with_reducible assumption | with_reducible apply countEvent_kept
                 | with_reducible apply ringErr_kept | with_reducible apply pulse_kept
                 | with_reducible apply Kept.ite)

theorem duplicateCheck_kept {sK : State} (s : State) (p t : Nat) (h : Hdr) (hK : Kept sK s) :
    Kept sK (duplicateCheck s p t h) := by
  unfold duplicateCheck
  (try dsimp only)
  repeat' (first | with_reducible assumption | with_reducible apply pulse_kept | with_reducible apply setRpair_kept
                 | with_reducible apply Kept.ite)

theorem floodFrame_kept {sK : State} (s : State) (p t : Nat) (h : Hdr) (payload : List Byte) (hK : Kept sK s) :
    Kept sK (floodFrame s p t h payload) := by
  unfold floodFrame
  (try dsimp only)
  repeat' (first | with_reducible assumption | with_reducible apply crossTo_kept | with_reducible apply setRpair_kept
                 | with_reducible apply Kept.ite)

theorem passOn_kept {sK : State} (s : State) (p t : Nat) (h : Hdr) (ct tag : List Byte) (plain : Option (List Byte))
    (hK : Kept sK s) :
    Kept sK (passOn s p t h ct tag plain) := by
  unfold passOn
  (try dsimp only)
  repeat' (first | with_reducible assumption | with_reducible apply countEvent_kept
                 | with_reducible apply crossTo_kept | with_reducible apply transit_kept
                 | with_reducible apply floodFrame_kept | split)

theorem frameReceived_kept {sK : State} (s : State) (p : Nat) (coded : Bool) (wire : List Byte) (t : Nat)
    (hK : Kept sK s) :
    Kept sK (frameReceived s p coded wire t) := by
  unfold frameReceived
  (try dsimp only)
  repeat' (first | with_reducible assumption | with_reducible apply duplicateCheck_kept
                 | with_reducible apply forwardScheduled_kept | with_reducible apply passOn_kept
                 | with_reducible apply discardFrame_kept | with_reducible apply groupReceived_kept
                 | with_reducible apply linkReceived_kept | with_reducible apply deliverFrame_kept
                 | with_reducible apply Kept.ite | split)

theorem ptpMessage_kept {sK : State} (s : State) (p t : Nat) (sent : Bool) (u : UdpFrame) (hK : Kept sK s) :
    Kept sK (ptpMessage s p t sent u) := by
  unfold ptpMessage
  (try dsimp only)
  repeat' (first | with_reducible assumption | with_reducible apply pulse_kept | with_reducible apply judgeOffset_kept
                 | dsimp only | exact id | split | refine Kept.upd ?_ ?_ ?_ ?_ ?_ ?_)

theorem takeItems_kept {sK : State} (t h n : Nat) (s : State) (hK : Kept sK s) : Kept sK (takeItems t h n s).2 := by
  induction n generalizing s with
  | zero => exact hK
  | succ n ih =>
    unfold takeItems
    split
    · exact hK
    · exact ih _ (dropItem_kept _ _ (readSlot_kept _ _ _ _ hK))

theorem mailboxSend_kept {sK : State} (s : State) (m t : Nat) (hK : Kept sK s) :
    Kept sK (mailboxSend s m t) := by
  unfold mailboxSend
  (try dsimp only)
  repeat' (first | with_reducible assumption | with_reducible apply takeItems_kept
                 | with_reducible apply sendLocal_kept | dsimp only | exact id | split
                 | refine Kept.upd ?_ ?_ ?_ ?_ ?_ ?_)

theorem controlTransmit_kept {sK : State} (s : State) (v : W32) (t : Nat) (hK : Kept sK s) :
    Kept sK (controlTransmit s v t) := by
  unfold controlTransmit
  (try dsimp only)
  repeat' (first | with_reducible assumption | with_reducible apply emit_kept | with_reducible apply ptpMessage_kept
                 | with_reducible apply sendLocal_kept | dsimp only | exact id | split
                 | refine Kept.upd ?_ ?_ ?_ ?_ ?_ ?_)

theorem refillTokens_kept {sK : State} (s : State) (r : Nat) (hK : Kept sK s) :
    Kept sK (refillTokens s r) := by
  unfold refillTokens
  (try dsimp only)
  repeat' (first | with_reducible assumption | with_reducible exact Kept.refl _ | with_reducible apply setRpair_kept)

theorem epochsTick_kept {sK : State} (s : State) (r n t : Nat) (hK : Kept sK s) :
    Kept sK (epochsTick s r n t) := by
  unfold epochsTick
  (try dsimp only)
  repeat' (first | with_reducible assumption | with_reducible apply pulse_kept | with_reducible apply setRkeys_kept
                 | split)

theorem pairTick_kept {sK : State} (s : State) (r n t : Nat) (hK : Kept sK s) :
    Kept sK (pairTick s r n t) := by
  unfold pairTick
  (try dsimp only)
  repeat' (first | with_reducible assumption | with_reducible apply refillTokens_kept
                 | with_reducible apply epochsTick_kept | with_reducible apply unwrapAt_kept
                 | with_reducible apply setRpair_kept)

theorem ringTick_kept {sK : State} (s : State) (n t : Nat) (hK : Kept sK s) :
    Kept sK (ringTick s n t) := by
  unfold ringTick
  (try dsimp only)
  repeat' (first | with_reducible assumption | with_reducible exact Kept.refl _ | with_reducible apply pairTick_kept)

theorem edgeSample_kept {sK : State} (t p chan q v : Nat) (s : State) (hK : Kept sK s) :
    Kept sK (edgeSample t p chan q v s) := by
  unfold edgeSample
  (try dsimp only)
  repeat' (first | with_reducible assumption | with_reducible apply countEvent_kept | with_reducible apply Kept.ite
                 | dsimp only | exact id | refine Kept.upd ?_ ?_ ?_ ?_ ?_ ?_)

theorem edgeMedia_kept {sK : State} (s : State) (t p i : Nat) (data : List Byte) (hK : Kept sK s) :
    Kept sK (edgeMedia s t p i data) := by
  unfold edgeMedia
  (try dsimp only)
  repeat' (first | with_reducible assumption | with_reducible exact Kept.refl _ | with_reducible apply edgeSample_kept
                 | with_reducible refine Kept.foldl ?_ ?_ | dsimp only | intro _ | refine Kept.upd ?_ ?_ ?_ ?_ ?_ ?_)

theorem edgeReceived_kept {sK : State} (s : State) (p : Nat) (bs : List Byte) (t : Nat) (hK : Kept sK s) :
    Kept sK (edgeReceived s p bs t) := by
  unfold edgeReceived
  (try dsimp only)
  repeat' (first | with_reducible assumption | with_reducible apply edgeMedia_kept
                 | with_reducible apply ptpMessage_kept | with_reducible apply crxWrite_kept | split)

theorem edgeTransmit_kept {sK : State} (s : State) (i t : Nat) (hK : Kept sK s) :
    Kept sK (edgeTransmit s i t) := by
  unfold edgeTransmit
  (try dsimp only)
  repeat' (first | with_reducible assumption | with_reducible apply emit_kept | with_reducible apply Kept.ite
                 | dsimp only | exact id | refine Kept.upd ?_ ?_ ?_ ?_ ?_ ?_)

theorem streamSilent_kept {sK : State} (s : State) (i t : Nat) (hK : Kept sK s) :
    Kept sK (streamSilent s i t) := by
  unfold streamSilent
  (try dsimp only)
  repeat' (first | with_reducible assumption | with_reducible apply pulse_kept | dsimp only | exact id | split
                 | refine Kept.upd ?_ ?_ ?_ ?_ ?_ ?_)

theorem edgeTick_kept {sK : State} (s : State) (n t : Nat) (hK : Kept sK s) :
    Kept sK (edgeTick s n t) := by
  unfold edgeTick
  (try dsimp only)
  repeat' (first | with_reducible assumption | dsimp only | exact id | refine Kept.upd ?_ ?_ ?_ ?_ ?_ ?_)

end Sys2Proof.Machine
end

