-- ==== Sys2Proof/Laws/KeptCrema.lean ====
section
/-! SUPPORT. Operations of Crema and the audio paths keep what `Kept` says. -/

set_option linter.unusedTactic false
set_option linter.unreachableTactic false
set_option linter.unusedVariables false

namespace Sys2Proof.Machine

theorem setCrm_kept {sK : State} (s : State) (c : Nat) (x : CrmChan) (hK : Kept sK s) :
    Kept sK (State.setCrm s c x) := by
  unfold State.setCrm
  (try dsimp only)
  repeat' (first | with_reducible assumption | refine Kept.upd ?_ ?_ ?_ ?_ ?_ ?_ | (simp; done))

theorem setCrmRun_kept {sK : State} (s : State) (w : Nat) (x : Option CrmRun) (hK : Kept sK s) :
    Kept sK (State.setCrmRun s w x) := by
  unfold State.setCrmRun
  (try dsimp only)
  repeat' (first | with_reducible assumption | refine Kept.upd ?_ ?_ ?_ ?_ ?_ ?_ | (simp; done))

theorem crmRebase_kept {sK : State} (s : State) (t new : Nat) (hK : Kept sK s) :
    Kept sK (crmRebase s t new) := by
  unfold crmRebase
  (try dsimp only)
  repeat' (first | with_reducible assumption | dsimp only | exact id | refine Kept.upd ?_ ?_ ?_ ?_ ?_ ?_)

theorem crmAnnounce_kept {sK : State} (s : State) (c item t : Nat) (hK : Kept sK s) :
    Kept sK (crmAnnounce s c item t) := by
  unfold crmAnnounce
  (try dsimp only)
  repeat' (first | with_reducible assumption | with_reducible apply portSend_kept
                 | with_reducible apply countEvent_kept | with_reducible apply setQdFld_kept | split)

theorem crmRecord_kept {sK : State} (s : State) (c mode stop n probed flags : Nat) (body : List Byte) (t : Nat)
    (hK : Kept sK s) :
    Kept sK (crmRecord s c mode stop n probed flags body t) := by
  unfold crmRecord
  (try dsimp only)
  repeat' (first | with_reducible assumption | with_reducible apply writePhys_kept | with_reducible apply setCrm_kept
                 | with_reducible apply setFld_kept | with_reducible apply raise_kept
                 | with_reducible apply crmAnnounce_kept | with_reducible apply pulse_kept)

theorem crmCut_kept {sK : State} (s : State) (c t : Nat) (hK : Kept sK s) :
    Kept sK (crmCut s c t) := by
  unfold crmCut
  (try dsimp only)
  repeat' (first | with_reducible assumption | with_reducible apply setCrm_kept | with_reducible apply crmRecord_kept
                 | split)

theorem crmSetFaults_kept {sK : State} (s : State) (c new t : Nat) (hK : Kept sK s) :
    Kept sK (crmSetFaults s c new t) := by
  unfold crmSetFaults
  (try dsimp only)
  repeat' (first | with_reducible assumption | with_reducible apply pulse_kept | with_reducible apply setFld_kept
                 | with_reducible apply raise_kept | with_reducible apply Kept.ite)

theorem crmRunRecord_kept {sK : State} (s : State) (w : Nat) (r : CrmRun) (vf : Nat) (events : List
    (Nat × Nat × Nat)) (upd cut : Bool) (t : Nat) (hK : Kept sK s) :
    Kept sK (crmRunRecord s w r vf events upd cut t) := by
  unfold crmRunRecord
  (try dsimp only)
  repeat' (first | with_reducible assumption | with_reducible apply writePhys_kept | with_reducible apply setBit_kept
                 | with_reducible apply raise_kept | with_reducible apply pulse_kept
                 | with_reducible apply setCrmRun_kept)

theorem crmCutRun_kept {sK : State} (s : State) (w t : Nat) (hK : Kept sK s) :
    Kept sK (crmCutRun s w t) := by
  unfold crmCutRun
  (try dsimp only)
  repeat' (first | with_reducible assumption | with_reducible apply crmRunRecord_kept | split)

theorem crmCommand_kept {sK : State} (s : State) (op wb ch t : Nat) (hK : Kept sK s) :
    Kept sK (crmCommand s op wb ch t) := by
  unfold crmCommand
  (try dsimp only)
  repeat' (first | with_reducible assumption | with_reducible apply setFld_kept | with_reducible apply setCrm_kept
                 | with_reducible apply crmCutRun_kept | with_reducible apply setBit_kept
                 | with_reducible apply setCrmRun_kept | with_reducible apply Kept.ite)

theorem crmCount_kept {sK : State} (s : State) (c t : Nat) (hK : Kept sK s) :
    Kept sK (crmCount s c t) := by
  unfold crmCount
  (try dsimp only)
  repeat' (first | with_reducible assumption | with_reducible apply setCrm_kept)

theorem crmRoll_kept {sK : State} (s : State) (c t : Nat) (hK : Kept sK s) :
    Kept sK (crmRoll s c t) := by
  unfold crmRoll
  (try dsimp only)
  repeat' (first | with_reducible assumption | with_reducible apply setCrm_kept | with_reducible apply setFld_kept
                 | split)

theorem crmApply_kept {sK : State} (s : State) (c op t : Nat) (hK : Kept sK s) :
    Kept sK (crmApply s c op t) := by
  unfold crmApply
  (try dsimp only)
  repeat' (first | with_reducible assumption | with_reducible exact Kept.refl _ | with_reducible apply crmCut_kept
                 | with_reducible apply crmCutRun_kept | with_reducible apply setCrm_kept
                 | with_reducible apply setFld_kept | with_reducible refine Kept.foldl ?_ ?_ | intro _ | split)

theorem crmChanBoundary_kept {sK : State} (t : Nat) (s : State) (c : Nat) (hK : Kept sK s) :
    Kept sK (crmChanBoundary t s c) := by
  unfold crmChanBoundary
  (try dsimp only)
  repeat' (first | with_reducible assumption | with_reducible apply crmRoll_kept | with_reducible apply crmCount_kept
                 | with_reducible apply crmApply_kept | split)

theorem crmBoundary_kept {sK : State} (s : State) (t : Nat) (hK : Kept sK s) :
    Kept sK (crmBoundary s t) := by
  unfold crmBoundary
  (try dsimp only)
  repeat' (first | with_reducible assumption | with_reducible exact Kept.refl _
                 | with_reducible apply crmChanBoundary_kept | with_reducible refine Kept.foldl ?_ ?_ | intro _)

theorem crmCutAll_kept {sK : State} (s : State) (t : Nat) (hK : Kept sK s) :
    Kept sK (crmCutAll s t) := by
  unfold crmCutAll
  (try dsimp only)
  repeat' (first | with_reducible assumption | with_reducible exact Kept.refl _ | with_reducible apply crmCut_kept
                 | with_reducible apply setCrm_kept | with_reducible apply setFld_kept
                 | with_reducible apply crmCutRun_kept | with_reducible refine Kept.foldl ?_ ?_ | intro _ | split)

theorem crmDisabled_kept {sK : State} (s : State) (hK : Kept sK s) :
    Kept sK (crmDisabled s) := by
  unfold crmDisabled
  (try dsimp only)
  repeat' (first | with_reducible assumption | with_reducible exact Kept.refl _ | with_reducible apply setCrm_kept
                 | with_reducible apply setFld_kept | with_reducible apply Kept.ite
                 | with_reducible refine Kept.foldl ?_ ?_ | intro _)

theorem crmFrameEnd_kept {sK : State} (s : State) (c : Nat) (m : CrmFrame) (t : Nat) (hK : Kept sK s) :
    Kept sK (crmFrameEnd s c m t) := by
  unfold crmFrameEnd
  (try dsimp only)
  repeat' (first | with_reducible assumption | with_reducible apply pulse_kept | with_reducible apply countEvent_kept
                 | with_reducible apply setCrm_kept | with_reducible apply Kept.ite)

theorem fastFault_kept {sK : State} (s : State) (c t : Nat) (hK : Kept sK s) :
    Kept sK (fastFault s c t) := by
  unfold fastFault
  (try dsimp only)
  repeat' (first | with_reducible assumption | with_reducible apply setCrm_kept
                 | with_reducible apply crmSetFaults_kept)

theorem liveWindowEnd_kept {sK : State} (s : State) (c : Nat) (m : CrmMeas) (t : Nat) (hK : Kept sK s) :
    Kept sK (liveWindowEnd s c m t) := by
  unfold liveWindowEnd
  (try dsimp only)
  repeat' (first | with_reducible assumption | with_reducible apply setCrm_kept
                 | with_reducible apply crmSetFaults_kept | with_reducible apply crmRecord_kept | split)

theorem crmSweepRecord_kept {sK : State} (s : State) (c stop n probed : Nat) (tones : List Byte) (omitted : Bool)
    (t : Nat) (hK : Kept sK s) :
    Kept sK (crmSweepRecord s c stop n probed tones omitted t) := by
  unfold crmSweepRecord
  (try dsimp only)
  repeat' (first | with_reducible assumption | with_reducible apply crmRecord_kept | with_reducible apply setCrm_kept)

theorem nightStageAEnd_kept {sK : State} (s : State) (c : Nat) (m : CrmMeas) (t : Nat) (hK : Kept sK s) :
    Kept sK (nightStageAEnd s c m t) := by
  unfold nightStageAEnd
  (try dsimp only)
  repeat' (first | with_reducible assumption | with_reducible apply setCrm_kept
                 | with_reducible apply crmSetFaults_kept | with_reducible apply crmSweepRecord_kept | split)

theorem nightStageBEnd_kept {sK : State} (s : State) (c : Nat) (m : CrmMeas) (t : Nat) (hK : Kept sK s) :
    Kept sK (nightStageBEnd s c m t) := by
  unfold nightStageBEnd
  (try dsimp only)
  repeat' (first | with_reducible assumption | with_reducible apply setCrm_kept
                 | with_reducible apply crmSweepRecord_kept | split)

theorem reflectPulse_kept {sK : State} (s : State) (w : Nat) (samples : List (BitVec 16)) (t : Nat) (hK : Kept sK s) :
    Kept sK (reflectPulse s w samples t) := by
  unfold reflectPulse
  (try dsimp only)
  repeat' (first | with_reducible assumption | with_reducible apply setCrmRun_kept | split)

theorem reflectRunEnd_kept {sK : State} (s : State) (w t : Nat) (hK : Kept sK s) :
    Kept sK (reflectRunEnd s w t) := by
  unfold reflectRunEnd
  (try dsimp only)
  repeat' (first | with_reducible assumption | with_reducible apply writePhys_kept
                 | with_reducible apply readPhys_kept | with_reducible apply crmRunRecord_kept | dsimp only | exact id
                 | split | refine Kept.upd ?_ ?_ ?_ ?_ ?_ ?_)

theorem delayChan_kept {sK : State} (s : State) (t h g x j : Nat) (ws : List Int) (hK : Kept sK s) :
    Kept sK (delayChan s t h g x j ws).2.2 := by
  unfold delayChan
  (try dsimp only)
  repeat' (first | with_reducible assumption | with_reducible exact Kept.refl _ | with_reducible apply readPhys_kept
                 | with_reducible apply writePhys_kept | with_reducible apply queueErr_kept
                 | with_reducible refine Kept.foldl ?_ ?_ | with_reducible refine Kept.foldl2 ?_ ?_ | intro _ | split)

theorem delayStage_kept {sK : State} (s : State) (t h : Nat) (cols : List (List Int)) (hK : Kept sK s) :
    Kept sK (delayStage s t h cols).2 := by
  unfold delayStage
  (try dsimp only)
  repeat' (first | with_reducible assumption | with_reducible exact Kept.refl _ | with_reducible apply delayChan_kept
                 | with_reducible apply pulse_kept | with_reducible refine Kept.foldl3 ?_ ?_ | dsimp only | intro _
                 | split | refine Kept.upd ?_ ?_ ?_ ?_ ?_ ?_)

theorem setRamp_kept {sK : State} (s : State) (k : Nat) (x : ChanRamp) (hK : Kept sK s) :
    Kept sK (State.setRamp s k x) := by
  unfold State.setRamp
  (try dsimp only)
  repeat' (first | with_reducible assumption | dsimp only | exact id | refine Kept.upd ?_ ?_ ?_ ?_ ?_ ?_)

theorem rampChan_kept {sK : State} (s : State) (h j m : Nat) (raw ws : List Int) (hK : Kept sK s) :
    Kept sK (rampChan s h j m raw ws).2 := by
  unfold rampChan
  (try dsimp only)
  repeat' (first | with_reducible assumption | with_reducible exact Kept.refl _ | with_reducible apply setRamp_kept)

theorem setEvPin_kept {sK : State} (s : State) (e : Nat) (x : EvPin) (hK : Kept sK s) :
    Kept sK (State.setEvPin s e x) := by
  unfold State.setEvPin
  (try dsimp only)
  repeat' (first | with_reducible assumption | refine Kept.upd ?_ ?_ ?_ ?_ ?_ ?_ | (simp; done))

theorem evSample_kept {sK : State} (s : State) (t e n : Nat) (hK : Kept sK s) :
    Kept sK (evSample s t e n).2 := by
  unfold evSample
  (try dsimp only)
  repeat' (first | with_reducible assumption | with_reducible exact Kept.refl _ | with_reducible apply readPhys_kept
                 | split)

theorem evOne_kept {sK : State} (t : Nat) (pins : List Nat) (i : Nat) (cur : Nat × Nat) (y : Int) (s : State)
    (hK : Kept sK s) :
    Kept sK (evOne t pins i cur y s).2.2 := by
  unfold evOne
  (try dsimp only)
  repeat' (first | with_reducible assumption | with_reducible exact Kept.refl _ | with_reducible apply evSample_kept
                 | split)

theorem evBlock_kept {sK : State} (s : State) (t kind target : Nat) (ys : List Int) (hK : Kept sK s) :
    Kept sK (evBlock s t kind target ys).2 := by
  unfold evBlock
  (try dsimp only)
  repeat' (first | with_reducible assumption | with_reducible exact Kept.refl _ | with_reducible apply evOne_kept
                 | with_reducible refine Kept.foldl3 ?_ ?_ | dsimp only | intro _ | split
                 | refine Kept.upd ?_ ?_ ?_ ?_ ?_ ?_)

theorem evacChange_kept {sK : State} (s : State) (e t : Nat) (hK : Kept sK s) :
    Kept sK (evacChange s e t) := by
  unfold evacChange
  (try dsimp only)
  repeat' (first | with_reducible assumption | with_reducible exact Kept.refl _ | with_reducible apply setFld_kept
                 | with_reducible apply setEvPin_kept | with_reducible apply pulse_kept
                 | with_reducible apply Kept.ite)

theorem evacStart_kept {sK : State} (s : State) (e t : Nat) (hK : Kept sK s) :
    Kept sK (evacStart s e t) := by
  unfold evacStart
  (try dsimp only)
  repeat' (first | with_reducible assumption | with_reducible apply readPhys_kept | with_reducible apply pulse_kept
                 | with_reducible apply setEvPin_kept | with_reducible apply setFld_kept
                 | with_reducible apply Kept.ite)

theorem evacEnd_kept {sK : State} (s : State) (e : Nat) (hK : Kept sK s) :
    Kept sK (evacEnd s e) := by
  unfold evacEnd
  (try dsimp only)
  repeat' (first | with_reducible assumption | with_reducible exact Kept.refl _ | with_reducible apply setEvPin_kept
                 | with_reducible apply Kept.ite)

theorem evacTick_kept {sK : State} (s : State) (evac : Nat) (hK : Kept sK s) :
    Kept sK (evacTick s evac) := by
  unfold evacTick
  (try dsimp only)
  repeat' (first | with_reducible assumption | with_reducible exact Kept.refl _ | with_reducible apply setEvPin_kept
                 | with_reducible apply setFld_kept | with_reducible apply Kept.ite
                 | with_reducible refine Kept.foldl ?_ ?_ | intro _)

theorem mixBlock_kept {sK : State} (s : State) (tick kind target : Nat) (ys : List Int) (fl : List Bool)
    (hK : Kept sK s) :
    Kept sK (mixBlock s tick kind target ys fl).2 := by
  unfold mixBlock
  (try dsimp only)
  repeat' (first | with_reducible assumption | with_reducible exact Kept.refl _ | with_reducible apply setCrm_kept
                 | split)

theorem runnerWriteErr_kept {sK : State} (s : State) (t : Nat) (h : Option Nat) (hK : Kept sK s) :
    Kept sK (runnerWriteErr s t h) := by
  unfold runnerWriteErr
  (try dsimp only)
  repeat' (first | with_reducible assumption | with_reducible exact Kept.refl _ | with_reducible apply queueErr_kept
                 | with_reducible apply runErr_kept | split)

theorem ringStore_kept {sK : State} (s : State) (t : Nat) (h : Option Nat) (r ch n : Nat) (va : Bool)
    (ys : List Int) (fl : List Bool) (hK : Kept sK s) :
    Kept sK (ringStore s t h r ch n va ys fl) := by
  unfold ringStore
  (try dsimp only)
  repeat' (first | with_reducible assumption | with_reducible exact Kept.refl _ | with_reducible apply writePhys_kept
                 | with_reducible apply runnerWriteErr_kept | with_reducible refine Kept.foldl ?_ ?_ | dsimp only
                 | intro _ | split | refine Kept.upd ?_ ?_ ?_ ?_ ?_ ?_)

theorem slotBlock_kept {sK : State} (s : State) (slot w : Nat) (ys : List Int) (hK : Kept sK s) :
    Kept sK (slotBlock s slot w ys) := by
  unfold slotBlock
  (try dsimp only)
  repeat' (first | with_reducible assumption | with_reducible exact Kept.refl _ | dsimp only | exact id
                 | refine Kept.upd ?_ ?_ ?_ ?_ ?_ ?_)

theorem outChan_kept {sK : State} (s : State) (t : Nat) (h : Option Nat) (tick n kind target : Nat) (va : Bool)
    (ys : List (Int × Bool)) (hK : Kept sK s) :
    Kept sK (outChan s t h tick n kind target va ys) := by
  unfold outChan
  (try dsimp only)
  repeat' (first | with_reducible assumption | with_reducible exact Kept.refl _ | with_reducible apply evBlock_kept
                 | with_reducible apply mixBlock_kept | with_reducible apply slotBlock_kept
                 | with_reducible apply ringStore_kept | with_reducible apply Kept.ite
                 | with_reducible refine Kept.foldl ?_ ?_ | with_reducible refine Kept.foldl3 ?_ ?_ | dsimp only
                 | intro _ | refine Kept.upd ?_ ?_ ?_ ?_ ?_ ?_)

theorem storeBlock_kept {sK : State} (s : State) (t h : Nat) (hK : Kept sK s) :
    Kept sK (storeBlock s t h).2 := by
  unfold storeBlock
  (try dsimp only)
  repeat' (first | with_reducible assumption | with_reducible exact Kept.refl _ | with_reducible apply readSlot_kept
                 | split)

theorem copyCommitted_kept {sK : State} (s : State) (t h n : Nat) (hK : Kept sK s) :
    Kept sK (copyCommitted s t h n) := by
  unfold copyCommitted
  (try dsimp only)
  repeat' (first | with_reducible assumption | with_reducible exact Kept.refl _ | with_reducible apply setQueue_kept
                 | with_reducible apply readBlock_kept | with_reducible apply writeSlot_kept | split)

theorem forwardQueue_kept {sK : State} (s : State) (h t : Nat) (hK : Kept sK s) :
    Kept sK (forwardQueue s h t) := by
  unfold forwardQueue
  (try dsimp only)
  repeat' (first | with_reducible assumption | with_reducible exact Kept.refl _ | with_reducible apply setQueue_kept
                 | with_reducible apply copyCommitted_kept | with_reducible apply storeBlock_kept
                 | with_reducible apply delayStage_kept | with_reducible apply rampChan_kept
                 | with_reducible apply outChan_kept | with_reducible refine Kept.foldl ?_ ?_ | intro _ | split)

theorem forwardUnfed_kept {sK : State} (s : State) (t : Nat) (hK : Kept sK s) :
    Kept sK (forwardUnfed s t) := by
  unfold forwardUnfed
  (try dsimp only)
  repeat' (first | with_reducible assumption | with_reducible exact Kept.refl _ | with_reducible apply outChan_kept
                 | with_reducible apply Kept.ite | with_reducible refine Kept.foldl ?_ ?_ | dsimp only | intro _
                 | refine Kept.upd ?_ ?_ ?_ ?_ ?_ ?_)

theorem scheduledForward_kept {sK : State} (s : State) (h : Option Nat) (t : Nat) (hK : Kept sK s) :
    Kept sK (scheduledForward s h t) := by
  unfold scheduledForward
  (try dsimp only)
  repeat' (first | with_reducible assumption | with_reducible exact Kept.refl _
                 | with_reducible apply forwardQueue_kept | with_reducible apply forwardUnfed_kept | split)

theorem capturedChan_kept {sK : State} (s : State) (e j w : Nat) (col : List (Option Int)) (hK : Kept sK s) :
    Kept sK (capturedChan s e j w col).2 := by
  unfold capturedChan
  (try dsimp only)
  repeat' (first | with_reducible assumption | dsimp only | exact id | split | refine Kept.upd ?_ ?_ ?_ ?_ ?_ ?_)

theorem ringChan_kept {sK : State} (s : State) (t r ch m : Nat) (hK : Kept sK s) :
    Kept sK (ringChan s t r ch m).2 := by
  unfold ringChan
  (try dsimp only)
  repeat' (first | with_reducible assumption | with_reducible exact Kept.refl _ | with_reducible apply readPhys_kept
                 | with_reducible refine Kept.foldl2 ?_ ?_ | intro _ | split)

theorem inputChan_kept {sK : State} (s : State) (t h m j : Nat) (samples : List Int) (hK : Kept sK s) :
    Kept sK (inputChan s t h m j samples).2 := by
  unfold inputChan
  (try dsimp only)
  repeat' (first | with_reducible assumption | with_reducible exact Kept.refl _ | with_reducible apply ringChan_kept
                 | with_reducible apply capturedChan_kept | split)

theorem inputCols_kept {sK : State} (s : State) (t h m : Nat) (samples : List Int) (hK : Kept sK s) :
    Kept sK (inputCols s t h m samples).2 := by
  unfold inputCols
  (try dsimp only)
  repeat' (first | with_reducible assumption | with_reducible exact Kept.refl _ | with_reducible apply inputChan_kept
                 | with_reducible refine Kept.foldl2 ?_ ?_ | intro _)

theorem placedCols_kept {sK : State} (s : State) (t h m : Nat) (raws : List (List Int)) (hK : Kept sK s) :
    Kept sK (placedCols s t h m raws).2 := by
  unfold placedCols
  (try dsimp only)
  repeat' (first | with_reducible assumption | with_reducible exact Kept.refl _ | with_reducible apply delayStage_kept
                 | with_reducible apply rampChan_kept | with_reducible refine Kept.foldl2 ?_ ?_ | intro _ | split)

theorem landInput_kept {sK : State} (s : State) (t h m : Nat) (ws : List Int) (hK : Kept sK s) :
    Kept sK (landInput s t h m ws) := by
  unfold landInput
  (try dsimp only)
  repeat' (first | with_reducible assumption | with_reducible exact Kept.refl _ | with_reducible apply extWrite_kept
                 | with_reducible apply queueErr_kept | split)

theorem inputPlacement_kept {sK : State} (s : State) (h : Nat) (samples : List Int) (t : Nat) (hK : Kept sK s) :
    Kept sK (inputPlacement s h samples t) := by
  unfold inputPlacement
  (try dsimp only)
  repeat' (first | with_reducible assumption | with_reducible apply setQueue_kept
                 | with_reducible apply storeBlock_kept | with_reducible apply delayStage_kept
                 | with_reducible apply landInput_kept | with_reducible apply inputCols_kept
                 | with_reducible apply placedCols_kept | with_reducible apply writeSlot_kept
                 | with_reducible apply Kept.ite)

theorem flipRequest_kept {sK : State} (s : State) (v : W32) (t : Nat) (hK : Kept sK s) :
    Kept sK (flipRequest s v t) := by
  unfold flipRequest
  (try dsimp only)
  repeat' (first | with_reducible assumption | with_reducible exact Kept.refl _ | dsimp only | exact id
                 | refine Kept.upd ?_ ?_ ?_ ?_ ?_ ?_)

theorem flipsTick_kept {sK : State} (s : State) (n t : Nat) (hK : Kept sK s) :
    Kept sK (flipsTick s n t) := by
  unfold flipsTick
  (try dsimp only)
  repeat' (first | with_reducible assumption | with_reducible exact Kept.refl _ | with_reducible apply Kept.ite
                 | with_reducible refine Kept.foldl ?_ ?_ | intro _ | refine Kept.upd ?_ ?_ ?_ ?_ ?_ ?_
                 | (simp; done))

theorem placeQueued_kept {sK : State} (s : State) (hK : Kept sK s) :
    Kept sK (placeQueued s) := by
  unfold placeQueued
  (try dsimp only)
  repeat' (first | with_reducible assumption | with_reducible exact Kept.refl _ | with_reducible apply setFld_kept)

theorem placeRequest_kept {sK : State} (s : State) (v : W32) (t : Nat) (hK : Kept sK s) :
    Kept sK (placeRequest s v t) := by
  unfold placeRequest
  (try dsimp only)
  repeat' (first | with_reducible assumption | with_reducible exact Kept.refl _ | with_reducible apply raise_kept
                 | with_reducible apply Kept.ite | dsimp only | exact id | refine Kept.upd ?_ ?_ ?_ ?_ ?_ ?_)

theorem placeStart_kept {sK : State} (s : State) (n t : Nat) (p : Place) (hK : Kept sK s) :
    Kept sK (placeStart s n t p) := by
  unfold placeStart
  (try dsimp only)
  repeat' (first | with_reducible assumption | with_reducible exact Kept.refl _ | with_reducible apply pulse_kept
                 | dsimp only | exact id | split | refine Kept.upd ?_ ?_ ?_ ?_ ?_ ?_)

theorem placesTick_kept {sK : State} (s : State) (n t : Nat) (hK : Kept sK s) :
    Kept sK (placesTick s n t) := by
  unfold placesTick
  (try dsimp only)
  repeat' (first | with_reducible assumption | with_reducible exact Kept.refl _
                 | with_reducible apply placeQueued_kept | with_reducible apply placeStart_kept
                 | with_reducible refine Kept.foldl ?_ ?_ | dsimp only | intro _ | refine Kept.upd ?_ ?_ ?_ ?_ ?_ ?_)

theorem placeComplete_kept {sK : State} (s : State) (t : Nat) (hK : Kept sK s) :
    Kept sK (placeComplete s t) := by
  unfold placeComplete
  (try dsimp only)
  repeat' (first | with_reducible assumption | with_reducible apply readPhys_kept | with_reducible apply extWrite_kept
                 | with_reducible apply runnerWriteErr_kept | with_reducible apply pulse_kept | dsimp only | exact id
                 | split | refine Kept.upd ?_ ?_ ?_ ?_ ?_ ?_)

theorem portApply_kept {sK : State} (s : State) (n t : Nat) (hK : Kept sK s) :
    Kept sK (portApply s n t) := by
  unfold portApply
  (try dsimp only)
  repeat' (first | with_reducible assumption | with_reducible exact Kept.refl _ | with_reducible apply raise_kept
                 | with_reducible apply Kept.ite)

theorem portsReframe_kept {sK : State} (s : State) (t : Nat) (hK : Kept sK s) :
    Kept sK (portsReframe s t) := by
  unfold portsReframe
  (try dsimp only)
  repeat' (first | with_reducible assumption | with_reducible exact Kept.refl _ | with_reducible apply pulse_kept
                 | with_reducible refine Kept.foldl ?_ ?_ | dsimp only | intro _ | refine Kept.upd ?_ ?_ ?_ ?_ ?_ ?_)

end Sys2Proof.Machine
end

