-- ==== Sys2Proof/Laws/KeptKeep.lean ====
section
/-! SUPPORT. Operations of the keep, the Barista pairs and live service keep what `Kept` says. -/

set_option linter.unusedTactic false
set_option linter.unreachableTactic false
set_option linter.unusedVariables false

namespace Sys2Proof.Machine

theorem setKeep_kept {sK : State} (s : State) (k : Keep) (hK : Kept sK s) :
    Kept sK (State.setKeep s k) := by
  unfold State.setKeep
  (try dsimp only)
  repeat' (first | with_reducible assumption | dsimp only | exact id | refine Kept.upd ?_ ?_ ?_ ?_ ?_ ?_)

theorem keepLog_kept {sK : State} (s : State) (ev t : Nat) (hK : Kept sK s) :
    Kept sK (keepLog s ev t) := by
  unfold keepLog
  (try dsimp only)
  repeat' (first | with_reducible assumption | with_reducible apply setKeep_kept)

theorem keepStart_kept {sK : State} (s : State) (set op param t : Nat) (hK : Kept sK s) :
    Kept sK (keepStart s set op param t) := by
  unfold keepStart
  (try dsimp only)
  repeat' (first | with_reducible assumption | with_reducible apply setBit_kept | with_reducible apply setKeep_kept
                 | with_reducible apply Kept.ite)

theorem keepIn_kept {sK : State} (s : State) (t set n : Nat) (c : KeepCmd) (hK : Kept sK s) :
    Kept sK (keepIn s t set n c).2 := by
  unfold keepIn
  (try dsimp only)
  repeat' (first | with_reducible assumption | with_reducible apply readPhys_kept | split)

theorem keepOut_kept {sK : State} (s : State) (t set : Nat) (c : KeepCmd) (bs : List Byte) (hK : Kept sK s) :
    Kept sK (keepOut s t set c bs).2 := by
  unfold keepOut
  (try dsimp only)
  repeat' (first | with_reducible assumption | with_reducible apply writePhys_kept | split)

theorem keepGive_kept {sK : State} (s : State) (t set : Nat) (c : KeepCmd) (bs : List Byte) (hK : Kept sK s) :
    Kept sK (keepGive s t set c bs).2 := by
  unfold keepGive
  (try dsimp only)
  repeat' (first | with_reducible assumption | with_reducible apply keepOut_kept)

theorem randomBytes_kept {sK : State} (s : State) (n : Nat) (hK : Kept sK s) : Kept sK (randomBytes s n).2 := by
  induction n generalizing s with
  | zero => exact hK
  | succ n ih =>
    rw [randomBytes]
    exact ih _ (free_kept _ _ _ hK)

theorem generate_kept {sK : State} (s : State) (n : Nat) (hK : Kept sK s) :
    Kept sK (generate s n).2 := by
  unfold generate
  (try dsimp only)
  repeat' (first | with_reducible assumption | with_reducible apply randomBytes_kept
                 | with_reducible apply setKeep_kept)

theorem keepQuote_kept {sK : State} (s : State) (t set : Nat) (c : KeepCmd) (hK : Kept sK s) :
    Kept sK (keepQuote s t set c).2 := by
  unfold keepQuote
  (try dsimp only)
  repeat' (first | with_reducible assumption | with_reducible apply keepIn_kept | with_reducible apply keepGive_kept
                 | with_reducible refine Kept.snd ‹_› ?_ | split)

theorem keepCert_kept {sK : State} (s : State) (t set : Nat) (c : KeepCmd) (hK : Kept sK s) :
    Kept sK (keepCert s t set c).2 := by
  unfold keepCert
  (try dsimp only)
  repeat' (first | with_reducible assumption | with_reducible apply keepGive_kept | split)

theorem keepRandom_kept {sK : State} (s : State) (t set : Nat) (c : KeepCmd) (hK : Kept sK s) :
    Kept sK (keepRandom s t set c).2 := by
  unfold keepRandom
  (try dsimp only)
  repeat' (first | with_reducible assumption | with_reducible apply generate_kept | with_reducible apply keepGive_kept
                 | split)

theorem keepInstall_kept {sK : State} (s : State) (t set : Nat) (c : KeepCmd) (hK : Kept sK s) :
    Kept sK (keepInstall s t set c).2 := by
  unfold keepInstall
  (try dsimp only)
  repeat' (first | with_reducible assumption | with_reducible apply keepIn_kept | with_reducible apply setRkeys_kept
                 | with_reducible refine Kept.snd ‹_› ?_ | split)

theorem keepPrepare_kept {sK : State} (s : State) (t set : Nat) (c : KeepCmd) (hK : Kept sK s) :
    Kept sK (keepPrepare s t set c).2 := by
  unfold keepPrepare
  (try dsimp only)
  repeat' (first | with_reducible assumption | with_reducible apply keepIn_kept | with_reducible apply keepGive_kept
                 | with_reducible refine Kept.snd ‹_› ?_ | split)

theorem keepAccept_kept {sK : State} (s : State) (t set : Nat) (c : KeepCmd) (hK : Kept sK s) :
    Kept sK (keepAccept s t set c).2 := by
  unfold keepAccept
  (try dsimp only)
  repeat' (first | with_reducible assumption | with_reducible apply keepIn_kept | with_reducible apply pulse_kept
                 | with_reducible apply setRkeys_kept | with_reducible refine Kept.snd ‹_› ?_ | split)

theorem keepFloor_kept {sK : State} (s : State) (c : KeepCmd) (hK : Kept sK s) :
    Kept sK (keepFloor s c).2 := by
  unfold keepFloor
  (try dsimp only)
  repeat' (first | with_reducible assumption | with_reducible apply setFld_kept | split)

theorem keepSlot_kept {sK : State} (s : State) (t set : Nat) (c : KeepCmd) (hK : Kept sK s) :
    Kept sK (keepSlot s t set c).2 := by
  unfold keepSlot
  (try dsimp only)
  repeat' (first | with_reducible assumption | with_reducible apply keepIn_kept | with_reducible apply setKeep_kept
                 | with_reducible apply setBit_kept | with_reducible refine Kept.snd ‹_› ?_ | split)

theorem keepRevoke_kept {sK : State} (s : State) (c : KeepCmd) (hK : Kept sK s) :
    Kept sK (keepRevoke s c).2 := by
  unfold keepRevoke
  (try dsimp only)
  repeat' (first | with_reducible assumption | with_reducible apply setBit_kept | split)

theorem keepLogRead_kept {sK : State} (s : State) (t set : Nat) (c : KeepCmd) (hK : Kept sK s) :
    Kept sK (keepLogRead s t set c).2 := by
  unfold keepLogRead
  (try dsimp only)
  repeat' (first | with_reducible assumption | with_reducible apply randomBytes_kept
                 | with_reducible apply keepGive_kept)

theorem keepChallenge_kept {sK : State} (s : State) (t set : Nat) (c : KeepCmd) (hK : Kept sK s) :
    Kept sK (keepChallenge s t set c).2 := by
  unfold keepChallenge
  (try dsimp only)
  repeat' (first | with_reducible assumption | with_reducible apply generate_kept | with_reducible apply keepGive_kept
                 | with_reducible apply setKeep_kept | split)

theorem keepUnlock_kept {sK : State} (s : State) (t set : Nat) (c : KeepCmd) (hK : Kept sK s) :
    Kept sK (keepUnlock s t set c).2 := by
  unfold keepUnlock
  (try dsimp only)
  repeat' (first | with_reducible assumption | with_reducible apply keepIn_kept | with_reducible apply setKeep_kept
                 | with_reducible apply pulse_kept | with_reducible apply setFld_kept
                 | with_reducible refine Kept.snd ‹_› ?_ | split)

theorem keepRun_kept {sK : State} (s : State) (t set : Nat) (c : KeepCmd) (hK : Kept sK s) :
    Kept sK (keepRun s t set c).2 := by
  unfold keepRun
  (try dsimp only)
  repeat' (first | with_reducible assumption | with_reducible apply keepQuote_kept
                 | with_reducible apply keepCert_kept | with_reducible apply keepRandom_kept
                 | with_reducible apply keepInstall_kept | with_reducible apply keepPrepare_kept
                 | with_reducible apply keepAccept_kept | with_reducible apply keepFloor_kept
                 | with_reducible apply keepSlot_kept | with_reducible apply keepRevoke_kept
                 | with_reducible apply keepLogRead_kept | with_reducible apply keepChallenge_kept
                 | with_reducible apply keepUnlock_kept | split)

theorem keepComplete_kept {sK : State} (s : State) (set t : Nat) (hK : Kept sK s) :
    Kept sK (keepComplete s set t) := by
  unfold keepComplete
  (try dsimp only)
  repeat' (first | with_reducible assumption | with_reducible apply keepRun_kept | with_reducible apply setKeep_kept
                 | with_reducible apply pulse_kept | with_reducible apply setFld_kept
                 | with_reducible apply setBit_kept | split)

theorem roastTrims_kept {sK : State} (s : State) (hK : Kept sK s) :
    Kept sK (roastTrims s) := by
  unfold roastTrims
  (try dsimp only)
  repeat' (first | with_reducible assumption | with_reducible exact Kept.refl _ | with_reducible apply setReg_kept
                 | with_reducible apply setKeep_kept | with_reducible refine Kept.foldl ?_ ?_ | intro _)

theorem blendEntry_kept {sK : State} (s : State) (e : Nat × Nat × List Byte) (hK : Kept sK s) :
    Kept sK (blendEntry s e) := by
  unfold blendEntry
  (try dsimp only)
  repeat' (first | with_reducible assumption | with_reducible apply setReg_kept | with_reducible apply setKeep_kept
                 | split)

theorem blendOffer_kept {sK : State} (s : State) (b : List Byte) (t : Nat) (hK : Kept sK s) :
    Kept sK (blendOffer s b t) := by
  unfold blendOffer
  (try dsimp only)
  repeat' (first | with_reducible assumption | with_reducible apply setKeep_kept | with_reducible apply pulse_kept
                 | with_reducible apply keepLog_kept | split)

theorem blendTick_kept {sK : State} (s : State) (t : Nat) (hK : Kept sK s) :
    Kept sK (blendTick s t) := by
  unfold blendTick
  (try dsimp only)
  repeat' (first | with_reducible assumption | with_reducible exact Kept.refl _ | with_reducible apply setKeep_kept
                 | with_reducible apply setBit_kept | with_reducible apply writePhys_kept
                 | with_reducible apply blendEntry_kept | with_reducible refine Kept.foldl ?_ ?_ | intro _ | split)

theorem restoreTick_kept {sK : State} (s : State) (n t : Nat) (hK : Kept sK s) :
    Kept sK (restoreTick s n t) := by
  unfold restoreTick
  (try dsimp only)
  repeat' (first | with_reducible assumption | with_reducible apply setKeep_kept
                 | with_reducible apply roastTrims_kept | with_reducible apply setBit_kept
                 | with_reducible apply writePhys_kept | with_reducible apply pulse_kept
                 | with_reducible apply crmCutAll_kept | split)

theorem fuseBurn_kept {sK : State} (s : State) (t : Nat) (hK : Kept sK s) :
    Kept sK (fuseBurn s t) := by
  unfold fuseBurn
  (try dsimp only)
  repeat' (first | with_reducible assumption | with_reducible apply setKeep_kept | with_reducible apply keepLog_kept
                 | with_reducible apply setFld_kept | with_reducible apply Kept.ite)

theorem drbgReseed_kept {sK : State} (s : State) (ok : Bool) (t : Nat) (hK : Kept sK s) :
    Kept sK (drbgReseed s ok t) := by
  unfold drbgReseed
  (try dsimp only)
  repeat' (first | with_reducible assumption | with_reducible apply setKeep_kept | with_reducible apply setBit_kept
                 | with_reducible apply pulse_kept | with_reducible apply Kept.ite)

theorem keyRebuild_kept {sK : State} (s : State) (puf : Option Nat) (t : Nat) (hK : Kept sK s) :
    Kept sK (keyRebuild s puf t) := by
  unfold keyRebuild
  (try dsimp only)
  repeat' (first | with_reducible assumption | with_reducible apply pulse_kept | with_reducible apply setBit_kept
                 | with_reducible apply setFld_kept | split)

theorem spdmRequest_kept {sK : State} (s : State) (msg : List Byte) (hK : Kept sK s) :
    Kept sK (spdmRequest s msg) := by
  unfold spdmRequest
  (try dsimp only)
  repeat' (first | with_reducible assumption | with_reducible apply free_kept | with_reducible apply setKeep_kept)

theorem ideKeyProg_kept {sK : State} (s : State) (set dir : Nat) (key : List Byte) (hK : Kept sK s) :
    Kept sK (ideKeyProg s set dir key) := by
  unfold ideKeyProg
  (try dsimp only)
  repeat' (first | with_reducible assumption | with_reducible apply setKeep_kept)

theorem setBoot_kept {sK : State} (s : State) (b : Boot) (hb : b.flash.length = s.boot.flash.length)
    (hK : Kept sK s) :
    Kept sK (State.setBoot s b) := by
  refine Kept.upd hK rfl rfl rfl id ?_
  rw [widthsOf, hb]

theorem setPairs_kept {sK : State} (s : State) (p : Pairs) (hK : Kept sK s) :
    Kept sK (State.setPairs s p) := by
  unfold State.setPairs
  (try dsimp only)
  repeat' (first | with_reducible assumption | dsimp only | exact id | refine Kept.upd ?_ ?_ ?_ ?_ ?_ ?_)

theorem moduleReset_kept {sK : State} (s : State) (why : Nat) (hK : Kept sK s) : Kept sK (moduleReset s why) :=
  hK.trans ⟨rfl, fun _ => rfl, fun _ => rfl, fun _ => rfl, id, fun e => by
    have e := congrArg (fun l => l.getD 5 0) e
    change [4, 2, 32, 8, 8, s.boot.flash.length] = _
    rw [show s.boot.flash.length = 2 from e]⟩

theorem bootFail_kept {sK : State} (s : State) (cause : Nat) (hK : Kept sK s) :
    Kept sK (bootFail s cause) := by
  unfold bootFail
  (try dsimp only)
  repeat' (first | with_reducible assumption | with_reducible apply setKeep_kept
                 | with_reducible apply moduleReset_kept | with_reducible apply setFld_kept)

theorem shadowRepeat_kept {sK : State} (s : State) (e : Nat × Nat × List Byte × Nat) (hK : Kept sK s) :
    Kept sK (shadowRepeat s e) := by
  unfold shadowRepeat
  (try dsimp only)
  repeat' (first | with_reducible assumption | with_reducible apply repairUnits_kept | with_reducible apply Kept.ite
                 | dsimp only | exact fun h => memWrite_wf h | refine Kept.upd ?_ ?_ ?_ ?_ ?_ ?_)

theorem settleShadow_kept {sK : State} (s : State) (t : Nat) (hK : Kept sK s) :
    Kept sK (settleShadow s t) := by
  unfold settleShadow
  (try dsimp only)
  repeat' (first | with_reducible assumption | with_reducible exact Kept.refl _
                 | with_reducible apply shadowRepeat_kept | with_reducible refine Kept.foldl ?_ ?_ | dsimp only
                 | intro _ | refine Kept.upd ?_ ?_ ?_ ?_ ?_ ?_)

theorem shadowWrite_kept {sK : State} (s : State) (hK : Kept sK s) :
    Kept sK (shadowWrite s) := by
  unfold shadowWrite
  (try dsimp only)
  repeat' (first | with_reducible assumption | with_reducible apply shadowRepeat_kept | dsimp only | exact id | split
                 | refine Kept.upd ?_ ?_ ?_ ?_ ?_ ?_)

theorem copyRange_kept {sK : State} (s : State) (src dst n : Nat) (hK : Kept sK s) : Kept sK
    (copyRange s src dst n) :=
  hK.trans ⟨rfl, id, id, id, copyRange_wf, id⟩

theorem startFirmware_kept {sK : State} (s : State) (r t : Nat) (hK : Kept sK s) :
    Kept sK (startFirmware s r t) := by
  unfold startFirmware
  (try dsimp only)
  repeat' (first | with_reducible assumption | with_reducible apply presentCore_kept
                 | with_reducible apply setCore_kept)

theorem warmStart_kept {sK : State} (s : State) (staged : Bool) (t : Nat) (hK : Kept sK s) :
    Kept sK (warmStart s staged t) := by
  unfold warmStart
  (try dsimp only)
  repeat' (first | with_reducible assumption | with_reducible apply setFld_kept | with_reducible apply setBit_kept
                 | with_reducible apply setCore_kept | with_reducible apply setPairs_kept
                 | with_reducible apply setBoot_kept | (simp; done))

theorem warmWrite_kept {sK : State} (s : State) (i : Ini) (v : W32) (t : Nat) (hK : Kept sK s) :
    Kept sK (warmWrite s i v t) := by
  unfold warmWrite
  (try dsimp only)
  repeat' (first | with_reducible assumption | with_reducible apply warmStart_kept | with_reducible apply Kept.ite)

theorem holdPair_kept {sK : State} (s : State) (r : Nat) (hK : Kept sK s) :
    Kept sK (holdPair s r) := by
  unfold holdPair
  (try dsimp only)
  repeat' (first | with_reducible assumption | with_reducible apply setCore_kept)

theorem undoWarm_kept {sK : State} (s : State) (t : Nat) (hK : Kept sK s) :
    Kept sK (undoWarm s t) := by
  unfold undoWarm
  (try dsimp only)
  repeat' (first | with_reducible assumption | with_reducible apply setFld_kept | with_reducible apply setBit_kept
                 | with_reducible apply setBoot_kept | with_reducible apply Kept.ite | (simp; done))

theorem pairFault_kept {sK : State} (s : State) (r t : Nat) (hK : Kept sK s) :
    Kept sK (pairFault s r t) := by
  unfold pairFault
  (try dsimp only)
  repeat' (first | with_reducible assumption | with_reducible apply undoWarm_kept | with_reducible apply setBit_kept
                 | with_reducible apply setPairs_kept | with_reducible apply holdPair_kept
                 | with_reducible apply bootFail_kept | split)

theorem pairReturn_kept {sK : State} (s : State) (t : Nat) (hK : Kept sK s) :
    Kept sK (pairReturn s t) := by
  unfold pairReturn
  (try dsimp only)
  repeat' (first | with_reducible assumption | with_reducible apply returnService_kept
                 | with_reducible apply setPairs_kept)

theorem takeOver_kept {sK : State} (s : State) (c r : Nat) (hK : Kept sK s) :
    Kept sK (takeOver s c r) := by
  unfold takeOver
  (try dsimp only)
  repeat' (first | with_reducible assumption | with_reducible exact Kept.refl _
                 | with_reducible apply shadowRepeat_kept | with_reducible apply warmStart_kept
                 | with_reducible apply setCore_kept | with_reducible apply Kept.ite
                 | with_reducible refine Kept.foldl ?_ ?_ | dsimp only | intro _ | refine Kept.upd ?_ ?_ ?_ ?_ ?_ ?_)

theorem lockstepMismatch_kept {sK : State} (s : State) (r t : Nat) (hK : Kept sK s) :
    Kept sK (lockstepMismatch s r t) := by
  unfold lockstepMismatch
  (try dsimp only)
  repeat' (first | with_reducible assumption | with_reducible apply pairFault_kept | with_reducible apply Kept.ite
                 | dsimp only | exact fun h => foldl_memSet_wf h | refine Kept.upd ?_ ?_ ?_ ?_ ?_ ?_)

theorem wdogExpiry_kept {sK : State} (s : State) (t : Nat) (hK : Kept sK s) :
    Kept sK (wdogExpiry s t) := by
  unfold wdogExpiry
  (try dsimp only)
  repeat' (first | with_reducible assumption | with_reducible apply pairFault_kept | split)

theorem wdogService_kept {sK : State} (s : State) (i : Ini) (v : W32) (t : Nat) (hK : Kept sK s) :
    Kept sK (wdogService s i v t) := by
  unfold wdogService
  (try dsimp only)
  repeat' (first | with_reducible assumption | with_reducible apply setPairs_kept | with_reducible apply Kept.ite)

theorem wdogFirst_kept {sK : State} (s : State) (w : CoreSel) (t : Nat) (hK : Kept sK s) :
    Kept sK (wdogFirst s w t) := by
  unfold wdogFirst
  (try dsimp only)
  repeat' (first | with_reducible assumption | with_reducible apply setPairs_kept | with_reducible apply Kept.ite)

theorem restoreWrite_kept {sK : State} (s : State) (i : Ini) (v : W32) (t : Nat) (hK : Kept sK s) :
    Kept sK (restoreWrite s i v t) := by
  unfold restoreWrite
  (try dsimp only)
  repeat' (first | with_reducible assumption | with_reducible apply setCore_kept | with_reducible apply setBit_kept
                 | with_reducible apply setPairs_kept | with_reducible apply Kept.ite)

theorem restoreComplete_kept {sK : State} (s : State) (t : Nat) (hK : Kept sK s) :
    Kept sK (restoreComplete s t) := by
  unfold restoreComplete
  (try dsimp only)
  repeat' (first | with_reducible assumption | with_reducible apply copyRange_kept
                 | with_reducible apply startFirmware_kept | dsimp only | exact id | split
                 | refine Kept.upd ?_ ?_ ?_ ?_ ?_ ?_)

theorem flashPut_kept {sK : State} (s : State) (d i : Nat) (b : Byte) (hK : Kept sK s) :
    Kept sK (flashPut s d i b) := by
  unfold flashPut
  (try dsimp only)
  repeat' (first | with_reducible assumption | with_reducible apply setBoot_kept | (simp; done))

theorem markStart_kept {sK : State} (s : State) (d k : Nat) (hK : Kept sK s) :
    Kept sK (markStart s d k) := by
  unfold markStart
  (try dsimp only)
  repeat' (first | with_reducible assumption | with_reducible apply setBit_kept | with_reducible apply setBoot_kept
                 | (simp; done))

theorem markWrite_kept {sK : State} (s : State) (i : Ini) (v : W32) (hK : Kept sK s) :
    Kept sK (markWrite s i v) := by
  unfold markWrite
  (try dsimp only)
  repeat' (first | with_reducible assumption | with_reducible apply markStart_kept | split)

theorem markDone_kept {sK : State} (s : State) (hK : Kept sK s) :
    Kept sK (markDone s) := by
  unfold markDone
  (try dsimp only)
  repeat' (first | with_reducible assumption | with_reducible apply flashPut_kept | with_reducible apply setBit_kept
                 | with_reducible apply setBoot_kept | split | (simp; done))

theorem setService_kept {sK : State} (s : State) (x : Service) (hK : Kept sK s) :
    Kept sK (State.setService s x) := by
  unfold State.setService
  (try dsimp only)
  repeat' (first | with_reducible assumption | dsimp only | exact id | refine Kept.upd ?_ ?_ ?_ ?_ ?_ ?_)

theorem spareShow_kept {sK : State} (s : State) (hK : Kept sK s) :
    Kept sK (spareShow s) := by
  unfold spareShow
  (try dsimp only)
  repeat' (first | with_reducible assumption | with_reducible exact Kept.refl _ | with_reducible apply setFld_kept
                 | with_reducible apply setBit_kept | with_reducible refine Kept.foldl ?_ ?_ | intro _ | split)

theorem spareResult_kept {sK : State} (s : State) (r : Nat) (hK : Kept sK s) :
    Kept sK (spareResult s r) := by
  unfold spareResult
  (try dsimp only)
  repeat' (first | with_reducible assumption | with_reducible apply setFld_kept)

theorem takeOverRequest_kept {sK : State} (s : State) (i : Ini) (l t : Nat) (hK : Kept sK s) :
    Kept sK (takeOverRequest s i l t) := by
  unfold takeOverRequest
  (try dsimp only)
  repeat' (first | with_reducible assumption | with_reducible apply spareResult_kept
                 | with_reducible apply spareShow_kept | with_reducible apply setService_kept
                 | with_reducible apply Kept.ite)

theorem retireSpare_kept {sK : State} (s : State) (j : Nat) (hK : Kept sK s) :
    Kept sK (retireSpare s j) := by
  unfold retireSpare
  (try dsimp only)
  repeat' (first | with_reducible assumption | with_reducible apply spareResult_kept
                 | with_reducible apply setBit_kept | with_reducible apply Kept.ite)

theorem spareWrite_kept {sK : State} (s : State) (i : Ini) (v : W32) (t : Nat) (hK : Kept sK s) :
    Kept sK (spareWrite s i v t) := by
  unfold spareWrite
  (try dsimp only)
  repeat' (first | with_reducible assumption | with_reducible apply takeOverRequest_kept
                 | with_reducible apply retireSpare_kept | split)

theorem holdCore_kept {sK : State} (s : State) (p : Nat) (hK : Kept sK s) :
    Kept sK (holdCore s p) := by
  unfold holdCore
  (try dsimp only)
  repeat' (first | with_reducible assumption | with_reducible apply setCore_kept)

theorem takeOverStart_kept {sK : State} (s : State) (l p sp n t : Nat) (hK : Kept sK s) :
    Kept sK (takeOverStart s l p sp n t) := by
  unfold takeOverStart
  (try dsimp only)
  repeat' (first | with_reducible assumption | with_reducible apply returnService_kept
                 | with_reducible apply pulse_kept | with_reducible apply countEvent_kept
                 | with_reducible apply spareShow_kept | split | refine Kept.upd ?_ ?_ ?_ ?_ ?_ ?_ | (simp; done))

theorem copyChan_kept {sK : State} (s : State) (t a b : Nat) (hK : Kept sK s) :
    Kept sK (copyChan s t a b) := by
  unfold copyChan
  (try dsimp only)
  repeat' (first | with_reducible assumption | with_reducible exact Kept.refl _ | with_reducible apply settleChan_kept
                 | with_reducible apply setReg_kept | with_reducible apply setChan_kept
                 | with_reducible refine Kept.foldl ?_ ?_ | intro _)

theorem copyErrors_kept {sK : State} (s : State) (t p sp : Nat) (hK : Kept sK s) :
    Kept sK (copyErrors s t p sp) := by
  unfold copyErrors
  (try dsimp only)
  repeat' (first | with_reducible assumption | with_reducible exact Kept.refl _
                 | with_reducible apply correctUnits_kept | with_reducible apply copyRange_kept
                 | with_reducible apply pulse_kept | with_reducible apply countEvent_kept
                 | with_reducible refine Kept.foldl ?_ ?_ | dsimp only | exact fun h => memWrite_wf h | intro _
                 | refine Kept.upd ?_ ?_ ?_ ?_ ?_ ?_)

theorem takeOverCopied_kept {sK : State} (s : State) (t : Nat) (hK : Kept sK s) :
    Kept sK (takeOverCopied s t) := by
  unfold takeOverCopied
  (try dsimp only)
  repeat' (first | with_reducible assumption | with_reducible apply copyErrors_kept
                 | with_reducible apply setCore_kept | with_reducible apply copyChan_kept
                 | with_reducible apply spareShow_kept | dsimp only | intro _ | split
                 | refine Kept.upd ?_ ?_ ?_ ?_ ?_ ?_)

theorem takeOverMap_kept {sK : State} (s : State) (n t : Nat) (hK : Kept sK s) :
    Kept sK (takeOverMap s n t) := by
  unfold takeOverMap
  (try dsimp only)
  repeat' (first | with_reducible assumption | with_reducible apply takeOverCopied_kept
                 | with_reducible apply spareShow_kept | with_reducible apply pulse_kept
                 | with_reducible apply setBit_kept | split | refine Kept.upd ?_ ?_ ?_ ?_ ?_ ?_ | (simp; done))

theorem takeOverNext_kept {sK : State} (f : Nat) (s : State) (n t : Nat) (hK : Kept sK s) :
    Kept sK (takeOverNext f s n t) := by
  induction f generalizing s with
  | zero => exact hK
  | succ f ih =>
    unfold takeOverNext
    split
    · split
      · exact hK
      · dsimp only
        split
        · exact ih _ (spareShow_kept _ (pulse_kept _ _ _ (spareResult_kept _ _ (setService_kept _ _ hK))))
        · exact takeOverStart_kept _ _ _ _ _ _ (setService_kept _ _ hK)
    · exact hK

theorem takeOversTick_kept {sK : State} (s : State) (n t : Nat) (hK : Kept sK s) :
    Kept sK (takeOversTick s n t) := by
  unfold takeOversTick
  (try dsimp only)
  repeat' (first | with_reducible assumption | with_reducible exact Kept.refl _
                 | with_reducible apply takeOverNext_kept | with_reducible apply takeOverMap_kept
                 | with_reducible apply Kept.ite)

theorem agingMeasure_kept {sK : State} (s : State) (i d t : Nat) (hK : Kept sK s) :
    Kept sK (agingMeasure s i d t) := by
  unfold agingMeasure
  (try dsimp only)
  repeat' (first | with_reducible assumption | with_reducible apply setFld_kept | with_reducible apply pulse_kept
                 | with_reducible apply Kept.ite)

theorem counterClose_kept {sK : State} (s : State) (k n t : Nat) (hK : Kept sK s) :
    Kept sK (counterClose s k n t) := by
  unfold counterClose
  (try dsimp only)
  repeat' (first | with_reducible assumption | with_reducible apply setReg_kept | with_reducible apply setService_kept
                 | with_reducible apply pulse_kept | with_reducible apply raise_kept | split)

theorem counterConfig_kept {sK : State} (s : State) (k n : Nat) (v : W32) (hK : Kept sK s) :
    Kept sK (counterConfig s k n v) := by
  unfold counterConfig
  (try dsimp only)
  repeat' (first | with_reducible assumption | with_reducible apply setReg_kept
                 | with_reducible apply setService_kept)

theorem countersTick_kept {sK : State} (s : State) (n t : Nat) (hK : Kept sK s) :
    Kept sK (countersTick s n t) := by
  unfold countersTick
  (try dsimp only)
  repeat' (first | with_reducible assumption | with_reducible exact Kept.refl _
                 | with_reducible apply counterClose_kept | with_reducible refine Kept.foldl ?_ ?_ | intro _)

end Sys2Proof.Machine
end

