-- ==== Sys2Proof/Laws/KeptHost.lean ====
section
/-! SUPPORT. Operations of the host link and the supplies keep what `Kept` says. -/

set_option linter.unusedTactic false
set_option linter.unreachableTactic false
set_option linter.unusedVariables false

namespace Sys2Proof.Machine

theorem setPcie_kept {sK : State} (s : State) (x : Pcie) (hK : Kept sK s) :
    Kept sK (State.setPcie s x) := by
  unfold State.setPcie
  (try dsimp only)
  repeat' (first | with_reducible assumption | dsimp only | exact id | refine Kept.upd ?_ ?_ ?_ ?_ ?_ ?_)

theorem aerLog_kept {sK : State} (s : State) (code t : Nat) (hK : Kept sK s) :
    Kept sK (aerLog s code t) := by
  unfold aerLog
  (try dsimp only)
  repeat' (first | with_reducible assumption | with_reducible apply setPcie_kept | with_reducible apply pulse_kept)

theorem complete_kept {sK : State} (s : State) (c : Cpl) (data : List Byte) (hK : Kept sK s) :
    Kept sK (complete s c data) := by
  unfold complete
  (try dsimp only)
  repeat' (first | with_reducible assumption | with_reducible apply setPcie_kept)

theorem msixFlush_kept {sK : State} (s : State) (hK : Kept sK s) :
    Kept sK (msixFlush s) := by
  unfold msixFlush
  (try dsimp only)
  repeat' (first | with_reducible assumption | with_reducible exact Kept.refl _ | with_reducible apply msixDue_kept
                 | with_reducible refine Kept.foldl ?_ ?_ | dsimp only | intro _ | refine Kept.upd ?_ ?_ ?_ ?_ ?_ ?_)

theorem msixFire_kept {sK : State} (s : State) (i : Ini) (v : W32) (hK : Kept sK s) :
    Kept sK (msixFire s i v) := by
  unfold msixFire
  (try dsimp only)
  repeat' (first | with_reducible assumption | with_reducible apply msixDue_kept | with_reducible apply Kept.ite)

theorem msixWrite_kept {sK : State} (s : State) (v w x : Nat) (hK : Kept sK s) :
    Kept sK (msixWrite s v w x) := by
  unfold msixWrite
  (try dsimp only)
  repeat' (first | with_reducible assumption | with_reducible apply msixFlush_kept | dsimp only | exact id
                 | refine Kept.upd ?_ ?_ ?_ ?_ ?_ ?_)

theorem msixUnmask_kept {sK : State} (s : State) (v : Nat) (hK : Kept sK s) :
    Kept sK (msixUnmask s v) := by
  unfold msixUnmask
  (try dsimp only)
  repeat' (first | with_reducible assumption | with_reducible apply msixWrite_kept)

theorem hrShow_kept {sK : State} (s : State) (j : Nat) (hK : Kept sK s) :
    Kept sK (hrShow s j) := by
  unfold hrShow
  (try dsimp only)
  repeat' (first | with_reducible assumption | with_reducible apply setFld_kept)

theorem hrStop_kept {sK : State} (s : State) (j err t : Nat) (hK : Kept sK s) :
    Kept sK (hrStop s j err t) := by
  unfold hrStop
  (try dsimp only)
  repeat' (first | with_reducible assumption | with_reducible apply setBit_kept | with_reducible apply setFld_kept
                 | with_reducible apply setPcie_kept)

theorem hrIssue_kept {sK s' : State} (s : State) (j t : Nat) (hK : Kept sK s)
    (h : hrIssue s j t = some s') : Kept sK s' := by
  unfold hrIssue at h
  dsimp only at h
  split at h
  · cases h
  · cases h
    exact hrShow_kept _ _ (setPcie_kept _ _ hK)

theorem hrIssueAll_kept {sK : State} (f : Nat) (s : State) (j t : Nat) (hK : Kept sK s) :
    Kept sK (hrIssueAll f s j t) := by
  induction f generalizing s with
  | zero => exact hK
  | succ f ih =>
    unfold hrIssueAll
    split
    · next h => exact ih _ (hrIssue_kept _ _ _ hK h)
    · exact hK

theorem hrIssueRings_kept {sK : State} (s : State) (t : Nat) (hK : Kept sK s) :
    Kept sK (hrIssueRings s t) := by
  unfold hrIssueRings
  (try dsimp only)
  repeat' (first | with_reducible assumption | with_reducible exact Kept.refl _ | with_reducible apply hrIssueAll_kept
                 | with_reducible refine Kept.foldl ?_ ?_ | intro _)

theorem hrConfig_kept {sK : State} (s : State) (j : Nat) (v : W32) (t : Nat) (hK : Kept sK s) :
    Kept sK (hrConfig s j v t) := by
  unfold hrConfig
  (try dsimp only)
  repeat' (first | with_reducible assumption | with_reducible apply setReg_kept | with_reducible apply setPcie_kept
                 | with_reducible apply hrShow_kept | with_reducible apply setBit_kept
                 | with_reducible apply setFld_kept | with_reducible apply Kept.ite)

theorem hrIndex_kept {sK : State} (s : State) (j : Nat) (pi : Bool) (v : W32) (t : Nat) (hK : Kept sK s) :
    Kept sK (hrIndex s j pi v t) := by
  unfold hrIndex
  (try dsimp only)
  repeat' (first | with_reducible assumption | with_reducible apply hrIssueAll_kept | with_reducible apply setReg_kept
                 | with_reducible apply Kept.ite)

theorem hrEntryWrite_kept {sK : State} (s : State) (j t : Nat) (hK : Kept sK s) :
    Kept sK (hrEntryWrite s j t) := by
  unfold hrEntryWrite
  (try dsimp only)
  repeat' (first | with_reducible assumption | with_reducible apply readSlot_kept | with_reducible apply dropItem_kept
                 | with_reducible apply setPcie_kept | with_reducible apply pulse_kept
                 | with_reducible apply setReg_kept | with_reducible apply Kept.ite)

theorem hrFail_kept {sK : State} (s : State) (j err t : Nat) (hK : Kept sK s) :
    Kept sK (hrFail s j err t) := by
  unfold hrFail
  (try dsimp only)
  repeat' (first | with_reducible assumption | with_reducible apply setPcie_kept | with_reducible apply hrShow_kept
                 | with_reducible apply pulse_kept | with_reducible apply hrStop_kept)

theorem hrTake_kept {sK t : State} {r : HRead} {s : State} {j : Nat} (hK : Kept sK s) (h : hrTake s j = some (r, t)) :
    Kept sK t := by
  unfold hrTake at h
  split at h
  · cases h
    exact hrShow_kept _ _ (setPcie_kept _ _ hK)
  · cases h

theorem hrCompletion_kept {sK : State} (s : State) (j : Nat) (ok ep : Bool) (items : List W48) (t : Nat)
    (hK : Kept sK s) :
    Kept sK (hrCompletion s j ok ep items t) := by
  unfold hrCompletion
  split
  · exact Kept.ite (aerLog_kept _ _ _ hK) hK
  · next h =>
    have h := hrTake_kept hK h
    exact Kept.ite h (Kept.ite (hrFail_kept _ _ _ _ h) (Kept.ite (hrFail_kept _ _ _ _ (aerLog_kept _ _ _ h))
      (hrIssueAll_kept _ _ _ _ (pulse_kept _ _ _ (setReg_kept _ _ _ _ _ (Kept.foldl h fun _ _ =>
        portSend_kept _ _ _ _ (Kept.refl _)))))))

theorem hrTimeout_kept {sK : State} (s : State) (j t : Nat) (hK : Kept sK s) : Kept sK (hrTimeout s j t) := by
  unfold hrTimeout
  split
  · exact hK
  · next h =>
    have h := hrTake_kept hK h
    exact Kept.ite hK (Kept.ite h (runErr_kept _ _ _ _ (aerLog_kept _ _ _ (hrFail_kept _ _ _ _ h))))

theorem ringsReset_kept {sK : State} (s : State) (t : Nat) (hK : Kept sK s) :
    Kept sK (ringsReset s t) := by
  unfold ringsReset
  (try dsimp only)
  repeat' (first | with_reducible assumption | with_reducible exact Kept.refl _ | with_reducible apply setPcie_kept
                 | with_reducible apply hrShow_kept | with_reducible apply hrStop_kept | with_reducible apply Kept.ite
                 | with_reducible refine Kept.foldl ?_ ?_ | intro _)

theorem functionReset_kept {sK : State} (s : State) (t : Nat) (hK : Kept sK s) :
    Kept sK (functionReset s t) := by
  unfold functionReset
  (try dsimp only)
  repeat' (first | with_reducible assumption | with_reducible apply ringsReset_kept | with_reducible apply pulse_kept
                 | with_reducible apply Kept.ite | dsimp only | exact id | refine Kept.upd ?_ ?_ ?_ ?_ ?_ ?_)

theorem setIde_kept {sK : State} (s : State) (v : Bool) (t : Nat) (hK : Kept sK s) :
    Kept sK (setIde s v t) := by
  unfold setIde
  (try dsimp only)
  repeat' (first | with_reducible assumption | with_reducible apply pulse_kept | with_reducible apply setBit_kept
                 | with_reducible apply Kept.ite)

theorem perstDeassert_kept {sK : State} (s : State) (refclk : Bool) (hK : Kept sK s) :
    Kept sK (perstDeassert s refclk) := by
  unfold perstDeassert
  (try dsimp only)
  repeat' (first | with_reducible assumption | with_reducible apply setPcie_kept)

theorem linkUp_kept {sK : State} (s : State) (rate width : Nat) (flit : Bool) (t : Nat) (hK : Kept sK s) :
    Kept sK (linkUp s rate width flit t) := by
  unfold linkUp
  (try dsimp only)
  repeat' (first | with_reducible assumption | with_reducible apply setFld_kept | with_reducible apply setBit_kept
                 | with_reducible apply pulse_kept | with_reducible apply setPcie_kept
                 | with_reducible apply Kept.ite)

theorem linkDown_kept {sK : State} (s : State) (kind t : Nat) (hK : Kept sK s) :
    Kept sK (linkDown s kind t) := by
  unfold linkDown
  (try dsimp only)
  repeat' (first | with_reducible assumption | with_reducible apply functionReset_kept
                 | with_reducible apply setIde_kept | with_reducible apply setFld_kept
                 | with_reducible apply setKeep_kept | with_reducible apply setPcie_kept
                 | with_reducible apply pulse_kept | with_reducible apply Kept.ite)

theorem flr_kept {sK : State} (s : State) (t : Nat) (hK : Kept sK s) :
    Kept sK (flr s t) := by
  unfold flr
  (try dsimp only)
  repeat' (first | with_reducible assumption | with_reducible apply pulse_kept
                 | with_reducible apply functionReset_kept | with_reducible apply Kept.ite)

theorem dState_kept {sK : State} (s : State) (d3 : Bool) (t : Nat) (hK : Kept sK s) :
    Kept sK (dState s d3 t) := by
  unfold dState
  (try dsimp only)
  repeat' (first | with_reducible assumption | with_reducible apply hrIssueRings_kept
                 | with_reducible apply pulse_kept | with_reducible apply setFld_kept | with_reducible apply Kept.ite)

theorem configRequest_kept {sK : State} (s : State) (op : CfgOp) (t : Nat) (hK : Kept sK s) :
    Kept sK (configRequest s op t) := by
  unfold configRequest
  (try dsimp only)
  repeat' (first | with_reducible assumption | with_reducible apply hrIssueRings_kept
                 | with_reducible apply msixFlush_kept | dsimp only | exact id | split
                 | refine Kept.upd ?_ ?_ ?_ ?_ ?_ ?_)

theorem kSetGo_kept {sK : State} (s : State) (set t : Nat) (hK : Kept sK s) :
    Kept sK (kSetGo s set t) := by
  unfold kSetGo
  (try dsimp only)
  repeat' (first | with_reducible assumption | with_reducible apply setIde_kept | with_reducible apply setKeep_kept
                 | with_reducible apply Kept.ite)

theorem kSetStop_kept {sK : State} (s : State) (set t : Nat) (hK : Kept sK s) :
    Kept sK (kSetStop s set t) := by
  unfold kSetStop
  (try dsimp only)
  repeat' (first | with_reducible assumption | with_reducible apply setKeep_kept | with_reducible apply setIde_kept
                 | with_reducible apply Kept.ite)

theorem ideQuery_kept {sK : State} (s : State) (hK : Kept sK s) :
    Kept sK (ideQuery s) := by
  unfold ideQuery
  (try dsimp only)
  repeat' (first | with_reducible assumption | with_reducible apply spdmRequest_kept)

theorem ideFailure_kept {sK : State} (s : State) (t : Nat) (hK : Kept sK s) :
    Kept sK (ideFailure s t) := by
  unfold ideFailure
  (try dsimp only)
  repeat' (first | with_reducible assumption | with_reducible apply pulse_kept | with_reducible apply setBit_kept
                 | with_reducible apply setKeep_kept)

theorem setPower_kept {sK : State} (s : State) (x : Power) (hK : Kept sK s) :
    Kept sK (State.setPower s x) := by
  unfold State.setPower
  (try dsimp only)
  repeat' (first | with_reducible assumption | dsimp only | exact id | refine Kept.upd ?_ ?_ ?_ ?_ ?_ ?_)

theorem landRecord_kept {sK : State} (s : State) (row col kind t : Nat) (hK : Kept sK s) :
    Kept sK (landRecord s row col kind t) := by
  unfold landRecord
  (try dsimp only)
  repeat' (first | with_reducible assumption | with_reducible apply pulse_kept | with_reducible apply record_kept)

theorem landShut_kept {sK : State} (s : State) (row col t : Nat) (hK : Kept sK s) :
    Kept sK (landShut s row col t) := by
  unfold landShut
  (try dsimp only)
  repeat' (first | with_reducible assumption | with_reducible apply setPower_kept
                 | with_reducible apply landLevel_kept | with_reducible apply pinEdge_kept
                 | with_reducible apply Kept.ite)

theorem landSwitchOpen_kept {sK : State} (s : State) (row col : Nat) (low : Bool) (t : Nat) (hK : Kept sK s) :
    Kept sK (landSwitchOpen s row col low t) := by
  unfold landSwitchOpen
  (try dsimp only)
  repeat' (first | with_reducible assumption | with_reducible apply landRecord_kept
                 | with_reducible apply landShut_kept | with_reducible apply Kept.ite)

theorem landSwitchClose_kept {sK : State} (s : State) (row col : Nat) (level : Bool) (t : Nat) (hK : Kept sK s) :
    Kept sK (landSwitchClose s row col level t) := by
  unfold landSwitchClose
  (try dsimp only)
  repeat' (first | with_reducible assumption | with_reducible apply setPower_kept
                 | with_reducible apply landLevel_kept | with_reducible apply pinClock_kept
                 | with_reducible apply pinEdge_kept | with_reducible apply Kept.ite)

theorem landFault_kept {sK : State} (s : State) (row col kind t : Nat) (hK : Kept sK s) :
    Kept sK (landFault s row col kind t) := by
  unfold landFault
  (try dsimp only)
  repeat' (first | with_reducible assumption | with_reducible apply landRecord_kept
                 | with_reducible apply landShut_kept | with_reducible apply Kept.ite)

theorem openInputTest_kept {sK : State} (s : State) (lands : List (Nat × Nat)) (t : Nat) (hK : Kept sK s) :
    Kept sK (openInputTest s lands t) := by
  unfold openInputTest
  (try dsimp only)
  repeat' (first | with_reducible assumption | with_reducible exact Kept.refl _ | with_reducible apply landRecord_kept
                 | with_reducible apply Kept.ite | with_reducible refine Kept.foldl ?_ ?_ | intro _)

theorem inCarry_kept {sK : State} (s : State) (va vb : Nat) (hK : Kept sK s) :
    Kept sK (inCarry s va vb) := by
  unfold inCarry
  (try dsimp only)
  repeat' (first | with_reducible assumption | with_reducible apply setBit_kept)

theorem inHoldup_kept {sK : State} (s : State) (t : Nat) (hK : Kept sK s) :
    Kept sK (inHoldup s t) := by
  unfold inHoldup
  (try dsimp only)
  repeat' (first | with_reducible assumption | with_reducible apply pulse_kept | with_reducible apply setBit_kept
                 | with_reducible apply Kept.ite)

theorem inSet_kept {sK : State} (s : State) (b ok ov rev : Bool) (va vb t : Nat) (hK : Kept sK s) :
    Kept sK (inSet s b ok ov rev va vb t) := by
  unfold inSet
  (try dsimp only)
  repeat' (first | with_reducible assumption | with_reducible apply setBit_kept | with_reducible apply inHoldup_kept
                 | with_reducible apply inCarry_kept | with_reducible apply pulse_kept
                 | with_reducible apply Kept.ite)

theorem inputOk_kept {sK : State} (s : State) (b ok : Bool) (va vb t : Nat) (hK : Kept sK s) :
    Kept sK (inputOk s b ok va vb t) := by
  unfold inputOk
  (try dsimp only)
  repeat' (first | with_reducible assumption | with_reducible apply moduleReset_kept | with_reducible apply inSet_kept
                 | with_reducible apply Kept.ite)

theorem inputReversed_kept {sK : State} (s : State) (b : Bool) (va vb t : Nat) (hK : Kept sK s) :
    Kept sK (inputReversed s b va vb t) := by
  unfold inputReversed
  (try dsimp only)
  repeat' (first | with_reducible assumption | with_reducible apply inSet_kept)

theorem inputOver_kept {sK : State} (s : State) (b : Bool) (va vb t : Nat) (hK : Kept sK s) :
    Kept sK (inputOver s b va vb t) := by
  unfold inputOver
  (try dsimp only)
  repeat' (first | with_reducible assumption | with_reducible apply inSet_kept)

theorem inputReconnect_kept {sK : State} (s : State) (b : Bool) (va vb t : Nat) (hK : Kept sK s) :
    Kept sK (inputReconnect s b va vb t) := by
  unfold inputReconnect
  (try dsimp only)
  repeat' (first | with_reducible assumption | with_reducible apply inSet_kept | with_reducible apply Kept.ite)

theorem vholdLow_kept {sK : State} (s : State) (v t : Nat) (hK : Kept sK s) :
    Kept sK (vholdLow s v t) := by
  unfold vholdLow
  (try dsimp only)
  repeat' (first | with_reducible assumption | with_reducible apply pulse_kept | with_reducible apply setFld_kept)

theorem railsOff_kept {sK : State} (s : State) (why : Nat) (hK : Kept sK s) :
    Kept sK (railsOff s why) := by
  unfold railsOff
  (try dsimp only)
  repeat' (first | with_reducible assumption | with_reducible apply moduleReset_kept | dsimp only
                 | with_reducible exact wf_nil | intro _ | refine Kept.upd ?_ ?_ ?_ ?_ ?_ ?_)

theorem holdupExhausted_kept {sK : State} (s : State) (hK : Kept sK s) :
    Kept sK (holdupExhausted s) := by
  unfold holdupExhausted
  (try dsimp only)
  repeat' (first | with_reducible assumption | with_reducible apply railsOff_kept | with_reducible apply Kept.ite)

theorem pgRelease_kept {sK : State} (s : State) (hK : Kept sK s) :
    Kept sK (pgRelease s) := by
  unfold pgRelease
  (try dsimp only)
  repeat' (first | with_reducible assumption | with_reducible apply setPower_kept | with_reducible apply Kept.ite)

theorem sleepWrite_kept {sK : State} (s : State) (i : Ini) (v : W32) (t : Nat) (hK : Kept sK s) :
    Kept sK (sleepWrite s i v t) := by
  unfold sleepWrite
  (try dsimp only)
  repeat' (first | with_reducible assumption | with_reducible apply setPower_kept | with_reducible apply Kept.ite)

theorem sleepEnter_kept {sK : State} (s : State) (t : Nat) (hK : Kept sK s) :
    Kept sK (sleepEnter s t) := by
  unfold sleepEnter
  (try dsimp only)
  repeat' (first | with_reducible assumption | with_reducible apply linkDown_kept
                 | with_reducible apply crmCutAll_kept | with_reducible apply rebaseChans_kept
                 | with_reducible apply settleChans_kept | with_reducible apply holdover_kept
                 | with_reducible apply setPower_kept)

theorem latchesGive_kept {sK : State} (s : State) (t : Nat) (hK : Kept sK s) :
    Kept sK (latchesGive s t) := by
  unfold latchesGive
  (try dsimp only)
  repeat' (first | with_reducible assumption | with_reducible exact Kept.refl _ | with_reducible apply presentAll_kept
                 | with_reducible apply setSrc_kept | with_reducible apply mirror_kept
                 | with_reducible apply srcEvent_kept | with_reducible apply Kept.ite
                 | with_reducible refine Kept.foldl ?_ ?_ | intro _)

theorem shiftSleep_kept {sK : State} (s : State) (d : Nat) (hK : Kept sK s) :
    Kept sK (shiftSleep s d) := by
  unfold shiftSleep
  (try dsimp only)
  repeat' (first | with_reducible assumption | refine Kept.upd ?_ ?_ ?_ ?_ ?_ ?_ | (simp; done))

theorem wakeUp_kept {sK : State} (s : State) (t e : Nat) (hK : Kept sK s) :
    Kept sK (wakeUp s t e) := by
  unfold wakeUp
  (try dsimp only)
  repeat' (first | with_reducible assumption | with_reducible exact Kept.refl _ | with_reducible apply shiftSleep_kept
                 | with_reducible apply setPortState_kept | with_reducible apply pulse_kept
                 | with_reducible apply latchesGive_kept | with_reducible apply Kept.ite
                 | with_reducible refine Kept.foldl ?_ ?_ | dsimp only | intro _ | refine Kept.upd ?_ ?_ ?_ ?_ ?_ ?_)

theorem wakeEvent_kept {sK : State} (s : State) (b t : Nat) (hK : Kept sK s) :
    Kept sK (wakeEvent s b t) := by
  unfold wakeEvent
  (try dsimp only)
  repeat' (first | with_reducible assumption | with_reducible apply wakeUp_kept | with_reducible apply setPower_kept
                 | split)

theorem refFlag_kept {sK : State} (s : State) (bit src : Nat) (v : Bool) (t : Nat) (hK : Kept sK s) :
    Kept sK (refFlag s bit src v t) := by
  unfold refFlag
  (try dsimp only)
  repeat' (first | with_reducible assumption | with_reducible apply pulse_kept | with_reducible apply setBit_kept
                 | with_reducible apply Kept.ite)

theorem temperature_kept {sK : State} (s : State) (tmain tana t : Nat) (hK : Kept sK s) :
    Kept sK (temperature s tmain tana t) := by
  unfold temperature
  (try dsimp only)
  repeat' (first | with_reducible assumption | with_reducible apply setFld_kept | with_reducible apply refFlag_kept
                 | with_reducible apply Kept.ite)

theorem thermalShutdown_kept {sK : State} (s : State) (hK : Kept sK s) :
    Kept sK (thermalShutdown s) := by
  unfold thermalShutdown
  (try dsimp only)
  repeat' (first | with_reducible assumption | with_reducible apply railsOff_kept | with_reducible apply setPower_kept
                 | with_reducible apply Kept.ite)

theorem thermalRestart_kept {sK : State} (s : State) (hK : Kept sK s) :
    Kept sK (thermalRestart s) := by
  unfold thermalRestart
  (try dsimp only)
  repeat' (first | with_reducible assumption | with_reducible apply setPower_kept | with_reducible apply Kept.ite)

end Sys2Proof.Machine
end

