-- ==== Sys2Proof/Laws/KeptCore.lean ====
section
/-! SUPPORT. Operations of bus accesses and the cores keep what `Kept` says. -/

set_option linter.unusedTactic false
set_option linter.unreachableTactic false
set_option linter.unusedVariables false

namespace Sys2Proof.Machine

theorem releaseCores_kept {sK : State} (s : State) (t : Nat) (hK : Kept sK s) :
    Kept sK (releaseCores s t) := by
  unfold releaseCores
  (try dsimp only)
  repeat' (first | with_reducible assumption | refine Kept.upd ?_ ?_ ?_ ?_ ?_ ?_ | (simp; done))

theorem tampNow_kept {sK : State} (s : State) (t : Nat) (hK : Kept sK s) :
    Kept sK (tampNow s t) := by
  unfold tampNow
  (try dsimp only)
  repeat' (first | with_reducible assumption | with_reducible apply setBit_kept
                 | with_reducible apply releaseCores_kept | with_reducible apply setBoot_kept
                 | with_reducible apply startFirmware_kept | with_reducible apply setPairs_kept
                 | with_reducible apply Kept.ite | dsimp only)

theorem regRead_kept {sK : State} (s : State) (n : RegName) (i j t : Nat) (hK : Kept sK s) :
    Kept sK (regRead s n i j t).2 := by
  unfold regRead
  (try dsimp only)
  repeat' (first | with_reducible assumption | with_reducible apply barClaim_kept | with_reducible apply captRead_kept
                 | with_reducible apply setReg_kept | with_reducible apply setNote_kept | split)

theorem busRead_kept {sK : State} (s : State) (side : Bool) (off t : Nat) (hK : Kept sK s) :
    Kept sK (busRead s side off t).2 := by
  unfold busRead
  (try dsimp only)
  repeat' (first | with_reducible assumption | with_reducible apply settleFalls_kept
                 | with_reducible apply regRead_kept | split)

theorem rsvdRecord_kept {sK : State} (s : State) (i : Ini) (off t : Nat) (hK : Kept sK s) :
    Kept sK (rsvdRecord s i off t) := by
  unfold rsvdRecord
  (try dsimp only)
  repeat' (first | with_reducible assumption | with_reducible apply raise_kept | with_reducible apply setReg_kept
                 | with_reducible apply setFld_kept | with_reducible apply Kept.ite)

theorem tampViolation_kept {sK : State} (s : State) (i : Ini) (off t : Nat) (hK : Kept sK s) :
    Kept sK (tampViolation s i off t) := by
  unfold tampViolation
  (try dsimp only)
  repeat' (first | with_reducible assumption | with_reducible apply raise_kept | with_reducible apply setFld_kept
                 | with_reducible apply pulse_kept | with_reducible apply Kept.ite)

theorem deferWrite_kept {sK : State} (s : State) (n : RegName) (i : Nat) (v : W32) (t : Nat) (at' : Option Nat)
    (hK : Kept sK s) :
    Kept sK (deferWrite s n i v t at') := by
  unfold deferWrite
  (try dsimp only)
  repeat' (first | with_reducible assumption | dsimp only | exact id | refine Kept.upd ?_ ?_ ?_ ?_ ?_ ?_)

theorem ptpeHigh_kept {sK : State} (s : State) (v : W32) (hK : Kept sK s) :
    Kept sK (ptpeHigh s v) := by
  unfold ptpeHigh
  (try dsimp only)
  repeat' (first | with_reducible assumption | with_reducible apply setReg_kept)

theorem regStore_kept {sK : State} (s : State) (ini : Ini) (n : RegName) (i j : Nat) (v w : W32) (t : Nat)
    (hK : Kept sK s) :
    Kept sK (regStore s ini n i j v w t) := by
  unfold regStore
  (try dsimp only)
  repeat' (first | with_reducible assumption | with_reducible exact Kept.refl _ | with_reducible apply tampNow_kept
                 | with_reducible apply spareWrite_kept | with_reducible apply presentAll_kept
                 | with_reducible apply pendWrite_kept | with_reducible apply insvcWrite_kept
                 | with_reducible apply presentCore_kept | with_reducible apply privPendWrite_kept
                 | with_reducible apply privInsvcWrite_kept | with_reducible apply setCore_kept
                 | with_reducible apply startGroups_kept | with_reducible apply ctlWrite_kept
                 | with_reducible apply initReceive_kept | with_reducible apply initSend_kept
                 | with_reducible apply placeRequest_kept | with_reducible apply configPort_kept
                 | with_reducible apply controlTransmit_kept | with_reducible apply crmCommand_kept
                 | with_reducible apply wdogService_kept | with_reducible apply warmWrite_kept
                 | with_reducible apply markWrite_kept | with_reducible apply restoreWrite_kept
                 | with_reducible apply keepStart_kept | with_reducible apply msixFire_kept
                 | with_reducible apply hrConfig_kept | with_reducible apply hrIndex_kept
                 | with_reducible apply sleepWrite_kept | with_reducible refine Kept.foldl ?_ ?_ | dsimp only
                 | intro _ | split | refine Kept.upd ?_ ?_ ?_ ?_ ?_ ?_)

theorem stageWrite_kept {sK : State} (s : State) (n : RegName) (i j rwb : Nat) (hK : Kept sK s) :
    Kept sK (stageWrite s n i j rwb) := by
  unfold stageWrite
  (try dsimp only)
  repeat' (first | with_reducible assumption | with_reducible apply setBoot_kept | dsimp only)

theorem busWrite_kept {sK : State} (s : State) (ini : Ini) (off : Nat) (v : W32) (t : Nat) (hK : Kept sK s) :
    Kept sK (busWrite s ini off v t) := by
  unfold busWrite
  (try dsimp only)
  repeat' (first | with_reducible assumption | with_reducible apply raise_kept | with_reducible apply rsvdRecord_kept
                 | with_reducible apply noteReg_kept | with_reducible apply tampViolation_kept
                 | with_reducible apply regStore_kept | with_reducible apply stageWrite_kept
                 | with_reducible refine Kept.foldl ?_ ?_ | split)

theorem streamWrite_kept {sK : State} (s : State) (i : Ini) (a : Nat) (v : W32) (t : Nat) (hK : Kept sK s) :
    Kept sK (streamWrite s i a v t) := by
  unfold streamWrite
  (try dsimp only)
  repeat' (first | with_reducible assumption | with_reducible apply runErr_kept | with_reducible apply Kept.ite
                 | dsimp only | exact fun h => memWrite_wf h | refine Kept.upd ?_ ?_ ?_ ?_ ?_ ?_)

theorem tableWrite_kept {sK : State} (s : State) (i : Ini) (a : Nat) (v : W32) (t : Nat) (hK : Kept sK s) :
    Kept sK (tableWrite s i a v t) := by
  unfold tableWrite
  (try dsimp only)
  repeat' (first | with_reducible assumption | with_reducible apply descWrite_kept
                 | with_reducible apply streamWrite_kept | with_reducible apply Kept.ite)

theorem physLoad_kept {sK : State} (s : State) (i : Ini) (t a n : Nat) (hK : Kept sK s) :
    Kept sK (physLoad s i t a n).2.2 := by
  unfold physLoad
  generalize regionOf a = r
  cases r
  · exact readPhys_kept _ _ _ _ _ hK
  · exact readPhys_kept _ _ _ _ _ hK
  · exact extRead_kept _ _ _ _ _ hK
  · exact readPhys_kept _ _ _ _ _ hK
  · exact busRead_kept _ _ _ _ hK
  · exact hK
  · exact hK
  · exact hK

theorem physStore_kept {sK : State} (s : State) (i : Ini) (t a : Nat) (bs : List Byte) (hK : Kept sK s) :
    Kept sK (physStore s i t a bs).2 := by
  unfold physStore
  (try dsimp only)
  repeat' (first | with_reducible assumption | with_reducible apply busWrite_kept
                 | with_reducible apply tableWrite_kept | with_reducible apply extWrite_kept
                 | with_reducible apply writePhys_kept | split)

theorem winLoad_kept {sK : State} (s : State) (t a n : Nat) (hK : Kept sK s) :
    Kept sK (winLoad s t a n).2.2 := by
  unfold winLoad
  (try dsimp only)
  repeat' (first | with_reducible assumption | with_reducible apply physLoad_kept)

theorem winStore_kept {sK : State} (s : State) (t a : Nat) (bs : List Byte) (hK : Kept sK s) :
    Kept sK (winStore s t a bs) := by
  unfold winStore
  (try dsimp only)
  repeat' (first | with_reducible assumption | with_reducible apply physStore_kept)

theorem externalAccess_kept {sK : State} (s : State) (i : Ini) (p off n : Nat) (bs : Option (List Byte)) (t : Nat)
    (hK : Kept sK s) :
    Kept sK (externalAccess s i p off n bs t) := by
  unfold externalAccess
  (try dsimp only)
  repeat' (first | with_reducible assumption | with_reducible apply answer_kept | with_reducible apply physStore_kept
                 | with_reducible apply physLoad_kept | split)

theorem jtagAccess_kept {sK : State} (s : State) (op : JtagOp) (t : Nat) (hK : Kept sK s) :
    Kept sK (jtagAccess s op t) := by
  unfold jtagAccess
  (try dsimp only)
  repeat' (first | with_reducible assumption | with_reducible apply answer_kept | with_reducible apply physLoad_kept
                 | with_reducible apply physStore_kept | with_reducible apply setCore_kept | split)

theorem hostRefused_kept {sK : State} (s : State) (b2 : Bool) (off t : Nat) (hK : Kept sK s) :
    Kept sK (hostRefused s b2 off t) := by
  unfold hostRefused
  (try dsimp only)
  repeat' (first | with_reducible assumption | with_reducible apply setReg_kept | with_reducible apply pulse_kept
                 | with_reducible apply raise_kept | with_reducible apply Kept.ite)

theorem bar0Read_kept {sK : State} (s : State) (off n : Nat) (be ide : Bool) (t : Nat) (hK : Kept sK s) :
    Kept sK (bar0Read s off n be ide t) := by
  unfold bar0Read
  (try dsimp only)
  repeat' (first | with_reducible assumption | with_reducible apply complete_kept | with_reducible apply aerLog_kept
                 | with_reducible apply busRead_kept | with_reducible apply Kept.ite)

theorem bar0Write_kept {sK : State} (s : State) (off : Nat) (bs : List Byte) (be ide : Bool) (t : Nat)
    (hK : Kept sK s) :
    Kept sK (bar0Write s off bs be ide t) := by
  unfold bar0Write
  (try dsimp only)
  repeat' (first | with_reducible assumption | with_reducible apply msixWrite_kept | with_reducible apply aerLog_kept
                 | with_reducible apply busWrite_kept | with_reducible apply hostRefused_kept
                 | with_reducible apply tableWrite_kept | with_reducible apply Kept.ite)

theorem bar2Read_kept {sK : State} (s : State) (o n : Nat) (ide : Bool) (t : Nat) (hK : Kept sK s) :
    Kept sK (bar2Read s o n ide t) := by
  unfold bar2Read
  (try dsimp only)
  repeat' (first | with_reducible assumption | with_reducible apply complete_kept
                 | with_reducible apply hostRefused_kept | with_reducible apply physLoad_kept | split)

theorem bar2Write_kept {sK : State} (s : State) (o : Nat) (bs : List Byte) (ide : Bool) (t : Nat) (hK : Kept sK s) :
    Kept sK (bar2Write s o bs ide t) := by
  unfold bar2Write
  (try dsimp only)
  repeat' (first | with_reducible assumption | with_reducible apply aerLog_kept
                 | with_reducible apply hostRefused_kept | with_reducible apply physStore_kept | split)

theorem loadPiece_kept {sK : State} (s : State) (w : CoreSel) (t a n : Nat) (hK : Kept sK s) :
    Kept sK (loadPiece s w t a n).2.2 := by
  unfold loadPiece
  (try dsimp only)
  repeat' (first | with_reducible assumption | with_reducible apply winLoad_kept
                 | with_reducible apply correctUnits_kept | split)

theorem loadPieces_kept {sK : State} (w : CoreSel) (t : Nat) (l : List (Nat × Nat)) (s : State) (hK : Kept sK s) :
    Kept sK (loadPieces w t l s).2.2 := by
  induction l generalizing s with
  | nil => exact hK
  | cons x l ih =>
    rw [loadPieces]
    exact ih _ (loadPiece_kept _ _ _ _ _ hK)

theorem storePiece_kept {sK : State} (s : State) (w : CoreSel) (t b a : Nat) (bs : List Byte) (hK : Kept sK s) :
    Kept sK (storePiece s w t b a bs) := by
  unfold storePiece
  (try dsimp only)
  repeat' (first | with_reducible assumption | with_reducible apply winStore_kept
                 | with_reducible apply repairUnits_kept | with_reducible apply setCore_kept | dsimp only | exact id
                 | exact fun h => memWrite_wf h | split | refine Kept.upd ?_ ?_ ?_ ?_ ?_ ?_)

theorem storePieces_kept {sK : State} (w : CoreSel) (t b : Nat) (l : List (Nat × Nat)) (bs : List Byte) (s : State)
    (hK : Kept sK s) : Kept sK (storePieces w t b l bs s) := by
  induction l generalizing bs s with
  | nil => exact hK
  | cons x l ih =>
    rw [storePieces]
    exact ih _ _ (storePiece_kept _ _ _ _ _ _ hK)

theorem storeAll_kept {sK : State} (s : State) (w : CoreSel) (t b : Nat) (ps : List (Nat × Nat)) (bs : List Byte)
    (hK : Kept sK s) :
    Kept sK (storeAll s w t b ps bs).2 := by
  unfold storeAll
  (try dsimp only)
  repeat' (first | with_reducible assumption | with_reducible apply storePieces_kept | split)

theorem raiseSync_kept {sK : State} (s : State) (w : CoreSel) (t : Nat) (cause : Cause) (hK : Kept sK s) :
    Kept sK (raiseSync s w t cause) := by
  unfold raiseSync
  (try dsimp only)
  repeat' (first | with_reducible assumption | with_reducible apply setCore_kept)

theorem countCore_kept {sK : State} (s : State) (w : CoreSel) (t code : Nat) (hK : Kept sK s) :
    Kept sK (countCore s w t code) := by
  unfold countCore
  (try dsimp only)
  repeat' (first | with_reducible assumption | with_reducible apply countEvent_kept | split)

theorem raiseCond_kept {sK : State} (s : State) (w : CoreSel) (t : Nat) (x : Cond) (hK : Kept sK s) :
    Kept sK (raiseCond s w t x) := by
  unfold raiseCond
  (try dsimp only)
  repeat' (first | with_reducible assumption | with_reducible apply raiseSync_kept)

theorem recordDecode_kept {sK : State} (s : State) (w : CoreSel) (t : Nat) (f : DecodeFault) (off : Nat)
    (hK : Kept sK s) :
    Kept sK (recordDecode s w t f off) := by
  unfold recordDecode
  (try dsimp only)
  repeat' (first | with_reducible assumption | with_reducible apply setReg_kept | with_reducible apply record_kept
                 | split)

theorem loadMove_kept {sK : State} (w : CoreSel) (t : Nat) (c0 : Core) (s : State) (m : LiveMove) (hK : Kept sK s) :
    Kept sK (loadMove w t c0 s m) := by
  unfold loadMove
  (try dsimp only)
  repeat' (first | with_reducible assumption | with_reducible apply loadPieces_kept
                 | with_reducible apply setCore_kept | split)

theorem storeMove_kept {sK : State} (w : CoreSel) (t : Nat) (c0 : Core) (s : State) (m : LiveMove) (hK : Kept sK s) :
    Kept sK (storeMove w t c0 s m) := by
  unfold storeMove
  (try dsimp only)
  repeat' (first | with_reducible assumption | with_reducible apply storeAll_kept | with_reducible apply setCore_kept
                 | split)

theorem portMove_kept {sK : State} (w : CoreSel) (t : Nat) (c0 : Core) (s : State) (m : LiveMove) (hK : Kept sK s) :
    Kept sK (portMove w t c0 s m) := by
  unfold portMove
  (try dsimp only)
  repeat' (first | with_reducible assumption | with_reducible apply setCore_kept
                 | with_reducible apply carLoadStart_kept | with_reducible apply carStoreStart_kept
                 | with_reducible apply coreSend_kept | with_reducible apply coreReceive_kept | split)

theorem endOfPour_kept {sK : State} (s : State) (w : CoreSel) (t : Nat) (hK : Kept sK s) :
    Kept sK (endOfPour s w t) := by
  unfold endOfPour
  (try dsimp only)
  repeat' (first | with_reducible assumption | with_reducible apply commitReleases_kept
                 | with_reducible apply setCore_kept | split)

theorem bundleEffects_kept {sK : State} (s : State) (w : CoreSel) (t : Nat) (bytes : List Byte) (ms : List LiveMove)
    (hK : Kept sK s) :
    Kept sK (bundleEffects s w t bytes ms) := by
  unfold bundleEffects
  (try dsimp only)
  repeat' (first | with_reducible assumption | with_reducible exact Kept.refl _ | with_reducible apply setCore_kept
                 | with_reducible apply countCore_kept | with_reducible apply loadMove_kept
                 | with_reducible apply storeMove_kept | with_reducible apply portMove_kept
                 | with_reducible apply Kept.ite | with_reducible refine Kept.foldl ?_ ?_ | intro _)

theorem resumeBmove_kept {sK : State} (s : State) (w : CoreSel) (t : Nat) (m : LiveMove) (bytes : List Byte)
    (hK : Kept sK s) :
    Kept sK (resumeBmove s w t m bytes) := by
  unfold resumeBmove
  (try dsimp only)
  repeat' (first | with_reducible assumption | with_reducible apply setCore_kept)

theorem faultBundle_kept {sK : State} (s : State) (w : CoreSel) (t : Nat) (x : Cond) (f : Option DecodeFault)
    (hK : Kept sK s) :
    Kept sK (faultBundle s w t x f) := by
  unfold faultBundle
  (try dsimp only)
  repeat' (first | with_reducible assumption | with_reducible apply raiseCond_kept
                 | with_reducible apply recordDecode_kept | with_reducible apply setCore_kept
                 | with_reducible apply countCore_kept | split)

theorem correctFetch_kept {sK : State} (s : State) (w : CoreSel) (c : Core) (t n : Nat) (hK : Kept sK s) :
    Kept sK (correctFetch s w c t n) := by
  unfold correctFetch
  (try dsimp only)
  repeat' (first | with_reducible assumption | with_reducible apply correctUnits_kept | with_reducible apply Kept.ite)

theorem issueBundle_kept {sK : State} (s : State) (w : CoreSel) (t : Nat) (hK : Kept sK s) :
    Kept sK (issueBundle s w t).1 := by
  unfold issueBundle
  (try dsimp only)
  repeat' (first | with_reducible assumption | with_reducible apply correctFetch_kept
                 | with_reducible apply setCore_kept | with_reducible apply faultBundle_kept
                 | with_reducible apply resumeBmove_kept | with_reducible apply bundleEffects_kept
                 | with_reducible apply endOfPour_kept | with_reducible apply raiseSync_kept
                 | with_reducible apply presentCore_kept | split)

theorem bmStore_kept {sK : State} (s : State) (w : CoreSel) (b : Bmove) (t : Nat) (data : List Byte)
    (hK : Kept sK s) :
    Kept sK (bmStore s w b t data).2 := by
  unfold bmStore
  (try dsimp only)
  repeat' (first | with_reducible assumption | with_reducible apply storeAll_kept | split)

theorem bmLeave_kept {sK : State} (s : State) (w : CoreSel) (hK : Kept sK s) :
    Kept sK (bmLeave s w) := by
  unfold bmLeave
  (try dsimp only)
  repeat' (first | with_reducible assumption | with_reducible apply setCore_kept)

theorem bmFinish_kept {sK : State} (s : State) (w : CoreSel) (b : Bmove) (t : Nat) (hK : Kept sK s) :
    Kept sK (bmFinish s w b t) := by
  unfold bmFinish
  (try dsimp only)
  repeat' (first | with_reducible assumption | with_reducible apply bmLeave_kept | with_reducible apply setCore_kept
                 | with_reducible apply Kept.ite)

theorem bmFault_kept {sK : State} (s : State) (w : CoreSel) (b : Bmove) (t : Nat) (x : Nat × Nat × W32)
    (hK : Kept sK s) :
    Kept sK (bmFault s w b t x) := by
  unfold bmFault
  (try dsimp only)
  repeat' (first | with_reducible assumption | with_reducible apply bmLeave_kept | with_reducible apply raiseSync_kept
                 | with_reducible apply Kept.ite)

theorem bmCount_kept {sK : State} (s : State) (w : CoreSel) (b : Bmove) (t : Nat) (regs : List Nat) (hK : Kept sK s) :
    Kept sK (bmCount s w b t regs) := by
  unfold bmCount
  (try dsimp only)
  repeat' (first | with_reducible assumption | with_reducible apply setCore_kept | with_reducible apply bmFinish_kept
                 | with_reducible apply Kept.ite)

theorem bmDone_kept {sK : State} (s : State) (w : CoreSel) (b : Bmove) (it : BmIter) (t : Nat) (hK : Kept sK s) :
    Kept sK (bmDone s w b it t) := by
  unfold bmDone
  (try dsimp only)
  repeat' (first | with_reducible assumption | with_reducible apply loadPieces_kept
                 | with_reducible apply bmFault_kept | with_reducible apply bmStore_kept
                 | with_reducible apply bmCount_kept | with_reducible apply bmFinish_kept | split)

theorem bmCycle_kept {sK : State} (s : State) (w : CoreSel) (hK : Kept sK s) :
    Kept sK (bmCycle s w) := by
  unfold bmCycle
  (try dsimp only)
  repeat' (first | with_reducible assumption | with_reducible apply bmLeave_kept | with_reducible apply bmStore_kept
                 | with_reducible apply bmFault_kept | with_reducible apply bmCount_kept
                 | with_reducible apply bmDone_kept | with_reducible apply setCore_kept | split)

theorem moveEnd_kept {sK : State} (s : State) (w : CoreSel) (t : Nat) (hK : Kept sK s) :
    Kept sK (moveEnd s w t) := by
  unfold moveEnd
  (try dsimp only)
  repeat' (first | with_reducible assumption | with_reducible apply bmCycle_kept | split)

theorem stopCore_kept {sK : State} (s : State) (p reason t : Nat) (hK : Kept sK s) :
    Kept sK (stopCore s p reason t) := by
  unfold stopCore
  (try dsimp only)
  repeat' (first | with_reducible assumption | with_reducible apply setCore_kept | with_reducible apply setReg_kept
                 | with_reducible apply pulse_kept | with_reducible apply countEvent_kept)

theorem badFrame_kept {sK : State} (s : State) (w : CoreSel) (reason t : Nat) (hK : Kept sK s) :
    Kept sK (badFrame s w reason t) := by
  unfold badFrame
  (try dsimp only)
  repeat' (first | with_reducible assumption | with_reducible apply stopCore_kept
                 | with_reducible apply pairFault_kept | split)

theorem drainCore_kept {sK : State} (s : State) (w : CoreSel) (t : Nat) (hK : Kept sK s) :
    Kept sK (drainCore s w t) := by
  unfold drainCore
  (try dsimp only)
  repeat' (first | with_reducible assumption | with_reducible apply carDeliver_kept
                 | with_reducible apply setCore_kept)

theorem entryTicket_kept {sK : State} (s : State) (w : CoreSel) (e : Entering) (hK : Kept sK s) :
    Kept sK (entryTicket s w e).2 := by
  unfold entryTicket
  (try dsimp only)
  repeat' (first | with_reducible assumption | with_reducible apply free_kept | split)

theorem chainRegs_kept {sK : State} (s : State) (w : CoreSel) (x : Exiting) (t : Nat) (hK : Kept sK s) :
    Kept sK (chainRegs s w x t) := by
  unfold chainRegs
  (try dsimp only)
  repeat' (first | with_reducible assumption | with_reducible apply free_kept | with_reducible apply setCore_kept
                 | with_reducible apply Kept.ite)

theorem beginEntry_kept {sK : State} (s : State) (w : CoreSel) (e : Entering) (t : Nat) (hK : Kept sK s) :
    Kept sK (beginEntry s w e t) := by
  unfold beginEntry
  (try dsimp only)
  repeat' (first | with_reducible assumption | with_reducible apply chainRegs_kept | with_reducible apply setCore_kept
                 | split)

theorem writeTsb_kept {sK : State} (s : State) (w : CoreSel) (e : Entering) (k t : Nat) (hK : Kept sK s) :
    Kept sK (writeTsb s w e k t) := by
  unfold writeTsb
  (try dsimp only)
  repeat' (first | with_reducible assumption | with_reducible apply storePieces_kept
                 | with_reducible apply setCore_kept)

theorem saveState_kept {sK : State} (s : State) (w : CoreSel) (e : Entering) (t : Nat) (hK : Kept sK s) :
    Kept sK (saveState s w e t) := by
  unfold saveState
  (try dsimp only)
  repeat' (first | with_reducible assumption | with_reducible apply drainCore_kept | with_reducible apply setCore_kept
                 | with_reducible apply badFrame_kept | with_reducible apply writeTsb_kept
                 | with_reducible apply Kept.ite)

theorem startHandler_kept {sK : State} (s : State) (w : CoreSel) (e : Entering) (t : Nat) (hK : Kept sK s) :
    Kept sK (startHandler s w e t) := by
  unfold startHandler
  (try dsimp only)
  repeat' (first | with_reducible assumption | with_reducible apply entryTicket_kept
                 | with_reducible apply setCore_kept)

theorem endEntry_kept {sK : State} (s : State) (w : CoreSel) (e : Entering) (t : Nat) (hK : Kept sK s) :
    Kept sK (endEntry s w e t) := by
  unfold endEntry
  (try dsimp only)
  repeat' (first | with_reducible assumption | with_reducible apply setCore_kept)

theorem entryStage_kept {sK : State} (s : State) (w : CoreSel) (e : Entering) (t : Nat) (hK : Kept sK s) :
    Kept sK (entryStage s w e t) := by
  unfold entryStage
  (try dsimp only)
  repeat' (first | with_reducible assumption | with_reducible apply beginEntry_kept
                 | with_reducible apply setCore_kept | with_reducible apply saveState_kept
                 | with_reducible apply startHandler_kept | with_reducible apply endEntry_kept
                 | with_reducible apply writeTsb_kept | split)

theorem enterCore_kept {sK : State} (s : State) (w : CoreSel) (t : Nat) (hK : Kept sK s) :
    Kept sK (enterCore s w t) := by
  unfold enterCore
  (try dsimp only)
  repeat' (first | with_reducible assumption | with_reducible apply presentCore_kept)

theorem completeClaim_kept {sK : State} (s : State) (w : CoreSel) (claims : List (Option Nat)) (t : Nat)
    (hK : Kept sK s) :
    Kept sK (completeClaim s w claims t) := by
  unfold completeClaim
  (try dsimp only)
  repeat' (first | with_reducible assumption | with_reducible apply completeTicket_kept | split)

theorem exitCore_kept {sK : State} (s : State) (w : CoreSel) (t : Nat) (hK : Kept sK s) :
    Kept sK (exitCore s w t) := by
  unfold exitCore
  (try dsimp only)
  repeat' (first | with_reducible assumption | with_reducible apply setCore_kept
                 | with_reducible apply presentCore_kept | with_reducible apply completeClaim_kept)

theorem readTsb_kept {sK : State} (s : State) (w : CoreSel) (x : Exiting) (k t : Nat) (hK : Kept sK s) :
    Kept sK (readTsb s w x k t) := by
  unfold readTsb
  (try dsimp only)
  repeat' (first | with_reducible assumption | with_reducible apply badFrame_kept
                 | with_reducible apply correctUnits_kept | with_reducible apply setCore_kept
                 | with_reducible apply Kept.ite)

theorem checkReturn_kept {sK : State} (s : State) (w : CoreSel) (x : Exiting) (t : Nat) (hK : Kept sK s) :
    Kept sK (checkReturn s w x t) := by
  unfold checkReturn
  (try dsimp only)
  repeat' (first | with_reducible assumption | with_reducible apply drainCore_kept
                 | with_reducible apply badFrame_kept | with_reducible apply readTsb_kept
                 | with_reducible apply Kept.ite)

theorem exitRestart_kept {sK : State} (s : State) (w : CoreSel) (bs : List Byte) (t : Nat) (hK : Kept sK s) :
    Kept sK (exitRestart s w bs t) := by
  unfold exitRestart
  (try dsimp only)
  repeat' (first | with_reducible assumption | with_reducible apply carLoadStart_kept
                 | with_reducible apply setCore_kept | split)

theorem exitStage_kept {sK : State} (s : State) (w : CoreSel) (x : Exiting) (t : Nat) (hK : Kept sK s) :
    Kept sK (exitStage s w x t) := by
  unfold exitStage
  (try dsimp only)
  repeat' (first | with_reducible assumption | with_reducible apply setCore_kept
                 | with_reducible apply checkReturn_kept | with_reducible apply exitRestart_kept
                 | with_reducible apply readTsb_kept | split)

theorem issueCore_kept {sK : State} (s : State) (w : CoreSel) (t : Nat) (hK : Kept sK s) :
    Kept sK (issueCore s w t) := by
  unfold issueCore
  (try dsimp only)
  repeat' (first | with_reducible assumption | with_reducible apply issueBundle_kept
                 | with_reducible apply exitCore_kept | with_reducible apply Kept.ite)

end Sys2Proof.Machine
end

