-- ==== Sys2Proof/Laws/KeptTick.lean ====
section
/-! SUPPORT. Operations of the tick, booting and the passing of time keep what `Kept` says. -/

set_option linter.unusedTactic false
set_option linter.unreachableTactic false
set_option linter.unusedVariables false

namespace Sys2Proof.Machine

theorem moveRail_kept {sK : State} (f : Nat → Nat) (s : State) (hK : Kept sK s) :
    Kept sK (moveRail f s) := by
  unfold moveRail
  (try dsimp only)
  repeat' (first | with_reducible assumption | dsimp only | exact id | refine Kept.upd ?_ ?_ ?_ ?_ ?_ ?_)

theorem moveRest_kept {sK : State} (f : Nat → Nat) (s : State) (hK : Kept sK s) :
    Kept sK (moveRest f s) := by
  unfold moveRest
  (try dsimp only)
  repeat' (first | with_reducible assumption | refine Kept.upd ?_ ?_ ?_ ?_ ?_ ?_ | (simp; done))

theorem crmMove_kept {sK : State} (s : State) (o n : Nat) (hK : Kept sK s) :
    Kept sK (crmMove s o n) := by
  unfold crmMove
  (try dsimp only)
  repeat' (first | with_reducible assumption | with_reducible apply crmCutAll_kept | refine Kept.upd ?_ ?_ ?_ ?_ ?_ ?_
                 | (simp; done))

theorem ntcLoad_kept {sK : State} (s : State) (o m : Nat) (hK : Kept sK s) :
    Kept sK (ntcLoad s o m) := by
  unfold ntcLoad
  (try dsimp only)
  repeat' (first | with_reducible assumption | with_reducible apply crmMove_kept
                 | with_reducible apply rebaseChans_kept | with_reducible apply portsReframe_kept
                 | refine Kept.upd ?_ ?_ ?_ ?_ ?_ ?_ | (simp; done))

theorem writeDue_kept {sK : State} (d : Deferred) (s : State) (hK : Kept sK s) :
    Kept sK (writeDue d s) := by
  unfold writeDue
  (try dsimp only)
  repeat' (first | with_reducible assumption | dsimp only | exact id | refine Kept.upd ?_ ?_ ?_ ?_ ?_ ?_)

/-- What an item of a list does keeps what `Kept` says. -/
def Due.kept (l : List Due) : Prop := ∀ x ∈ l, ∀ (sK u : State), Kept sK u → Kept sK (x.2 u)

theorem Due.kept_nil : Due.kept [] := fun _ hx => absurd hx (by simp)

theorem Due.kept_cons {c : Nat} {f : State → State} {l : List Due} (hf : ∀ (sK u : State), Kept sK u → Kept sK (f u))
    (h : Due.kept l) : Due.kept ((c, f) :: l) := by
  intro x hx
  rcases List.mem_cons.mp hx with rfl | hx
  · exact hf
  · exact h x hx

theorem Due.kept_append {l k : List Due} (h : Due.kept l) (g : Due.kept k) : Due.kept (l ++ k) := by
  intro x hx
  rcases List.mem_append.mp hx with hx | hx
  · exact h x hx
  · exact g x hx

theorem Due.kept_map {α : Type} {l : List α} {f : α → Due} (h : ∀ a ∈ l, ∀ (sK u : State), Kept sK u → Kept sK
    ((f a).2 u)) :
    Due.kept (l.map f) := by
  intro x hx
  obtain ⟨a, ha, rfl⟩ := List.mem_map.mp hx
  exact h a ha

theorem Due.kept_filterMap {α : Type} {l : List α} {f : α → Option Due}
    (h : ∀ a x, f a = some x → ∀ (sK u : State), Kept sK u → Kept sK (x.2 u)) : Due.kept (l.filterMap f) := by
  intro x hx
  obtain ⟨a, _, ha⟩ := List.mem_filterMap.mp hx
  exact h a x ha

theorem entryItems_kept (w : CoreSel) (e : Entering) : Due.kept (entryItems w e) := by
  unfold entryItems
  refine Due.kept_cons (fun sK u h => ?_) ?_
  · split
    · exact entryStage_kept _ _ _ _ h
    · exact h
  · cases w
    · dsimp only
      split
      · exact Due.kept_cons (fun sK u h => claimEntry_kept _ _ _ h) Due.kept_nil
      · exact Due.kept_nil
    · exact Due.kept_nil

theorem spanItems_kept (w : CoreSel) (c : Core) (e : Entering) : Due.kept (spanItems w c e) := by
  unfold spanItems
  dsimp only
  split
  · exact Due.kept_cons (fun sK u h => issueCore_kept _ _ _ h) Due.kept_nil
  · exact Due.kept_nil

theorem missedItems_kept (w : CoreSel) (c : Core) : Due.kept (missedItems w c) := by
  unfold missedItems
  cases w
  · dsimp only
    split
    · exact Due.kept_cons (fun sK u h => pourEntry_kept _ _ _ _ h) Due.kept_nil
    · exact Due.kept_nil
  · exact Due.kept_nil

theorem coreItems_kept (s : State) (w : CoreSel) : Due.kept (coreItems s w) := by
  unfold coreItems
  dsimp only
  refine Due.kept_append (Due.kept_append (Due.kept_append ?_ ?_) ?_) (missedItems_kept _ _)
  · split
    · refine Due.kept_cons (fun sK u h => ?_) Due.kept_nil
      split
      · exact exitStage_kept _ _ _ _ h
      · exact h
    · exact Due.kept_nil
  · split
    · exact Due.kept_append (entryItems_kept _ _) (spanItems_kept _ _ _)
    · exact Due.kept_nil
  · split
    · exact Due.kept_cons (fun sK u h => bmCycle_kept _ _ h) Due.kept_nil
    · exact Due.kept_nil

theorem pairItems_kept (s : State) : Due.kept (pairItems s) := by
  unfold pairItems
  refine Due.kept_append ?_ ?_
  · split
    · refine Due.kept_append ?_ (Due.kept_cons (fun sK u h => takeOver_kept _ _ _ h) Due.kept_nil)
      split
      · exact Due.kept_nil
      · exact Due.kept_cons (fun sK u h => pairReturn_kept _ _ h) Due.kept_nil
    · exact Due.kept_nil
  · split
    · exact Due.kept_cons (fun sK u h => settleShadow_kept _ _ h) Due.kept_nil
    · exact Due.kept_nil

theorem otherItems_kept (s : State) : Due.kept (otherItems s) := by
  unfold otherItems
  refine Due.kept_append (Due.kept_append (Due.kept_append (Due.kept_append (Due.kept_append (Due.kept_append ?_ ?_) ?_) ?_) ?_) ?_) ?_
  · refine Due.kept_filterMap fun a x hx sK u h => ?_
    obtain ⟨c, _, rfl⟩ := Option.map_eq_some_iff.mp hx
    exact writeDue_kept _ _ h
  · refine Due.kept_filterMap fun a x hx sK u h => ?_
    obtain ⟨c, _, rfl⟩ := Option.map_eq_some_iff.mp hx
    exact clearEn_kept _ _ h
  · refine Due.kept_filterMap fun a x hx sK u h => ?_
    obtain ⟨c, _, rfl⟩ := Option.map_eq_some_iff.mp hx
    exact fallEdge_kept _ _ _ h
  · refine Due.kept_filterMap fun a x hx sK u h => ?_
    obtain ⟨c, _, rfl⟩ := Option.map_eq_some_iff.mp hx
    exact settleChan_kept _ _ _ h
  · exact Due.kept_map fun a _ sK u h => holdover_kept _ _ h
  · exact Due.kept_map fun a _ sK u h => leaveSlot_kept _ _ h
  · exact Due.kept_map fun a _ sK u h => snapsEnd_kept _ _ h

theorem dueItems_kept (s : State) : Due.kept (dueItems s) := by
  refine Due.kept_append (Due.kept_append (pairItems_kept s) (otherItems_kept s)) ?_
  intro x hx
  obtain ⟨w, _, hx⟩ := List.mem_flatMap.mp hx
  exact coreItems_kept s w x hx

theorem earliest_mem {l : List Due} {x : Due} (h : earliest l = some x) : x ∈ l := by
  induction l generalizing x with
  | nil => cases h
  | cons a l ih =>
    unfold earliest at h
    split at h
    · next y hy =>
      split at h
      · cases h
        exact List.mem_cons_of_mem _ (ih hy)
      · cases h
        exact List.mem_cons_self ..
    · cases h
      exact List.mem_cons_self ..

theorem ntc_kept {sK s : State} {n : Nat} (hK : Kept sK s) : Kept sK { s with ntc := n } :=
  hK.trans ⟨rfl, id, id, id, id, id⟩

theorem settle_kept {sK : State} (n t : Nat) (s : State) (hK : Kept sK s) : Kept sK (settle n t s) := by
  induction n generalizing s with
  | zero => exact hK
  | succ n ih =>
    unfold settle
    split
    · next x hx =>
      split
      · exact ih _ (dueItems_kept s x (earliest_mem hx) _ _ (ntc_kept hK))
      · exact hK
    · exact hK

theorem reach_kept {sK : State} (s : State) (t : Nat) (hK : Kept sK s) : Kept sK (reach s t) := by
  unfold reach
  split
  · exact ntc_kept hK
  · dsimp only
    split
    · exact settle_kept _ _ _ hK
    · exact ntc_kept (settle_kept _ _ _ hK)

theorem resetRelease_kept {sK : State} (s : State) (puf : Option Nat) (rng : Bool) (t : Nat) (hK : Kept sK s) :
    Kept sK (resetRelease s puf rng t) := by
  unfold resetRelease
  (try dsimp only)
  repeat' (first | with_reducible assumption | with_reducible apply setPower_kept
                 | with_reducible apply keyRebuild_kept | with_reducible apply setBit_kept
                 | with_reducible apply setBoot_kept | with_reducible apply Kept.ite | dsimp only)

theorem findFlash_kept {sK : State} (s : State) (d : Nat) (bs : Option (List Byte)) (hK : Kept sK s) :
    Kept sK (findFlash s d bs) := by
  unfold findFlash
  (try dsimp only)
  repeat' (first | with_reducible assumption | with_reducible apply setBoot_kept | split | (simp; done))

theorem imageChoice_kept {sK : State} (s : State) (a b : Option (List Byte)) (hK : Kept sK s) :
    Kept sK (imageChoice s a b) := by
  unfold imageChoice
  (try dsimp only)
  repeat' (first | with_reducible assumption | with_reducible apply findFlash_kept | with_reducible apply setBoot_kept
                 | with_reducible apply flashPut_kept | with_reducible apply setFld_kept
                 | with_reducible apply setBit_kept | with_reducible apply setReg_kept
                 | with_reducible apply setKeep_kept | dsimp only | split)

theorem runScript_kept {sK : State} (t n : Nat) (bs : List Byte) (s : State) (hK : Kept sK s) :
    Kept sK (runScript t n bs s).2 := by
  induction n generalizing bs s with
  | zero => exact hK
  | succ n ih =>
    unfold runScript
    dsimp only
    split
    · exact hK
    · exact ih _ _ (busWrite_kept _ _ _ _ _ hK)

theorem copyWords_kept {sK : State} (t n a : Nat) (bs : List Byte) (s : State) (hK : Kept sK s) :
    Kept sK (copyWords t n a bs s).2 := by
  induction n generalizing a bs s with
  | zero => exact hK
  | succ n ih =>
    unfold copyWords
    dsimp only
    split <;> split <;> first | exact hK | exact ih _ _ _ (tableWrite_kept _ _ _ _ _ hK)

theorem copyTo_kept {sK : State} (s : State) (t a : Nat) (bs : List Byte) (hK : Kept sK s) :
    Kept sK (copyTo s t a bs).2 := by
  unfold copyTo
  (try dsimp only)
  repeat' (first | with_reducible assumption | with_reducible apply physStore_kept
                 | with_reducible apply copyWords_kept | split)

theorem copyFirmware_kept {sK : State} (s : State) (dest : Nat) (bs : List Byte) (hK : Kept sK s) :
    Kept sK (copyFirmware s dest bs).2 := by
  unfold copyFirmware
  dsimp only
  split
  · exact hK
  · exact setBoot_kept _ _ rfl (hK.trans ⟨rfl, id, id, id, fun h => memWrite_wf (memWrite_wf h), id⟩)

theorem applySection_kept {sK : State} (s : State) (x : Section) (bs : List Byte) (t : Nat) (hK : Kept sK s) :
    Kept sK (applySection s x bs t).2 := by
  unfold applySection
  (try dsimp only)
  repeat' (first | with_reducible assumption | with_reducible apply copyFirmware_kept
                 | with_reducible apply copyTo_kept | with_reducible apply runScript_kept
                 | with_reducible apply setBoot_kept | with_reducible apply blendOffer_kept | dsimp only | split)

theorem sectionApply_kept {sK : State} (s : State) (t : Nat) (hK : Kept sK s) :
    Kept sK (sectionApply s t) := by
  unfold sectionApply
  (try dsimp only)
  repeat' (first | with_reducible assumption | with_reducible apply setBoot_kept
                 | with_reducible apply applySection_kept | with_reducible apply bootFail_kept | dsimp only | split)

theorem saveCopy_kept {sK : State} (s : State) (m copy : List Byte) (t : Nat) (hK : Kept sK s) :
    Kept sK (saveCopy s m copy t) := by
  unfold saveCopy
  (try dsimp only)
  repeat' (first | with_reducible assumption | with_reducible apply writePhys_kept | with_reducible apply setKeep_kept
                 | with_reducible apply setBoot_kept | (simp; done))

theorem checksRun_kept {sK : State} (s : State) (t : Nat) (hK : Kept sK s) :
    Kept sK (checksRun s t) := by
  unfold checksRun
  (try dsimp only)
  repeat' (first | with_reducible assumption | with_reducible apply saveCopy_kept | with_reducible apply setBoot_kept
                 | with_reducible apply bootFail_kept | with_reducible apply Kept.ite | dsimp only)

theorem tampRow_kept {sK : State} (s : State) (t : Nat) (hK : Kept sK s) :
    Kept sK (tampRow s t) := by
  unfold tampRow
  (try dsimp only)
  repeat' (first | with_reducible assumption | with_reducible apply tampNow_kept | with_reducible apply Kept.ite)

theorem recoveryWrite_kept {sK : State} (s : State) (img : List Byte) (hK : Kept sK s) :
    Kept sK (recoveryWrite s img) := by
  unfold recoveryWrite
  (try dsimp only)
  repeat' (first | with_reducible assumption | with_reducible apply moduleReset_kept
                 | with_reducible apply setBoot_kept | with_reducible apply Kept.ite | (simp; done))

theorem warmFail_kept {sK : State} (s : State) (cause t : Nat) (hK : Kept sK s) :
    Kept sK (warmFail s cause t) := by
  unfold warmFail
  (try dsimp only)
  repeat' (first | with_reducible assumption | with_reducible exact Kept.refl _ | with_reducible apply setFld_kept
                 | with_reducible apply setBoot_kept | with_reducible apply copyFirmware_kept
                 | with_reducible apply setBit_kept | with_reducible apply startFirmware_kept
                 | with_reducible apply Kept.ite | with_reducible refine Kept.foldl ?_ ?_ | dsimp only | intro _)

theorem withStaged_kept {sK : State} (s : State) (hK : Kept sK s) :
    Kept sK (withStaged s) := by
  unfold withStaged
  (try dsimp only)
  repeat' (first | with_reducible assumption | dsimp only | exact id | refine Kept.upd ?_ ?_ ?_ ?_ ?_ ?_)

theorem warmTamp_kept {sK : State} (s : State) (t : Nat) (hK : Kept sK s) :
    Kept sK (warmTamp s t) := by
  unfold warmTamp
  (try dsimp only)
  repeat' (first | with_reducible assumption | with_reducible exact Kept.refl _ | with_reducible apply warmFail_kept
                 | with_reducible apply setBoot_kept | with_reducible apply applySection_kept
                 | with_reducible apply copyFirmware_kept | with_reducible apply saveCopy_kept
                 | with_reducible apply setReg_kept | with_reducible apply setKeep_kept
                 | with_reducible apply tampNow_kept | with_reducible refine Kept.foldl ?_ ?_
                 | with_reducible refine Kept.foldl2 ?_ ?_ | dsimp only | intro _ | split)

theorem applyDeferred_kept {sK : State} (t : Nat) (s : State) (d : Deferred) (hK : Kept sK s) :
    Kept sK (applyDeferred t s d) := by
  unfold applyDeferred
  (try dsimp only)
  repeat' (first | with_reducible assumption | with_reducible apply portApply_kept | with_reducible apply setReg_kept
                 | dsimp only | exact id | split | refine Kept.upd ?_ ?_ ?_ ?_ ?_ ?_)

theorem applyStaged_kept {sK : State} (t : Nat) (s : State) (e : Nat × W32) (hK : Kept sK s) :
    Kept sK (applyStaged t s e) := by
  unfold applyStaged
  (try dsimp only)
  repeat' (first | with_reducible assumption | with_reducible apply setReg_kept | with_reducible apply portApply_kept
                 | split)

theorem firstTick_kept {sK : State} (s : State) (hK : Kept sK s) :
    Kept sK (firstTick s) := by
  unfold firstTick
  (try dsimp only)
  repeat' (first | with_reducible assumption | with_reducible apply withPourCfg_kept | with_reducible apply Kept.ite
                 | dsimp only | exact id | refine Kept.upd ?_ ?_ ?_ ?_ ?_ ?_)

theorem configTick_kept {sK : State} (s : State) (t : Nat) (hK : Kept sK s) :
    Kept sK (configTick s t) := by
  unfold configTick
  (try dsimp only)
  repeat' (first | with_reducible assumption | with_reducible exact Kept.refl _ | with_reducible apply firstTick_kept
                 | with_reducible apply applyDeferred_kept | with_reducible apply applyStaged_kept
                 | with_reducible apply crmDisabled_kept | with_reducible apply configPort_kept
                 | with_reducible apply Kept.ite | with_reducible refine Kept.foldl ?_ ?_ | dsimp only | intro _
                 | refine Kept.upd ?_ ?_ ?_ ?_ ?_ ?_)

theorem overrunCore_kept {sK : State} (t : Nat) (s : State) (p : Nat) (hK : Kept sK s) :
    Kept sK (overrunCore t s p) := by
  unfold overrunCore
  (try dsimp only)
  repeat' (first | with_reducible assumption | with_reducible apply dropCommitted_kept
                 | with_reducible apply setCore_kept | with_reducible apply countEvent_kept
                 | with_reducible apply Kept.ite)

theorem overrunTick_kept {sK : State} (s : State) (t : Nat) (hK : Kept sK s) :
    Kept sK (overrunTick s t) := by
  unfold overrunTick
  (try dsimp only)
  repeat' (first | with_reducible assumption | with_reducible exact Kept.refl _ | with_reducible apply raise_kept
                 | with_reducible apply setFld_kept | with_reducible apply pulse_kept
                 | with_reducible apply overrunCore_kept | with_reducible refine Kept.foldl ?_ ?_ | intro _ | split)

theorem stoppedTick_kept {sK : State} (s : State) (hK : Kept sK s) :
    Kept sK (stoppedTick s) := by
  unfold stoppedTick
  (try dsimp only)
  repeat' (first | with_reducible assumption | refine Kept.upd ?_ ?_ ?_ ?_ ?_ ?_ | (simp; done))

theorem entryTick_kept {sK : State} (t : Nat) (s : State) (p : Nat) (hK : Kept sK s) :
    Kept sK (entryTick t s p) := by
  unfold entryTick
  (try dsimp only)
  repeat' (first | with_reducible assumption | with_reducible apply setCore_kept | with_reducible apply pourEntry_kept
                 | with_reducible apply Kept.ite)

theorem stretchTick_kept {sK : State} (s : State) (t : Nat) (hK : Kept sK s) :
    Kept sK (stretchTick s t) := by
  unfold stretchTick
  (try dsimp only)
  repeat' (first | with_reducible assumption | dsimp only | exact id | split | refine Kept.upd ?_ ?_ ?_ ?_ ?_ ?_)

theorem bufferTick_kept {sK : State} (s : State) (hK : Kept sK s) :
    Kept sK (bufferTick s) := by
  unfold bufferTick
  (try dsimp only)
  repeat' (first | with_reducible assumption | refine Kept.upd ?_ ?_ ?_ ?_ ?_ ?_ | (simp; done))

theorem boundaryTick_kept {sK : State} (s : State) (t evac : Nat) (hK : Kept sK s) :
    Kept sK (boundaryTick s t evac) := by
  unfold boundaryTick
  (try dsimp only)
  repeat' (first | with_reducible assumption | with_reducible apply configTick_kept
                 | with_reducible apply bufferTick_kept | with_reducible apply stoppedTick_kept
                 | with_reducible apply overrunTick_kept | with_reducible apply countersTick_kept
                 | with_reducible apply placesTick_kept | with_reducible apply flipsTick_kept
                 | with_reducible apply takeOversTick_kept | with_reducible apply evacTick_kept
                 | with_reducible apply restoreTick_kept | with_reducible apply blendTick_kept
                 | with_reducible apply crmBoundary_kept | with_reducible apply ringTick_kept
                 | with_reducible apply stretchTick_kept | with_reducible apply hrIssueRings_kept
                 | with_reducible apply timersTick_kept | with_reducible apply runnerTick_kept
                 | with_reducible apply Kept.ite | dsimp only | exact id | refine Kept.upd ?_ ?_ ?_ ?_ ?_ ?_)

theorem tickAt_kept {sK : State} (s : State) (o evac : Nat) (hK : Kept sK s) :
    Kept sK (tickAt s o evac) := by
  unfold tickAt
  (try dsimp only)
  repeat' (first | with_reducible assumption | with_reducible exact Kept.refl _ | with_reducible apply reach_kept
                 | with_reducible apply ntcLoad_kept | with_reducible apply boundaryTick_kept
                 | with_reducible apply sleepEnter_kept | with_reducible apply entryTick_kept
                 | with_reducible apply presentAll_kept | with_reducible refine Kept.foldl ?_ ?_ | dsimp only
                 | intro _ | split | refine Kept.upd ?_ ?_ ?_ ?_ ?_ ?_)

theorem tick_kept {sK : State} (s : State) (evac : Nat) (hK : Kept sK s) :
    Kept sK (tick s evac) := by
  unfold tick
  (try dsimp only)
  repeat' (first | with_reducible assumption | with_reducible exact Kept.refl _ | with_reducible apply tickAt_kept
                 | with_reducible refine Kept.foldl ?_ ?_ | split)

theorem now_kept {sK : State} {f : State → State} (s : State) (t : Nat) (hK : Kept sK s)
    (hf : ∀ s, Kept sK s → Kept sK (f s)) : Kept sK (now s t f) := hf _ (reach_kept _ _ hK)

theorem awake_kept {sK : State} {f : State → State} (s : State) (t : Nat) (hK : Kept sK s)
    (hf : ∀ s, Kept sK s → Kept sK (f s)) : Kept sK (awake s t f) := by
  unfold awake
  split
  · exact reach_kept _ _ hK
  · exact hf _ (reach_kept _ _ hK)

theorem upTo_kept {sK : State} {f : State → State} (n i : Nat) (s : State) (hK : Kept sK s)
    (hf : ∀ s, Kept sK s → Kept sK (f s)) : Kept sK (upTo n i s f) := Kept.ite (hf _ hK) hK

theorem onCore_kept {sK : State} {f : State → State} (w : CoreSel) (s : State) (hK : Kept sK s)
    (hf : ∀ s, Kept sK s → Kept sK (f s)) : Kept sK (onCore w s f) := Kept.ite (hf _ hK) hK

theorem regPut_kept {sK : State} (s : State) (ini : Ini) (n : RegName) (i : Nat) (v : W32) (t : Nat)
    (hK : Kept sK s) :
    Kept sK (regPut s ini n i v t) := by
  unfold regPut
  (try dsimp only)
  repeat' (first | with_reducible assumption | with_reducible apply busWrite_kept | with_reducible apply Kept.ite)

theorem regGet_kept {sK : State} (s : State) (ini : Ini) (n : RegName) (i t : Nat) (hK : Kept sK s) :
    Kept sK (regGet s ini n i t) := by
  unfold regGet
  (try dsimp only)
  repeat' (first | with_reducible assumption | with_reducible apply busRead_kept | with_reducible apply answer_kept
                 | with_reducible apply Kept.ite)

theorem scrubPass_kept {sK : State} (s : State) (t : Nat) (hK : Kept sK s) :
    Kept sK (scrubPass s t) := by
  unfold scrubPass
  (try dsimp only)
  repeat' (first | with_reducible assumption | with_reducible apply Kept.ite | dsimp only | exact id
                 | refine Kept.upd ?_ ?_ ?_ ?_ ?_ ?_)

theorem scrubLine_kept {sK : State} (s : State) (a t : Nat) (hK : Kept sK s) :
    Kept sK (scrubLine s a t) := by
  unfold scrubLine
  (try dsimp only)
  repeat' (first | with_reducible assumption | with_reducible exact Kept.refl _ | with_reducible apply scrubPass_kept
                 | with_reducible apply correctUnits_kept | with_reducible apply uncorrectable_kept
                 | with_reducible apply Kept.ite | with_reducible refine Kept.foldl ?_ ?_ | dsimp only | intro _
                 | refine Kept.upd ?_ ?_ ?_ ?_ ?_ ?_)

end Sys2Proof.Machine
end

