-- ==== Sys2Proof/Laws/KeptCmds.lean ====
section
/-! SUPPORT. Operations of each command keep what `Kept` says. -/

set_option linter.unusedTactic false
set_option linter.unreachableTactic false
set_option linter.unusedVariables false

namespace Sys2Proof.Machine

theorem execTick_kept (evac : Nat) (s : State) {s' : State} (h : execTick evac s = .next s') :
    Kept s s' := by
  unfold execTick at h
  rw [← Host.Outcome.next.inj h]
  exact tick_kept _ _ (Kept.refl _)

theorem execBundleIssue_kept (t : Nat) (w : CoreSel) (upset : List Upset) (s : State) {s' : State}
    (h : execBundleIssue t w upset s = .next s') :
    Kept s s' := by
  unfold execBundleIssue at h
  rw [← Host.Outcome.next.inj h]
  refine awake_kept _ _ (Kept.refl _) fun s hK => ?_
  repeat' (first | intro _ | with_reducible assumption | with_reducible apply onCore_kept
                 | with_reducible apply issueCore_kept | with_reducible apply wdogFirst_kept
                 | with_reducible apply upsets_kept)

theorem execUnitResultDelivery_kept (t : Nat) (w : CoreSel) (s : State) {s' : State}
    (h : execUnitResultDelivery t w s = .next s') :
    Kept s s' := by
  unfold execUnitResultDelivery at h
  rw [← Host.Outcome.next.inj h]
  refine awake_kept _ _ (Kept.refl _) fun s hK => ?_
  repeat' (first | intro _ | with_reducible assumption | with_reducible apply onCore_kept
                 | with_reducible apply setCore_kept)

theorem execAccumulatorLanding_kept (t : Nat) (w : CoreSel) (s : State) {s' : State}
    (h : execAccumulatorLanding t w s = .next s') :
    Kept s s' := by
  unfold execAccumulatorLanding at h
  rw [← Host.Outcome.next.inj h]
  refine awake_kept _ _ (Kept.refl _) fun s hK => ?_
  repeat' (first | intro _ | with_reducible assumption | with_reducible apply onCore_kept
                 | with_reducible apply setCore_kept)

theorem execLoadDelivery_kept (t : Nat) (w : CoreSel) (s : State) {s' : State}
    (h : execLoadDelivery t w s = .next s') :
    Kept s s' := by
  unfold execLoadDelivery at h
  rw [← Host.Outcome.next.inj h]
  refine awake_kept _ _ (Kept.refl _) fun s hK => ?_
  repeat' (first | intro _ | with_reducible assumption | with_reducible apply onCore_kept
                 | with_reducible apply setCore_kept)

theorem execBmoveEnd_kept (t : Nat) (w : CoreSel) (s : State) {s' : State} (h : execBmoveEnd t w s = .next s') :
    Kept s s' := by
  unfold execBmoveEnd at h
  rw [← Host.Outcome.next.inj h]
  refine awake_kept _ _ (Kept.refl _) fun s hK => ?_
  repeat' (first | intro _ | with_reducible assumption | with_reducible apply onCore_kept
                 | with_reducible apply moveEnd_kept)

theorem execCarafeLoadReady_kept (t : Nat) (w : CoreSel) (s : State) {s' : State}
    (h : execCarafeLoadReady t w s = .next s') :
    Kept s s' := by
  unfold execCarafeLoadReady at h
  rw [← Host.Outcome.next.inj h]
  refine awake_kept _ _ (Kept.refl _) fun s hK => ?_
  repeat' (first | intro _ | with_reducible assumption | with_reducible apply onCore_kept
                 | with_reducible apply carafeLoadReady_kept)

theorem execCarafeGrant_kept (t : Nat) (slice : Nat) (half : Nat) (upset : List Upset) (s : State) {s' : State}
    (h : execCarafeGrant t slice half upset s = .next s') :
    Kept s s' := by
  unfold execCarafeGrant at h
  rw [← Host.Outcome.next.inj h]
  refine awake_kept _ _ (Kept.refl _) fun s hK => ?_
  repeat' (first | intro _ | with_reducible assumption | with_reducible apply upTo_kept
                 | with_reducible apply carafeGrant_kept | with_reducible apply upsets_kept)

theorem execStoreBufferPerformed_kept (t : Nat) (w : CoreSel) (s : State) {s' : State}
    (h : execStoreBufferPerformed t w s = .next s') :
    Kept s s' := by
  unfold execStoreBufferPerformed at h
  rw [← Host.Outcome.next.inj h]
  refine awake_kept _ _ (Kept.refl _) fun s hK => ?_
  repeat' (first | intro _ | with_reducible assumption | with_reducible apply onCore_kept
                 | with_reducible apply storePerformed_kept)

theorem execSendItemStored_kept (t : Nat) (p : Nat) (s : State) {s' : State}
    (h : execSendItemStored t p s = .next s') :
    Kept s s' := by
  unfold execSendItemStored at h
  rw [← Host.Outcome.next.inj h]
  refine awake_kept _ _ (Kept.refl _) fun s hK => ?_
  repeat' (first | intro _ | with_reducible assumption | with_reducible apply upTo_kept
                 | with_reducible apply sendStored_kept)

theorem execReceiveItemDelivered_kept (t : Nat) (p : Nat) (sup : Bool) (s : State) {s' : State}
    (h : execReceiveItemDelivered t p sup s = .next s') :
    Kept s s' := by
  unfold execReceiveItemDelivered at h
  rw [← Host.Outcome.next.inj h]
  refine awake_kept _ _ (Kept.refl _) fun s hK => ?_
  repeat' (first | intro _ | with_reducible assumption | with_reducible apply upTo_kept
                 | with_reducible apply receiveDelivered_kept)

theorem execReceiveTimeout_kept (t : Nat) (p : Nat) (sup : Bool) (s : State) {s' : State}
    (h : execReceiveTimeout t p sup s = .next s') :
    Kept s s' := by
  unfold execReceiveTimeout at h
  rw [← Host.Outcome.next.inj h]
  refine awake_kept _ _ (Kept.refl _) fun s hK => ?_
  repeat' (first | intro _ | with_reducible assumption | with_reducible apply upTo_kept
                 | with_reducible apply receiveTimeout_kept)

theorem execEntry_kept (t : Nat) (w : CoreSel) (s : State) {s' : State} (h : execEntry t w s = .next s') :
    Kept s s' := by
  unfold execEntry at h
  rw [← Host.Outcome.next.inj h]
  refine awake_kept _ _ (Kept.refl _) fun s hK => ?_
  repeat' (first | intro _ | with_reducible assumption | with_reducible apply onCore_kept
                 | with_reducible apply enterCore_kept)

theorem execSourceEvent_kept (t : Nat) (n : Nat) (level : Bool) (s : State) {s' : State}
    (h : execSourceEvent t n level s = .next s') :
    Kept s s' := by
  unfold execSourceEvent at h
  rw [← Host.Outcome.next.inj h]
  refine now_kept _ _ (Kept.refl _) fun s hK => ?_
  repeat' (first | with_reducible assumption | with_reducible apply setLevel_kept | with_reducible apply Kept.ite)

theorem execCoalesceTimeRelease_kept (t : Nat) (n : Nat) (s : State) {s' : State}
    (h : execCoalesceTimeRelease t n s = .next s') :
    Kept s s' := by
  unfold execCoalesceTimeRelease at h
  rw [← Host.Outcome.next.inj h]
  refine awake_kept _ _ (Kept.refl _) fun s hK => ?_
  repeat' (first | intro _ | with_reducible assumption | with_reducible apply upTo_kept
                 | with_reducible apply presentTarget_kept | with_reducible apply windowEnd_kept)

theorem execPendingWrite_kept (t : Nat) (ini : Ini) (k : Nat) (v : W32) (s : State) {s' : State}
    (h : execPendingWrite t ini k v s = .next s') :
    Kept s s' := by
  unfold execPendingWrite at h
  rw [← Host.Outcome.next.inj h]
  refine awake_kept _ _ (Kept.refl _) fun s hK => ?_
  repeat' (first | intro _ | with_reducible assumption | with_reducible apply upTo_kept
                 | with_reducible apply regPut_kept | with_reducible apply Kept.ite)

theorem execInServiceComplete_kept (t : Nat) (ini : Ini) (k : Nat) (v : W32) (s : State) {s' : State}
    (h : execInServiceComplete t ini k v s = .next s') :
    Kept s s' := by
  unfold execInServiceComplete at h
  rw [← Host.Outcome.next.inj h]
  refine awake_kept _ _ (Kept.refl _) fun s hK => ?_
  repeat' (first | intro _ | with_reducible assumption | with_reducible apply upTo_kept
                 | with_reducible apply regPut_kept | with_reducible apply Kept.ite)

theorem execBaristaClaim_kept (t : Nat) (s : State) {s' : State} (h : execBaristaClaim t s = .next s') :
    Kept s s' := by
  unfold execBaristaClaim at h
  rw [← Host.Outcome.next.inj h]
  refine awake_kept _ _ (Kept.refl _) fun s hK => ?_
  repeat' (first | with_reducible assumption | with_reducible apply regGet_kept)

theorem execChannelArm_kept (t : Nat) (ini : Ini) (n : Nat) (v : W32) (s : State) {s' : State}
    (h : execChannelArm t ini n v s = .next s') :
    Kept s s' := by
  unfold execChannelArm at h
  rw [← Host.Outcome.next.inj h]
  refine awake_kept _ _ (Kept.refl _) fun s hK => ?_
  repeat' (first | with_reducible assumption | with_reducible apply regPut_kept | with_reducible apply Kept.ite)

theorem execChannelDisarm_kept (t : Nat) (ini : Ini) (n : Nat) (v : W32) (s : State) {s' : State}
    (h : execChannelDisarm t ini n v s = .next s') :
    Kept s s' := by
  unfold execChannelDisarm at h
  rw [← Host.Outcome.next.inj h]
  refine awake_kept _ _ (Kept.refl _) fun s hK => ?_
  repeat' (first | with_reducible assumption | with_reducible apply regPut_kept | with_reducible apply Kept.ite)

theorem execCompareStage_kept (t : Nat) (ini : Ini) (n : Nat) (v : W32) (s : State) {s' : State}
    (h : execCompareStage t ini n v s = .next s') :
    Kept s s' := by
  unfold execCompareStage at h
  rw [← Host.Outcome.next.inj h]
  refine awake_kept _ _ (Kept.refl _) fun s hK => ?_
  repeat' (first | with_reducible assumption | with_reducible apply regPut_kept | with_reducible apply Kept.ite)

theorem execCompareCommit_kept (t : Nat) (ini : Ini) (n : Nat) (v : W32) (s : State) {s' : State}
    (h : execCompareCommit t ini n v s = .next s') :
    Kept s s' := by
  unfold execCompareCommit at h
  rw [← Host.Outcome.next.inj h]
  refine awake_kept _ _ (Kept.refl _) fun s hK => ?_
  repeat' (first | with_reducible assumption | with_reducible apply regPut_kept | with_reducible apply Kept.ite)

theorem execGroupStart_kept (t : Nat) (ini : Ini) (v : W32) (s : State) {s' : State}
    (h : execGroupStart t ini v s = .next s') :
    Kept s s' := by
  unfold execGroupStart at h
  rw [← Host.Outcome.next.inj h]
  refine awake_kept _ _ (Kept.refl _) fun s hK => ?_
  repeat' (first | with_reducible assumption | with_reducible apply regPut_kept)

theorem execChannelMatch_kept (t : Nat) (n : Nat) (s : State) {s' : State} (h : execChannelMatch t n s = .next s') :
    Kept s s' := by
  unfold execChannelMatch at h
  rw [← Host.Outcome.next.inj h]
  refine awake_kept _ _ (Kept.refl _) fun s hK => ?_
  repeat' (first | intro _ | with_reducible assumption | with_reducible apply upTo_kept
                 | with_reducible apply settleChan_kept)

theorem execChannelOverflow_kept (t : Nat) (n : Nat) (s : State) {s' : State}
    (h : execChannelOverflow t n s = .next s') :
    Kept s s' := by
  unfold execChannelOverflow at h
  rw [← Host.Outcome.next.inj h]
  refine awake_kept _ _ (Kept.refl _) fun s hK => ?_
  repeat' (first | intro _ | with_reducible assumption | with_reducible apply upTo_kept
                 | with_reducible apply settleChan_kept)

theorem execSnapshotNtc_kept (t : Nat) (ini : Ini) (s : State) {s' : State} (h : execSnapshotNtc t ini s = .next s') :
    Kept s s' := by
  unfold execSnapshotNtc at h
  rw [← Host.Outcome.next.inj h]
  refine awake_kept _ _ (Kept.refl _) fun s hK => ?_
  repeat' (first | with_reducible assumption | with_reducible apply regPut_kept)

theorem execSnapshotSharedChannel_kept (t : Nat) (ini : Ini) (n : Nat) (s : State) {s' : State}
    (h : execSnapshotSharedChannel t ini n s = .next s') :
    Kept s s' := by
  unfold execSnapshotSharedChannel at h
  rw [← Host.Outcome.next.inj h]
  refine awake_kept _ _ (Kept.refl _) fun s hK => ?_
  repeat' (first | intro _ | with_reducible assumption | with_reducible apply upTo_kept
                 | with_reducible apply regPut_kept)

theorem execSnapshotPrivateChannel_kept (t : Nat) (ini : Ini) (n : Nat) (s : State) {s' : State}
    (h : execSnapshotPrivateChannel t ini n s = .next s') :
    Kept s s' := by
  unfold execSnapshotPrivateChannel at h
  rw [← Host.Outcome.next.inj h]
  refine awake_kept _ _ (Kept.refl _) fun s hK => ?_
  repeat' (first | intro _ | with_reducible assumption | with_reducible apply upTo_kept
                 | with_reducible apply regPut_kept)

theorem execCaptureEvent_kept (t : Nat) (pin : Nat) (rising : Bool) (s : State) {s' : State}
    (h : execCaptureEvent t pin rising s = .next s') :
    Kept s s' := by
  unfold execCaptureEvent at h
  rw [← Host.Outcome.next.inj h]
  refine awake_kept _ _ (Kept.refl _) fun s hK => ?_
  repeat' (first | intro _ | with_reducible assumption | with_reducible apply upTo_kept
                 | with_reducible apply pinEdge_kept | with_reducible apply Kept.ite)

theorem execCaptureRead_kept (t : Nat) (ini : Ini) (c : Nat) (s : State) {s' : State}
    (h : execCaptureRead t ini c s = .next s') :
    Kept s s' := by
  unfold execCaptureRead at h
  rw [← Host.Outcome.next.inj h]
  refine awake_kept _ _ (Kept.refl _) fun s hK => ?_
  repeat' (first | with_reducible assumption | with_reducible apply regGet_kept)

theorem execRingTimeLost_kept (t : Nat) (s : State) {s' : State} (h : execRingTimeLost t s = .next s') :
    Kept s s' := by
  unfold execRingTimeLost at h
  rw [← Host.Outcome.next.inj h]
  refine awake_kept _ _ (Kept.refl _) fun s hK => ?_
  repeat' (first | with_reducible assumption | with_reducible apply ringTimeLost_kept)

theorem execDescriptorWrite_kept (t : Nat) (ini : Ini) (h : Nat) (off : Nat) (v : W32) (s : State) {s' : State}
    (h : execDescriptorWrite t ini h off v s = .next s') :
    Kept s s' := by
  unfold execDescriptorWrite at h
  rw [← Host.Outcome.next.inj h]
  refine awake_kept _ _ (Kept.refl _) fun s hK => ?_
  repeat' (first | intro _ | with_reducible assumption | with_reducible apply upTo_kept
                 | with_reducible apply tableWrite_kept | with_reducible apply Kept.ite)

theorem execInitiatorSend_kept (t : Nat) (i : Nat) (h : Nat) (s : State) {s' : State}
    (h : execInitiatorSend t i h s = .next s') :
    Kept s s' := by
  unfold execInitiatorSend at h
  rw [← Host.Outcome.next.inj h]
  refine awake_kept _ _ (Kept.refl _) fun s hK => ?_
  repeat' (first | with_reducible assumption | with_reducible apply regPut_kept)

theorem execInitiatorReceive_kept (t : Nat) (i : Nat) (h : Nat) (s : State) {s' : State}
    (h : execInitiatorReceive t i h s = .next s') :
    Kept s s' := by
  unfold execInitiatorReceive at h
  rw [← Host.Outcome.next.inj h]
  refine awake_kept _ _ (Kept.refl _) fun s hK => ?_
  repeat' (first | with_reducible assumption | with_reducible apply regPut_kept)

theorem execInitiatorOpEnd_kept (t : Nat) (i : Nat) (s : State) {s' : State}
    (h : execInitiatorOpEnd t i s = .next s') :
    Kept s s' := by
  unfold execInitiatorOpEnd at h
  rw [← Host.Outcome.next.inj h]
  refine awake_kept _ _ (Kept.refl _) fun s hK => ?_
  repeat' (first | intro _ | with_reducible assumption | with_reducible apply upTo_kept
                 | with_reducible apply initOpEnd_kept)

theorem execInputPlacement_kept (t : Nat) (h : Nat) (samples : List W24) (s : State) {s' : State}
    (h : execInputPlacement t h samples s = .next s') :
    Kept s s' := by
  unfold execInputPlacement at h
  rw [← Host.Outcome.next.inj h]
  refine awake_kept _ _ (Kept.refl _) fun s hK => ?_
  repeat' (first | intro _ | with_reducible assumption | with_reducible apply upTo_kept
                 | with_reducible apply inputPlacement_kept)

theorem execScheduledForward_kept (t : Nat) (h : Option Nat) (s : State) {s' : State}
    (h : execScheduledForward t h s = .next s') :
    Kept s s' := by
  unfold execScheduledForward at h
  rw [← Host.Outcome.next.inj h]
  refine awake_kept _ _ (Kept.refl _) fun s hK => ?_
  repeat' (first | with_reducible assumption | with_reducible apply scheduledForward_kept)

theorem execItemAgeTimeout_kept (t : Nat) (h : Nat) (s : State) {s' : State}
    (h : execItemAgeTimeout t h s = .next s') :
    Kept s s' := by
  unfold execItemAgeTimeout at h
  rw [← Host.Outcome.next.inj h]
  refine awake_kept _ _ (Kept.refl _) fun s hK => ?_
  repeat' (first | intro _ | with_reducible assumption | with_reducible apply upTo_kept
                 | with_reducible apply itemAge_kept)

theorem execHeartbeatReceived_kept (t : Nat) (p : Nat) (s : State) {s' : State}
    (h : execHeartbeatReceived t p s = .next s') :
    Kept s s' := by
  unfold execHeartbeatReceived at h
  rw [← Host.Outcome.next.inj h]
  refine awake_kept _ _ (Kept.refl _) fun s hK => ?_
  repeat' (first | intro _ | with_reducible assumption | with_reducible apply upTo_kept
                 | with_reducible apply heartbeat_kept)

theorem execSupervisionExpiry_kept (t : Nat) (p : Nat) (s : State) {s' : State}
    (h : execSupervisionExpiry t p s = .next s') :
    Kept s s' := by
  unfold execSupervisionExpiry at h
  rw [← Host.Outcome.next.inj h]
  refine awake_kept _ _ (Kept.refl _) fun s hK => ?_
  repeat' (first | intro _ | with_reducible assumption | with_reducible apply upTo_kept
                 | with_reducible apply supervisionExpiry_kept)

theorem execRemoteFaultReceived_kept (t : Nat) (p : Nat) (s : State) {s' : State}
    (h : execRemoteFaultReceived t p s = .next s') :
    Kept s s' := by
  unfold execRemoteFaultReceived at h
  rw [← Host.Outcome.next.inj h]
  refine awake_kept _ _ (Kept.refl _) fun s hK => ?_
  repeat' (first | intro _ | with_reducible assumption | with_reducible apply upTo_kept
                 | with_reducible apply remoteFault_kept)

theorem execPortWrap_kept (t : Nat) (p : Nat) (s : State) {s' : State} (h : execPortWrap t p s = .next s') :
    Kept s s' := by
  unfold execPortWrap at h
  rw [← Host.Outcome.next.inj h]
  refine awake_kept _ _ (Kept.refl _) fun s hK => ?_
  repeat' (first | intro _ | with_reducible assumption | with_reducible apply upTo_kept
                 | with_reducible apply portWrap_kept)

theorem execPortReturned_kept (t : Nat) (p : Nat) (s : State) {s' : State} (h : execPortReturned t p s = .next s') :
    Kept s s' := by
  unfold execPortReturned at h
  rw [← Host.Outcome.next.inj h]
  refine awake_kept _ _ (Kept.refl _) fun s hK => ?_
  repeat' (first | intro _ | with_reducible assumption | with_reducible apply upTo_kept
                 | with_reducible apply portReturned_kept)

theorem execRingFrameReceived_kept (t : Nat) (p : Nat) (framed : Bool) (bytes : List Byte) (s : State) {s' : State}
    (h : execRingFrameReceived t p framed bytes s = .next s') :
    Kept s s' := by
  unfold execRingFrameReceived at h
  rw [← Host.Outcome.next.inj h]
  refine awake_kept _ _ (Kept.refl _) fun s hK => ?_
  repeat' (first | intro _ | with_reducible assumption | with_reducible apply upTo_kept
                 | with_reducible apply frameReceived_kept)

theorem execBeaconSend_kept (t : Nat) (p : Nat) (s : State) {s' : State} (h : execBeaconSend t p s = .next s') :
    Kept s s' := by
  unfold execBeaconSend at h
  rw [← Host.Outcome.next.inj h]
  refine awake_kept _ _ (Kept.refl _) fun s hK => ?_
  repeat' (first | intro _ | with_reducible assumption | with_reducible apply upTo_kept
                 | with_reducible apply beaconSend_kept)

theorem execDelayRequestSend_kept (t : Nat) (r : Nat) (s : State) {s' : State}
    (h : execDelayRequestSend t r s = .next s') :
    Kept s s' := by
  unfold execDelayRequestSend at h
  rw [← Host.Outcome.next.inj h]
  refine awake_kept _ _ (Kept.refl _) fun s hK => ?_
  repeat' (first | intro _ | with_reducible assumption | with_reducible apply upTo_kept
                 | with_reducible apply delayRequestSend_kept)

theorem execEpochGrantSend_kept (t : Nat) (p : Nat) (s : State) {s' : State}
    (h : execEpochGrantSend t p s = .next s') :
    Kept s s' := by
  unfold execEpochGrantSend at h
  rw [← Host.Outcome.next.inj h]
  refine awake_kept _ _ (Kept.refl _) fun s hK => ?_
  repeat' (first | intro _ | with_reducible assumption | with_reducible apply upTo_kept
                 | with_reducible apply grantSend_kept)

theorem execUpstreamTimeout_kept (t : Nat) (p : Nat) (s : State) {s' : State}
    (h : execUpstreamTimeout t p s = .next s') :
    Kept s s' := by
  unfold execUpstreamTimeout at h
  rw [← Host.Outcome.next.inj h]
  refine awake_kept _ _ (Kept.refl _) fun s hK => ?_
  repeat' (first | intro _ | with_reducible assumption | with_reducible apply upTo_kept
                 | with_reducible apply upstreamTimeout_kept)

theorem execIslandLeaderElection_kept (t : Nat) (r : Nat) (s : State) {s' : State}
    (h : execIslandLeaderElection t r s = .next s') :
    Kept s s' := by
  unfold execIslandLeaderElection at h
  rw [← Host.Outcome.next.inj h]
  refine awake_kept _ _ (Kept.refl _) fun s hK => ?_
  repeat' (first | intro _ | with_reducible assumption | with_reducible apply upTo_kept
                 | with_reducible apply islandElection_kept)

theorem execTrainOrigin_kept (t : Nat) (r : Nat) (west : Bool) (arrived : Bool) (s : State) {s' : State}
    (h : execTrainOrigin t r west arrived s = .next s') :
    Kept s s' := by
  unfold execTrainOrigin at h
  rw [← Host.Outcome.next.inj h]
  refine awake_kept _ _ (Kept.refl _) fun s hK => ?_
  repeat' (first | intro _ | with_reducible assumption | with_reducible apply upTo_kept
                 | with_reducible apply trainOrigin_kept)

theorem execGroupMissing_kept (t : Nat) (r : Nat) (g : Nat) (m : Nat) (s : State) {s' : State}
    (h : execGroupMissing t r g m s = .next s') :
    Kept s s' := by
  unfold execGroupMissing at h
  rw [← Host.Outcome.next.inj h]
  refine awake_kept _ _ (Kept.refl _) fun s hK => ?_
  repeat' (first | intro _ | with_reducible assumption | with_reducible apply upTo_kept
                 | with_reducible apply groupMissing_kept)

theorem execUnreservedFrameSend_kept (t : Nat) (p : Nat) (s : State) {s' : State}
    (h : execUnreservedFrameSend t p s = .next s') :
    Kept s s' := by
  unfold execUnreservedFrameSend at h
  rw [← Host.Outcome.next.inj h]
  refine awake_kept _ _ (Kept.refl _) fun s hK => ?_
  repeat' (first | intro _ | with_reducible assumption | with_reducible apply upTo_kept
                 | with_reducible apply unreservedSend_kept)

theorem execMailboxSend_kept (t : Nat) (m : Nat) (s : State) {s' : State} (h : execMailboxSend t m s = .next s') :
    Kept s s' := by
  unfold execMailboxSend at h
  rw [← Host.Outcome.next.inj h]
  refine awake_kept _ _ (Kept.refl _) fun s hK => ?_
  repeat' (first | intro _ | with_reducible assumption | with_reducible apply upTo_kept
                 | with_reducible apply mailboxSend_kept)

theorem execControlTransmit_kept (t : Nat) (ini : Ini) (v : W32) (s : State) {s' : State}
    (h : execControlTransmit t ini v s = .next s') :
    Kept s s' := by
  unfold execControlTransmit at h
  rw [← Host.Outcome.next.inj h]
  refine awake_kept _ _ (Kept.refl _) fun s hK => ?_
  repeat' (first | with_reducible assumption | with_reducible apply regPut_kept)

theorem execEdgeFrameReceived_kept (t : Nat) (p : Nat) (bytes : List Byte) (s : State) {s' : State}
    (h : execEdgeFrameReceived t p bytes s = .next s') :
    Kept s s' := by
  unfold execEdgeFrameReceived at h
  rw [← Host.Outcome.next.inj h]
  refine awake_kept _ _ (Kept.refl _) fun s hK => ?_
  repeat' (first | intro _ | with_reducible assumption | with_reducible apply upTo_kept
                 | with_reducible apply edgeReceived_kept | with_reducible apply Kept.ite)

theorem execEdgeStreamTransmit_kept (t : Nat) (i : Nat) (s : State) {s' : State}
    (h : execEdgeStreamTransmit t i s = .next s') :
    Kept s s' := by
  unfold execEdgeStreamTransmit at h
  rw [← Host.Outcome.next.inj h]
  refine awake_kept _ _ (Kept.refl _) fun s hK => ?_
  repeat' (first | intro _ | with_reducible assumption | with_reducible apply upTo_kept
                 | with_reducible apply edgeTransmit_kept)

theorem execStreamSilent_kept (t : Nat) (i : Nat) (s : State) {s' : State} (h : execStreamSilent t i s = .next s') :
    Kept s s' := by
  unfold execStreamSilent at h
  rw [← Host.Outcome.next.inj h]
  refine awake_kept _ _ (Kept.refl _) fun s hK => ?_
  repeat' (first | intro _ | with_reducible assumption | with_reducible apply upTo_kept
                 | with_reducible apply streamSilent_kept)

theorem execCrmLive_kept (t : Nat) (ini : Ini) (c : Nat) (s : State) {s' : State}
    (h : execCrmLive t ini c s = .next s') :
    Kept s s' := by
  unfold execCrmLive at h
  rw [← Host.Outcome.next.inj h]
  refine awake_kept _ _ (Kept.refl _) fun s hK => ?_
  repeat' (first | intro _ | with_reducible assumption | with_reducible apply upTo_kept
                 | with_reducible apply regPut_kept)

theorem execStartNightSweep_kept (t : Nat) (ini : Ini) (c : Nat) (s : State) {s' : State}
    (h : execStartNightSweep t ini c s = .next s') :
    Kept s s' := by
  unfold execStartNightSweep at h
  rw [← Host.Outcome.next.inj h]
  refine awake_kept _ _ (Kept.refl _) fun s hK => ?_
  repeat' (first | intro _ | with_reducible assumption | with_reducible apply upTo_kept
                 | with_reducible apply regPut_kept)

theorem execCrmOff_kept (t : Nat) (ini : Ini) (c : Nat) (s : State) {s' : State}
    (h : execCrmOff t ini c s = .next s') :
    Kept s s' := by
  unfold execCrmOff at h
  rw [← Host.Outcome.next.inj h]
  refine awake_kept _ _ (Kept.refl _) fun s hK => ?_
  repeat' (first | intro _ | with_reducible assumption | with_reducible apply upTo_kept
                 | with_reducible apply regPut_kept)

theorem execStartReflectometry_kept (t : Nat) (ini : Ini) (b : Nat) (s : State) {s' : State}
    (h : execStartReflectometry t ini b s = .next s') :
    Kept s s' := by
  unfold execStartReflectometry at h
  rw [← Host.Outcome.next.inj h]
  refine awake_kept _ _ (Kept.refl _) fun s hK => ?_
  repeat' (first | intro _ | with_reducible assumption | with_reducible apply upTo_kept
                 | with_reducible apply regPut_kept)

theorem execVelocityCalibration_kept (t : Nat) (ini : Ini) (b : Nat) (s : State) {s' : State}
    (h : execVelocityCalibration t ini b s = .next s') :
    Kept s s' := by
  unfold execVelocityCalibration at h
  rw [← Host.Outcome.next.inj h]
  refine awake_kept _ _ (Kept.refl _) fun s hK => ?_
  repeat' (first | intro _ | with_reducible assumption | with_reducible apply upTo_kept
                 | with_reducible apply regPut_kept)

theorem execAbortReflectometry_kept (t : Nat) (ini : Ini) (b : Nat) (s : State) {s' : State}
    (h : execAbortReflectometry t ini b s = .next s') :
    Kept s s' := by
  unfold execAbortReflectometry at h
  rw [← Host.Outcome.next.inj h]
  refine awake_kept _ _ (Kept.refl _) fun s hK => ?_
  repeat' (first | intro _ | with_reducible assumption | with_reducible apply upTo_kept
                 | with_reducible apply regPut_kept)

theorem execCremaFrameEnd_kept (t : Nat) (c : Nat) (m : CrmFrame) (s : State) {s' : State}
    (h : execCremaFrameEnd t c m s = .next s') :
    Kept s s' := by
  unfold execCremaFrameEnd at h
  rw [← Host.Outcome.next.inj h]
  refine awake_kept _ _ (Kept.refl _) fun s hK => ?_
  repeat' (first | intro _ | with_reducible assumption | with_reducible apply upTo_kept
                 | with_reducible apply crmFrameEnd_kept)

theorem execFastFault_kept (t : Nat) (c : Nat) (s : State) {s' : State} (h : execFastFault t c s = .next s') :
    Kept s s' := by
  unfold execFastFault at h
  rw [← Host.Outcome.next.inj h]
  refine awake_kept _ _ (Kept.refl _) fun s hK => ?_
  repeat' (first | intro _ | with_reducible assumption | with_reducible apply upTo_kept
                 | with_reducible apply fastFault_kept)

theorem execLiveWindowEnd_kept (t : Nat) (c : Nat) (m : CrmMeas) (s : State) {s' : State}
    (h : execLiveWindowEnd t c m s = .next s') :
    Kept s s' := by
  unfold execLiveWindowEnd at h
  rw [← Host.Outcome.next.inj h]
  refine awake_kept _ _ (Kept.refl _) fun s hK => ?_
  repeat' (first | intro _ | with_reducible assumption | with_reducible apply upTo_kept
                 | with_reducible apply liveWindowEnd_kept)

theorem execNightStageAEnd_kept (t : Nat) (c : Nat) (m : CrmMeas) (s : State) {s' : State}
    (h : execNightStageAEnd t c m s = .next s') :
    Kept s s' := by
  unfold execNightStageAEnd at h
  rw [← Host.Outcome.next.inj h]
  refine awake_kept _ _ (Kept.refl _) fun s hK => ?_
  repeat' (first | intro _ | with_reducible assumption | with_reducible apply upTo_kept
                 | with_reducible apply nightStageAEnd_kept)

theorem execNightStageBEnd_kept (t : Nat) (c : Nat) (m : CrmMeas) (s : State) {s' : State}
    (h : execNightStageBEnd t c m s = .next s') :
    Kept s s' := by
  unfold execNightStageBEnd at h
  rw [← Host.Outcome.next.inj h]
  refine awake_kept _ _ (Kept.refl _) fun s hK => ?_
  repeat' (first | intro _ | with_reducible assumption | with_reducible apply upTo_kept
                 | with_reducible apply nightStageBEnd_kept)

theorem execReflectPulse_kept (t : Nat) (b : Nat) (samples : List (BitVec 16)) (s : State) {s' : State}
    (h : execReflectPulse t b samples s = .next s') :
    Kept s s' := by
  unfold execReflectPulse at h
  rw [← Host.Outcome.next.inj h]
  refine awake_kept _ _ (Kept.refl _) fun s hK => ?_
  repeat' (first | intro _ | with_reducible assumption | with_reducible apply upTo_kept
                 | with_reducible apply reflectPulse_kept)

theorem execReflectRunEnd_kept (t : Nat) (b : Nat) (s : State) {s' : State} (h : execReflectRunEnd t b s = .next s') :
    Kept s s' := by
  unfold execReflectRunEnd at h
  rw [← Host.Outcome.next.inj h]
  refine awake_kept _ _ (Kept.refl _) fun s hK => ?_
  repeat' (first | intro _ | with_reducible assumption | with_reducible apply upTo_kept
                 | with_reducible apply reflectRunEnd_kept)

theorem execEvacDebouncedChange_kept (t : Nat) (e : Nat) (s : State) {s' : State}
    (h : execEvacDebouncedChange t e s = .next s') :
    Kept s s' := by
  unfold execEvacDebouncedChange at h
  rw [← Host.Outcome.next.inj h]
  refine awake_kept _ _ (Kept.refl _) fun s hK => ?_
  repeat' (first | intro _ | with_reducible assumption | with_reducible apply upTo_kept
                 | with_reducible apply evacChange_kept)

theorem execEvacMessageStart_kept (t : Nat) (e : Nat) (s : State) {s' : State}
    (h : execEvacMessageStart t e s = .next s') :
    Kept s s' := by
  unfold execEvacMessageStart at h
  rw [← Host.Outcome.next.inj h]
  refine awake_kept _ _ (Kept.refl _) fun s hK => ?_
  repeat' (first | intro _ | with_reducible assumption | with_reducible apply upTo_kept
                 | with_reducible apply evacStart_kept)

theorem execEvacMessageEnd_kept (t : Nat) (e : Nat) (s : State) {s' : State}
    (h : execEvacMessageEnd t e s = .next s') :
    Kept s s' := by
  unfold execEvacMessageEnd at h
  rw [← Host.Outcome.next.inj h]
  refine awake_kept _ _ (Kept.refl _) fun s hK => ?_
  repeat' (first | intro _ | with_reducible assumption | with_reducible apply upTo_kept
                 | with_reducible apply evacEnd_kept)

theorem execBankFlipRequest_kept (t : Nat) (ini : Ini) (v : W32) (s : State) {s' : State}
    (h : execBankFlipRequest t ini v s = .next s') :
    Kept s s' := by
  unfold execBankFlipRequest at h
  rw [← Host.Outcome.next.inj h]
  refine awake_kept _ _ (Kept.refl _) fun s hK => ?_
  repeat' (first | with_reducible assumption | with_reducible apply regPut_kept)

theorem execPlacementRequest_kept (t : Nat) (ini : Ini) (v : W32) (s : State) {s' : State}
    (h : execPlacementRequest t ini v s = .next s') :
    Kept s s' := by
  unfold execPlacementRequest at h
  rw [← Host.Outcome.next.inj h]
  refine awake_kept _ _ (Kept.refl _) fun s hK => ?_
  repeat' (first | with_reducible assumption | with_reducible apply regPut_kept)

theorem execPlacementComplete_kept (t : Nat) (s : State) {s' : State} (h : execPlacementComplete t s = .next s') :
    Kept s s' := by
  unfold execPlacementComplete at h
  rw [← Host.Outcome.next.inj h]
  refine awake_kept _ _ (Kept.refl _) fun s hK => ?_
  repeat' (first | with_reducible assumption | with_reducible apply placeComplete_kept)

theorem execModuleResetRelease_kept (t : Nat) (puf : Option Nat) (rng : Bool) (s : State) {s' : State}
    (h : execModuleResetRelease t puf rng s = .next s') :
    Kept s s' := by
  unfold execModuleResetRelease at h
  rw [← Host.Outcome.next.inj h]
  refine now_kept _ _ (Kept.refl _) fun s hK => ?_
  repeat' (first | with_reducible assumption | with_reducible apply resetRelease_kept)

theorem execImageChoice_kept (t : Nat) (a : Option (List Byte)) (b : Option (List Byte)) (s : State) {s' : State}
    (h : execImageChoice t a b s = .next s') :
    Kept s s' := by
  unfold execImageChoice at h
  rw [← Host.Outcome.next.inj h]
  refine awake_kept _ _ (Kept.refl _) fun s hK => ?_
  repeat' (first | with_reducible assumption | with_reducible apply imageChoice_kept)

theorem execSectionApply_kept (t : Nat) (s : State) {s' : State} (h : execSectionApply t s = .next s') :
    Kept s s' := by
  unfold execSectionApply at h
  rw [← Host.Outcome.next.inj h]
  refine awake_kept _ _ (Kept.refl _) fun s hK => ?_
  repeat' (first | with_reducible assumption | with_reducible apply sectionApply_kept)

theorem execLoaderChecks_kept (t : Nat) (s : State) {s' : State} (h : execLoaderChecks t s = .next s') :
    Kept s s' := by
  unfold execLoaderChecks at h
  rw [← Host.Outcome.next.inj h]
  refine awake_kept _ _ (Kept.refl _) fun s hK => ?_
  repeat' (first | with_reducible assumption | with_reducible apply checksRun_kept)

theorem execTamp_kept (t : Nat) (s : State) {s' : State} (h : execTamp t s = .next s') :
    Kept s s' := by
  unfold execTamp at h
  rw [← Host.Outcome.next.inj h]
  refine awake_kept _ _ (Kept.refl _) fun s hK => ?_
  repeat' (first | with_reducible assumption | with_reducible apply tampRow_kept)

theorem execRecoveryImageWrite_kept (t : Nat) (img : List Byte) (s : State) {s' : State}
    (h : execRecoveryImageWrite t img s = .next s') :
    Kept s s' := by
  unfold execRecoveryImageWrite at h
  rw [← Host.Outcome.next.inj h]
  refine awake_kept _ _ (Kept.refl _) fun s hK => ?_
  repeat' (first | with_reducible assumption | with_reducible apply recoveryWrite_kept)

theorem execSetGoodMark_kept (t : Nat) (ini : Ini) (s : State) {s' : State} (h : execSetGoodMark t ini s = .next s') :
    Kept s s' := by
  unfold execSetGoodMark at h
  rw [← Host.Outcome.next.inj h]
  refine awake_kept _ _ (Kept.refl _) fun s hK => ?_
  repeat' (first | with_reducible assumption | with_reducible apply regPut_kept)

theorem execSetBadMark_kept (t : Nat) (ini : Ini) (s : State) {s' : State} (h : execSetBadMark t ini s = .next s') :
    Kept s s' := by
  unfold execSetBadMark at h
  rw [← Host.Outcome.next.inj h]
  refine awake_kept _ _ (Kept.refl _) fun s hK => ?_
  repeat' (first | with_reducible assumption | with_reducible apply regPut_kept)

theorem execMarkProgrammed_kept (t : Nat) (s : State) {s' : State} (h : execMarkProgrammed t s = .next s') :
    Kept s s' := by
  unfold execMarkProgrammed at h
  rw [← Host.Outcome.next.inj h]
  refine awake_kept _ _ (Kept.refl _) fun s hK => ?_
  repeat' (first | with_reducible assumption | with_reducible apply markDone_kept)

theorem execLockstepMismatch_kept (t : Nat) (r : Nat) (s : State) {s' : State}
    (h : execLockstepMismatch t r s = .next s') :
    Kept s s' := by
  unfold execLockstepMismatch at h
  rw [← Host.Outcome.next.inj h]
  refine awake_kept _ _ (Kept.refl _) fun s hK => ?_
  repeat' (first | intro _ | with_reducible assumption | with_reducible apply upTo_kept
                 | with_reducible apply lockstepMismatch_kept)

theorem execWatchdogExpiry_kept (t : Nat) (s : State) {s' : State} (h : execWatchdogExpiry t s = .next s') :
    Kept s s' := by
  unfold execWatchdogExpiry at h
  rw [← Host.Outcome.next.inj h]
  refine awake_kept _ _ (Kept.refl _) fun s hK => ?_
  repeat' (first | with_reducible assumption | with_reducible apply wdogExpiry_kept)

theorem execWatchdogService_kept (t : Nat) (ini : Ini) (s : State) {s' : State}
    (h : execWatchdogService t ini s = .next s') :
    Kept s s' := by
  unfold execWatchdogService at h
  rw [← Host.Outcome.next.inj h]
  refine awake_kept _ _ (Kept.refl _) fun s hK => ?_
  repeat' (first | with_reducible assumption | with_reducible apply regPut_kept)

theorem execShadowWrite_kept (t : Nat) (s : State) {s' : State} (h : execShadowWrite t s = .next s') :
    Kept s s' := by
  unfold execShadowWrite at h
  rw [← Host.Outcome.next.inj h]
  refine awake_kept _ _ (Kept.refl _) fun s hK => ?_
  repeat' (first | with_reducible assumption | with_reducible apply shadowWrite_kept)

theorem execRestorePair_kept (t : Nat) (ini : Ini) (s : State) {s' : State} (h : execRestorePair t ini s = .next s') :
    Kept s s' := by
  unfold execRestorePair at h
  rw [← Host.Outcome.next.inj h]
  refine awake_kept _ _ (Kept.refl _) fun s hK => ?_
  repeat' (first | with_reducible assumption | with_reducible apply regPut_kept)

theorem execRestoreComplete_kept (t : Nat) (s : State) {s' : State} (h : execRestoreComplete t s = .next s') :
    Kept s s' := by
  unfold execRestoreComplete at h
  rw [← Host.Outcome.next.inj h]
  refine awake_kept _ _ (Kept.refl _) fun s hK => ?_
  repeat' (first | with_reducible assumption | with_reducible apply restoreComplete_kept)

theorem execWarmRebootBootCopy_kept (t : Nat) (ini : Ini) (s : State) {s' : State}
    (h : execWarmRebootBootCopy t ini s = .next s') :
    Kept s s' := by
  unfold execWarmRebootBootCopy at h
  rw [← Host.Outcome.next.inj h]
  refine awake_kept _ _ (Kept.refl _) fun s hK => ?_
  repeat' (first | with_reducible assumption | with_reducible apply regPut_kept)

theorem execWarmRebootStaged_kept (t : Nat) (ini : Ini) (s : State) {s' : State}
    (h : execWarmRebootStaged t ini s = .next s') :
    Kept s s' := by
  unfold execWarmRebootStaged at h
  rw [← Host.Outcome.next.inj h]
  refine awake_kept _ _ (Kept.refl _) fun s hK => ?_
  repeat' (first | with_reducible assumption | with_reducible apply regPut_kept)

theorem execWarmRebootTamp_kept (t : Nat) (s : State) {s' : State} (h : execWarmRebootTamp t s = .next s') :
    Kept s s' := by
  unfold execWarmRebootTamp at h
  rw [← Host.Outcome.next.inj h]
  refine awake_kept _ _ (Kept.refl _) fun s hK => ?_
  repeat' (first | with_reducible assumption | with_reducible apply warmTamp_kept)

theorem execKeepQuote_kept (t : Nat) (set : Nat) (param : Nat) (s : State) {s' : State}
    (h : execKeepQuote t set param s = .next s') :
    Kept s s' := by
  unfold execKeepQuote at h
  rw [← Host.Outcome.next.inj h]
  refine awake_kept _ _ (Kept.refl _) fun s hK => ?_
  repeat' (first | with_reducible assumption | with_reducible apply regPut_kept)

theorem execKeepCert_kept (t : Nat) (set : Nat) (param : Nat) (s : State) {s' : State}
    (h : execKeepCert t set param s = .next s') :
    Kept s s' := by
  unfold execKeepCert at h
  rw [← Host.Outcome.next.inj h]
  refine awake_kept _ _ (Kept.refl _) fun s hK => ?_
  repeat' (first | with_reducible assumption | with_reducible apply regPut_kept)

theorem execKeepRandom_kept (t : Nat) (set : Nat) (param : Nat) (s : State) {s' : State}
    (h : execKeepRandom t set param s = .next s') :
    Kept s s' := by
  unfold execKeepRandom at h
  rw [← Host.Outcome.next.inj h]
  refine awake_kept _ _ (Kept.refl _) fun s hK => ?_
  repeat' (first | with_reducible assumption | with_reducible apply regPut_kept)

theorem execSbkInstall_kept (t : Nat) (set : Nat) (param : Nat) (s : State) {s' : State}
    (h : execSbkInstall t set param s = .next s') :
    Kept s s' := by
  unfold execSbkInstall at h
  rw [← Host.Outcome.next.inj h]
  refine awake_kept _ _ (Kept.refl _) fun s hK => ?_
  repeat' (first | with_reducible assumption | with_reducible apply regPut_kept)

theorem execEpochPrepare_kept (t : Nat) (set : Nat) (param : Nat) (s : State) {s' : State}
    (h : execEpochPrepare t set param s = .next s') :
    Kept s s' := by
  unfold execEpochPrepare at h
  rw [← Host.Outcome.next.inj h]
  refine awake_kept _ _ (Kept.refl _) fun s hK => ?_
  repeat' (first | with_reducible assumption | with_reducible apply regPut_kept)

theorem execEpochAccept_kept (t : Nat) (set : Nat) (param : Nat) (s : State) {s' : State}
    (h : execEpochAccept t set param s = .next s') :
    Kept s s' := by
  unfold execEpochAccept at h
  rw [← Host.Outcome.next.inj h]
  refine awake_kept _ _ (Kept.refl _) fun s hK => ?_
  repeat' (first | with_reducible assumption | with_reducible apply regPut_kept)

theorem execRaiseFloor_kept (t : Nat) (set : Nat) (param : Nat) (s : State) {s' : State}
    (h : execRaiseFloor t set param s = .next s') :
    Kept s s' := by
  unfold execRaiseFloor at h
  rw [← Host.Outcome.next.inj h]
  refine awake_kept _ _ (Kept.refl _) fun s hK => ?_
  repeat' (first | with_reducible assumption | with_reducible apply regPut_kept)

theorem execSlotProgram_kept (t : Nat) (set : Nat) (param : Nat) (s : State) {s' : State}
    (h : execSlotProgram t set param s = .next s') :
    Kept s s' := by
  unfold execSlotProgram at h
  rw [← Host.Outcome.next.inj h]
  refine awake_kept _ _ (Kept.refl _) fun s hK => ?_
  repeat' (first | with_reducible assumption | with_reducible apply regPut_kept)

theorem execSlotRevoke_kept (t : Nat) (set : Nat) (param : Nat) (s : State) {s' : State}
    (h : execSlotRevoke t set param s = .next s') :
    Kept s s' := by
  unfold execSlotRevoke at h
  rw [← Host.Outcome.next.inj h]
  refine awake_kept _ _ (Kept.refl _) fun s hK => ?_
  repeat' (first | with_reducible assumption | with_reducible apply regPut_kept)

theorem execRestoreFactory_kept (t : Nat) (set : Nat) (param : Nat) (s : State) {s' : State}
    (h : execRestoreFactory t set param s = .next s') :
    Kept s s' := by
  unfold execRestoreFactory at h
  rw [← Host.Outcome.next.inj h]
  refine awake_kept _ _ (Kept.refl _) fun s hK => ?_
  repeat' (first | with_reducible assumption | with_reducible apply regPut_kept)

theorem execLogRead_kept (t : Nat) (set : Nat) (param : Nat) (s : State) {s' : State}
    (h : execLogRead t set param s = .next s') :
    Kept s s' := by
  unfold execLogRead at h
  rw [← Host.Outcome.next.inj h]
  refine awake_kept _ _ (Kept.refl _) fun s hK => ?_
  repeat' (first | with_reducible assumption | with_reducible apply regPut_kept)

theorem execDebugChallenge_kept (t : Nat) (set : Nat) (param : Nat) (s : State) {s' : State}
    (h : execDebugChallenge t set param s = .next s') :
    Kept s s' := by
  unfold execDebugChallenge at h
  rw [← Host.Outcome.next.inj h]
  refine awake_kept _ _ (Kept.refl _) fun s hK => ?_
  repeat' (first | with_reducible assumption | with_reducible apply regPut_kept)

theorem execDebugUnlock_kept (t : Nat) (set : Nat) (param : Nat) (s : State) {s' : State}
    (h : execDebugUnlock t set param s = .next s') :
    Kept s s' := by
  unfold execDebugUnlock at h
  rw [← Host.Outcome.next.inj h]
  refine awake_kept _ _ (Kept.refl _) fun s hK => ?_
  repeat' (first | with_reducible assumption | with_reducible apply regPut_kept)

theorem execKeepCommandComplete_kept (t : Nat) (set : Nat) (s : State) {s' : State}
    (h : execKeepCommandComplete t set s = .next s') :
    Kept s s' := by
  unfold execKeepCommandComplete at h
  rw [← Host.Outcome.next.inj h]
  refine awake_kept _ _ (Kept.refl _) fun s hK => ?_
  repeat' (first | intro _ | with_reducible assumption | with_reducible apply upTo_kept
                 | with_reducible apply keepComplete_kept)

theorem execRestoreFuseBurn_kept (t : Nat) (s : State) {s' : State} (h : execRestoreFuseBurn t s = .next s') :
    Kept s s' := by
  unfold execRestoreFuseBurn at h
  rw [← Host.Outcome.next.inj h]
  refine awake_kept _ _ (Kept.refl _) fun s hK => ?_
  repeat' (first | with_reducible assumption | with_reducible apply fuseBurn_kept)

theorem execDrbgReseed_kept (t : Nat) (ok : Bool) (s : State) {s' : State} (h : execDrbgReseed t ok s = .next s') :
    Kept s s' := by
  unfold execDrbgReseed at h
  rw [← Host.Outcome.next.inj h]
  refine awake_kept _ _ (Kept.refl _) fun s hK => ?_
  repeat' (first | with_reducible assumption | with_reducible apply drbgReseed_kept)

theorem execSpdmRequest_kept (t : Nat) (msg : List Byte) (s : State) {s' : State}
    (h : execSpdmRequest t msg s = .next s') :
    Kept s s' := by
  unfold execSpdmRequest at h
  rw [← Host.Outcome.next.inj h]
  refine awake_kept _ _ (Kept.refl _) fun s hK => ?_
  repeat' (first | with_reducible assumption | with_reducible apply spdmRequest_kept)

theorem execIdeQuery_kept (t : Nat) (s : State) {s' : State} (h : execIdeQuery t s = .next s') :
    Kept s s' := by
  unfold execIdeQuery at h
  rw [← Host.Outcome.next.inj h]
  refine awake_kept _ _ (Kept.refl _) fun s hK => ?_
  repeat' (first | with_reducible assumption | with_reducible apply ideQuery_kept)

theorem execKeyProg_kept (t : Nat) (set : Nat) (dir : Nat) (key : List Byte) (s : State) {s' : State}
    (h : execKeyProg t set dir key s = .next s') :
    Kept s s' := by
  unfold execKeyProg at h
  rw [← Host.Outcome.next.inj h]
  refine awake_kept _ _ (Kept.refl _) fun s hK => ?_
  repeat' (first | with_reducible assumption | with_reducible apply ideKeyProg_kept)

theorem execKSetGo_kept (t : Nat) (set : Nat) (s : State) {s' : State} (h : execKSetGo t set s = .next s') :
    Kept s s' := by
  unfold execKSetGo at h
  rw [← Host.Outcome.next.inj h]
  refine awake_kept _ _ (Kept.refl _) fun s hK => ?_
  repeat' (first | with_reducible assumption | with_reducible apply kSetGo_kept)

theorem execKSetStop_kept (t : Nat) (set : Nat) (s : State) {s' : State} (h : execKSetStop t set s = .next s') :
    Kept s s' := by
  unfold execKSetStop at h
  rw [← Host.Outcome.next.inj h]
  refine awake_kept _ _ (Kept.refl _) fun s hK => ?_
  repeat' (first | with_reducible assumption | with_reducible apply kSetStop_kept)

theorem execTakeOver_kept (t : Nat) (ini : Ini) (l : Nat) (s : State) {s' : State}
    (h : execTakeOver t ini l s = .next s') :
    Kept s s' := by
  unfold execTakeOver at h
  rw [← Host.Outcome.next.inj h]
  refine awake_kept _ _ (Kept.refl _) fun s hK => ?_
  repeat' (first | intro _ | with_reducible assumption | with_reducible apply upTo_kept
                 | with_reducible apply regPut_kept)

theorem execRetireSpare_kept (t : Nat) (ini : Ini) (j : Nat) (s : State) {s' : State}
    (h : execRetireSpare t ini j s = .next s') :
    Kept s s' := by
  unfold execRetireSpare at h
  rw [← Host.Outcome.next.inj h]
  refine awake_kept _ _ (Kept.refl _) fun s hK => ?_
  repeat' (first | intro _ | with_reducible assumption | with_reducible apply upTo_kept
                 | with_reducible apply regPut_kept)

theorem execTakeoverCopyComplete_kept (t : Nat) (s : State) {s' : State}
    (h : execTakeoverCopyComplete t s = .next s') :
    Kept s s' := by
  unfold execTakeoverCopyComplete at h
  rw [← Host.Outcome.next.inj h]
  refine awake_kept _ _ (Kept.refl _) fun s hK => ?_
  repeat' (first | with_reducible assumption | with_reducible apply takeOverCopied_kept)

theorem execAgingMeasurement_kept (t : Nat) (i : Nat) (d : Nat) (s : State) {s' : State}
    (h : execAgingMeasurement t i d s = .next s') :
    Kept s s' := by
  unfold execAgingMeasurement at h
  rw [← Host.Outcome.next.inj h]
  refine awake_kept _ _ (Kept.refl _) fun s hK => ?_
  repeat' (first | with_reducible assumption | with_reducible apply agingMeasure_kept)

theorem execCounterIntervalClose_kept (t : Nat) (k : Nat) (s : State) {s' : State}
    (h : execCounterIntervalClose t k s = .next s') :
    Kept s s' := by
  unfold execCounterIntervalClose at h
  rw [← Host.Outcome.next.inj h]
  refine awake_kept _ _ (Kept.refl _) fun s hK => ?_
  repeat' (first | intro _ | with_reducible assumption | with_reducible apply upTo_kept
                 | with_reducible apply counterClose_kept)

theorem execScrubLine_kept (t : Nat) (a : Nat) (upset : List Upset) (s : State) {s' : State}
    (h : execScrubLine t a upset s = .next s') :
    Kept s s' := by
  unfold execScrubLine at h
  rw [← Host.Outcome.next.inj h]
  refine awake_kept _ _ (Kept.refl _) fun s hK => ?_
  repeat' (first | with_reducible assumption | with_reducible apply scrubLine_kept | with_reducible apply upsets_kept)

theorem execExternalPortAccess_kept (t : Nat) (ini : Ini) (p : Nat) (off : Nat) (n : Nat) (bs : Option (List Byte))
    (upset : List Upset) (s : State) {s' : State} (h : execExternalPortAccess t ini p off n bs upset s = .next s') :
    Kept s s' := by
  unfold execExternalPortAccess at h
  rw [← Host.Outcome.next.inj h]
  refine awake_kept _ _ (Kept.refl _) fun s hK => ?_
  repeat' (first | intro _ | with_reducible assumption | with_reducible apply upTo_kept
                 | with_reducible apply externalAccess_kept | with_reducible apply upsets_kept)

theorem execRegisterWrite_kept (t : Nat) (ini : Ini) (off : Nat) (v : W32) (s : State) {s' : State}
    (h : execRegisterWrite t ini off v s = .next s') :
    Kept s s' := by
  unfold execRegisterWrite at h
  rw [← Host.Outcome.next.inj h]
  refine awake_kept _ _ (Kept.refl _) fun s hK => ?_
  repeat' (first | intro _ | with_reducible assumption | with_reducible apply upTo_kept
                 | with_reducible apply busWrite_kept | with_reducible apply answer_kept
                 | with_reducible apply Kept.ite)

theorem execJtagAccess_kept (t : Nat) (op : JtagOp) (s : State) {s' : State} (h : execJtagAccess t op s = .next s') :
    Kept s s' := by
  unfold execJtagAccess at h
  rw [← Host.Outcome.next.inj h]
  refine now_kept _ _ (Kept.refl _) fun s hK => ?_
  repeat' (first | with_reducible assumption | with_reducible apply jtagAccess_kept | with_reducible apply Kept.ite)

theorem execPerstDeassert_kept (t : Nat) (refclk : Bool) (s : State) {s' : State}
    (h : execPerstDeassert t refclk s = .next s') :
    Kept s s' := by
  unfold execPerstDeassert at h
  rw [← Host.Outcome.next.inj h]
  refine awake_kept _ _ (Kept.refl _) fun s hK => ?_
  repeat' (first | with_reducible assumption | with_reducible apply perstDeassert_kept)

theorem execLinkUp_kept (t : Nat) (rate : Nat) (width : Nat) (flit : Bool) (s : State) {s' : State}
    (h : execLinkUp t rate width flit s = .next s') :
    Kept s s' := by
  unfold execLinkUp at h
  rw [← Host.Outcome.next.inj h]
  refine awake_kept _ _ (Kept.refl _) fun s hK => ?_
  repeat' (first | with_reducible assumption | with_reducible apply linkUp_kept)

theorem execLinkDown_kept (t : Nat) (kind : Nat) (s : State) {s' : State} (h : execLinkDown t kind s = .next s') :
    Kept s s' := by
  unfold execLinkDown at h
  rw [← Host.Outcome.next.inj h]
  refine awake_kept _ _ (Kept.refl _) fun s hK => ?_
  repeat' (first | with_reducible assumption | with_reducible apply linkDown_kept)

theorem execFlr_kept (t : Nat) (s : State) {s' : State} (h : execFlr t s = .next s') :
    Kept s s' := by
  unfold execFlr at h
  rw [← Host.Outcome.next.inj h]
  refine awake_kept _ _ (Kept.refl _) fun s hK => ?_
  repeat' (first | with_reducible assumption | with_reducible apply flr_kept)

theorem execDStateChange_kept (t : Nat) (d3 : Bool) (s : State) {s' : State}
    (h : execDStateChange t d3 s = .next s') :
    Kept s s' := by
  unfold execDStateChange at h
  rw [← Host.Outcome.next.inj h]
  refine awake_kept _ _ (Kept.refl _) fun s hK => ?_
  repeat' (first | with_reducible assumption | with_reducible apply dState_kept)

theorem execConfigRequest_kept (t : Nat) (op : CfgOp) (s : State) {s' : State}
    (h : execConfigRequest t op s = .next s') :
    Kept s s' := by
  unfold execConfigRequest at h
  rw [← Host.Outcome.next.inj h]
  refine awake_kept _ _ (Kept.refl _) fun s hK => ?_
  repeat' (first | with_reducible assumption | with_reducible apply configRequest_kept)

theorem execBar0Read_kept (t : Nat) (off : Nat) (n : Nat) (be : Bool) (ide : Bool) (s : State) {s' : State}
    (h : execBar0Read t off n be ide s = .next s') :
    Kept s s' := by
  unfold execBar0Read at h
  rw [← Host.Outcome.next.inj h]
  refine awake_kept _ _ (Kept.refl _) fun s hK => ?_
  repeat' (first | with_reducible assumption | with_reducible apply bar0Read_kept)

theorem execBar0Write_kept (t : Nat) (off : Nat) (bs : List Byte) (be : Bool) (ide : Bool) (s : State) {s' : State}
    (h : execBar0Write t off bs be ide s = .next s') :
    Kept s s' := by
  unfold execBar0Write at h
  rw [← Host.Outcome.next.inj h]
  refine awake_kept _ _ (Kept.refl _) fun s hK => ?_
  repeat' (first | with_reducible assumption | with_reducible apply bar0Write_kept)

theorem execBar2Read_kept (t : Nat) (o : Nat) (n : Nat) (ide : Bool) (s : State) {s' : State}
    (h : execBar2Read t o n ide s = .next s') :
    Kept s s' := by
  unfold execBar2Read at h
  rw [← Host.Outcome.next.inj h]
  refine awake_kept _ _ (Kept.refl _) fun s hK => ?_
  repeat' (first | with_reducible assumption | with_reducible apply bar2Read_kept)

theorem execBar2Write_kept (t : Nat) (o : Nat) (bs : List Byte) (ide : Bool) (s : State) {s' : State}
    (h : execBar2Write t o bs ide s = .next s') :
    Kept s s' := by
  unfold execBar2Write at h
  rw [← Host.Outcome.next.inj h]
  refine awake_kept _ _ (Kept.refl _) fun s hK => ?_
  repeat' (first | with_reducible assumption | with_reducible apply bar2Write_kept)

theorem execHostRingEnable_kept (t : Nat) (ini : Ini) (j : Nat) (v : W32) (s : State) {s' : State}
    (h : execHostRingEnable t ini j v s = .next s') :
    Kept s s' := by
  unfold execHostRingEnable at h
  rw [← Host.Outcome.next.inj h]
  refine awake_kept _ _ (Kept.refl _) fun s hK => ?_
  repeat' (first | with_reducible assumption | with_reducible apply regPut_kept)

theorem execHostRingEntryWrite_kept (t : Nat) (j : Nat) (s : State) {s' : State}
    (h : execHostRingEntryWrite t j s = .next s') :
    Kept s s' := by
  unfold execHostRingEntryWrite at h
  rw [← Host.Outcome.next.inj h]
  refine awake_kept _ _ (Kept.refl _) fun s hK => ?_
  repeat' (first | intro _ | with_reducible assumption | with_reducible apply upTo_kept
                 | with_reducible apply hrEntryWrite_kept)

theorem execHostRingPiWrite_kept (t : Nat) (j : Nat) (v : W32) (ide : Bool) (s : State) {s' : State}
    (h : execHostRingPiWrite t j v ide s = .next s') :
    Kept s s' := by
  unfold execHostRingPiWrite at h
  rw [← Host.Outcome.next.inj h]
  refine awake_kept _ _ (Kept.refl _) fun s hK => ?_
  repeat' (first | intro _ | with_reducible assumption | with_reducible apply upTo_kept
                 | with_reducible apply bar0Write_kept)

theorem execHostReadCompletion_kept (t : Nat) (j : Nat) (ok : Bool) (ep : Bool) (items : List W48)
    (s : State) {s' : State} (h : execHostReadCompletion t j ok ep items s = .next s') :
    Kept s s' := by
  unfold execHostReadCompletion at h
  rw [← Host.Outcome.next.inj h]
  refine awake_kept _ _ (Kept.refl _) fun s hK => ?_
  repeat' (first | intro _ | with_reducible assumption | with_reducible apply upTo_kept
                 | with_reducible apply hrCompletion_kept)

theorem execHostReadTimeout_kept (t : Nat) (j : Nat) (s : State) {s' : State}
    (h : execHostReadTimeout t j s = .next s') :
    Kept s s' := by
  unfold execHostReadTimeout at h
  rw [← Host.Outcome.next.inj h]
  refine awake_kept _ _ (Kept.refl _) fun s hK => ?_
  repeat' (first | intro _ | with_reducible assumption | with_reducible apply upTo_kept
                 | with_reducible apply hrTimeout_kept)

theorem execMsixFire_kept (t : Nat) (ini : Ini) (v : W32) (s : State) {s' : State}
    (h : execMsixFire t ini v s = .next s') :
    Kept s s' := by
  unfold execMsixFire at h
  rw [← Host.Outcome.next.inj h]
  refine awake_kept _ _ (Kept.refl _) fun s hK => ?_
  repeat' (first | with_reducible assumption | with_reducible apply regPut_kept)

theorem execMsixUnmask_kept (t : Nat) (v : Nat) (s : State) {s' : State} (h : execMsixUnmask t v s = .next s') :
    Kept s s' := by
  unfold execMsixUnmask at h
  rw [← Host.Outcome.next.inj h]
  refine awake_kept _ _ (Kept.refl _) fun s hK => ?_
  repeat' (first | intro _ | with_reducible assumption | with_reducible apply upTo_kept
                 | with_reducible apply msixUnmask_kept | with_reducible apply Kept.ite)

theorem execIdeIntegrityFailure_kept (t : Nat) (s : State) {s' : State} (h : execIdeIntegrityFailure t s = .next s') :
    Kept s s' := by
  unfold execIdeIntegrityFailure at h
  rw [← Host.Outcome.next.inj h]
  refine awake_kept _ _ (Kept.refl _) fun s hK => ?_
  repeat' (first | with_reducible assumption | with_reducible apply ideFailure_kept)

theorem execInputOkChange_kept (t : Nat) (b : Bool) (ok : Bool) (va : Nat) (vb : Nat) (s : State) {s' : State}
    (h : execInputOkChange t b ok va vb s = .next s') :
    Kept s s' := by
  unfold execInputOkChange at h
  rw [← Host.Outcome.next.inj h]
  refine now_kept _ _ (Kept.refl _) fun s hK => ?_
  repeat' (first | with_reducible assumption | with_reducible apply inputOk_kept)

theorem execInputReversed_kept (t : Nat) (b : Bool) (mv : Nat) (va : Nat) (vb : Nat) (s : State) {s' : State}
    (h : execInputReversed t b mv va vb s = .next s') :
    Kept s s' := by
  unfold execInputReversed at h
  by_cases hb : 60000 < mv
  · rw [if_pos hb] at h
    cases h
  · rw [if_neg hb] at h
    rw [← Host.Outcome.next.inj h]
    refine now_kept _ _ (Kept.refl _) fun s hK => ?_
    repeat' (first | with_reducible assumption | with_reducible apply inputReversed_kept)

theorem execInputOvervoltage_kept (t : Nat) (b : Bool) (va : Nat) (vb : Nat) (s : State) {s' : State}
    (h : execInputOvervoltage t b va vb s = .next s') :
    Kept s s' := by
  unfold execInputOvervoltage at h
  by_cases hb : 80000 < (if b then vb else va)
  · rw [if_pos hb] at h
    cases h
  · rw [if_neg hb] at h
    rw [← Host.Outcome.next.inj h]
    refine now_kept _ _ (Kept.refl _) fun s hK => ?_
    repeat' (first | with_reducible assumption | with_reducible apply inputOver_kept)

theorem execInputReconnect_kept (t : Nat) (b : Bool) (va : Nat) (vb : Nat) (s : State) {s' : State}
    (h : execInputReconnect t b va vb s = .next s') :
    Kept s s' := by
  unfold execInputReconnect at h
  rw [← Host.Outcome.next.inj h]
  refine now_kept _ _ (Kept.refl _) fun s hK => ?_
  repeat' (first | with_reducible assumption | with_reducible apply inputReconnect_kept)

theorem execVholdLow_kept (t : Nat) (v : Nat) (s : State) {s' : State} (h : execVholdLow t v s = .next s') :
    Kept s s' := by
  unfold execVholdLow at h
  rw [← Host.Outcome.next.inj h]
  refine now_kept _ _ (Kept.refl _) fun s hK => ?_
  repeat' (first | with_reducible assumption | with_reducible apply vholdLow_kept)

theorem execHoldupExhausted_kept (t : Nat) (s : State) {s' : State} (h : execHoldupExhausted t s = .next s') :
    Kept s s' := by
  unfold execHoldupExhausted at h
  rw [← Host.Outcome.next.inj h]
  refine now_kept _ _ (Kept.refl _) fun s hK => ?_
  repeat' (first | with_reducible assumption | with_reducible apply holdupExhausted_kept)

theorem execModuleReset_kept (t : Nat) (why : Nat) (s : State) {s' : State} (h : execModuleReset t why s = .next s') :
    Kept s s' := by
  unfold execModuleReset at h
  rw [← Host.Outcome.next.inj h]
  refine now_kept _ _ (Kept.refl _) fun s hK => ?_
  repeat' (first | with_reducible assumption | with_reducible apply moduleReset_kept)

theorem execSleepRequest_kept (t : Nat) (ini : Ini) (s : State) {s' : State}
    (h : execSleepRequest t ini s = .next s') :
    Kept s s' := by
  unfold execSleepRequest at h
  rw [← Host.Outcome.next.inj h]
  refine awake_kept _ _ (Kept.refl _) fun s hK => ?_
  repeat' (first | with_reducible assumption | with_reducible apply regPut_kept)

theorem execWakeEvent_kept (t : Nat) (b : Nat) (s : State) {s' : State} (h : execWakeEvent t b s = .next s') :
    Kept s s' := by
  unfold execWakeEvent at h
  rw [← Host.Outcome.next.inj h]
  refine now_kept _ _ (Kept.refl _) fun s hK => ?_
  repeat' (first | with_reducible assumption | with_reducible apply wakeEvent_kept)

theorem execRefaLost_kept (t : Nat) (s : State) {s' : State} (h : execRefaLost t s = .next s') :
    Kept s s' := by
  unfold execRefaLost at h
  rw [← Host.Outcome.next.inj h]
  refine now_kept _ _ (Kept.refl _) fun s hK => ?_
  repeat' (first | with_reducible assumption | with_reducible apply refFlag_kept)

theorem execRefaReturn_kept (t : Nat) (s : State) {s' : State} (h : execRefaReturn t s = .next s') :
    Kept s s' := by
  unfold execRefaReturn at h
  rw [← Host.Outcome.next.inj h]
  refine now_kept _ _ (Kept.refl _) fun s hK => ?_
  repeat' (first | with_reducible assumption | with_reducible apply refFlag_kept)

theorem execRefbLost_kept (t : Nat) (s : State) {s' : State} (h : execRefbLost t s = .next s') :
    Kept s s' := by
  unfold execRefbLost at h
  rw [← Host.Outcome.next.inj h]
  refine now_kept _ _ (Kept.refl _) fun s hK => ?_
  repeat' (first | with_reducible assumption | with_reducible apply refFlag_kept)

theorem execRefbReturn_kept (t : Nat) (s : State) {s' : State} (h : execRefbReturn t s = .next s') :
    Kept s s' := by
  unfold execRefbReturn at h
  rw [← Host.Outcome.next.inj h]
  refine now_kept _ _ (Kept.refl _) fun s hK => ?_
  repeat' (first | with_reducible assumption | with_reducible apply refFlag_kept)

theorem execTemperatureUpdate_kept (t : Nat) (main : Nat) (ana : Nat) (s : State) {s' : State}
    (h : execTemperatureUpdate t main ana s = .next s') :
    Kept s s' := by
  unfold execTemperatureUpdate at h
  rw [← Host.Outcome.next.inj h]
  refine now_kept _ _ (Kept.refl _) fun s hK => ?_
  repeat' (first | with_reducible assumption | with_reducible apply temperature_kept)

theorem execThermalShutdown_kept (t : Nat) (s : State) {s' : State} (h : execThermalShutdown t s = .next s') :
    Kept s s' := by
  unfold execThermalShutdown at h
  rw [← Host.Outcome.next.inj h]
  refine now_kept _ _ (Kept.refl _) fun s hK => ?_
  repeat' (first | with_reducible assumption | with_reducible apply thermalShutdown_kept)

theorem execThermalRestart_kept (t : Nat) (s : State) {s' : State} (h : execThermalRestart t s = .next s') :
    Kept s s' := by
  unfold execThermalRestart at h
  rw [← Host.Outcome.next.inj h]
  refine now_kept _ _ (Kept.refl _) fun s hK => ?_
  repeat' (first | with_reducible assumption | with_reducible apply thermalRestart_kept)

theorem execLandSwitchOpen_kept (t : Nat) (row : Nat) (col : Nat) (low : Bool) (s : State) {s' : State}
    (h : execLandSwitchOpen t row col low s = .next s') :
    Kept s s' := by
  unfold execLandSwitchOpen at h
  rw [← Host.Outcome.next.inj h]
  refine now_kept _ _ (Kept.refl _) fun s hK => ?_
  repeat' (first | with_reducible assumption | with_reducible apply landSwitchOpen_kept)

theorem execLandSwitchClose_kept (t : Nat) (row : Nat) (col : Nat) (level : Bool) (s : State) {s' : State}
    (h : execLandSwitchClose t row col level s = .next s') :
    Kept s s' := by
  unfold execLandSwitchClose at h
  rw [← Host.Outcome.next.inj h]
  refine now_kept _ _ (Kept.refl _) fun s hK => ?_
  repeat' (first | with_reducible assumption | with_reducible apply landSwitchClose_kept)

theorem execLandFault_kept (t : Nat) (row : Nat) (col : Nat) (kind : Nat) (s : State) {s' : State}
    (h : execLandFault t row col kind s = .next s') :
    Kept s s' := by
  unfold execLandFault at h
  rw [← Host.Outcome.next.inj h]
  refine now_kept _ _ (Kept.refl _) fun s hK => ?_
  repeat' (first | with_reducible assumption | with_reducible apply landFault_kept)

theorem execOpenInputTest_kept (t : Nat) (lands : List (Nat × Nat)) (s : State) {s' : State}
    (h : execOpenInputTest t lands s = .next s') :
    Kept s s' := by
  unfold execOpenInputTest at h
  rw [← Host.Outcome.next.inj h]
  refine now_kept _ _ (Kept.refl _) fun s hK => ?_
  repeat' (first | with_reducible assumption | with_reducible apply openInputTest_kept)

theorem execPinEdgeClock_kept (t : Nat) (pin : Nat) (s : State) {s' : State}
    (h : execPinEdgeClock t pin s = .next s') :
    Kept s s' := by
  unfold execPinEdgeClock at h
  rw [← Host.Outcome.next.inj h]
  refine awake_kept _ _ (Kept.refl _) fun s hK => ?_
  repeat' (first | intro _ | with_reducible assumption | with_reducible apply upTo_kept
                 | with_reducible apply pinClock_kept | with_reducible apply Kept.ite)

theorem execPgRelease_kept (t : Nat) (s : State) {s' : State} (h : execPgRelease t s = .next s') :
    Kept s s' := by
  unfold execPgRelease at h
  rw [← Host.Outcome.next.inj h]
  refine now_kept _ _ (Kept.refl _) fun s hK => ?_
  repeat' (first | with_reducible assumption | with_reducible apply pgRelease_kept)

end Sys2Proof.Machine
end

