-- ==== Sys2Proof/Laws/PerInstr.lean ====
section
/-! SUPPORT. One lemma for each command: every command but TICK carries the stamp it comes at. -/

namespace Sys2Proof.Laws.Stamped

/-- A command carries no stamp exactly when it is TICK (R37, R51). -/
def Statement (i : Instr) : Prop := i.stamp = none ↔ ∃ evac, i = .tick evac

theorem tick (evac : Nat) : Statement (.tick evac) :=
  ⟨fun _ => ⟨evac, rfl⟩, fun _ => rfl⟩

theorem bundleIssue (t : Nat) (w : CoreSel) (upset : List Upset) : Statement (.bundleIssue t w upset) :=
  ⟨fun h => (nomatch h), fun h => (nomatch h)⟩

theorem unitResultDelivery (t : Nat) (w : CoreSel) : Statement (.unitResultDelivery t w) :=
  ⟨fun h => (nomatch h), fun h => (nomatch h)⟩

theorem accumulatorLanding (t : Nat) (w : CoreSel) : Statement (.accumulatorLanding t w) :=
  ⟨fun h => (nomatch h), fun h => (nomatch h)⟩

theorem loadDelivery (t : Nat) (w : CoreSel) : Statement (.loadDelivery t w) :=
  ⟨fun h => (nomatch h), fun h => (nomatch h)⟩

theorem bmoveEnd (t : Nat) (w : CoreSel) : Statement (.bmoveEnd t w) :=
  ⟨fun h => (nomatch h), fun h => (nomatch h)⟩

theorem carafeLoadReady (t : Nat) (w : CoreSel) : Statement (.carafeLoadReady t w) :=
  ⟨fun h => (nomatch h), fun h => (nomatch h)⟩

theorem carafeGrant (t : Nat) (slice : Nat) (half : Nat) (upset : List Upset) : Statement (.carafeGrant t slice half upset) :=
  ⟨fun h => (nomatch h), fun h => (nomatch h)⟩

theorem storeBufferPerformed (t : Nat) (w : CoreSel) : Statement (.storeBufferPerformed t w) :=
  ⟨fun h => (nomatch h), fun h => (nomatch h)⟩

theorem sendItemStored (t : Nat) (p : Nat) : Statement (.sendItemStored t p) :=
  ⟨fun h => (nomatch h), fun h => (nomatch h)⟩

theorem receiveItemDelivered (t : Nat) (p : Nat) (sup : Bool) : Statement (.receiveItemDelivered t p sup) :=
  ⟨fun h => (nomatch h), fun h => (nomatch h)⟩

theorem receiveTimeout (t : Nat) (p : Nat) (sup : Bool) : Statement (.receiveTimeout t p sup) :=
  ⟨fun h => (nomatch h), fun h => (nomatch h)⟩

theorem entry (t : Nat) (w : CoreSel) : Statement (.entry t w) :=
  ⟨fun h => (nomatch h), fun h => (nomatch h)⟩

theorem sourceEvent (t : Nat) (n : Nat) (level : Bool) : Statement (.sourceEvent t n level) :=
  ⟨fun h => (nomatch h), fun h => (nomatch h)⟩

theorem coalesceTimeRelease (t : Nat) (n : Nat) : Statement (.coalesceTimeRelease t n) :=
  ⟨fun h => (nomatch h), fun h => (nomatch h)⟩

theorem pendingWrite (t : Nat) (ini : Ini) (k : Nat) (v : W32) : Statement (.pendingWrite t ini k v) :=
  ⟨fun h => (nomatch h), fun h => (nomatch h)⟩

theorem inServiceComplete (t : Nat) (ini : Ini) (k : Nat) (v : W32) : Statement (.inServiceComplete t ini k v) :=
  ⟨fun h => (nomatch h), fun h => (nomatch h)⟩

theorem baristaClaim (t : Nat) : Statement (.baristaClaim t) :=
  ⟨fun h => (nomatch h), fun h => (nomatch h)⟩

theorem channelArm (t : Nat) (ini : Ini) (n : Nat) (v : W32) : Statement (.channelArm t ini n v) :=
  ⟨fun h => (nomatch h), fun h => (nomatch h)⟩

theorem channelDisarm (t : Nat) (ini : Ini) (n : Nat) (v : W32) : Statement (.channelDisarm t ini n v) :=
  ⟨fun h => (nomatch h), fun h => (nomatch h)⟩

theorem compareStage (t : Nat) (ini : Ini) (n : Nat) (v : W32) : Statement (.compareStage t ini n v) :=
  ⟨fun h => (nomatch h), fun h => (nomatch h)⟩

theorem compareCommit (t : Nat) (ini : Ini) (n : Nat) (v : W32) : Statement (.compareCommit t ini n v) :=
  ⟨fun h => (nomatch h), fun h => (nomatch h)⟩

theorem groupStart (t : Nat) (ini : Ini) (v : W32) : Statement (.groupStart t ini v) :=
  ⟨fun h => (nomatch h), fun h => (nomatch h)⟩

theorem channelMatch (t : Nat) (n : Nat) : Statement (.channelMatch t n) :=
  ⟨fun h => (nomatch h), fun h => (nomatch h)⟩

theorem channelOverflow (t : Nat) (n : Nat) : Statement (.channelOverflow t n) :=
  ⟨fun h => (nomatch h), fun h => (nomatch h)⟩

theorem snapshotNtc (t : Nat) (ini : Ini) : Statement (.snapshotNtc t ini) :=
  ⟨fun h => (nomatch h), fun h => (nomatch h)⟩

theorem snapshotSharedChannel (t : Nat) (ini : Ini) (n : Nat) : Statement (.snapshotSharedChannel t ini n) :=
  ⟨fun h => (nomatch h), fun h => (nomatch h)⟩

theorem snapshotPrivateChannel (t : Nat) (ini : Ini) (n : Nat) : Statement (.snapshotPrivateChannel t ini n) :=
  ⟨fun h => (nomatch h), fun h => (nomatch h)⟩

theorem captureEvent (t : Nat) (pin : Nat) (rising : Bool) : Statement (.captureEvent t pin rising) :=
  ⟨fun h => (nomatch h), fun h => (nomatch h)⟩

theorem captureRead (t : Nat) (ini : Ini) (c : Nat) : Statement (.captureRead t ini c) :=
  ⟨fun h => (nomatch h), fun h => (nomatch h)⟩

theorem ringTimeLost (t : Nat) : Statement (.ringTimeLost t) :=
  ⟨fun h => (nomatch h), fun h => (nomatch h)⟩

theorem descriptorWrite (t : Nat) (ini : Ini) (h : Nat) (off : Nat) (v : W32) : Statement (.descriptorWrite t ini h off v) :=
  ⟨fun h => (nomatch h), fun h => (nomatch h)⟩

theorem initiatorSend (t : Nat) (i : Nat) (h : Nat) : Statement (.initiatorSend t i h) :=
  ⟨fun h => (nomatch h), fun h => (nomatch h)⟩

theorem initiatorReceive (t : Nat) (i : Nat) (h : Nat) : Statement (.initiatorReceive t i h) :=
  ⟨fun h => (nomatch h), fun h => (nomatch h)⟩

theorem initiatorOpEnd (t : Nat) (i : Nat) : Statement (.initiatorOpEnd t i) :=
  ⟨fun h => (nomatch h), fun h => (nomatch h)⟩

theorem inputPlacement (t : Nat) (h : Nat) (samples : List W24) : Statement (.inputPlacement t h samples) :=
  ⟨fun h => (nomatch h), fun h => (nomatch h)⟩

theorem scheduledForward (t : Nat) (h : Option Nat) : Statement (.scheduledForward t h) :=
  ⟨fun h => (nomatch h), fun h => (nomatch h)⟩

theorem itemAgeTimeout (t : Nat) (h : Nat) : Statement (.itemAgeTimeout t h) :=
  ⟨fun h => (nomatch h), fun h => (nomatch h)⟩

theorem heartbeatReceived (t : Nat) (p : Nat) : Statement (.heartbeatReceived t p) :=
  ⟨fun h => (nomatch h), fun h => (nomatch h)⟩

theorem supervisionExpiry (t : Nat) (p : Nat) : Statement (.supervisionExpiry t p) :=
  ⟨fun h => (nomatch h), fun h => (nomatch h)⟩

theorem remoteFaultReceived (t : Nat) (p : Nat) : Statement (.remoteFaultReceived t p) :=
  ⟨fun h => (nomatch h), fun h => (nomatch h)⟩

theorem portWrap (t : Nat) (p : Nat) : Statement (.portWrap t p) :=
  ⟨fun h => (nomatch h), fun h => (nomatch h)⟩

theorem portReturned (t : Nat) (p : Nat) : Statement (.portReturned t p) :=
  ⟨fun h => (nomatch h), fun h => (nomatch h)⟩

theorem ringFrameReceived (t : Nat) (p : Nat) (framed : Bool) (bytes : List Byte) : Statement (.ringFrameReceived t p framed bytes) :=
  ⟨fun h => (nomatch h), fun h => (nomatch h)⟩

theorem beaconSend (t : Nat) (p : Nat) : Statement (.beaconSend t p) :=
  ⟨fun h => (nomatch h), fun h => (nomatch h)⟩

theorem delayRequestSend (t : Nat) (r : Nat) : Statement (.delayRequestSend t r) :=
  ⟨fun h => (nomatch h), fun h => (nomatch h)⟩

theorem epochGrantSend (t : Nat) (p : Nat) : Statement (.epochGrantSend t p) :=
  ⟨fun h => (nomatch h), fun h => (nomatch h)⟩

theorem upstreamTimeout (t : Nat) (p : Nat) : Statement (.upstreamTimeout t p) :=
  ⟨fun h => (nomatch h), fun h => (nomatch h)⟩

theorem islandLeaderElection (t : Nat) (r : Nat) : Statement (.islandLeaderElection t r) :=
  ⟨fun h => (nomatch h), fun h => (nomatch h)⟩

theorem trainOrigin (t : Nat) (r : Nat) (west : Bool) (arrived : Bool) : Statement (.trainOrigin t r west arrived) :=
  ⟨fun h => (nomatch h), fun h => (nomatch h)⟩

theorem groupMissing (t : Nat) (r : Nat) (g : Nat) (m : Nat) : Statement (.groupMissing t r g m) :=
  ⟨fun h => (nomatch h), fun h => (nomatch h)⟩

theorem unreservedFrameSend (t : Nat) (p : Nat) : Statement (.unreservedFrameSend t p) :=
  ⟨fun h => (nomatch h), fun h => (nomatch h)⟩

theorem mailboxSend (t : Nat) (m : Nat) : Statement (.mailboxSend t m) :=
  ⟨fun h => (nomatch h), fun h => (nomatch h)⟩

theorem controlTransmit (t : Nat) (ini : Ini) (v : W32) : Statement (.controlTransmit t ini v) :=
  ⟨fun h => (nomatch h), fun h => (nomatch h)⟩

theorem edgeFrameReceived (t : Nat) (p : Nat) (bytes : List Byte) : Statement (.edgeFrameReceived t p bytes) :=
  ⟨fun h => (nomatch h), fun h => (nomatch h)⟩

theorem edgeStreamTransmit (t : Nat) (i : Nat) : Statement (.edgeStreamTransmit t i) :=
  ⟨fun h => (nomatch h), fun h => (nomatch h)⟩

theorem streamSilent (t : Nat) (i : Nat) : Statement (.streamSilent t i) :=
  ⟨fun h => (nomatch h), fun h => (nomatch h)⟩

theorem crmLive (t : Nat) (ini : Ini) (c : Nat) : Statement (.crmLive t ini c) :=
  ⟨fun h => (nomatch h), fun h => (nomatch h)⟩

theorem startNightSweep (t : Nat) (ini : Ini) (c : Nat) : Statement (.startNightSweep t ini c) :=
  ⟨fun h => (nomatch h), fun h => (nomatch h)⟩

theorem crmOff (t : Nat) (ini : Ini) (c : Nat) : Statement (.crmOff t ini c) :=
  ⟨fun h => (nomatch h), fun h => (nomatch h)⟩

theorem startReflectometry (t : Nat) (ini : Ini) (b : Nat) : Statement (.startReflectometry t ini b) :=
  ⟨fun h => (nomatch h), fun h => (nomatch h)⟩

theorem velocityCalibration (t : Nat) (ini : Ini) (b : Nat) : Statement (.velocityCalibration t ini b) :=
  ⟨fun h => (nomatch h), fun h => (nomatch h)⟩

theorem abortReflectometry (t : Nat) (ini : Ini) (b : Nat) : Statement (.abortReflectometry t ini b) :=
  ⟨fun h => (nomatch h), fun h => (nomatch h)⟩

theorem cremaFrameEnd (t : Nat) (c : Nat) (m : Machine.CrmFrame) : Statement (.cremaFrameEnd t c m) :=
  ⟨fun h => (nomatch h), fun h => (nomatch h)⟩

theorem fastFault (t : Nat) (c : Nat) : Statement (.fastFault t c) :=
  ⟨fun h => (nomatch h), fun h => (nomatch h)⟩

theorem liveWindowEnd (t : Nat) (c : Nat) (m : Machine.CrmMeas) : Statement (.liveWindowEnd t c m) :=
  ⟨fun h => (nomatch h), fun h => (nomatch h)⟩

theorem nightStageAEnd (t : Nat) (c : Nat) (m : Machine.CrmMeas) : Statement (.nightStageAEnd t c m) :=
  ⟨fun h => (nomatch h), fun h => (nomatch h)⟩

theorem nightStageBEnd (t : Nat) (c : Nat) (m : Machine.CrmMeas) : Statement (.nightStageBEnd t c m) :=
  ⟨fun h => (nomatch h), fun h => (nomatch h)⟩

theorem reflectPulse (t : Nat) (b : Nat) (samples : List (BitVec 16)) : Statement (.reflectPulse t b samples) :=
  ⟨fun h => (nomatch h), fun h => (nomatch h)⟩

theorem reflectRunEnd (t : Nat) (b : Nat) : Statement (.reflectRunEnd t b) :=
  ⟨fun h => (nomatch h), fun h => (nomatch h)⟩

theorem evacDebouncedChange (t : Nat) (e : Nat) : Statement (.evacDebouncedChange t e) :=
  ⟨fun h => (nomatch h), fun h => (nomatch h)⟩

theorem evacMessageStart (t : Nat) (e : Nat) : Statement (.evacMessageStart t e) :=
  ⟨fun h => (nomatch h), fun h => (nomatch h)⟩

theorem evacMessageEnd (t : Nat) (e : Nat) : Statement (.evacMessageEnd t e) :=
  ⟨fun h => (nomatch h), fun h => (nomatch h)⟩

theorem bankFlipRequest (t : Nat) (ini : Ini) (v : W32) : Statement (.bankFlipRequest t ini v) :=
  ⟨fun h => (nomatch h), fun h => (nomatch h)⟩

theorem placementRequest (t : Nat) (ini : Ini) (v : W32) : Statement (.placementRequest t ini v) :=
  ⟨fun h => (nomatch h), fun h => (nomatch h)⟩

theorem placementComplete (t : Nat) : Statement (.placementComplete t) :=
  ⟨fun h => (nomatch h), fun h => (nomatch h)⟩

theorem moduleResetRelease (t : Nat) (puf : Option Nat) (rng : Bool) : Statement (.moduleResetRelease t puf rng) :=
  ⟨fun h => (nomatch h), fun h => (nomatch h)⟩

theorem imageChoice (t : Nat) (a : Option (List Byte)) (b : Option (List Byte)) : Statement (.imageChoice t a b) :=
  ⟨fun h => (nomatch h), fun h => (nomatch h)⟩

theorem sectionApply (t : Nat) : Statement (.sectionApply t) :=
  ⟨fun h => (nomatch h), fun h => (nomatch h)⟩

theorem loaderChecks (t : Nat) : Statement (.loaderChecks t) :=
  ⟨fun h => (nomatch h), fun h => (nomatch h)⟩

theorem tamp (t : Nat) : Statement (.tamp t) :=
  ⟨fun h => (nomatch h), fun h => (nomatch h)⟩

theorem recoveryImageWrite (t : Nat) (img : List Byte) : Statement (.recoveryImageWrite t img) :=
  ⟨fun h => (nomatch h), fun h => (nomatch h)⟩

theorem setGoodMark (t : Nat) (ini : Ini) : Statement (.setGoodMark t ini) :=
  ⟨fun h => (nomatch h), fun h => (nomatch h)⟩

theorem setBadMark (t : Nat) (ini : Ini) : Statement (.setBadMark t ini) :=
  ⟨fun h => (nomatch h), fun h => (nomatch h)⟩

theorem markProgrammed (t : Nat) : Statement (.markProgrammed t) :=
  ⟨fun h => (nomatch h), fun h => (nomatch h)⟩

theorem lockstepMismatch (t : Nat) (r : Nat) : Statement (.lockstepMismatch t r) :=
  ⟨fun h => (nomatch h), fun h => (nomatch h)⟩

theorem watchdogExpiry (t : Nat) : Statement (.watchdogExpiry t) :=
  ⟨fun h => (nomatch h), fun h => (nomatch h)⟩

theorem watchdogService (t : Nat) (ini : Ini) : Statement (.watchdogService t ini) :=
  ⟨fun h => (nomatch h), fun h => (nomatch h)⟩

theorem shadowWrite (t : Nat) : Statement (.shadowWrite t) :=
  ⟨fun h => (nomatch h), fun h => (nomatch h)⟩

theorem restorePair (t : Nat) (ini : Ini) : Statement (.restorePair t ini) :=
  ⟨fun h => (nomatch h), fun h => (nomatch h)⟩

theorem restoreComplete (t : Nat) : Statement (.restoreComplete t) :=
  ⟨fun h => (nomatch h), fun h => (nomatch h)⟩

theorem warmRebootBootCopy (t : Nat) (ini : Ini) : Statement (.warmRebootBootCopy t ini) :=
  ⟨fun h => (nomatch h), fun h => (nomatch h)⟩

theorem warmRebootStaged (t : Nat) (ini : Ini) : Statement (.warmRebootStaged t ini) :=
  ⟨fun h => (nomatch h), fun h => (nomatch h)⟩

theorem warmRebootTamp (t : Nat) : Statement (.warmRebootTamp t) :=
  ⟨fun h => (nomatch h), fun h => (nomatch h)⟩

theorem keepQuote (t : Nat) (set : Nat) (param : Nat) : Statement (.keepQuote t set param) :=
  ⟨fun h => (nomatch h), fun h => (nomatch h)⟩

theorem keepCert (t : Nat) (set : Nat) (param : Nat) : Statement (.keepCert t set param) :=
  ⟨fun h => (nomatch h), fun h => (nomatch h)⟩

theorem keepRandom (t : Nat) (set : Nat) (param : Nat) : Statement (.keepRandom t set param) :=
  ⟨fun h => (nomatch h), fun h => (nomatch h)⟩

theorem sbkInstall (t : Nat) (set : Nat) (param : Nat) : Statement (.sbkInstall t set param) :=
  ⟨fun h => (nomatch h), fun h => (nomatch h)⟩

theorem epochPrepare (t : Nat) (set : Nat) (param : Nat) : Statement (.epochPrepare t set param) :=
  ⟨fun h => (nomatch h), fun h => (nomatch h)⟩

theorem epochAccept (t : Nat) (set : Nat) (param : Nat) : Statement (.epochAccept t set param) :=
  ⟨fun h => (nomatch h), fun h => (nomatch h)⟩

theorem raiseFloor (t : Nat) (set : Nat) (param : Nat) : Statement (.raiseFloor t set param) :=
  ⟨fun h => (nomatch h), fun h => (nomatch h)⟩

theorem slotProgram (t : Nat) (set : Nat) (param : Nat) : Statement (.slotProgram t set param) :=
  ⟨fun h => (nomatch h), fun h => (nomatch h)⟩

theorem slotRevoke (t : Nat) (set : Nat) (param : Nat) : Statement (.slotRevoke t set param) :=
  ⟨fun h => (nomatch h), fun h => (nomatch h)⟩

theorem restoreFactory (t : Nat) (set : Nat) (param : Nat) : Statement (.restoreFactory t set param) :=
  ⟨fun h => (nomatch h), fun h => (nomatch h)⟩

theorem logRead (t : Nat) (set : Nat) (param : Nat) : Statement (.logRead t set param) :=
  ⟨fun h => (nomatch h), fun h => (nomatch h)⟩

theorem debugChallenge (t : Nat) (set : Nat) (param : Nat) : Statement (.debugChallenge t set param) :=
  ⟨fun h => (nomatch h), fun h => (nomatch h)⟩

theorem debugUnlock (t : Nat) (set : Nat) (param : Nat) : Statement (.debugUnlock t set param) :=
  ⟨fun h => (nomatch h), fun h => (nomatch h)⟩

theorem keepCommandComplete (t : Nat) (set : Nat) : Statement (.keepCommandComplete t set) :=
  ⟨fun h => (nomatch h), fun h => (nomatch h)⟩

theorem restoreFuseBurn (t : Nat) : Statement (.restoreFuseBurn t) :=
  ⟨fun h => (nomatch h), fun h => (nomatch h)⟩

theorem drbgReseed (t : Nat) (ok : Bool) : Statement (.drbgReseed t ok) :=
  ⟨fun h => (nomatch h), fun h => (nomatch h)⟩

theorem spdmRequest (t : Nat) (msg : List Byte) : Statement (.spdmRequest t msg) :=
  ⟨fun h => (nomatch h), fun h => (nomatch h)⟩

theorem ideQuery (t : Nat) : Statement (.ideQuery t) :=
  ⟨fun h => (nomatch h), fun h => (nomatch h)⟩

theorem keyProg (t : Nat) (set : Nat) (dir : Nat) (key : List Byte) : Statement (.keyProg t set dir key) :=
  ⟨fun h => (nomatch h), fun h => (nomatch h)⟩

theorem kSetGo (t : Nat) (set : Nat) : Statement (.kSetGo t set) :=
  ⟨fun h => (nomatch h), fun h => (nomatch h)⟩

theorem kSetStop (t : Nat) (set : Nat) : Statement (.kSetStop t set) :=
  ⟨fun h => (nomatch h), fun h => (nomatch h)⟩

theorem takeOver (t : Nat) (ini : Ini) (l : Nat) : Statement (.takeOver t ini l) :=
  ⟨fun h => (nomatch h), fun h => (nomatch h)⟩

theorem retireSpare (t : Nat) (ini : Ini) (j : Nat) : Statement (.retireSpare t ini j) :=
  ⟨fun h => (nomatch h), fun h => (nomatch h)⟩

theorem takeoverCopyComplete (t : Nat) : Statement (.takeoverCopyComplete t) :=
  ⟨fun h => (nomatch h), fun h => (nomatch h)⟩

theorem agingMeasurement (t : Nat) (i : Nat) (d : Nat) : Statement (.agingMeasurement t i d) :=
  ⟨fun h => (nomatch h), fun h => (nomatch h)⟩

theorem counterIntervalClose (t : Nat) (k : Nat) : Statement (.counterIntervalClose t k) :=
  ⟨fun h => (nomatch h), fun h => (nomatch h)⟩

theorem scrubLine (t : Nat) (a : Nat) (upset : List Upset) : Statement (.scrubLine t a upset) :=
  ⟨fun h => (nomatch h), fun h => (nomatch h)⟩

theorem externalPortAccess (t : Nat) (ini : Ini) (p : Nat) (off : Nat) (n : Nat) (bs : Option (List Byte)) (upset : List Upset) : Statement (.externalPortAccess t ini p off n bs upset) :=
  ⟨fun h => (nomatch h), fun h => (nomatch h)⟩

theorem registerWrite (t : Nat) (ini : Ini) (off : Nat) (v : W32) : Statement (.registerWrite t ini off v) :=
  ⟨fun h => (nomatch h), fun h => (nomatch h)⟩

theorem jtagAccess (t : Nat) (op : JtagOp) : Statement (.jtagAccess t op) :=
  ⟨fun h => (nomatch h), fun h => (nomatch h)⟩

theorem perstDeassert (t : Nat) (refclk : Bool) : Statement (.perstDeassert t refclk) :=
  ⟨fun h => (nomatch h), fun h => (nomatch h)⟩

theorem linkUp (t : Nat) (rate : Nat) (width : Nat) (flit : Bool) : Statement (.linkUp t rate width flit) :=
  ⟨fun h => (nomatch h), fun h => (nomatch h)⟩

theorem linkDown (t : Nat) (kind : Nat) : Statement (.linkDown t kind) :=
  ⟨fun h => (nomatch h), fun h => (nomatch h)⟩

theorem flr (t : Nat) : Statement (.flr t) :=
  ⟨fun h => (nomatch h), fun h => (nomatch h)⟩

theorem dStateChange (t : Nat) (d3 : Bool) : Statement (.dStateChange t d3) :=
  ⟨fun h => (nomatch h), fun h => (nomatch h)⟩

theorem configRequest (t : Nat) (op : CfgOp) : Statement (.configRequest t op) :=
  ⟨fun h => (nomatch h), fun h => (nomatch h)⟩

theorem bar0Read (t : Nat) (off : Nat) (n : Nat) (be : Bool) (ide : Bool) : Statement (.bar0Read t off n be ide) :=
  ⟨fun h => (nomatch h), fun h => (nomatch h)⟩

theorem bar0Write (t : Nat) (off : Nat) (bs : List Byte) (be : Bool) (ide : Bool) : Statement (.bar0Write t off bs be ide) :=
  ⟨fun h => (nomatch h), fun h => (nomatch h)⟩

theorem bar2Read (t : Nat) (o : Nat) (n : Nat) (ide : Bool) : Statement (.bar2Read t o n ide) :=
  ⟨fun h => (nomatch h), fun h => (nomatch h)⟩

theorem bar2Write (t : Nat) (o : Nat) (bs : List Byte) (ide : Bool) : Statement (.bar2Write t o bs ide) :=
  ⟨fun h => (nomatch h), fun h => (nomatch h)⟩

theorem hostRingEnable (t : Nat) (ini : Ini) (j : Nat) (v : W32) : Statement (.hostRingEnable t ini j v) :=
  ⟨fun h => (nomatch h), fun h => (nomatch h)⟩

theorem hostRingEntryWrite (t : Nat) (j : Nat) : Statement (.hostRingEntryWrite t j) :=
  ⟨fun h => (nomatch h), fun h => (nomatch h)⟩

theorem hostRingPiWrite (t : Nat) (j : Nat) (v : W32) (ide : Bool) : Statement (.hostRingPiWrite t j v ide) :=
  ⟨fun h => (nomatch h), fun h => (nomatch h)⟩

theorem hostReadCompletion (t : Nat) (j : Nat) (ok : Bool) (ep : Bool) (items : List W48) : Statement (.hostReadCompletion t j ok ep items) :=
  ⟨fun h => (nomatch h), fun h => (nomatch h)⟩

theorem hostReadTimeout (t : Nat) (j : Nat) : Statement (.hostReadTimeout t j) :=
  ⟨fun h => (nomatch h), fun h => (nomatch h)⟩

theorem msixFire (t : Nat) (ini : Ini) (v : W32) : Statement (.msixFire t ini v) :=
  ⟨fun h => (nomatch h), fun h => (nomatch h)⟩

theorem msixUnmask (t : Nat) (v : Nat) : Statement (.msixUnmask t v) :=
  ⟨fun h => (nomatch h), fun h => (nomatch h)⟩

theorem ideIntegrityFailure (t : Nat) : Statement (.ideIntegrityFailure t) :=
  ⟨fun h => (nomatch h), fun h => (nomatch h)⟩

theorem inputOkChange (t : Nat) (b : Bool) (ok : Bool) (va : Nat) (vb : Nat) : Statement (.inputOkChange t b ok va vb) :=
  ⟨fun h => (nomatch h), fun h => (nomatch h)⟩

theorem inputReversed (t : Nat) (b : Bool) (mv : Nat) (va : Nat) (vb : Nat) : Statement (.inputReversed t b mv va vb) :=
  ⟨fun h => (nomatch h), fun h => (nomatch h)⟩

theorem inputOvervoltage (t : Nat) (b : Bool) (va : Nat) (vb : Nat) : Statement (.inputOvervoltage t b va vb) :=
  ⟨fun h => (nomatch h), fun h => (nomatch h)⟩

theorem inputReconnect (t : Nat) (b : Bool) (va : Nat) (vb : Nat) : Statement (.inputReconnect t b va vb) :=
  ⟨fun h => (nomatch h), fun h => (nomatch h)⟩

theorem vholdLow (t : Nat) (v : Nat) : Statement (.vholdLow t v) :=
  ⟨fun h => (nomatch h), fun h => (nomatch h)⟩

theorem holdupExhausted (t : Nat) : Statement (.holdupExhausted t) :=
  ⟨fun h => (nomatch h), fun h => (nomatch h)⟩

theorem moduleReset (t : Nat) (why : Nat) : Statement (.moduleReset t why) :=
  ⟨fun h => (nomatch h), fun h => (nomatch h)⟩

theorem sleepRequest (t : Nat) (ini : Ini) : Statement (.sleepRequest t ini) :=
  ⟨fun h => (nomatch h), fun h => (nomatch h)⟩

theorem wakeEvent (t : Nat) (b : Nat) : Statement (.wakeEvent t b) :=
  ⟨fun h => (nomatch h), fun h => (nomatch h)⟩

theorem refaLost (t : Nat) : Statement (.refaLost t) :=
  ⟨fun h => (nomatch h), fun h => (nomatch h)⟩

theorem refaReturn (t : Nat) : Statement (.refaReturn t) :=
  ⟨fun h => (nomatch h), fun h => (nomatch h)⟩

theorem refbLost (t : Nat) : Statement (.refbLost t) :=
  ⟨fun h => (nomatch h), fun h => (nomatch h)⟩

theorem refbReturn (t : Nat) : Statement (.refbReturn t) :=
  ⟨fun h => (nomatch h), fun h => (nomatch h)⟩

theorem temperatureUpdate (t : Nat) (main : Nat) (ana : Nat) : Statement (.temperatureUpdate t main ana) :=
  ⟨fun h => (nomatch h), fun h => (nomatch h)⟩

theorem thermalShutdown (t : Nat) : Statement (.thermalShutdown t) :=
  ⟨fun h => (nomatch h), fun h => (nomatch h)⟩

theorem thermalRestart (t : Nat) : Statement (.thermalRestart t) :=
  ⟨fun h => (nomatch h), fun h => (nomatch h)⟩

theorem landSwitchOpen (t : Nat) (row : Nat) (col : Nat) (low : Bool) : Statement (.landSwitchOpen t row col low) :=
  ⟨fun h => (nomatch h), fun h => (nomatch h)⟩

theorem landSwitchClose (t : Nat) (row : Nat) (col : Nat) (level : Bool) : Statement (.landSwitchClose t row col level) :=
  ⟨fun h => (nomatch h), fun h => (nomatch h)⟩

theorem landFault (t : Nat) (row : Nat) (col : Nat) (kind : Nat) : Statement (.landFault t row col kind) :=
  ⟨fun h => (nomatch h), fun h => (nomatch h)⟩

theorem openInputTest (t : Nat) (lands : List (Nat × Nat)) : Statement (.openInputTest t lands) :=
  ⟨fun h => (nomatch h), fun h => (nomatch h)⟩

theorem pinEdgeClock (t : Nat) (pin : Nat) : Statement (.pinEdgeClock t pin) :=
  ⟨fun h => (nomatch h), fun h => (nomatch h)⟩

theorem pgRelease (t : Nat) : Statement (.pgRelease t) :=
  ⟨fun h => (nomatch h), fun h => (nomatch h)⟩

end Sys2Proof.Laws.Stamped
end

