-- ==== Sys2Proof/Laws/Rail.lean ====
section
/-! SUPPORT. What an event of the order rail can change: the sources, the pending words, entries of cores and MSI-X. -/

namespace Sys2Proof.Machine

theorem PresentOnly.refl (c : Core) : PresentOnly c c := rfl

theorem PresentOnly.trans {c d e : Core} (h : PresentOnly c d) (k : PresentOnly d e) : PresentOnly c e := by
  unfold PresentOnly at *
  rw [h] at k
  exact k

theorem RailOnly.refl (s : State) : RailOnly s s := ⟨rfl, fun _ _ => rfl, fun _ => rfl⟩

theorem RailOnly.trans {s t u : State} (h : RailOnly s t) (k : RailOnly t u) : RailOnly s u := by
  refine ⟨?_, fun off hoff => (k.regs off hoff).trans (h.regs off hoff), fun w => PresentOnly.trans (h.core w) (k.core w)⟩
  have hk := k.eq
  rw [h.eq] at hk
  exact hk

theorem RailOnly.ite {s t u : State} {c : Prop} [Decidable c] (h : RailOnly s t) (k : RailOnly s u) :
    RailOnly s (if c then t else u) := by split <;> assumption

/-- State outside the rail's own stays. -/
theorem RailOnly.of_fields {s t : State}
    (h : t = { s with srcs := t.srcs, hwSet := t.hwSet, msixPend := t.msixPend, msixOut := t.msixOut }) : RailOnly s t := by
  have hr : t.regs = s.regs := by rw [h]
  have hc : t.cores = s.cores := by rw [h]
  have hb : t.baristas = s.baristas := by rw [h]
  refine ⟨?_, fun off _ => by rw [hr], fun w => ?_⟩
  · rw [hr, hc, hb]; exact h
  · cases w <;> simp only [State.core, hc, hb, PresentOnly]

/-- A register outside the pending words keeps its value. -/
theorem RailOnly.reg {s t : State} (h : RailOnly s t) (n : RegName) (i j : Nat)
    (hn : ¬ (0x10200 ≤ regOff n i j ∧ regOff n i j < 0x10280)) : t.reg n i j = s.reg n i j := by
  simp only [State.reg, h.regs _ hn]

theorem nth_setNth_present {l : List Core} {p q : Nat} {c : Core} (h : PresentOnly (nth l p Core.reset) c) :
    PresentOnly (nth l q Core.reset) (nth (setNth l p c) q Core.reset) := by
  unfold nth setNth at *
  rw [List.getD_eq_getElem?_getD, List.getD_eq_getElem?_getD, List.getElem?_set]
  split
  · next e =>
    subst e
    split
    · simpa [List.getD_eq_getElem?_getD] using h
    · next hn =>
      rw [List.getElem?_eq_none (by omega)]
      exact PresentOnly.refl _
  · exact PresentOnly.refl _

theorem setCore_railOnly {s : State} {w : CoreSel} {c : Core} (h : PresentOnly (s.core w) c) : RailOnly s (s.setCore w c) := by
  refine ⟨by cases w <;> rfl, by cases w <;> exact fun _ _ => rfl, fun v => ?_⟩
  cases w <;> cases v <;> simp only [State.core, State.setCore] at h ⊢
  · exact nth_setNth_present h
  · exact .refl _
  · exact .refl _
  · exact nth_setNth_present h

theorem startEntry_present (w : CoreSel) (c : Core) (t : Nat) (r : Request) : PresentOnly c (startEntry w c t r) := rfl

theorem setSrc_railOnly (s : State) (n : Nat) (x : SrcSt) : RailOnly s (s.setSrc n x) := .of_fields rfl

theorem presentCore_railOnly (s : State) (w : CoreSel) (t : Nat) : RailOnly s (presentCore s w t) := by
  unfold presentCore
  dsimp only
  repeat' split
  all_goals first | exact .refl s | exact setCore_railOnly rfl

theorem presentTarget_railOnly (s : State) (n t : Nat) : RailOnly s (presentTarget s n t) := by
  unfold presentTarget
  split
  · exact presentCore_railOnly _ _ _
  · split
    · exact presentCore_railOnly _ _ _
    · exact .refl s

theorem mirror_railOnly (s : State) (n : Nat) : RailOnly s (mirror s n) := by
  unfold mirror msixDue
  repeat' split
  all_goals first | exact .refl s | exact .of_fields rfl

theorem raisePend_railOnly (s : State) (t bits : Nat) {k : Nat} (hk : k < 32) : RailOnly s (s.raise t .orlPend bits k) := by
  refine ⟨rfl, fun off hoff => ?_, fun w => by cases w <;> rfl⟩
  have : off ≠ regOff .orlPend k 0 := by
    simp only [regOff, regRow] at *
    omega
  exact kget_kput_ne _ _ this

theorem release_railOnly (s : State) {n : Nat} (t : Nat) (hn : n < 1024) : RailOnly s (release s n t) :=
  (raisePend_railOnly s t _ (by omega)).trans (mirror_railOnly _ _)

theorem windowEnd_railOnly (s : State) {n : Nat} (t : Nat) (hn : n < 1024) : RailOnly s (windowEnd s n t) := by
  unfold windowEnd
  split
  · exact .ite ((setSrc_railOnly _ _ _).trans (release_railOnly _ _ hn)) (.refl s)
  · exact .refl s

theorem srcEvent_railOnly (s : State) {n : Nat} (t : Nat) (hn : n < 1024) : RailOnly s (srcEvent s n t) := by
  unfold srcEvent
  dsimp only
  exact .ite (.refl s) ((windowEnd_railOnly s t hn).trans
    (.ite ((setSrc_railOnly _ _ _).trans (release_railOnly _ _ hn)) (setSrc_railOnly _ _ _)))

theorem latchEdge_railOnly (s : State) (n : Nat) : RailOnly s (latchEdge s n) :=
  .ite (setSrc_railOnly _ _ _) (.refl s)

/-- A pulse of a shared source. -/
theorem pulse_railOnly (s : State) {n : Nat} (t : Nat) (hn : n < 1024) : RailOnly s (pulse s n t) := by
  unfold pulse
  split
  · exact latchEdge_railOnly _ _
  · have h : ∀ x, RailOnly s (s.setSrc n x) := fun x => setSrc_railOnly _ _ _
    dsimp only
    refine .ite ?_ (.ite ?_ ?_)
    · exact ((h _).trans (.ite (mirror_railOnly _ _) (.refl _))).trans (presentTarget_railOnly _ _ _)
    · exact h _
    · exact ((h _).trans (srcEvent_railOnly _ _ hn)).trans (presentTarget_railOnly _ _ _)

/-- A level of a shared source. -/
theorem setLevel_railOnly (s : State) {n : Nat} (v : Bool) (t : Nat) (hn : n < 1024) : RailOnly s (setLevel s n v t) := by
  have h : ∀ x, RailOnly s (s.setSrc n x) := fun x => setSrc_railOnly _ _ _
  unfold setLevel
  dsimp only
  split
  · split
    · exact (h _).trans (setSrc_railOnly _ _ _)
    · exact .ite (h _) (.ite ((h _).trans (latchEdge_railOnly _ _)) (h _))
  · split
    · exact (((h _).trans (.ite (mirror_railOnly _ _) (.refl _)))).trans (presentTarget_railOnly _ _ _)
    · split
      · exact h _
      · exact .ite (((h _).trans (srcEvent_railOnly _ _ hn)).trans (presentTarget_railOnly _ _ _)) (h _)

end Sys2Proof.Machine
end

