-- ==== Sys2Proof/Laws/Reach.lean ====
section
/-! SUPPORT. What a command finds when nothing falls due before its stamp. -/

namespace Sys2Proof.Machine

/-- The first of what is due is no later than any of it. -/
theorem earliest_le (l : List Due) : ∀ x, earliest l = some x → x ∈ l ∧ ∀ y ∈ l, x.1 ≤ y.1 := by
  induction l with
  | nil => intro x h; cases h
  | cons a l ih =>
    intro x h
    cases hr : earliest l with
    | none =>
      rw [earliest, hr] at h
      cases h
      cases l with
      | nil => simp
      | cons b l => simp only [earliest] at hr; split at hr <;> (try split at hr) <;> cases hr
    | some y =>
      rw [earliest, hr] at h
      have hy := ih y hr
      simp only at h
      split at h <;> cases h
      · exact ⟨List.mem_cons_of_mem _ hy.1, by
          intro z hz
          rcases List.mem_cons.mp hz with rfl | hz
          · omega
          · exact hy.2 z hz⟩
      · refine ⟨by simp, ?_⟩
        intro z hz
        rcases List.mem_cons.mp hz with rfl | hz
        · exact Nat.le_refl _
        · have := hy.2 z hz; omega

/-- With nothing due by the start of cycle t, nothing happens. -/
theorem settle_rest {n t : Nat} {s : State} (h : ∀ x ∈ dueItems s, 4 * t < x.1) : settle n t s = s := by
  cases n with
  | zero => rfl
  | succ n =>
    rw [settle]
    split
    · next x hx =>
      have := h x (earliest_le _ _ hx).1
      rw [if_neg (by omega)]
    · rfl

/-- Time alone passes where nothing is due by the start of cycle t. -/
theorem reach_rest {s : State} {t : Nat} (h : ∀ x ∈ dueItems s, 4 * t < x.1) : reach s t = { s with ntc := max s.ntc t } := by
  rw [reach]
  split
  · rfl
  · simp only [settle_rest h]
    split
    · next h1 => simp_all
    · rfl

/-- A command of a cycle that has begun, with nothing due, finds the state as it is. -/
theorem runs_rest {s : State} {t : Nat} (h : (dueItems s).all (fun x => decide (4 * t < x.1)) = true) (ha : s.power.asleep = none)
    (ht : t ≤ s.ntc) : runsAt s t s := by
  refine ⟨?_, ha⟩
  rw [reach_rest (fun x hx => by simpa using List.all_eq_true.mp h x hx), Nat.max_eq_left ht]

end Sys2Proof.Machine
end

