-- ==== Sys2Proof/Tests/Slice0.lean ====
section
/-! SUPPORT. Small tests: ill-formed commands are refused by WellFormed, words read from the spec's encodings, and for every
statement with hypotheses a state and operands that meet them. -/

namespace Sys2Proof.Tests

set_option Elab.async false

open Sys2Proof Sys2Proof.Machine

/-- The state after reset with module reset released and every register at its table's reset value. -/
def calm : State := { State.reset with regs := [], power := { Power.zero with resetOn := false } }

/-- Some registers set: name, instance and value. -/
def withRegs (s : State) (l : List (RegName × Nat × Nat)) : State :=
  l.foldl (fun s x => s.setReg x.1 (BitVec.ofNat 32 x.2.2) x.2.1) s

theorem shaped_of {s : State} (h : (s.cores.length == 68 && s.baristas.length == 2 && s.map.length == 64 &&
    s.ring.ports.length == 4 && s.ring.pairs.length == 2 && s.crema.chans.length == 32 && s.crema.runs.length == 8 &&
    s.audio.pins.length == 8 && s.boot.flash.length == 2 && Memory.wf s.mem) = true) : Shaped s := by
  simp only [Bool.and_eq_true, beq_iff_eq] at h
  exact ⟨h.1.1.1.1.1.1.1.1.1, h.1.1.1.1.1.1.1.1.2, h.1.1.1.1.1.1.1.2, h.1.1.1.1.1.1.2, h.1.1.1.1.1.2, h.1.1.1.1.2, h.1.1.1.2,
    h.1.1.2, h.1.2, h.2⟩

theorem calm_runs : runsAt calm 0 calm := runs_rest (by decide +kernel) rfl (Nat.le_refl _)

theorem calm_shaped : Shaped calm := shaped_of (by decide +kernel)

/-! ### Timers -/

/-- Channel 3 with a control word and a state of its own. -/
def chan3 (ctl : Nat) (c : Chan) (ntc : Nat) : State :=
  { withRegs calm [(.tmrCtl, 3, ctl)] with chans := [(3, c)], ntc := ntc }

/-- It counts edges of pin 31, from `count` on and to `cmp`, and one came in cycle t. -/
def counting (count cmp t : Nat) : State := chan3 0x907C0000 { Chan.zero with count := count, cmp := cmp, incAt := some t, todo := some t } t

/-- It counts cycles, was armed in cycle 0 and has not reached its compare. -/
def armed3 : State := chan3 0x80000000 { Chan.zero with cmp := 9 } 5

theorem wit_channelArmings : runsAt calm 0 calm ∧ chanArmed calm 263 = false ∧ (calm.chan 263).armAt ≠ some 0 ∧
    reservedIn .tmrPctl 135 ((0 : W32) ||| 0x80000000).toNat = false ∧ reservedIn .tmrCtl 0 ((0 : W32) ||| 0x80000000).toNat = false ∧
    kget calm.grpAt 7 ≠ some 0 := ⟨calm_runs, by decide +kernel⟩

theorem wit_channelDisarm : runsAt armed3 5 armed3 ∧ chanArmed armed3 3 = true ∧ (armed3.chan 3).armAt ≠ some 5 ∧
    (armed3.chan 3).incAt ≠ some 4 ∧ reservedIn .tmrCtl 3 ((0 : W32) &&& 0x7FFFFFFF).toNat = false ∧
    fieldOf (0 : W32) 28 27 = chanClk armed3 3 ∧ fieldOf (0 : W32) 12 0 + 1 = chanDiv armed3 3 :=
  ⟨runs_rest (by decide +kernel) rfl (by decide), by decide +kernel⟩

theorem wit_compareStageCommit : runsAt calm 0 calm ∧ (0xFFFF : W32).toNat < 2 ^ 16 ∧ chanArmed calm 263 = false :=
  ⟨calm_runs, by decide +kernel⟩

theorem wit_channelMatch : let r := counting 4 5 7
    r.power.asleep = none ∧ chanArmed r 3 = true ∧ (r.chan 3).commitAt ≠ some 7 ∧ (r.chan 3).offAt ≠ some 7 ∧
    (r.chan 3).armAt ≠ some 7 ∧ chanCounts r 3 7 = true ∧ chanCount r 3 7 = (r.chan 3).cmp ∧ (r.chan 3).cmp ≠ 0 := by
  decide +kernel

theorem wit_channelOverflow : let r := counting (2 ^ 48 - 1) 0 7
    chanArmed r 3 = true ∧ (r.chan 3).armAt ≠ some 7 ∧ chanCounts r 3 7 = true ∧ chanCount r 3 7 = 0 := by decide +kernel

theorem wit_channelAtOnce : let r := chan3 0x907C0000 { Chan.zero with armAt := some 7, todo := some 7, base := 7 } 7
    chanArmed r 3 = true ∧ (r.chan 3).armAt = some 7 ∧ chanCounts r 3 7 = false ∧ atOnceMatch (r.chan 3).cmp (chanCount r 3 7) = true := by
  decide +kernel

/-- Channel 2 counts edges of pin 31; and the switch of that pin's land open. -/
def edge2 : State := { withRegs calm [(.tmrCtl, 2, 0x907C0000)] with ntc := 1 }
def shut31 : State := { calm with power := { calm.power with openLands := [landKey 14 (7 + 31)] } }

theorem wit_pinEdgeClock : runsAt edge2 1 edge2 ∧ landOpen edge2 14 (7 + 31) = false ∧ 2 ∈ writtenChans edge2 ∧
    chanArmed edge2 2 = true ∧ chanClk edge2 2 = 2 ∧ fieldOf (chanCtl edge2 2) 22 18 = 31 ∧ (edge2.chan 2).armAt ≠ some 1 ∧
    (edge2.chan 2).base ≠ 1 ∧ landOpen shut31 14 (7 + 31) = true :=
  ⟨runs_rest (by decide +kernel) rfl (by decide), by decide +kernel⟩

/-- Capture unit 31 watching both edges of pin 31. -/
def watch31 : State := withRegs calm [(.tmrCapCfg, 31, 0x7F)]

theorem wit_captures : runsAt watch31 0 watch31 ∧ landOpen watch31 14 (7 + 31) = false ∧ captTakes watch31 31 31 true = true ∧
    (watch31.capt 31).readAt ≠ some 0 ∧ Ini.barista ≠ Ini.jtag ∧ (watch31.capt 31).lastEv = none :=
  ⟨runs_rest (by decide +kernel) rfl (by decide), by decide +kernel⟩

/-! ### The order rail -/

/-- Source 100 senses rising edges; with a profile that coalesces two events; with a window that ends in cycle 7. -/
def edge100 : State := withRegs calm [(.orlCfg, 100, 2)]
def coal100 : State := withRegs calm [(.orlCfg, 100, 2 + 0x4000), (.orlCoal, 1, 0x02000005)]
def window100 : State := { coal100 with srcs := [(100, { SrcSt.idle with count := 1, winEnd := some 7 })], ntc := 7 }

theorem wit_sourceEvents : runsAt edge100 0 edge100 ∧ srcHasInput 100 = true ∧ srcHasInput 768 = false ∧ srcIsLevel edge100 100 = false ∧
    (edge100.src 100).level ≠ true ∧ srcSense edge100 100 = 2 ∧ (edge100.src 100).latchAt ≠ some 0 ∧
    (edge100.src 100).winEnd = none ∧ (coalesceOf edge100 100 0).1 = 1 ∧ edge100.fldOld 0 .orlCfg 17 14 100 = 0 :=
  ⟨runs_rest (by decide +kernel) rfl (by decide), by decide +kernel⟩

theorem wit_sourceEvents_held : runsAt coal100 0 coal100 ∧ srcIsLevel coal100 100 = false ∧ srcSense coal100 100 = 2 ∧
    coalesceOf coal100 100 0 = (2, 5) ∧ runsAt window100 7 window100 ∧ (window100.src 100).winEnd = some 7 :=
  ⟨runs_rest (by decide +kernel) rfl (by decide), by decide +kernel, by decide +kernel, by decide +kernel,
    runs_rest (by decide +kernel) rfl (by decide), by decide +kernel⟩

theorem wit_pendingWrite : runsAt calm 0 calm ∧ reservedIn .orlPpend 67 (1 : W32).toNat = false ∧
    reservedIn .orlPinsvc 67 (1 : W32).toNat = false := ⟨calm_runs, by decide +kernel⟩

/-- Source 9 pending for the pair, with a priority of 3. -/
def ticket9 : State := { withRegs calm [(.orlPend, 0, 2 ^ 9), (.orlCfg, 9, 2 + 8 * 3 + 128 * 0x40), (.orlMask, 0, 0)] with srcs := [(9, SrcSt.idle)] }

theorem wit_baristaClaim : runsAt ticket9 0 ticket9 ∧ pairTicket (settleFalls ticket9 0) = some (9, 3) ∧ pairTicket (settleFalls calm 0) = none ∧
    bestTicket 31 [(9, 3), (4, 3), (2, 1)] = some (4, 3) ∧ bestTicket 16 [(9, 3)] = none :=
  ⟨runs_rest (by decide +kernel) rfl (by decide), by decide +kernel⟩

/-! ### Control cores -/

/-- A state whose ticks may come, whose first tick is due at a multiple of 64,000 from cycle 1 on; and one in a stretch of 3 cycles. -/
def ticking : State := { calm with tickMin := some 1 }
def stretching : State := { ticking with lastTick := some 64000, ntc := 64001, stretch := some (3, 7) }

theorem wit_tick : tickCycle calm = none ∧ tickCycle ticking = some 64000 ∧ ticking.stretch = none ∧
    tickCycle stretching = some 128003 := by decide +kernel

/-- Core p at pc 0 of its program memory, running, with these bytes at the front of it. -/
def runningAt (p : Nat) (bytes : List Byte) : State :=
  { calm.setCore (.eduno p) { Core.reset with phase := .running, eopDone := true } with
    mem := memWrite [] (coreBase + 0x100000 * p + 0x80000) bytes }

/-- The bytes of the spec's worked example (04_eduno_encoding.md, R97, R98): g4 to mac0.o, g5 to mac0.t, and #0x1000 to a2 unless
p3; and the same with g5 going to g6 for the second move. -/
def exampleBytes : List Byte := [0x04, 0x07, 0x00, 0x21, 0x00, 0x02, 0x29, 0x00, 0x32, 0xF8, 0xBF, 0x00, 0x10, 0x00]
def plainBytes : List Byte := [0x04, 0x07, 0x00, 0x21, 0x00, 0x06, 0x28, 0x00, 0x32, 0xF8, 0xBF, 0x00, 0x10, 0x00]

theorem test_bundle_bytes : decodeBundle false exampleBytes = .ok ⟨0x0704, 14,
    [⟨0, false, 0, 0x004, 0x100, none⟩, ⟨1, false, 0, 0x005, 0x102, none⟩, ⟨2, true, 3, 0x1FF, 0x032, some 0x1000⟩]⟩ := by
  decide

theorem test_bundle_bytes_two : decodeBundle false [0x02, 0x03, 0x06, 0x10, 0x04, 0xC8, 0xF9, 0x0F, 0x00, 0x00, 0x00] =
    .ok ⟨0x0302, 11, [⟨0, false, 0, 0x082, 0x006, none⟩, ⟨1, false, 0, 0x1FF, 0x1C8, some 0⟩]⟩ := by
  decide

/-- A header with long bits of absent slots is malformed, kind 2 (R118, the note on CORE_DFAULT 0x0106_0201). -/
theorem test_bundle_malformed : decodeBundle false [0x06, 0x01, 0, 0, 0, 0, 0, 0] = .error ⟨0x0106, 2, 0⟩ := by decide

theorem wit_bundleRoundTrip : bundleWf false [⟨0, false, 0, 0x004, 0x100, none⟩, ⟨7, true, 3, 0x1FF, 0x032, some 0xFFFFFF⟩] = true := by
  decide

theorem act_of {j : Judged} (h : (match j with | .act ms => ms.all fun m => plainDst m.dst | _ => false) = true) :
    ∃ ms, j = .act ms ∧ ∀ m ∈ ms, plainDst m.dst = true := by
  cases j <;> simp_all

theorem fault_of {j : Judged} (h : (match j with | .fault _ d => d.isSome | _ => false) = true) : ∃ x d, j = .fault x (some d) := by
  cases j <;> simp_all [Option.isSome_iff_exists]

theorem wit_plainBundle : let r := runningAt 67 plainBytes
    let w := CoreSel.eduno 67
    let c := settleSel selAll (r.core w).bcount (r.core w)
    let f := fetchBundle r w c 0
    runsAt r 0 r ∧ Shaped r ∧ r.memErr = [] ∧ canIssue c 0 = true ∧ atEase c ∧
    canIssue (settleSel selAll (calm.core w).bcount (calm.core w)) 0 = false ∧
    ∃ ms, judgeBundle r w c f.2.1 f.2.2 = .act ms ∧ ∀ m ∈ ms, plainDst m.dst = true :=
  ⟨runs_rest (by decide +kernel) rfl (by decide), shaped_of (by decide +kernel), rfl, by decide +kernel,
    ⟨rfl, by decide +kernel, rfl, rfl, rfl, rfl, rfl, rfl, rfl, rfl⟩, by decide +kernel, act_of (by decide +kernel)⟩

theorem wit_faultingBundle : let r := runningAt 67 []
    let w := CoreSel.eduno 67
    let c := settleSel selAll (r.core w).bcount (r.core w)
    let f := fetchBundle r w c 0
    runsAt r 0 r ∧ Shaped r ∧ r.memErr = [] ∧ canIssue c 0 = true ∧ c.entering = none ∧
    ∃ x d, judgeBundle r w c f.2.1 f.2.2 = .fault x (some d) :=
  ⟨runs_rest (by decide +kernel) rfl (by decide), shaped_of (by decide +kernel), rfl, by decide +kernel, by decide +kernel,
    fault_of (by decide +kernel)⟩

/-- A core with one operation in flight, due now. -/
def flying (d : Deliver) : State := calm.setCore (.eduno 67) { Core.reset with phase := .running, fly := [⟨0, false, d⟩] }

theorem wit_deliveries : runsAt (flying (.alu 1 7 0)) 0 (flying (.alu 1 7 0)) ∧ Shaped (flying (.alu 1 7 0)) ∧
    selValid (.eduno 67) = true ∧ ((flying (.alu 1 7 0)).core (.eduno 67)).fly = [⟨0, false, .alu 1 7 0⟩] ∧
    ((flying (.land 3 0 0 0 0)).core (.eduno 67)).fly = [⟨0, false, .land 3 0 0 0 0⟩] ∧
    ((flying (.scalar 1 7)).core (.eduno 67)).fly = [⟨0, false, .scalar 1 7⟩] ∧
    (unitsFor ((flying (.alu 1 7 0)).core (.eduno 67)) false).aluR.length = 2 ∧
    (unitsFor ((flying (.alu 1 7 0)).core (.eduno 67)) false).lsuS.length = 2 ∧
    ((flying (.alu 1 7 0)).core (.eduno 67)).acc.length = 16 :=
  ⟨runs_rest (by decide +kernel) rfl (by decide), shaped_of (by decide +kernel), rfl, rfl, rfl, rfl, rfl, rfl, rfl⟩

/-- A fill of one element by core 67, started in cycle 0. -/
def filling : State :=
  { calm.setCore (.eduno 67) { Core.reset with
      phase := .running, bc := 1, a := List.replicate 8 3
      bmove := some { start := 0, slot := 0, ctl := 1, user := false, bytes := [], ran := 0, total := 1, loads := 0, la := 0
                      iters := [], sd := 0 } } with ntc := 1 }

theorem wit_bmoveEnd : let r := filling
    let c := r.core (.eduno 67)
    runsAt r 1 r ∧ Shaped r ∧ r.memErr = [] ∧ c.bc = 1 ∧ c.entering = none ∧ ∃ b, c.bmove = some b ∧ bitsOf b.ctl 0 2 = 1 ∧
    b.start + b.ran + 1 = 1 ∧
    judge r (.eduno 67) b.user b.slot (4 + bmKind b.ctl) (accessPieces (bitsOf b.ctl 8 3) (4 + bmKind b.ctl)
      (nth c.cb (bitsOf b.ctl 8 3) 0) (nth c.cl (bitsOf b.ctl 8 3) 0)
      (bmStep c (bitsOf b.ctl 8 3) (nth c.a (bitsOf b.ctl 8 3) 0)).1) = none :=
  ⟨runs_rest (by decide +kernel) rfl (by decide), shaped_of (by decide +kernel), rfl, rfl, rfl, _, rfl, by decide +kernel⟩

/-- A load of core 67 whose data the store buffer forwarded; a store that waits for its grant; and a load that waits for one. -/
def carLoad67 (fwd : Bool) : CarLoad :=
  { off := 0, real := 0, blend := none, kind := 0, at' := 0, slot := 0, sup := false, granted := [], grantAt := 0, entered := 0
    fwd := fwd, waits := none, data := [1, 2, 3], bad := false }
def store67 : StEntry := { id := 0, off := 0x1FFFFFD, kind := 0, data := [1, 2, 3], entered := 0, granted := [], bad := false }
def loading67 (fwd : Bool) : State :=
  { calm.setCore (.eduno 67) { Core.reset with carU := some (carLoad67 fwd) } with ntc := 100 }
def storing67 : State := { calm.setCore (.eduno 67) { Core.reset with stbuf := [store67] } with ntc := 100 }

theorem wit_carafeLoadReady : runsAt (loading67 true) 100 (loading67 true) ∧ Shaped (loading67 true) ∧
    loadOf ((loading67 true).core (.eduno 67)) false = some (carLoad67 true) ∧
    loadOf ((loading67 true).core (.eduno 67)) true = none ∧ (carLoad67 true).fwd = true ∧
    (carLoad67 true).waits = none ∧ (carLoad67 true).entered + 2 ≤ 100 ∧
    1 < (carLoad67 false).entered + loadLatency (.eduno 67) (carLoad67 false) :=
  ⟨runs_rest (by decide +kernel) rfl (by decide), shaped_of (by decide +kernel), by decide +kernel⟩

theorem wit_carafeGrant_load : runsAt (loading67 false) 100 (loading67 false) ∧ kget (loading67 false).carLast 0 = none ∧
    (arbitrate (loading67 false) 0 100).map (fun q => (q.who, q.load, q.piece)) = some (.eduno 67, some false, 0) ∧
    (carPieces 0 (carBytes 0))[0]? = some (0, 3) :=
  ⟨runs_rest (by decide +kernel) rfl (by decide), by decide +kernel⟩

theorem wit_carafeGrant_store : runsAt storing67 100 storing67 ∧ kget storing67.carLast 15 = none ∧
    (arbitrate storing67 15 100).map (fun q => (q.who, q.load, q.piece)) = some (.eduno 67, none, 0) ∧
    (carPieces store67.off (carBytes 0))[0]? = some (0x1FFFFFD, 3) :=
  ⟨runs_rest (by decide +kernel) rfl (by decide), by decide +kernel⟩

theorem wit_storeBufferPerformed : Shaped storing67 ∧ (storing67.core (.eduno 67)).stbuf = [store67] ∧
    store67.data.length = carBytes store67.kind ∧ store67.entered + storeLatency (.eduno 67) store67 ≤ 100 ∧
    1 < store67.entered + storeLatency (.eduno 67) store67 :=
  ⟨shaped_of (by decide +kernel), by decide +kernel⟩

/-! ### Queues -/

/-- A descriptor of handle 0xFFFF: these eight words, and what the Runner keeps of the queue. -/
def withQueue (s : State) (ws : List Nat) (q : QueueSt) : State :=
  { s with mem := memWrite s.mem (qdAddr 0xFFFF) (ws.flatMap (toBytesLE 4)), queues := [(0xFFFF, q)] }

/-- An enabled message queue of four places from core 5 to core 63, its store at the front of the DRAM. -/
def messages (count : Nat) : List Nat := [0x0005003F, 0x80000000, 0x10000000, 0x00040004, 0, 4, 0, count * 2 ^ 16]
def sending : State :=
  withQueue (calm.setCore (.eduno 5) { Core.reset with sends := [⟨0xFFFF, 0x1234, 0⟩] }) (messages 3) QueueSt.empty
def receiving (count expiry ntc : Nat) : State :=
  { withQueue (calm.setCore (.eduno 63) { Core.reset with rcvU := some ⟨0xFFFF, 0, expiry, false, false⟩ }) (messages count) QueueSt.empty with
    ntc := ntc }

theorem wit_sendItemStored : runsAt sending 0 sending ∧ Shaped sending ∧ sending.memErr = [] ∧
    (sending.core (.eduno 5)).sends = [⟨0xFFFF, 0x1234, 0⟩] ∧ qCount sending 0xFFFF < 65535 ∧
    qStore sending 0xFFFF + slotBytes sending 0xFFFF * max 1 (qCapacity sending 0xFFFF) ≤ qdBase :=
  ⟨runs_rest (by decide +kernel) rfl (by decide), shaped_of (by decide +kernel), by decide +kernel⟩

theorem wit_receiveItemDelivered : let r := receiving 1 0 0
    runsAt r 0 r ∧ Shaped r ∧ rcvOf (r.core (.eduno 63)) false = some ⟨0xFFFF, 0, 0, false, false⟩ ∧ r.memErr = [] ∧
    rcvHasItem r 63 ⟨0xFFFF, 0, 0, false, false⟩ = true ∧ qKind r 0xFFFF = 0 :=
  ⟨runs_rest (by decide +kernel) rfl (by decide), shaped_of (by decide +kernel), by decide +kernel⟩

theorem wit_receiveTimeout : let r := receiving 0 7 7
    runsAt r 7 r ∧ runsAt (receiving 0 7 6) 6 (receiving 0 7 6) ∧ rcvOf (r.core (.eduno 63)) false = some ⟨0xFFFF, 0, 7, false, false⟩ ∧
    rcvHasItem r 63 ⟨0xFFFF, 0, 7, false, false⟩ = false ∧ rcvHasItem (receiving 1 7 7) 63 ⟨0xFFFF, 0, 7, false, false⟩ = true :=
  ⟨runs_rest (by decide +kernel) rfl (by decide), runs_rest (by decide +kernel) rfl (by decide), by decide +kernel⟩

/-- Core 67 in the third stage of an entry for an exception, which nothing chains. -/
def entering67 : Entering :=
  { cycle0 := 0, lastIssue := 0, req := ⟨16, ⟨1, 1, 0, 0, none⟩, 0⟩, chained := false, second := false, stage := 3, claimed := none
    handler := 0x40, frame := 0, saved := 31, umode := none, car := none, rcv := none, bytes := [], next := none }
def entryState : State :=
  { calm.setCore (.eduno 67) { Core.reset with phase := .running, level := 16, entering := some entering67 } with ntc := 79 }

theorem wit_entry : let c := entryState.core (.eduno 67)
    runsAt entryState 79 entryState ∧ Shaped entryState ∧ entryState.memErr = [] ∧ c.entering = some entering67 ∧
    entering67.stage = 3 ∧ entering67.chained = false ∧ entering67.req.cause.code ≠ 0x0D ∧
    frameOk entryState (.eduno 67) c.tsbr true = true :=
  ⟨runs_rest (by decide +kernel) rfl (by decide), shaped_of (by decide +kernel), by decide +kernel⟩

/-- A core with every field that a block holds at its highest value. -/
def fullCore : Core :=
  { Core.reset with phase := .running, pc := 2 ^ 20 - 1, level := 31, p := 0xFF
                    loops := [⟨true, 2 ^ 20 - 1, 2 ^ 20 - 1, 2 ^ 16 - 1⟩, Loop.off] }
def fullHdr : Hdr :=
  { typ := 15, ver := 15, wrap := true, west := true, hops := 127, res0 := 15, len := 2047, src := 2 ^ 18 - 1, epoch := 3, aux := 4095
    dst := 2 ^ 18 - 1, scope := 3, res2 := 4095, stamp := 2 ^ 32 - 1, ctr := 2 ^ 64 - 1 }

theorem wit_layouts : fullCore.g.length = 32 ∧ fullCore.a.length = 8 ∧ fullCore.m.length = 8 ∧ fullCore.cb.length = 4 ∧
    fullCore.cl.length = 4 ∧ fullCore.p.toNat % 2 = 1 ∧ fullCore.phase = .running ∧ fullCore.pc < 2 ^ 20 ∧ fullCore.loops.length = 2 ∧
    (∀ l ∈ fullCore.loops, l.start < 2 ^ 20 ∧ l.stop < 2 ^ 20 ∧ l.count < 2 ^ 16) ∧
    fullHdr.typ < 16 ∧ fullHdr.ver < 16 ∧ fullHdr.hops < 128 ∧ fullHdr.res0 < 16 ∧ fullHdr.len < 2048 ∧ fullHdr.src < 2 ^ 18 ∧
    fullHdr.epoch < 4 ∧ fullHdr.aux < 4096 ∧ fullHdr.dst < 2 ^ 18 ∧ fullHdr.scope < 4 ∧ fullHdr.res2 < 4096 ∧
    fullHdr.stamp < 2 ^ 32 ∧ fullHdr.ctr < 2 ^ 64 := by
  decide

/-- Queue 0xFFFF not enabled, at boot; and with a limit of 1 µs and an old item behind one that was reported. -/
def unset : State := withQueue (withRegs calm [(.barStat, 0, 0x82)]) [0x0005003F, 0, 0x10000000, 0x00040004, 0, 4, 0, 0] QueueSt.empty
def aging (ntc : Nat) : State :=
  { withQueue calm [0x0005003F, 0x80000000, 0x10000000, 0x00040004, 1, 4, 0, 0x20000]
      { QueueSt.empty with born := [(0, true), (1, false)] } with ntc := ntc }

theorem wit_descriptors : runsAt unset 0 unset ∧ Shaped unset ∧
    descWriteOk unset .barista (decide (debugLevel unset = 2)) 0xFFFF 4 = true ∧ bitOf (0x80000000 : W32).toNat 31 = true ∧
    descWriteOk unset .barista (decide (debugLevel unset = 2)) 0xFFFF 28 = true ∧
    descWriteOk unset .host (decide (debugLevel unset = 2)) 0xFFFF 28 = false ∧ unset.bit .runErr 0 = false :=
  ⟨runs_rest (by decide +kernel) rfl (by decide), shaped_of (by decide +kernel), by decide +kernel⟩

theorem wit_itemAge : runsAt (aging 1536) 1536 (aging 1536) ∧ runsAt (aging 1537) 1537 (aging 1537) ∧ Shaped (aging 1537) ∧
    ((aging 1537).queue 0xFFFF).born = [(0, true)] ++ (1, false) :: [] ∧ qEn (aging 1537) 0xFFFF = true ∧
    qTimeout (aging 1537) 0xFFFF = 1 ∧ qTimeout (aging 1536) 0xFFFF = 1 :=
  ⟨runs_rest (by decide +kernel) rfl (by decide), runs_rest (by decide +kernel) rfl (by decide), shaped_of (by decide +kernel), by decide +kernel⟩

/-- A queue from register set 1 to register set 0, and the operation of a set on it. -/
def sets (credit count : Nat) (i : Nat) (o : Option IOp) : State :=
  { withQueue (withRegs calm (if o.isSome then [(.runIst, i, 0x80)] else [])) [0x20001000, 0x80000000, 0x10000000, 0x00040004, 0, credit, 0, count * 2 ^ 16]
      QueueSt.empty with iops := match o with | some o => [(i, o)] | none => [] }

theorem wit_initiatorStart : runsAt (sets 4 0 1 none) 0 (sets 4 0 1 none) ∧ Shaped (sets 4 0 1 none) ∧
    (sets 4 0 1 none).bit .runIst 7 1 = false ∧ initSendResult (sets 4 0 1 none) 1 0xFFFF = 0 ∧
    initSendResult (sets 0 0 1 none) 1 0xFFFF = 4 ∧ (sets 0 0 1 none).bit .runIst 7 1 = false ∧
    (sets 4 0 1 (some ⟨0xFFFF, false, 0, 0⟩)).bit .runIst 7 1 = true :=
  ⟨runs_rest (by decide +kernel) rfl (by decide), shaped_of (by decide +kernel), by decide +kernel⟩

theorem wit_initiatorOpEnd : let a := sets 4 0 1 (some ⟨0xFFFF, false, 0, 7⟩)
    let b := sets 4 0 1 (some ⟨0xFFFF, false, 0x1234, 0⟩)
    runsAt a 0 a ∧ Shaped a ∧ runsAt b 0 b ∧ a.memErr = [] ∧ kget a.iops 1 = some ⟨0xFFFF, false, 0, 7⟩ ∧
    kget b.iops 1 = some ⟨0xFFFF, false, 0x1234, 0⟩ ∧
    qStore b 0xFFFF + 8 * max 1 (qCapacity b 0xFFFF) ≤ qdBase ∧ qKind b 0xFFFF = 0 ∧ qCount b 0xFFFF < 65535 :=
  ⟨runs_rest (by decide +kernel) rfl (by decide), shaped_of (by decide +kernel), runs_rest (by decide +kernel) rfl (by decide),
    by decide +kernel⟩

theorem wit_initiatorOpEnd_receive : let a := sets 4 1 0 (some ⟨0xFFFF, true, 0, 0⟩)
    let b := sets 4 0 0 (some ⟨0xFFFF, true, 0, 0⟩)
    let c := sets 4 0 1 (some ⟨0xFFFF, true, 0, 0⟩)
    runsAt a 0 a ∧ Shaped a ∧ runsAt b 0 b ∧ kget a.iops 0 = some ⟨0xFFFF, true, 0, 0⟩ ∧ qEn a 0xFFFF = true ∧
    qConsumer a 0xFFFF = initEndpoint 0 ∧ qKind a 0xFFFF = 0 ∧ qCount a 0xFFFF ≠ 0 ∧ qEn b 0xFFFF = true ∧
    qConsumer b 0xFFFF = initEndpoint 0 ∧ qCount b 0xFFFF = 0 ∧ kget c.iops 1 = some ⟨0xFFFF, true, 0, 0⟩ ∧
    qConsumer c 0xFFFF ≠ initEndpoint 1 :=
  ⟨runs_rest (by decide +kernel) rfl (by decide), shaped_of (by decide +kernel), runs_rest (by decide +kernel) rfl (by decide),
    by decide +kernel⟩

/-- A scheduled queue of one channel from core 5 to core 63; its store, and the block committed in the pour that has ended. -/
def blocks (slot : Option Nat) : State :=
  { withQueue calm [0x0005003F, 0xC0000004, 0x10000000, 0x00020001, 0, 1, 0, 0]
      { QueueSt.empty with lastSlot := slot, committed := [(0, 0)] } with
    coreOld := (1, []), lastTick := some 0 }

theorem wit_inputPlacement : let r := blocks none
    let m := (nextTick r 0).1
    runsAt r 0 r ∧ Shaped r ∧ r.memErr = [] ∧ r.coreOld.1 ≠ 0 ∧ qEn r 0xFFFF = true ∧ qKind r 0xFFFF = 2 ∧
    (r.queue 0xFFFF).placed ≠ some m ∧ epClass (qProducer r 0xFFFF) = 0 ∧ epClass (qConsumer r 0xFFFF) = 0 ∧
    stageOf r 0xFFFF = none ∧ qChans r 0xFFFF * qPer r 0xFFFF = qBsize r 0xFFFF ∧ landCore r (epIndex (qConsumer r 0xFFFF)) = some 63 ∧
    writeHeld r .runner 63 = false ∧ inputReady r 0xFFFF 0 = true ∧
    qLanding r 0xFFFF + 3 * qBsize r 0xFFFF * (m % 2) + 3 * qBsize r 0xFFFF ≤ 524286 ∧
    ((blocks (some 1)).queue 0xFFFF).lastSlot = some 1 :=
  ⟨runs_rest (by decide +kernel) rfl (by decide), shaped_of (by decide +kernel), by decide +kernel⟩

theorem wit_scheduledForward : let r := blocks none
    r.lastTick.isSome = true ∧ 0 < r.pourAt 0 * r.pourLen + 4096 ∧ (r.queue 0xFFFF).fwd ≠ some r.audio.ended ∧
    (r.queue 0xFFFF).committed.find? (fun x => decide (x.1 = r.audio.ended)) = some (r.audio.ended, 0) ∧
    r.physOf (epIndex (qProducer r 0xFFFF)) = some 5 ∧
    qStore r 0xFFFF + slotBytes r 0xFFFF * (r.audio.ended % 2) + slotBytes r 0xFFFF ≤ qdBase ∧
    unfedTargets r = [] ∧ r.audio.unfed ≠ some r.audio.ended := by
  decide +kernel

/-! ### The ring and the edge -/

/-- Ring port 0 in a state, on a pair that is on: `pst` are the bits of ZWR_PSTAT0. -/
def ringing (pst ntc : Nat) (x : RPort) : State :=
  let s := withRegs calm [(.zwrCfg, 0, 1), (.zwrPstat, 0, pst), (.zwrSeg, 0, 0x14F00), (.zwrTrain, 0, 0x10000), (.zwrGown, 0, 0x82)]
  { s with ring := { s.ring with ports := setNth s.ring.ports 0 x }, ntc := ntc }

theorem wit_portStates : runsAt (ringing 0x10 384 RPort.zero) 384 (ringing 0x10 384 RPort.zero) ∧ Shaped (ringing 0x10 384 RPort.zero) ∧
    portState (ringing 0x10 384 RPort.zero) 0 = 2 ∧ portWrapped (ringing 0x10 384 RPort.zero) 0 = false ∧
    ¬ 384 < (RPort.zero).lastBeat + 384 ∧ 383 < (RPort.zero).lastBeat + 384 ∧ ¬ 384 < (RPort.zero).since + 96 ∧
    portState calm 3 = 0 := ⟨runs_rest (by decide +kernel) rfl (by decide), shaped_of (by decide +kernel), by decide +kernel⟩

theorem wit_portReturned : portState (ringing 0x18 0 { RPort.zero with linkOk := some 1536000 }) 0 = 3 ∧
    ((ringing 0x18 0 { RPort.zero with linkOk := some 1536000 }).rport 0).since + 1536000 ≤ 1536000 := by decide +kernel

theorem wit_ringFrame : let r := ringing 0x08 0 RPort.zero
    runsAt r 0 r ∧ Shaped r ∧ r.memErr = [] ∧ pairOn r 0 = true ∧ portState r 0 = 1 ∧ pairOn calm 0 = false ∧
    checkFrame r 0 0 false [] = .error (1, 1) :=
  ⟨runs_rest (by decide +kernel) rfl (by decide), shaped_of (by decide +kernel), rfl, by decide +kernel, by decide +kernel,
    by decide +kernel, by simp [checkFrame]⟩

/-- Port 0 live, its pair following it, with a key of an epoch that the keep serves. -/
def linked : State :=
  let s := ringing 0x08 0 RPort.zero
  { s with ring := { s.ring with
      pairs := setNth s.ring.pairs 0 { s.rpair 0 with upstream := some 0 }
      keys := setNth s.ring.keys 0 { gens := [(1, 0, [7])], prev := none, cur := some ⟨0, 1, 0⟩, next := none } } }

theorem wit_linkFrames : runsAt linked 0 linked ∧ Shaped linked ∧ portLive linked 0 = true ∧ (linked.rport 0).beaconSent = none ∧
    (linked.rpair 0).upstream = some 0 ∧ (linked.rport 0).reqSent = none ∧ (linked.rkeys 0).cur = some ⟨0, 1, 0⟩ ∧
    (linkKey linked 0 1).isSome = true ∧ linked.bit .pwrStat 20 = false ∧ portLive calm 0 = false :=
  ⟨runs_rest (by decide +kernel) rfl (by decide), shaped_of (by decide +kernel), by decide +kernel⟩

/-- Station 5 in an island, with a beacon of a higher station that is as old as it may get. -/
def islanded : State :=
  let s := ringing 0x08 384000 { RPort.zero with beacon := some ⟨0, 6, 1, true⟩ }
  { s with ring := { s.ring with pairs := setNth s.ring.pairs 0 { s.rpair 0 with island := true } } }

theorem wit_ringTiming : runsAt islanded 384000 islanded ∧ Shaped islanded ∧ (islanded.rport 0).beacon = some ⟨0, 6, 1, true⟩ ∧
    (0 : Nat) + 384000 ≤ 384000 ∧ staOf islanded 0 = 5 ∧ (islanded.rpair 0).island = true ∧ islanded.bit .zwrTstat 25 0 = false ∧
    liveBeacon islanded 0 384000 = none ∧ liveBeacon islanded 1 384000 = none ∧ pairOn islanded 0 = true ∧
    leastOrigin islanded 0 false ≤ 384000 ∧ nth (islanded.rpair 0).trains 0 none = none ∧ groupOwner islanded 0 0 = some 2 ∧
    groupsOf islanded 0 = 1 ∧ 6 * islanded.pourLen ≤ 384000 + 4096 ∧ (islanded.rpair 0).rx.contains (0, 6) = false :=
  ⟨runs_rest (by decide +kernel) rfl (by decide), shaped_of (by decide +kernel), by decide +kernel⟩

/-- A transit frame of control that waits to leave east; and a transmit entry of the Barista: an Ethernet frame, or one for the ring. -/
def transitFrame : Held :=
  { cls := 0, west := false, cross := false, payload := [1, 2, 3, 4], tag := [], ctx := false
    hdr := { fullHdr with typ := 2, len := 4, west := false } }
def waiting : State :=
  let s := ringing 0x08 0 RPort.zero
  { s with ring := { s.ring with pairs := setNth s.ring.pairs 0 { s.rpair 0 with joined := true, held := [transitFrame] } } }
def entryAt (d : Nat) (frame : List Byte) : State :=
  { withRegs calm [(.zwrCfg, 0, 0x11)] with mem := memWrite [] (sramBase + 0x18000) (toBytesLE 4 d ++ frame) }
def controlBytes : List Byte := hdrBytes { fullHdr with typ := 2, scope := 1, len := 4 } ++ [0, 0, 0, 0]

theorem wit_ringSends : runsAt waiting 0 waiting ∧ Shaped waiting ∧ waiting.memErr = [] ∧ portUp waiting 0 = true ∧
    (waiting.rpair 0).joined = true ∧ (waiting.rport 0).free ≤ 0 ∧ (nextHeld waiting 0).map Held.cls = some 0 ∧
    fitsWindow waiting 0 1000 (wireLen 4) = true ∧ fitsWindow waiting 0 (4096 + 535) (wireLen 4) = true ∧ fitsWindow waiting 0 (4096 + 534) (wireLen 4) = false ∧ waiting.bit .pwrStat 20 = false ∧
    nextHeld calm 0 = none :=
  ⟨runs_rest (by decide +kernel) rfl (by decide), shaped_of (by decide +kernel), by decide +kernel⟩

theorem wit_mailbox : let r := withRegs (withQueue calm [0x00055FFF, 0x80000000, 0x10000000, 0x00040004, 0, 4, 0, 0x20000] QueueSt.empty) [(.zwrMbox, 4095, 0x80000000)]
    runsAt r 0 r ∧ Shaped r ∧ (queueHandles r).find? (fun h => decide (qConsumer r h = 0x5000 + 4095)) = some 0xFFFF ∧
    r.bit .zwrMbox 31 4095 = true ∧ kget r.ring.mailed 4095 = none ∧ qCount r 0xFFFF ≠ 0 :=
  ⟨runs_rest (by decide +kernel) rfl (by decide), shaped_of (by decide +kernel), by decide +kernel⟩

theorem wit_controlTransmit : let e := entryAt (2 ^ 31 + 4) [1, 2, 3, 4]
    let c := entryAt 28 controlBytes
    runsAt e 0 e ∧ Shaped e ∧ runsAt c 0 c ∧ e.ring.ctxBusy = false ∧ bitOf (memNat e.mem (crxBase e + 0x18000) 4) 31 = true ∧
    edgeOn e 2 = true ∧ bitOf (memNat c.mem (crxBase c + 0x18000) 4) 31 = false ∧ pairOn c 0 = true ∧ pairOn c 1 = false ∧
    (parseHdr (memRead c.mem (crxBase c + 0x18000 + 4) 28)).scope = 1 ∧ (parseHdr (memRead c.mem (crxBase c + 0x18000 + 4) 28)).typ = 2 :=
  ⟨runs_rest (by decide +kernel) rfl (by decide), shaped_of (by decide +kernel), runs_rest (by decide +kernel) rfl (by decide),
    by decide +kernel⟩

/-- Edge ports on; stream 1023 sends on port 3, or receives. -/
def edges (w0 : Nat) (seen : List (Nat × Nat × Bool)) (ntc : Nat) : State :=
  let s := withRegs calm [(.zwrCfg, 0, 0x31)]
  { s with mem := memWrite [] (streamBase + 32 * 1023) (toBytesLE 4 w0), ring := { s.ring with streams := seen }, ntc := ntc }

/-- An Ethernet frame with IPv4 and UDP to port 319 and three bytes of data. -/
def ptpBytes : List Byte :=
  List.replicate 12 0 ++ [0x08, 0x00] ++ ([0x45, 0, 0, 31, 0, 0, 0, 0, 1, 17, 0, 0] : List Byte) ++ List.replicate 8 0 ++
    [0, 0, 0x01, 0x3F, 0, 11, 0, 0] ++ [1, 2, 3]

theorem wit_edgeFrame : let r := edges 0 [] 0
    runsAt r 0 r ∧ Shaped r ∧ r.memErr = [] ∧ edgeOn r 2 = true ∧ edgeOn calm 2 = false ∧ parseUdp [1, 2, 3] = none ∧
    (r.fld .zwrCrx 11 6 + 1) % 64 ≠ r.fld .zwrCrx 5 0 ∧ (parseUdp ptpBytes).map (fun x => (x.isPtp, x.data)) = some (true, [1, 2, 3]) ∧
    (List.range 1024).find? (fun i => strEn r i) = none ∧ r.ring.ptp[0]? = some ⟨.initializing, []⟩ :=
  ⟨runs_rest (by decide +kernel) rfl (by decide), shaped_of (by decide +kernel), by decide +kernel⟩

theorem wit_edgeStreams : let a := edges 0xE0000000 [] 0
    let b := edges 0xA0000000 [(1023, 0, false)] 3072000
    runsAt a 0 a ∧ Shaped a ∧ runsAt b 3072000 b ∧ strEn a 1023 = true ∧ strSend a 1023 = true ∧ edgeOn a (strPort a 1023) = true ∧
    a.bit .pwrStat 20 = false ∧ kget b.ring.streams 1023 = some (0, false) ∧ strEn b 1023 = true ∧ strSend b 1023 = false ∧
    16 * strCycles b 1023 = 3072000 ∧ strEn a 0 = false :=
  ⟨runs_rest (by decide +kernel) rfl (by decide), shaped_of (by decide +kernel), runs_rest (by decide +kernel) rfl (by decide),
    by decide +kernel⟩

/-! ### Crema and the audio paths -/

/-- Crema enabled with channel 31, in a mode, and the state of that channel. -/
def supervising (mode ntc : Nat) (x : CrmChan) : State :=
  let s := withRegs calm [(.crmCtl, 0, 1), (.crmChCfg, 31, 0x80000000), (.crmChStat, 31, mode * 2 ^ 30)]
  { s with crema := { s.crema with chans := setNth s.crema.chans 31 x }, ntc := ntc }

theorem wit_cremaModes : runsAt (supervising 0 0 CrmChan.zero) 0 (supervising 0 0 CrmChan.zero) ∧ Shaped (supervising 0 0 CrmChan.zero) ∧
    crmResult (supervising 0 0 CrmChan.zero) 1 0 31 = 0 ∧ crmResult (supervising 0 0 CrmChan.zero) 1 0 30 = 1 ∧ crmResult calm 1 0 31 = 4 :=
  ⟨runs_rest (by decide +kernel) rfl (by decide), shaped_of (by decide +kernel), by decide +kernel⟩

/-- Wideband channel 7 in a run of two pulses of which `count` are made; the next is due in cycle 256,000. -/
def reflecting (count ntc : Nat) : State :=
  let s := withRegs calm [(.crmCtl, 0, 1), (.crmWbStat, 7, 1)]
  { s with crema := { s.crema with runs := setNth s.crema.runs 7 (some
      { line := 0, e := 1, w := 6, rho := 13, cal := false, next := 256000, count := count, sums := List.replicate 1024 0 }) }, ntc := ntc }

theorem wit_cremaRuns : runsAt (reflecting 1 256000) 256000 (reflecting 1 256000) ∧ Shaped (reflecting 1 256000) ∧
    runsAt (reflecting 2 255999) 255999 (reflecting 2 255999) ∧
    (((reflecting 1 256000).crmRun 7).map fun x => (x.next, x.count, 2 ^ x.e)) = some (256000, 1, 2) ∧
    (((reflecting 2 256000).crmRun 7).map fun x => (x.next, x.count, 2 ^ x.e)) = some (256000, 2, 2) ∧
    crmResult (reflecting 1 0) 4 7 0 = 2 ∧ crmResult (reflecting 1 0) 4 6 0 = 0 ∧ (reflecting 1 0).bit .crmCtl 0 = true ∧
    (calm.crmRun 7) = none :=
  ⟨runs_rest (by decide +kernel) rfl (by decide), shaped_of (by decide +kernel), runs_rest (by decide +kernel) rfl (by decide),
    by decide +kernel⟩

theorem wit_cremaFrames : let r := supervising 1 8192000 { CrmChan.zero with win := some ⟨0, 0, 1024, 0⟩, openN := 15, shortN := 16 }
    runsAt r 8192000 r ∧ Shaped r ∧ crmMode r 31 ≠ 0 ∧ crmWasLive r 31 (8192000 / 8192000 * 8192000) = true ∧ crmMode calm 31 = 0 :=
  ⟨runs_rest (by decide +kernel) rfl (by decide), shaped_of (by decide +kernel), by decide +kernel⟩

/-- A window or stage of channel 31 that ended in cycle 8,192,000. -/
def ended (stage : Nat) : State := supervising 1 8192001 { CrmChan.zero with done := some (⟨stage, 0, 64, 0⟩, 8192000) }

theorem wit_cremaWindows : runsAt (ended 0) 8192001 (ended 0) ∧ runsAt (ended 1) 8192001 (ended 1) ∧ runsAt (ended 2) 8192001 (ended 2) ∧
    Shaped (ended 0) ∧ queueHandles (ended 0) = [] ∧ (ended 0).memErr = [] ∧ ((ended 2).crm 31).done = some (⟨2, 0, 64, 0⟩, 8192000) ∧
    (calm.crm 31).done = none :=
  ⟨runs_rest (by decide +kernel) rfl (by decide), runs_rest (by decide +kernel) rfl (by decide), runs_rest (by decide +kernel) rfl (by decide),
    shaped_of (by decide +kernel), by decide +kernel⟩

theorem wit_crmLiveFaults : let s := withRegs calm [(.crmChStat, 31, 2 ^ 18)]
    (0 : Nat) ∈ [0, 1, 2, 3, 9] ∧ bitOf (crmFaults s 31) 0 = true ∧ bitOf 0 0 = false ∧ nth (s.crm 31).miss 0 0 = 0 ∧
    0 < (s.crm 31).miss.length := by decide +kernel

/-- EVAC pin 7, its state and its message table: the entry 0 in DRAM. -/
def evacuating (active : Bool) (x : EvPin) (entry : List Nat) : State :=
  let s := withRegs calm [(.aptEvacStat, 0, if active then 0x80 else 0), (.aptEvacCfg, 7, 0x80000800), (.aptFms, 0, 1)]
  { s with mem := memWrite [] 0 (entry.flatMap (toBytesLE 4)), audio := { s.audio with pins := setNth s.audio.pins 7 x } }

theorem wit_evacMessages : let a := evacuating false { EvPin.zero with count := 8 } []
    let b := evacuating true EvPin.zero [0x100, 10, 0, 1]
    let c := evacuating true EvPin.zero [0x100000, 1, 0, 1]
    let d := evacuating true { EvPin.zero with phase := 1, len := 4 } []
    runsAt a 0 a ∧ Shaped a ∧ runsAt b 0 b ∧ runsAt c 0 c ∧ runsAt d 0 d ∧ (a.evPin 7).count = max 1 (a.fld .aptEvacCfg 15 8 7) ∧ a.memErr = [] ∧
    evActive b 7 = true ∧ b.bit .aptEvacCfg 31 7 = true ∧ (b.evPin 7).used = false ∧ memNat b.mem 4 4 % 2 ^ 28 = 10 ∧
    b.fld .aptFms 8 0 * 2 ^ 20 = 0x100000 ∧ memNat c.mem 0 4 % 2 ^ 28 = 0x100000 ∧ (d.evPin 7).phase = 1 ∧ d.pourSize = 4 ∧
    evActive a 7 = false :=
  ⟨runs_rest (by decide +kernel) rfl (by decide), shaped_of (by decide +kernel), runs_rest (by decide +kernel) rfl (by decide),
    runs_rest (by decide +kernel) rfl (by decide), runs_rest (by decide +kernel) rfl (by decide), by decide +kernel⟩

/-- A placement of one row into the last bytes of core 63, which has run for `ntc` cycles. -/
def placing (ntc : Nat) : State :=
  { calm with
    audio := { calm.audio with places := [{ bank := 63, side := false, off := 24, l := 63, addr := 524262, rows := 1, pour := 0, run := some (63, 0) }] }
    coreOld := (1, []), ntc := ntc }

theorem wit_banksAndPlacements : runsAt (placing 48) 48 (placing 48) ∧ Shaped (placing 48) ∧ runsAt (placing 47) 47 (placing 47) ∧
    (placing 48).memErr = [] ∧ (placing 48).coreOld.1 ≠ 48 ∧
    ((placing 48).audio.places.find? (fun p => p.run.isSome)).map Place.run = some (some (63, 0)) ∧
    writeHeld (placing 48) .runner 63 = false ∧ 524262 + 24 * 1 ≤ 524286 ∧ 0 + (8 * 1 + 40) ≤ 48 ∧
    calm.audio.places.find? (fun p => p.run.isSome) = none ∧ reservedIn .carFlipCmd 0 (0xFFFF803F : W32).toNat = false :=
  ⟨runs_rest (by decide +kernel) rfl (by decide), shaped_of (by decide +kernel), runs_rest (by decide +kernel) rfl (by decide),
    by decide +kernel⟩

/-! ### Booting, the pairs and the keep -/

/-- A stage of the boot. -/
def booting (stage : BootStage) (todo : List Section) : State := { calm with boot := { calm.boot with stage := stage, todo := todo } }
/-- Module reset asserted with PG up. -/
def resetting : State := { calm with power := { Power.zero with resetOn := true, pg := true } }
def one : Section := { type := 1, warm := false, off := 0, len := 4, dest := 0, digest := [] }

theorem wit_bootStages : runsAt resetting 0 resetting ∧ runsAt (booting .choice []) 0 (booting .choice []) ∧
    runsAt (booting .sections [one]) 0 (booting .sections [one]) ∧ runsAt (booting .checks []) 0 (booting .checks []) ∧
    resetting.bit .pwrStat 19 = false ∧ resetting.power.pg = true ∧ calm.power.resetOn = false ∧
    (booting .choice []).boot.stage = .choice ∧ calm.boot.stage ≠ .choice ∧ (booting .sections [one]).boot.todo = [one] ∧
    (booting .sections []).boot.todo = [] ∧ (booting .checks []).boot.stage = .checks :=
  ⟨runs_rest (by decide +kernel) rfl (by decide), runs_rest (by decide +kernel) rfl (by decide),
    runs_rest (by decide +kernel) rfl (by decide), runs_rest (by decide +kernel) rfl (by decide), by decide +kernel⟩

theorem wit_tampRow : runsAt (booting .ready []) 0 (booting .ready []) ∧ Shaped (booting .ready []) ∧
    (booting .ready []).boot.stage = .ready ∧ (booting .ready []).boot.warm = false ∧ (booting .ready []).tickMin = none :=
  ⟨runs_rest (by decide +kernel) rfl (by decide), shaped_of (by decide +kernel), by decide +kernel⟩

/-- The good mark of device 1 being programmed. -/
def marking : State :=
  { withRegs calm [(.barStat, 0, 0x182)] with boot := { calm.boot with marking := some (1, 3) } }

theorem wit_marks : runsAt marking 0 marking ∧ Shaped marking ∧ marking.boot.marking = some (1, 3) ∧ marking.bit .barStat 8 = true ∧
    calm.bit .barStat 8 = false ∧ calm.pairWorks = true ∧ calm.boot.marking = none ∧
    ¬ (calm.boot.stage = .recovery ∧ (soundImage calm []).isSome) :=
  ⟨runs_rest (by decide +kernel) rfl (by decide), shaped_of (by decide +kernel), by decide +kernel⟩

/-- Both pairs run the firmware after the tamp, with a standby and the watchdog at work. -/
def paired : State :=
  let s := withRegs calm [(.barStat, 0, 2), (.sysTamp, 0, 1)]
  { (s.setCore (.barista 0) { Core.reset with phase := .running }).setCore (.barista 1) { Core.reset with phase := .running } with
    pairs := { Pairs.zero with wdogAt := some 0 }, ntc := 1536 * 0x2710 }

theorem wit_pairFaults : runsAt paired 15360000 paired ∧ Shaped paired ∧ inBoot paired = false ∧ paired.boot.warm = false ∧
    paired.bit .barStat 1 = true ∧ paired.pairs.faultAt = none ∧ paired.pairFailed 0 = false ∧ paired.pairFailed 1 = false ∧
    (paired.core (.barista paired.activePair)).phase ≠ .inReset ∧ (paired.core (.barista (1 - paired.activePair))).phase ≠ .inReset ∧
    paired.pairs.wdogAt = some 0 ∧ 0 + wdogCycles paired ≤ 15360000 ∧ ¬ 0 + wdogCycles paired ≤ 15359999 :=
  ⟨runs_rest (by decide +kernel) rfl (by decide), shaped_of (by decide +kernel), by decide +kernel⟩

/-- A takeover from pair 0, which failed in cycle 15,360,000. -/
def takingOver : State := { paired with pairs := { faultAt := some (15360000, 0), returned := true, wdogAt := none, restoreAt := none } }

theorem wit_takeOver : takingOver.pairs.faultAt = some (15360000, 0) ∧ takingOver.pairs.returned = true ∧
    (dueItems takingOver).length = 1 ∧ takingOver.ntc ≤ 15360000 + 64 ∧ takingOver.power.asleep = none := by decide +kernel

/-- A write of the active pair that waits for the standby, and a failed pair under restore. -/
def shadowing (standby : Bool) : State :=
  { withRegs calm [(.barStat, 0, if standby then 2 else 0)] with shadowQ := [(1, 0xFFFFD, [1, 2, 3], 0)] }
def restoring (ntc : Nat) : State :=
  { withRegs calm [(.barStat, 0, 0x18)] with pairs := { Pairs.zero with restoreAt := some 0 }, ntc := ntc }

theorem wit_pairMemory : runsAt (shadowing true) 0 (shadowing true) ∧ runsAt (shadowing false) 0 (shadowing false) ∧
    runsAt (restoring 6144000) 6144000 (restoring 6144000) ∧ runsAt (restoring 6143999) 6143999 (restoring 6143999) ∧
    Shaped (shadowing true) ∧ (shadowing true).bit .barStat 1 = true ∧ (shadowing false).bit .barStat 1 = false ∧
    (restoring 6144000).pairs.restoreAt = some 0 ∧ (restoring 0).pairFailed 1 = true ∧ (restoring 0).pairWorks = true ∧
    (withRegs calm [(.barStat, 0, 8)]).bit .barStat 4 = false ∧ calm.pairs.restoreAt = none ∧ calm.shadowQ = [] :=
  ⟨runs_rest (by decide +kernel) rfl (by decide), runs_rest (by decide +kernel) rfl (by decide),
    runs_rest (by decide +kernel) rfl (by decide), runs_rest (by decide +kernel) rfl (by decide), shaped_of (by decide +kernel), by decide +kernel⟩

/-- A warm reboot under way with nothing to boot from. -/
def rebooting : State :=
  { withRegs calm [(.barStat, 0, 0x82)] with boot := { calm.boot with stage := .ready, warm := true, fromStaged := true } }

theorem wit_warmReboot : runsAt paired 15360000 paired ∧ paired.pairWorks = true ∧ paired.tamped = true ∧ inBoot paired = false ∧
    runsAt rebooting 0 rebooting ∧ Shaped rebooting ∧ rebooting.boot.warm = true ∧ inBoot rebooting = true ∧ rebooting.boot.attempts = 0 ∧
    Ini.host ≠ Ini.barista ∧ calm.boot.warm = false :=
  ⟨runs_rest (by decide +kernel) rfl (by decide), by decide +kernel, by decide +kernel, by decide +kernel,
    runs_rest (by decide +kernel) rfl (by decide), shaped_of (by decide +kernel), by decide +kernel⟩

/-- Set `set` of the keep runs command c. -/
def keeping (set : Nat) (c : KeepCmd) : State :=
  { withRegs calm [(.rkpCst, set, 0x80), (.rkpOtp, 0, 0x00000300), (.rkpStat, 0, 4)] with
    keep := { calm.keep with cmds := [(set, c)], running := some set } }
def keepCmd (op param : Nat) : KeepCmd := { op := op, param := param, at' := 0, inp := 0, out := 0 }

theorem wit_keepCommands : runsAt (keeping 2 (keepCmd 1 0)) 0 (keeping 2 (keepCmd 1 0)) ∧ (keeping 2 (keepCmd 1 0)).bit .rkpCst 7 2 = true ∧
    (keeping 2 (keepCmd 1 0)).bit .rkpCst 7 0 = false ∧ calm.keep.restoreAt = none :=
  ⟨runs_rest (by decide +kernel) rfl (by decide), by decide +kernel⟩

theorem wit_keepResults : runsAt (keeping 0 (keepCmd 0x20 1)) 0 (keeping 0 (keepCmd 0x20 1)) ∧
    (keeping 0 (keepCmd 0x20 1)).keep.running = some 0 ∧ kget (keeping 0 (keepCmd 0x20 1)).keep.cmds 0 = some (keepCmd 0x20 1) ∧
    calm.boot.stage ≠ .recovery ∧ keepAllowed calm 2 0x20 = false ∧ (keeping 0 (keepCmd 1 0)).bit .rkpStat 0 = false ∧
    (withRegs calm [(.rkpStat, 0, 0)]).bit .rkpStat 2 = false ∧
    (List.range 4).filter (fun k => (keeping 0 (keepCmd 0x22 1)).bit .rkpOtp (8 + k) && !(keeping 0 (keepCmd 0x22 1)).bit .rkpOtp (12 + k)) = [0, 1] ∧
    (keeping 0 (keepCmd 0x22 1)).fld .rkpOtp 7 6 ≠ 1 ∧
    ¬ (64 < (64 : Nat)) ∧ { calm with keep := { calm.keep with secVer := 64 } }.keep.secVer = 64 :=
  ⟨runs_rest (by decide +kernel) rfl (by decide), by decide +kernel⟩

/-- A fuse that is due; a generator whose calls are spent; a stream's keys in both directions. -/
def fused : State := { calm with keep := { calm.keep with fuseDue := true } }
def spent : State := { withRegs calm [(.rkpStat, 0, 4)] with keep := { calm.keep with calls := 65536 } }
def keyed : State := { calm with keep := { calm.keep with ideKeys := [(2, [1]), (3, [2])], ideSet := some 1 } }

theorem wit_keepEvents : runsAt fused 0 fused ∧ runsAt spent 0 spent ∧ runsAt keyed 0 keyed ∧ fused.keep.fuseDue = true ∧
    calm.keep.fuseDue = false ∧ ¬ (spent.keep.calls < 65536 ∧ spent.bit .rkpStat 2 = true) ∧ (kget keyed.keep.ideKeys (2 * 1)).isSome = true ∧
    (kget keyed.keep.ideKeys (2 * 1 + 1)).isSome = true ∧ keyed.keep.ideSet = some 1 ∧ (kget keyed.keep.ideKeys 0).isSome = false :=
  ⟨runs_rest (by decide +kernel) rfl (by decide), runs_rest (by decide +kernel) rfl (by decide), runs_rest (by decide +kernel) rfl (by decide),
    by decide +kernel⟩

/-! ### Live service and accesses -/

/-- The active pair 0 works, four cores wait for a spare, and core 5 is being taken over by spare 67. -/
def taken (copied : Bool) (ntc : Nat) : State :=
  { calm with
    takeover := some { l := 5, p := 5, s := 67, t0 := 0, m := 1, copied := copied }
    service := { Service.zero with spareQ := [(60, 0), (61, 0), (62, 0), (63, 0)] }, ntc := ntc }

theorem wit_spares : runsAt calm 0 calm ∧ calm.pairWorks = true ∧ runsAt (taken false 10923) 10923 (taken false 10923) ∧
    runsAt (taken false 10922) 10922 (taken false 10922) ∧ Shaped (taken false 0) ∧ (taken false 0).memErr = [] ∧
    4 ≤ (taken false 0).service.spareQ.length ∧ (taken false 0).service.spareQ.any (fun e => decide (e.1 = 63)) = true ∧
    (taken false 0).service.spareQ.any (fun e => decide (e.1 = 59)) = false ∧ calm.lcoreOf 67 = none ∧ calm.takeover = none ∧
    { calm with map := setNth calm.map 63 (some 67) }.lcoreOf 67 = some 63 ∧
    (taken true 0).takeover = some { l := 5, p := 5, s := 67, t0 := 0, m := 1, copied := true } ∧ ¬ 10923 < 0 * calm.pourLen + 10923 :=
  ⟨calm_runs, by decide +kernel, runs_rest (by decide +kernel) rfl (by decide), runs_rest (by decide +kernel) rfl (by decide),
    shaped_of (by decide +kernel), by decide +kernel⟩

/-- Counter 31, whose interval of one pour began in pour 0, when it ends. -/
def intervals (cfg ntc : Nat) : State :=
  { withRegs calm [(.hltCntCfg, 31, cfg), (.hltCntVal, 31, 0xFFFFFFFF), (.hltCntThr, 31, 0xFFFFFFFF)] with
    service := { Service.zero with ivals := [(31, 0)] }, ntc := ntc }
/-- The last line of the DRAM, read in this pass. -/
def read7FFFFFF : State := { calm with service := { Service.zero with scrubbed := [0x7FFFFFF] } }

theorem wit_health : runsAt calm 0 calm ∧ runsAt (intervals 1 64000) 64000 (intervals 1 64000) ∧ runsAt (intervals 1 0) 0 (intervals 1 0) ∧
    kget (intervals 1 0).service.ivals 31 = some 0 ∧ (intervals 0 0).fld .hltCntCfg 11 0 31 = 0 ∧
    (intervals 1 0).pourAt 63999 < 0 + (intervals 1 0).fld .hltCntCfg 11 0 31 ∧ ¬ (intervals 1 64000).pourAt 64000 < 0 + (intervals 1 64000).fld .hltCntCfg 11 0 31 ∧
    kget (intervals 1 0).service.ivals 30 = none ∧ (0 : Nat) % 92160000000 = 0 ∧ (intervals 1 0).reg .hltCntThr 31 ≠ 0 := by
  refine ⟨calm_runs, runs_rest (by decide +kernel) rfl (by decide), runs_rest (by decide +kernel) rfl (by decide), by decide +kernel⟩

theorem wit_scrub : runsAt calm 0 calm ∧ Shaped calm ∧ calm.memErr = [] ∧ 0x1FFFFFFFF < 0x200000000 ∧
    runsAt read7FFFFFF 0 read7FFFFFF ∧ (scrubPass read7FFFFFF 0).service.scrubbed.contains (0x1FFFFFFFF / 64) = true ∧
    (scrubPass calm 0).service.scrubbed.contains (0x1FFFFFFFF / 64) = false ∧ bitOf (calm.hwBits 0 (regOff .carDramErr 0 0)) 0 = false :=
  ⟨calm_runs, calm_shaped, rfl, by decide, runs_rest (by decide +kernel) rfl (by decide), by decide +kernel⟩

/-- Secure life with debug level 0. -/
def secure : State := withRegs calm [(.rkpOtp, 0, 1)]

theorem wit_ports : reach calm 0 = calm ∧ Shaped calm ∧ calm.power.asleep = none ∧ calm.memErr = [] ∧ { calm with coreOld := (1, []) }.coreOld.1 ≠ 0 ∧
    writeHeld calm .barista 67 = false ∧ 0x7FFFD + 1 ≤ 0x7FFFE ∧ debugLevel calm = 2 ∧ reach secure 0 = secure ∧
    debugLevel secure = 0 ∧ jtagKeep 0x1FFFFFFFF = false ∧ selValid (.barista 1) = true ∧ selValid (.eduno 67) = true ∧
    0x1FFFFFFFF + 1 ≤ 0x200000000 :=
  ⟨(runs_rest (by decide +kernel) rfl (by decide)).1, calm_shaped, rfl, rfl, by decide, by decide +kernel, by decide, by decide +kernel,
    (runs_rest (by decide +kernel) rfl (by decide)).1, by decide +kernel⟩

theorem wit_registerWrites : runsAt calm 0 calm ∧ 0x1FFFFFC < 0x2000000 ∧ 0x1FFFFFC % 4 = 0 ∧ blockHeld calm 0x1FFFFFC = false ∧
    lookupReg 0x1FFFFFC = none ∧ (255 : W32).toNat < 256 ∧ (3 : W32).toNat < 4 ∧ (0x77777777 : W32).toNat &&& 0x88888888 = 0 ∧
    ¬ (Ini.host = .barista ∧ inBoot calm = true ∧ calm.tamped = false) ∧
    (calm.reg .sysLclass 7).toNat &&& 0x77777777 ≠ (0x77777777 : W32).toNat ∧ calm.bit .sysRsvdSticky 0 = false ∧
    (withRegs calm [(.sysRsvdSticky, 0, 1)]).bit .sysRsvdSticky 0 = true ∧ calm.bit .sysTampViol 0 = false :=
  ⟨calm_runs, by decide +kernel⟩

/-! ### The host -/

/-- A link that trains; and one that is up, in D0 or D3hot, with the first pour begun or not. -/
def training : State := { withRegs calm [(.pcxLcfg, 0, 0x0B)] with pcie := { Pcie.zero with perst := false, training := true } }
def linkedUp (d : Nat) (open' : Bool) : State :=
  { withRegs calm [(.pcxLcfg, 0, 0x0B), (.pcxLstat, 0, 0x200 + d), (.pcxH0wm, 0, 0x4), (.pcxApBase, 15, 0), (.pcxApCtl, 15, 0x01FF0007)] with
    pcie := { Pcie.zero with perst := false, bme := true }, tickMin := if open' then some 1 else none }

theorem wit_hostLink : runsAt training 0 training ∧ runsAt (linkedUp 0 false) 0 (linkedUp 0 false) ∧ training.pcie.training = true ∧
    training.bit .pcxLstat 9 = false ∧ training.pcie.perst = false ∧ training.bit .pcxLcfg 0 = true ∧ (8 : Nat) ∈ [1, 2, 4, 8] ∧
    (linkedUp 0 false).bit .pcxLstat 9 = true ∧ inD3 (linkedUp 0 false) ≠ true ∧ inD3 (linkedUp 3 false) ≠ false :=
  ⟨runs_rest (by decide +kernel) rfl (by decide), runs_rest (by decide +kernel) rfl (by decide), by decide +kernel⟩

theorem wit_hostRequests : runsAt (linkedUp 0 true) 0 (linkedUp 0 true) ∧ runsAt (linkedUp 0 false) 0 (linkedUp 0 false) ∧
    runsAt (linkedUp 3 true) 0 (linkedUp 3 true) ∧ Shaped (linkedUp 0 true) ∧ (linkedUp 0 true).memErr = [] ∧
    (linkedUp 0 true).bit .pcxLstat 9 = true ∧ hostOpen (linkedUp 0 true) = true ∧ hostOpen (linkedUp 0 false) = false ∧
    barServed (linkedUp 0 true) false = true ∧ barServed (linkedUp 3 true) true = false ∧ (linkedUp 0 true).boot.stage ≠ .recovery ∧
    hostBlock (linkedUp 0 true) 0x2FFFC = true ∧ hostBlock (linkedUp 0 true) 0x1FFFFFC = false ∧ hostAlways 0x1FFFFFC = false ∧
    hostAlways 0x90130 = true ∧ (linkedUp 0 true).reg .pcxGstat = 0 ∧ (linkedUp 0 true).bit .pcxApCtl 0 15 = true ∧
    (linkedUp 0 true).bit .pcxApCtl 0 14 = false ∧ (linkedUp 0 true).bit .pcxApCtl 1 15 = true ∧
    0x1FEFFFFF + 1 ≤ min 0x20000000 (0x100000 * (linkedUp 0 true).fld .pcxApCtl 25 16 15) ∧
    ¬ 0x1FF00000 + 1 ≤ min 0x20000000 (0x100000 * (linkedUp 0 true).fld .pcxApCtl 25 16 15) :=
  ⟨runs_rest (by decide +kernel) rfl (by decide), runs_rest (by decide +kernel) rfl (by decide), runs_rest (by decide +kernel) rfl (by decide),
    shaped_of (by decide +kernel), by decide +kernel⟩

/-- Ring 15 of one entry bound to queue 0xFFFF, which holds one item for the host, with a read of the ring in flight. -/
def ringed (dir : Nat) (reads : List HRead) (ntc : Nat) : State :=
  let s := withQueue (linkedUp 0 true) [0x00052000, 0x80000000, 0x10000000, 0x00040004, 0, 4, 0, 0x10000] QueueSt.empty
  let s := { s with mem := memWrite s.mem (qdAddr 0xFFFF) ([0x00052000, 0x90000000, 0x10000000, 0x00040004, 0, 4, 0, 0x10000].flatMap (toBytesLE 4)) }
  let s := withRegs s [(.pcxHrCfg, 15, 0x8040FFFF + dir * 2 ^ 30)]
  { s with pcie := { s.pcie with reads := reads }, tickMin := some (ntc + 1), ntc := ntc }
def read15 : HRead := { ring := 15, first := 0, count := 1, at' := 0, dead := false }

theorem wit_hostRings : let r := ringed 0 [] 0
    let w := ringed 1 [read15] 76800000
    runsAt r 0 r ∧ Shaped r ∧ r.memErr = [] ∧ hrBinds r 15 = true ∧ reservedIn .pcxHrCfg 15 ((0x0040FFFF : W32) ||| 0x80000000).toNat = false ∧
    kget r.pcie.stopped 15 ≠ some 0 ∧ hrEn r 15 = true ∧ hrDir r 15 = false ∧ canMaster r = true ∧ qEn r 0xFFFF = true ∧
    qCount r 0xFFFF ≠ 0 ∧ (hrPi r 15 + 2 ^ 32 - hrCi r 15) % 2 ^ 32 < hrSize r 15 ∧ qKind r (hrQueue r 15) = 0 ∧
    r.bit .pcxLstat 9 = true ∧ barServed r false = true ∧ r.boot.stage ≠ .recovery ∧ hrDir w 15 = true ∧
    runsAt w 76800000 w ∧ r.pcie.reads.find? (fun q => decide (q.ring = 15)) = none ∧
    w.pcie.reads.find? (fun q => decide (q.ring = 15)) = some read15 ∧ read15.dead = false ∧ ¬ 76800000 < read15.at' + 76800000 :=
  ⟨runs_rest (by decide +kernel) rfl (by decide), shaped_of (by decide +kernel), by decide +kernel, by decide +kernel, by decide +kernel,
    by decide +kernel, by decide +kernel, by decide +kernel, by decide +kernel, by decide +kernel, by decide +kernel, by decide +kernel,
    by decide +kernel, by decide +kernel, by decide +kernel, by decide +kernel, by decide +kernel, runs_rest (by decide +kernel) rfl (by decide),
    by decide +kernel⟩

/-- MSI-X on, vector 2047 unmasked or not and held. -/
def vectors (masked : Nat) : State :=
  { linkedUp 0 true with msixEn := true, msix := [(4 * 2047, 0xFEE00000), (4 * 2047 + 2, 7), (4 * 2047 + 3, masked)], msixPend := [2047] }

theorem wit_msixVectors : runsAt (vectors 0) 0 (vectors 0) ∧ runsAt (vectors 1) 0 (vectors 1) ∧ (1023 : W32).toNat < 1024 ∧
    (vectors 0).pairWorks = true ∧ (vectors 0).msixEn = true ∧ (vectors 0).msixFm = false ∧ (vectors 0).pcie.bme = true ∧
    bitOf (msixWord (vectors 0) 2047 3) 0 = false ∧ bitOf (msixWord (vectors 1) 2047 3) 0 = true ∧ calm.msixEn = false ∧
    (vectors 1).bit .pcxLstat 9 = true ∧ barServed (vectors 1) true = true ∧ 2047 ∈ (vectors 1).msixPend :=
  ⟨runs_rest (by decide +kernel) rfl (by decide), runs_rest (by decide +kernel) rfl (by decide), by decide +kernel⟩

/-! ### Supplies, sleep, clocks, temperature and lands -/

/-- PWR_STAT and PWR_TEMP as given, in the cycle before 9. -/
def powered (stat temp : Nat) : State := { withRegs calm [(.pwrStat, 0, stat), (.pwrTemp, 0, temp)] with ntc := 9 }

theorem wit_supplies : reach (powered 0x400000 0) 9 = powered 0x400000 0 ∧ (powered 0x400000 0).bit .pwrStat 22 = true ∧
    reach (powered 0x44 0) 9 = powered 0x44 0 ∧ (powered 0x44 0).bit .pwrStat (4 + 2) = true ∧ (powered 0x44 0).bit .pwrStat (0 + 2) = true ∧
    ¬ 60000 < 60000 ∧ ¬ 80000 < 80000 ∧ (powered 2 0).power.shutdown = false ∧ (powered 2 0).bit .pwrStat 1 = true :=
  ⟨(runs_rest (by decide +kernel) rfl (by decide)).1, by decide +kernel, (runs_rest (by decide +kernel) rfl (by decide)).1, by decide +kernel⟩

/-- A wake source enabled, with a request that waits or in Sleep since cycle 3. -/
def dozing (asleep : Option Nat) : State :=
  { withRegs calm [(.pwrWake, 0, 0x801)] with power := { Power.zero with resetOn := false, sleepReq := some 3, asleep := asleep }, ntc := 9 }
def wakeable : State := { withRegs calm [(.pwrWake, 0, 0x801)] with ntc := 9 }

theorem wit_sleep : reach (dozing none) 9 = dozing none ∧ reach (dozing (some 3)) 9 = dozing (some 3) ∧ reach wakeable 9 = wakeable ∧
    wakeable.pairWorks = true ∧ wakeable.reg .pwrWake ≠ 0 ∧ wakeable.power.sleepReq = none ∧ (dozing none).bit .pwrWake 11 = true ∧
    (dozing none).power.asleep = none ∧ (dozing (some 3)).power.asleep = some 3 ∧ (dozing none).bit .pwrWake 1 = false :=
  ⟨(runs_rest (by decide +kernel) rfl (by decide)).1, rfl, (runs_rest (by decide +kernel) rfl (by decide)).1, by decide +kernel⟩

/-- Ring time locked on pair 1. -/
def locked : State := { withRegs calm [(.tmrPourStat, 0, 1), (.zwrCfg, 0, 2)] with ntc := 9 }

theorem wit_clocks : reach (powered 0x180000 0x01E00000) 9 = powered 0x180000 0x01E00000 ∧ (powered 0x180000 0).bit .pwrStat 19 = true ∧
    (powered 0x180000 0).bit .pwrStat 20 = true ∧ (powered 0 0).bit .pwrStat 19 = false ∧ tmain (powered 0 0x01E00000) = 480 ∧
    tmain (powered 0 0x018F0000) = 399 ∧ tmain (powered 0 0x01A40000) = 420 ∧ reach locked 9 = locked ∧ Shaped locked ∧ tickSource locked = 1 ∧ tickSource calm ≠ 1 ∧
    pairOn locked 1 = true ∧ locked.power.asleep = none :=
  ⟨(runs_rest (by decide +kernel) rfl (by decide)).1, by decide +kernel, by decide +kernel, by decide +kernel, by decide +kernel, by decide +kernel,
    by decide +kernel, (runs_rest (by decide +kernel) rfl (by decide)).1, shaped_of (by decide +kernel), by decide +kernel⟩

/-- The last timer land with its switch open. -/
def openLand : State := { calm with power := { Power.zero with resetOn := false, openLands := [landKey 14 38] }, ntc := 9 }

theorem wit_lands : reach openLand 9 = openLand ∧ landSwitched 14 38 = true ∧ landSwitched 14 39 = false ∧ landOpen openLand 14 38 = true ∧
    landOpen openLand 14 7 = false ∧ faultFits 14 38 2 = true ∧ faultFits 14 38 5 = false ∧ landClass 13 7 = .io33 ∧
    landIsInput openLand 13 7 = true ∧ openLand.bit .pwrLf 0 = false ∧ (withRegs calm [(.pwrLf, 0, 1)]).bit .pwrLf 0 = true :=
  ⟨(runs_rest (by decide +kernel) rfl (by decide)).1, by decide +kernel⟩

/-! ### The block as a machine -/

/-- Two commands that wait, the first with an index that the block does not have. -/
def queued : State := { calm with pending := [.channelMatch 9 264, .tick 0] }

theorem wit_stepTakesFront : queued.pending = .channelMatch 9 264 :: [.tick 0] ∧ calm.pending = [] ∧ calm.power.resetOn = false ∧
    State.reset.power.resetOn = true ∧ wellFormed (.channelMatch 9 264) = false ∧ (Instr.channelMatch 9 264).stamp = some 9 ∧
    reach { calm with ntc := 9 } 9 = { calm with ntc := 9 } ∧ calm.power.asleep = none :=
  ⟨rfl, rfl, rfl, rfl, by decide, rfl, (runs_rest (by decide +kernel) rfl (by decide)).1, rfl⟩

theorem wit_shapeKept : Shaped calm ∧ step calm = .next { calm with ntc := 1 } := ⟨calm_shaped, rfl⟩

/-! ### Ill-formed commands, one for each check, and the same commands at the bound -/

theorem test_refused_1 : ([
    .bundleIssue 0 (.eduno 68) [], .bundleIssue 0 (.barista 2) [], .unitResultDelivery 0 (.eduno 68),
    .unitResultDelivery 0 (.barista 2), .accumulatorLanding 0 (.eduno 68), .accumulatorLanding 0 (.barista 2),
    .loadDelivery 0 (.eduno 68), .loadDelivery 0 (.barista 2), .bmoveEnd 0 (.eduno 68), .bmoveEnd 0 (.barista 2),
    .carafeLoadReady 0 (.eduno 68), .carafeLoadReady 0 (.barista 2), .carafeGrant 0 8 0 [], .storeBufferPerformed 0 (.eduno 68),
    .storeBufferPerformed 0 (.barista 2), .sendItemStored 0 68, .receiveItemDelivered 0 68 false, .receiveTimeout 0 68 false,
    .entry 0 (.eduno 68), .entry 0 (.barista 2), .sourceEvent 0 1024 false, .coalesceTimeRelease 0 1024,
    .pendingWrite 0 .host 100 0, .inServiceComplete 0 .host 100 0, .channelArm 0 .host 264 0, .channelDisarm 0 .host 264 0,
    .compareStage 0 .host 264 0, .compareCommit 0 .host 264 0, .channelMatch 0 264, .channelOverflow 0 264] : List Instr).all (fun c => !wellFormed c) = true := by decide

theorem test_wellFormed_1 : ([
    .bundleIssue 0 (.eduno 67) [], .bundleIssue 0 (.barista 1) [], .unitResultDelivery 0 (.eduno 67),
    .unitResultDelivery 0 (.barista 1), .accumulatorLanding 0 (.eduno 67), .accumulatorLanding 0 (.barista 1),
    .loadDelivery 0 (.eduno 67), .loadDelivery 0 (.barista 1), .bmoveEnd 0 (.eduno 67), .bmoveEnd 0 (.barista 1),
    .carafeLoadReady 0 (.eduno 67), .carafeLoadReady 0 (.barista 1), .carafeGrant 0 7 0 [], .storeBufferPerformed 0 (.eduno 67),
    .storeBufferPerformed 0 (.barista 1), .sendItemStored 0 67, .receiveItemDelivered 0 67 false, .receiveTimeout 0 67 false,
    .entry 0 (.eduno 67), .entry 0 (.barista 1), .sourceEvent 0 1023 false, .coalesceTimeRelease 0 1023,
    .pendingWrite 0 .host 99 0, .inServiceComplete 0 .host 99 0, .channelArm 0 .host 263 0, .channelDisarm 0 .host 263 0,
    .compareStage 0 .host 263 0, .compareCommit 0 .host 263 0, .channelMatch 0 263, .channelOverflow 0 263] : List Instr).all (fun c => wellFormed c) = true := by decide

theorem test_refused_2 : ([
    .snapshotSharedChannel 0 .host 128, .snapshotPrivateChannel 0 .host 136, .captureEvent 0 32 false, .captureRead 0 .host 32,
    .descriptorWrite 0 .host 65536 0 0, .descriptorWrite 0 .host 0 32 0, .descriptorWrite 0 .host 0 1 0, .initiatorSend 0 2 0,
    .initiatorReceive 0 2 0, .initiatorOpEnd 0 2, .inputPlacement 0 65536 [], .itemAgeTimeout 0 65536, .heartbeatReceived 0 4,
    .supervisionExpiry 0 4, .remoteFaultReceived 0 4, .portWrap 0 4, .portReturned 0 4, .ringFrameReceived 0 4 false [],
    .beaconSend 0 4, .delayRequestSend 0 2, .epochGrantSend 0 4, .upstreamTimeout 0 4, .islandLeaderElection 0 2,
    .trainOrigin 0 2 false false, .groupMissing 0 2 0 0, .unreservedFrameSend 0 4, .mailboxSend 0 4096, .edgeFrameReceived 0 4 [],
    .edgeFrameReceived 0 1 [], .edgeStreamTransmit 0 1024] : List Instr).all (fun c => !wellFormed c) = true := by decide

theorem test_wellFormed_2 : ([
    .snapshotSharedChannel 0 .host 127, .snapshotPrivateChannel 0 .host 135, .captureEvent 0 31 false, .captureRead 0 .host 31,
    .descriptorWrite 0 .host 65535 0 0, .descriptorWrite 0 .host 0 28 0, .descriptorWrite 0 .host 0 28 0, .initiatorSend 0 1 0,
    .initiatorReceive 0 1 0, .initiatorOpEnd 0 1, .inputPlacement 0 65535 [], .itemAgeTimeout 0 65535, .heartbeatReceived 0 3,
    .supervisionExpiry 0 3, .remoteFaultReceived 0 3, .portWrap 0 3, .portReturned 0 3, .ringFrameReceived 0 3 false [],
    .beaconSend 0 3, .delayRequestSend 0 1, .epochGrantSend 0 3, .upstreamTimeout 0 3, .islandLeaderElection 0 1,
    .trainOrigin 0 1 false false, .groupMissing 0 1 0 0, .unreservedFrameSend 0 3, .mailboxSend 0 4095, .edgeFrameReceived 0 3 [],
    .edgeFrameReceived 0 2 [], .edgeStreamTransmit 0 1023] : List Instr).all (fun c => wellFormed c) = true := by decide

theorem test_refused_3 : ([
    .streamSilent 0 1024, .crmLive 0 .host 32, .startNightSweep 0 .host 32, .crmOff 0 .host 32, .startReflectometry 0 .host 8,
    .velocityCalibration 0 .host 8, .abortReflectometry 0 .host 8, .cremaFrameEnd 0 32 ⟨[], [], false, 0, 0, 0, 0⟩,
    .fastFault 0 32, .liveWindowEnd 0 32 ⟨[], false⟩, .nightStageAEnd 0 32 ⟨[], false⟩, .nightStageBEnd 0 32 ⟨[], false⟩,
    .reflectPulse 0 8 [], .reflectRunEnd 0 8, .evacDebouncedChange 0 8, .evacMessageStart 0 8, .evacMessageEnd 0 8,
    .lockstepMismatch 0 2, .keepQuote 0 3 0, .keepCert 0 3 0, .keepRandom 0 3 0, .sbkInstall 0 3 0, .epochPrepare 0 3 0,
    .epochAccept 0 3 0, .raiseFloor 0 3 0, .slotProgram 0 3 0, .slotRevoke 0 3 0, .restoreFactory 0 3 0, .logRead 0 3 0,
    .debugChallenge 0 3 0] : List Instr).all (fun c => !wellFormed c) = true := by decide

theorem test_wellFormed_3 : ([
    .streamSilent 0 1023, .crmLive 0 .host 31, .startNightSweep 0 .host 31, .crmOff 0 .host 31, .startReflectometry 0 .host 7,
    .velocityCalibration 0 .host 7, .abortReflectometry 0 .host 7, .cremaFrameEnd 0 31 ⟨[], [], false, 0, 0, 0, 0⟩,
    .fastFault 0 31, .liveWindowEnd 0 31 ⟨[], false⟩, .nightStageAEnd 0 31 ⟨[], false⟩, .nightStageBEnd 0 31 ⟨[], false⟩,
    .reflectPulse 0 7 [], .reflectRunEnd 0 7, .evacDebouncedChange 0 7, .evacMessageStart 0 7, .evacMessageEnd 0 7,
    .lockstepMismatch 0 1, .keepQuote 0 2 0, .keepCert 0 2 0, .keepRandom 0 2 0, .sbkInstall 0 2 0, .epochPrepare 0 2 0,
    .epochAccept 0 2 0, .raiseFloor 0 2 0, .slotProgram 0 2 0, .slotRevoke 0 2 0, .restoreFactory 0 2 0, .logRead 0 2 0,
    .debugChallenge 0 2 0] : List Instr).all (fun c => wellFormed c) = true := by decide

theorem test_refused_4 : ([
    .debugUnlock 0 3 0, .keepCommandComplete 0 3, .takeOver 0 .host 64, .retireSpare 0 .host 4, .counterIntervalClose 0 32,
    .externalPortAccess 0 .host 68 0 0 none [], .registerWrite 0 .host 33554432 0, .hostRingEnable 0 .host 16 0,
    .hostRingEntryWrite 0 16, .hostRingPiWrite 0 16 0 false, .hostReadCompletion 0 16 false false [], .hostReadTimeout 0 16,
    .msixUnmask 0 2048, .pinEdgeClock 0 32] : List Instr).all (fun c => !wellFormed c) = true := by decide

theorem test_wellFormed_4 : ([
    .debugUnlock 0 2 0, .keepCommandComplete 0 2, .takeOver 0 .host 63, .retireSpare 0 .host 3, .counterIntervalClose 0 31,
    .externalPortAccess 0 .host 67 0 0 none [], .registerWrite 0 .host 33554428 0, .hostRingEnable 0 .host 15 0,
    .hostRingEntryWrite 0 15, .hostRingPiWrite 0 15 0 false, .hostReadCompletion 0 15 false false [], .hostReadTimeout 0 15,
    .msixUnmask 0 2047, .pinEdgeClock 0 31] : List Instr).all (fun c => wellFormed c) = true := by decide

end Sys2Proof.Tests
end

section
/-! SUPPORT. The bits of a word and of its fields, and what a written field makes of each bit (R5, R8). -/

namespace Sys2Proof.Machine

/-! ### Bits of a field -/

theorem testBit_bitsOf (n lo len i : Nat) : (bitsOf n lo len).testBit i = (decide (i < len) && n.testBit (lo + i)) := by
  simp [bitsOf, Nat.testBit_mod_two_pow]

/-- Words with equal fields have equal bits there. -/
theorem testBit_eq_of_bitsOf_eq {x y lo len b : Nat} (h : bitsOf x lo len = bitsOf y lo len) (h1 : lo ≤ b) (h2 : b < lo + len) :
    x.testBit b = y.testBit b := by
  have := congrArg (fun n => n.testBit (b - lo)) h
  have h3 : b - lo < len := by omega
  simpa [testBit_bitsOf, h3, Nat.add_sub_cancel' h1] using this

/-- Clearing the bits of a mask. -/
theorem testBit_sub_and (a b i : Nat) : (a - (a &&& b)).testBit i = (a.testBit i && !b.testBit i) := by
  induction i generalizing a b with
  | zero =>
    have h1 := Nat.and_mod_two_eq_one (a := a) (b := b)
    have h2 : a &&& b ≤ a := Nat.and_le_left
    simp only [Nat.testBit_zero, ← decide_not, ← Bool.decide_and, decide_eq_decide]
    omega
  | succ i ih =>
    have h1 := Nat.and_mod_two_eq_one (a := a) (b := b)
    have h2 : a &&& b ≤ a := Nat.and_le_left
    have h3 : (a - (a &&& b)) / 2 = a / 2 - (a / 2 &&& b / 2) := by
      rw [← Nat.and_div_two]
      omega
    rw [Nat.testBit_add_one, h3, ih, ← Nat.testBit_add_one, ← Nat.testBit_add_one]

/-- A field that is put replaces its own bits and no other. -/
theorem testBit_putField {hi lo : Nat} (h : lo ≤ hi) (w v b : Nat) :
    (putField w hi lo v).testBit b = if lo ≤ b ∧ b ≤ hi then v.testBit (b - lo) else w.testBit b := by
  obtain ⟨len, hlen⟩ : ∃ len, hi + 1 - lo = len := ⟨_, rfl⟩
  have hw : w = 2 ^ lo * (2 ^ len * (w >>> lo / 2 ^ len) + w >>> lo % 2 ^ len) + w % 2 ^ lo := by
    rw [Nat.div_add_mod, Nat.shiftRight_eq_div_pow, Nat.div_add_mod]
  have hput : putField w hi lo v = 2 ^ lo * (2 ^ len * (w >>> lo / 2 ^ len) + v % 2 ^ len) + w % 2 ^ lo := by
    rw [putField, hlen, bitsOf]
    generalize w >>> lo % 2 ^ len = m at *
    have : w - m * 2 ^ lo = 2 ^ lo * (2 ^ len * (w >>> lo / 2 ^ len)) + w % 2 ^ lo := by
      have e := hw
      rw [Nat.mul_add, Nat.mul_comm (2 ^ lo) m] at e
      omega
    rw [this, Nat.mul_add, Nat.mul_comm (v % 2 ^ len)]
    omega
  have hbit : w.testBit b = if b < lo then (w % 2 ^ lo).testBit b else (w >>> lo).testBit (b - lo) := by
    split
    · next h1 => simp [Nat.testBit_mod_two_pow, h1]
    · next h1 => simp [Nat.add_sub_cancel' (Nat.le_of_not_lt h1)]
  rw [hput, Nat.testBit_two_pow_mul_add _ (Nat.mod_lt _ (by positivity)),
    Nat.testBit_two_pow_mul_add _ (Nat.mod_lt _ (by positivity)), hbit]
  by_cases h1 : b < lo
  · simp [h1, Nat.not_le.mpr h1]
  · by_cases h2 : b ≤ hi
    · have h3 : b - lo < len := by omega
      simp [h1, h2, h3, Nat.le_of_not_lt h1]
    · have h3 : ¬ b - lo < len := by omega
      have h4 : len + (b - lo - len) = b - lo := by omega
      simp [h1, h2, h3, ← Nat.shiftRight_eq_div_pow, Nat.testBit_shiftRight, h4]

/-! ### Registers of 32 bits -/

theorem testBit_ofNat_word {b : Nat} (hb : b < 32) (n : Nat) : (BitVec.ofNat 32 n).toNat.testBit b = n.testBit b := by
  rw [BitVec.toNat_ofNat, Nat.testBit_mod_two_pow, decide_eq_true hb, Bool.true_and]

theorem testBit_withField {hi lo b : Nat} (h : lo ≤ hi) (hb : b < 32) (w : W32) (v : Nat) :
    (withField w hi lo v).toNat.testBit b = if lo ≤ b ∧ b ≤ hi then v.testBit (b - lo) else w.toNat.testBit b :=
  (testBit_ofNat_word hb _).trans (testBit_putField h w.toNat v b)

/-- A field is its bits. -/
theorem fieldOf_eq_iff {w : W32} {hi lo n : Nat} :
    fieldOf w hi lo = n ↔ ∀ i, (decide (i < hi + 1 - lo) && w.toNat.testBit (lo + i)) = n.testBit i := by
  simp only [fieldOf, ← testBit_bitsOf]
  exact ⟨fun h i => by rw [h], Nat.eq_of_testBit_eq⟩

/-- A field depends on its own bits alone. -/
theorem fieldOf_congr {w w' : W32} {hi lo : Nat} (h : ∀ b, lo ≤ b → b ≤ hi → w.toNat.testBit b = w'.toNat.testBit b) :
    fieldOf w hi lo = fieldOf w' hi lo := by
  refine fieldOf_eq_iff.mpr fun i => ?_
  rw [fieldOf, testBit_bitsOf]
  by_cases hi' : i < hi + 1 - lo
  · rw [h (lo + i) (by omega) (by omega)]
  · simp [hi']

theorem fieldOf_withField_same {hi lo : Nat} (h : lo ≤ hi) (hh : hi < 32) (w : W32) (v : Nat) :
    fieldOf (withField w hi lo v) hi lo = v % 2 ^ (hi + 1 - lo) := by
  refine fieldOf_eq_iff.mpr fun i => ?_
  rw [Nat.testBit_mod_two_pow]
  by_cases hi' : i < hi + 1 - lo
  · rw [testBit_withField h (by omega), if_pos (by omega), Nat.add_sub_cancel_left]
  · simp [hi']

theorem fieldOf_withField_ne {hi lo hi' lo' : Nat} (h : lo ≤ hi) (hh : hi' < 32) (hd : hi' < lo ∨ hi < lo') (w : W32) (v : Nat) :
    fieldOf (withField w hi lo v) hi' lo' = fieldOf w hi' lo' :=
  fieldOf_congr fun b h1 h2 => by rw [testBit_withField h (by omega), if_neg (by omega)]

/-- Setting bits outside a field leaves it. -/
theorem fieldOf_or {hi lo : Nat} (hh : hi < 32) (w : W32) {bits : Nat} (hz : bitsOf bits lo (hi + 1 - lo) = 0) :
    fieldOf (BitVec.ofNat 32 (w.toNat ||| bits)) hi lo = fieldOf w hi lo := by
  refine fieldOf_congr fun b h1 h2 => ?_
  have : bits.testBit b = false := by
    simpa using testBit_eq_of_bitsOf_eq (y := 0) (b := b) (by rw [hz]; simp [bitsOf]) h1 (by omega)
  rw [testBit_ofNat_word (by omega), Nat.testBit_or, this, Bool.or_false]

/-! ### What a written field makes of a register (R8) -/

section
variable {old v hw : Nat} {o tamp : Bool} (p : Plan) {f : Field}

/-- A field that software writes freely takes the written bits. -/
theorem testBit_planField_rw (ha : f.acc = .rw) (hlegal : f.legal = []) (hf : f.lo ≤ f.hi) (b : Nat) :
    (planField old v hw o tamp p f).word.testBit b = if f.lo ≤ b ∧ b ≤ f.hi then v.testBit b else p.word.testBit b := by
  simp only [planField, ha, fieldLegal, hlegal, List.isEmpty_nil, Bool.true_or, if_true, testBit_putField hf, testBit_bitsOf]
  by_cases hb : f.lo ≤ b ∧ b ≤ f.hi
  · have h1 : b - f.lo < f.hi + 1 - f.lo := by omega
    simp [hb, h1]
  · simp [hb]

/-- A sticky field keeps the bits that are not written as 1, and those that hardware set in the same cycle (R9). -/
theorem testBit_planField_w1c (ha : f.acc = .w1c) (hf : f.lo ≤ f.hi) (b : Nat) :
    (planField old v hw o tamp p f).word.testBit b =
      if f.lo ≤ b ∧ b ≤ f.hi then (old.testBit b && (!v.testBit b || hw.testBit b)) else p.word.testBit b := by
  simp only [planField, ha, testBit_putField hf, Nat.testBit_or, testBit_sub_and, Nat.testBit_and, testBit_bitsOf]
  by_cases hb : f.lo ≤ b ∧ b ≤ f.hi
  · have h1 : b - f.lo < f.hi + 1 - f.lo := by omega
    simp [hb, h1, Bool.and_or_distrib_left]
  · simp [hb]

/-- A read-only field stays. -/
theorem planField_ro (ha : f.acc = .ro) : planField old v hw o tamp p f = p := by simp [planField, ha]

/-- Outside its time a field that only the loader writes stays, and a value other than its own is a violation (R439, R440). -/
theorem planField_closed (ha : f.acc = .rwb) (hlegal : f.legal = []) :
    planField old v hw false false p f =
      { p with viol := p.viol || decide (bitsOf v f.lo (f.hi + 1 - f.lo) ≠ bitsOf old f.lo (f.hi + 1 - f.lo)) } := by
  simp [planField, ha, fieldLegal, hlegal]

end

/-- The same for the fields of a register. -/
theorem planFold_closed {old v hw : Nat} (l : List Field) (hl : ∀ f ∈ l, f.acc = .rwb ∧ f.legal = []) (p : Plan) :
    l.foldl (planField old v hw false false) p =
      { p with viol := p.viol || l.any fun f => decide (bitsOf v f.lo (f.hi + 1 - f.lo) ≠ bitsOf old f.lo (f.hi + 1 - f.lo)) } := by
  induction l generalizing p with
  | nil => simp
  | cons f l ih =>
    obtain ⟨ha, hlegal⟩ := hl f (by simp)
    rw [List.foldl_cons, planField_closed p ha hlegal, ih fun g hg => hl g (List.mem_cons_of_mem _ hg)]
    simp [Bool.or_assoc]

/-- A word merged with itself is the word. -/
theorem mergeRwb_self (n : RegName) (w : Nat) : mergeRwb n w w = BitVec.ofNat 32 w := by
  have h (m : Nat) : w - (w &&& m) ||| w &&& m = w := Nat.eq_of_testBit_eq fun i => by
    rw [Nat.testBit_or, testBit_sub_and, Nat.testBit_and]
    cases w.testBit i <;> cases m.testBit i <;> rfl
  rw [mergeRwb, h]

end Sys2Proof.Machine
end

section
/-! SUPPORT. The records of a reserved access and of a tamp violation, and what they leave (R15, R16, R439, R440). -/

namespace Sys2Proof.Machine

section
variable (s : State)

/-- Hardware sets a register and no other. -/
theorem kget_setReg_ne {n : RegName} {i j o : Nat} (v : W32) (h : o ≠ regOff n i j) :
    kget (s.setReg n v i j).regs o = kget s.regs o := kget_kput_ne _ _ h

theorem kget_raise_ne {n : RegName} {i j o : Nat} (t bits : Nat) (h : o ≠ regOff n i j) :
    kget (s.raise t n bits i j).regs o = kget s.regs o := kget_kput_ne _ _ h

/-- Bits that hardware sets are set, and the others stay. -/
theorem bit_raise_same (t : Nat) (n : RegName) (bits i j : Nat) {b : Nat} (hb : b < 32) :
    (s.raise t n bits i j).bit n b i j = (s.bit n b i j || bitOf bits b) := by
  rw [State.bit, reg_raise_same, bitOf, testBit_ofNat_word hb, Nat.testBit_or]
  rfl

/-- A field outside the bits that hardware sets stays. -/
theorem fld_raise_same (t : Nat) (n : RegName) {bits hi lo : Nat} (i j : Nat) (hh : hi < 32)
    (hz : bitsOf bits lo (hi + 1 - lo) = 0) : (s.raise t n bits i j).fld n hi lo i j = s.fld n hi lo i j := by
  rw [State.fld, reg_raise_same, fieldOf_or hh _ hz]
  rfl

theorem fld_setFld_same (n : RegName) {hi lo : Nat} (v i j : Nat) (h : lo ≤ hi) (hh : hi < 32) :
    (s.setFld n hi lo v i j).fld n hi lo i j = v % 2 ^ (hi + 1 - lo) := by
  rw [State.fld, reg_setFld_same, fieldOf_withField_same h hh]

theorem fld_setFld_ne (n : RegName) {hi lo hi' lo' : Nat} (v i j : Nat) (h : lo ≤ hi) (hh : hi' < 32) (hd : hi' < lo ∨ hi < lo') :
    (s.setFld n hi lo v i j).fld n hi' lo' i j = s.fld n hi' lo' i j := by
  rw [State.fld, reg_setFld_same, fieldOf_withField_ne h hh hd]
  rfl

/-! ### Reserved accesses -/

theorem rsvdRecord_valid (ini : Ini) (off t : Nat) : (rsvdRecord s ini off t).bit .sysRsvdSticky 0 = true := by
  unfold rsvdRecord
  split
  · next h => rw [bit_raise_same _ _ _ _ _ _ (by decide), h, Bool.true_or]
  · rw [bit_raise_same _ _ _ _ _ _ (by decide)]
    exact Bool.or_true _

theorem rsvdRecord_mem (ini : Ini) (off t : Nat) : (rsvdRecord s ini off t).mem = s.mem := by
  unfold rsvdRecord
  split <;> rfl

/-- Recording writes the two registers of the record and no other. -/
theorem kget_rsvdRecord_ne (ini : Ini) (off t : Nat) {o : Nat} (h : o ≠ 0x40) (ha : o ≠ 0x44) :
    kget (rsvdRecord s ini off t).regs o = kget s.regs o := by
  have h' : o ≠ regOff .sysRsvdSticky 0 0 := h
  have ha' : o ≠ regOff .sysRsvdAddr 0 0 := ha
  unfold rsvdRecord
  split
  · exact kget_raise_ne _ _ _ h'
  · rw [kget_raise_ne _ _ _ h', State.setFld, kget_setReg_ne _ _ h', kget_setReg_ne _ _ ha']

/-- While an access is recorded, a later one sets multi and leaves its address. -/
theorem rsvdRecord_again (ini : Ini) (off t : Nat) (h : s.bit .sysRsvdSticky 0 = true) :
    (rsvdRecord s ini off t).bit .sysRsvdSticky 1 = true ∧ (rsvdRecord s ini off t).reg .sysRsvdAddr = s.reg .sysRsvdAddr := by
  rw [rsvdRecord, if_pos h]
  exact ⟨by rw [bit_raise_same _ _ _ _ _ _ (by decide)]; exact Bool.or_true _, reg_raise_ne _ _ _ (by decide)⟩

/-- The first access leaves its word's offset and its initiator. -/
theorem rsvdRecord_first (ini : Ini) {off : Nat} (t : Nat) (hoff : off % 4 = 0) (h : s.bit .sysRsvdSticky 0 = false) :
    (rsvdRecord s ini off t).reg .sysRsvdAddr = BitVec.ofNat 32 off ∧
      (rsvdRecord s ini off t).fld .sysRsvdSticky 3 2 = iniCode ini := by
  rw [rsvdRecord, if_neg (by simp [h]), Nat.div_mul_cancel (Nat.dvd_of_mod_eq_zero hoff)]
  constructor
  · rw [reg_raise_ne _ _ _ (by decide), reg_setFld_ne _ _ _ _ (by decide), reg_setReg_same]
  · rw [fld_raise_same _ _ _ _ _ (by decide) (by decide), fld_setFld_same _ _ _ _ _ (by decide) (by decide)]
    cases ini <;> rfl

/-! ### Tamp violations -/

/-- The record of a tamp violation, before its source is pulsed. -/
def tampRecord (ini : Ini) (off t : Nat) : State :=
  if s.bit .sysTampViol 0 then s.raise t .sysTampViol 3
  else ((s.setFld .sysTampViol 31 8 (off / 4)).setFld .sysTampViol 3 2 (iniCode ini)).raise t .sysTampViol 1

theorem tampViolation_eq (ini : Ini) (off t : Nat) : tampViolation s ini off t = pulse (tampRecord s ini off t) 4 t := rfl

/-- The pulse leaves every register outside ORL_PENDk. -/
theorem reg_tampViolation (ini : Ini) (off t : Nat) (n : RegName) (i j : Nat)
    (hn : ¬ (0x10200 ≤ regOff n i j ∧ regOff n i j < 0x10280)) :
    (tampViolation s ini off t).reg n i j = (tampRecord s ini off t).reg n i j :=
  (pulse_railOnly _ t (by decide)).reg n i j hn

/-- A violation leaves every register but its record and ORL_PENDk. -/
theorem reg_tampViolation_ne (ini : Ini) (off t : Nat) (n : RegName) (i j : Nat)
    (hn : ¬ (0x10200 ≤ regOff n i j ∧ regOff n i j < 0x10280)) (hv : regOff n i j ≠ 0x54) :
    (tampViolation s ini off t).reg n i j = s.reg n i j := by
  have hv' : regOff n i j ≠ regOff .sysTampViol 0 0 := hv
  rw [reg_tampViolation s ini off t n i j hn, tampRecord]
  split
  · exact reg_raise_ne _ _ _ hv'
  · rw [reg_raise_ne _ _ _ hv', reg_setFld_ne _ _ _ _ hv', reg_setFld_ne _ _ _ _ hv']

theorem tampViolation_mem (ini : Ini) (off t : Nat) : (tampViolation s ini off t).mem = s.mem := by
  have h : (tampRecord s ini off t).mem = s.mem := by
    unfold tampRecord
    split <;> rfl
  rw [tampViolation_eq, (pulse_railOnly _ t (by decide)).eq, h]

theorem tampViolation_valid (ini : Ini) (off t : Nat) : (tampViolation s ini off t).bit .sysTampViol 0 = true := by
  rw [State.bit, reg_tampViolation s ini off t _ _ _ (by decide)]
  change (tampRecord s ini off t).bit .sysTampViol 0 = true
  unfold tampRecord
  split
  · next h => rw [bit_raise_same _ _ _ _ _ _ (by decide), h, Bool.true_or]
  · rw [bit_raise_same _ _ _ _ _ _ (by decide)]
    exact Bool.or_true _

/-- The first violation leaves its word's index and its initiator. -/
theorem tampViolation_first (ini : Ini) (off t : Nat) (h : s.bit .sysTampViol 0 = false) :
    (tampViolation s ini off t).fld .sysTampViol 31 8 = off / 4 % 2 ^ 24 ∧
      (tampViolation s ini off t).fld .sysTampViol 3 2 = iniCode ini := by
  simp only [State.fld, reg_tampViolation s ini off t .sysTampViol 0 0 (by decide)]
  change (tampRecord s ini off t).fld .sysTampViol 31 8 = _ ∧ (tampRecord s ini off t).fld .sysTampViol 3 2 = _
  rw [tampRecord, if_neg (by simp [h])]
  constructor
  · rw [fld_raise_same _ _ _ _ _ (by decide) (by decide), fld_setFld_ne _ _ _ _ _ (by decide) (by decide) (by decide),
      fld_setFld_same _ _ _ _ _ (by decide) (by decide)]
  · rw [fld_raise_same _ _ _ _ _ (by decide) (by decide), fld_setFld_same _ _ _ _ _ (by decide) (by decide)]
    cases ini <;> rfl

/-- A violation does not open the loader's time (R439). -/
theorem rwbOpen_tampViolation (ini i : Ini) (off t : Nat) {n : RegName} (hn : n ≠ .tmrPourCfg) :
    rwbOpen (tampViolation s ini off t) i n = rwbOpen s i n := by
  simp only [rwbOpen, inBoot, State.tamped, State.bit, beq_eq_false_iff_ne.mpr hn,
    reg_tampViolation_ne s ini off t .barStat 0 0 (by decide) (by decide),
    reg_tampViolation_ne s ini off t .sysTamp 0 0 (by decide) (by decide)]
  rfl

end

end Sys2Proof.Machine
end

section
/-! PROOF. REGISTER_WRITE: what a word written at an offset of the region does (R7, R8, R12, R14 to R16, R439, R440). -/

namespace Sys2Proof.Machine

/-- A REGISTER_WRITE on the running clock. -/
theorem exec_registerWrite {s r : State} {t : Nat} (h : runsAt s t r) (ini : Ini) (off : Nat) (v : W32) :
    exec (.registerWrite t ini off v) s =
      .next (upTo 0x2000000 off r fun s => if off % 4 = 0 then busWrite s ini off v t else s.answer ini [] true) :=
  congrArg _ (awake_runs h _)

/-- A whole word at an offset of the region goes to the bus. -/
theorem exec_registerWrite_word {s r : State} {t : Nat} (h : runsAt s t r) (ini : Ini) {off : Nat} (v : W32) (hlt : off < 0x2000000)
    (h4 : off % 4 = 0) : exec (.registerWrite t ini off v) s = .next (busWrite r ini off v t) := by
  rw [exec_registerWrite h, upTo_lt hlt, if_pos h4]

/-- A word that no register takes is recorded (R14, R15). -/
theorem busWrite_unmapped {s : State} {ini : Ini} {off : Nat} {v : W32} {t : Nat} (hb : blockHeld s off = false)
    (hl : lookupReg off = none) : busWrite s ini off v t = rsvdRecord s ini off t := by
  simp [busWrite, hb, hl]

/-- A word written off the registers changes none but the record, which the first access takes (R14 to R16). -/
theorem registerWrite_unmapped {s r : State} {t : Nat} (h : runsAt s t r) (ini : Ini) {off : Nat} (v : W32) (hlt : off < 0x2000000)
    (h4 : off % 4 = 0) (hb : blockHeld r off = false) (hl : lookupReg off = none) :
    completes (.registerWrite t ini off v) s fun u =>
      u.bit .sysRsvdSticky 0 = true ∧ u.mem = r.mem ∧ (∀ o, o ≠ 0x40 → o ≠ 0x44 → kget u.regs o = kget r.regs o) ∧
      if r.bit .sysRsvdSticky 0 = true then u.bit .sysRsvdSticky 1 = true ∧ u.reg .sysRsvdAddr = r.reg .sysRsvdAddr
      else u.reg .sysRsvdAddr = BitVec.ofNat 32 off ∧ u.fld .sysRsvdSticky 3 2 = iniCode ini := by
  refine ⟨_, exec_registerWrite_word h ini v hlt h4, ?_⟩
  rw [busWrite_unmapped hb hl]
  refine ⟨rsvdRecord_valid r ini off t, rsvdRecord_mem r ini off t, fun o h1 h2 => kget_rsvdRecord_ne r ini off t h1 h2, ?_⟩
  split
  · next hset => exact rsvdRecord_again r ini off t hset
  · next hset => exact rsvdRecord_first r ini t h4 (by simpa using hset)

/-- The plan of a register none of whose fields is fixed runs through all its fields. -/
theorem planWrite_unfixed {n : RegName} {i old v hw : Nat} {o : Bool}
    (hf : (regRow n).fields.filter (fun f => !fixedField n i f) = (regRow n).fields) :
    planWrite n i old v hw o = (regRow n).fields.foldl (planField old v hw o (n == .sysTamp))
      { word := old, rwb := old
        rsvd := decide (fieldBits n v ≠ v % 2 ^ 32) || !wordLegal n v || (n == .sysCfail && i == 2 && decide (16 ≤ v)), viol := false } := by
  rw [planWrite, hf]

/-! ### A register that software writes freely -/

theorem regOff_tmrCapCfg (c : Nat) : regOff .tmrCapCfg c 0 = 0x20200 + 16 * c := by simp [regOff, regRow]

theorem fieldBits_tmrCapCfg {v : Nat} (hv : v < 256) : fieldBits .tmrCapCfg v = v := by
  simp only [fieldBits, regRow, fd, List.foldl, bitsOf, Nat.shiftRight_eq_div_pow]
  omega

/-- No bit and no value of the low byte of TMR_CAPc_CFG is reserved. -/
theorem reservedIn_tmrCapCfg (c : Nat) {v : Nat} (hv : v < 256) : reservedIn .tmrCapCfg c v = false := by
  rw [reservedIn, planWrite_unfixed rfl, fieldBits_tmrCapCfg hv, Nat.mod_eq_of_lt (by omega)]
  simp [regRow, planField, fieldLegal, wordLegal]

/-- The three fields of TMR_CAPc_CFG take the low byte of the written word. -/
theorem testBit_plan_tmrCapCfg (c old v hw : Nat) (o : Bool) {b : Nat} (hb : b < 8) :
    (planWrite .tmrCapCfg c old v hw o).word.testBit b = v.testBit b := by
  rw [planWrite_unfixed rfl]
  simp only [regRow, List.foldl_cons, List.foldl_nil, testBit_planField_rw, le_refl, Nat.reduceLeDiff]
  grind

/-- So its low byte is then the written one. -/
theorem fieldOf_plan_tmrCapCfg (c old hw : Nat) (o : Bool) {v : Nat} (hv : v < 256) :
    fieldOf (BitVec.ofNat 32 (planWrite .tmrCapCfg c old v hw o).word) 7 0 = v := by
  refine fieldOf_eq_iff.mpr fun b => ?_
  by_cases hb : b < 8
  · rw [testBit_ofNat_word (by omega), Nat.zero_add, testBit_plan_tmrCapCfg _ _ _ _ _ hb]
    simp [hb]
  · rw [Nat.testBit_lt_two_pow (Nat.lt_of_lt_of_le hv (Nat.pow_le_pow_right (n := 2) (i := 8) (by decide) (by omega)))]
    simp [hb]

/-- A legal word goes into a register that software writes freely, and nothing else changes (R8, R9). -/
theorem registerWrite_tmrCapCfg {s r : State} {t : Nat} (h : runsAt s t r) (ini : Ini) {c : Nat} (hc : c < 32) {v : W32}
    (hv : v.toNat < 256) : completes (.registerWrite t ini (0x20200 + 16 * c) v) s fun u =>
      u = (noted r t .tmrCapCfg c).setReg .tmrCapCfg (u.reg .tmrCapCfg c) c ∧ u.fld .tmrCapCfg 7 0 c = v.toNat := by
  have hl : ∀ k < 32, lookupReg (regOff .tmrCapCfg k 0) = some (.tmrCapCfg, k, 0) := by decide
  have hoff := regOff_tmrCapCfg c
  have hw := busWrite_plain (s := r) (ini := ini) (t := t) (hl c hc) (blockHeld_low r (by omega)) rfl rfl
    (reservedIn_tmrCapCfg c hv)
  refine ⟨_, exec_registerWrite_word h ini v (by omega) (by omega), ?_⟩
  rw [← hoff, hw]
  constructor
  · exact congrArg (fun w => (noted r t .tmrCapCfg c).setReg .tmrCapCfg w c) (reg_setReg_same _ _ _ _ _).symm
  · exact (congrArg (fieldOf · 7 0) (reg_setReg_same _ _ _ _ _)).trans (fieldOf_plan_tmrCapCfg _ _ _ _ hv)

/-! ### Sticky bits -/

/-- Bits 0 and 1 of PWR_LF are cleared by a written 1, and its other bits stay (R8, R9). -/
theorem testBit_plan_pwrLf (old v hw : Nat) (o : Bool) (b : Nat) :
    (planWrite .pwrLf 0 old v hw o).word.testBit b =
      if b < 2 then (old.testBit b && (!v.testBit b || hw.testBit b)) else old.testBit b := by
  rw [planWrite_unfixed rfl]
  simp only [regRow, List.foldl_cons, List.foldl_nil, planField_ro, testBit_planField_w1c, le_refl]
  grind

/-- A written 1 clears a sticky bit that the hardware does not set in this cycle, and no other bit changes (R8, R9). -/
theorem registerWrite_pwrLf {s r : State} {t : Nat} (h : runsAt s t r) (ini : Ini) {v : W32} (hv : v.toNat < 4) :
    completes (.registerWrite t ini 0xB0020 v) s fun u =>
      (∀ b < 2, u.bit .pwrLf b = (r.bit .pwrLf b && (!bitOf v.toNat b || bitOf (r.hwBits t 0xB0020) b))) ∧
      u.fld .pwrLf 31 2 = r.fld .pwrLf 31 2 ∧ u.mem = r.mem := by
  have hr : ∀ n < 4, reservedIn .pwrLf 0 n = false := by decide
  have hl : lookupReg (regOff .pwrLf 0 0) = some (.pwrLf, 0, 0) := by decide
  have hw := busWrite_plain (s := r) (ini := ini) (t := t) hl (blockHeld_low r (by decide)) rfl rfl (hr _ hv)
  refine ⟨_, (exec_registerWrite_word h ini v (by decide) (by decide)).trans (congrArg _ hw), fun b hb => ?_, ?_, rfl⟩
  · refine (congrArg (fun w : W32 => bitOf w.toNat b) (reg_setReg_same _ _ _ _ _)).trans ?_
    rw [bitOf, testBit_ofNat_word (by omega), testBit_plan_pwrLf, if_pos hb]
    rfl
  · refine (congrArg (fieldOf · 31 2) (reg_setReg_same _ _ _ _ _)).trans (fieldOf_congr fun b h1 h2 => ?_)
    rw [testBit_ofNat_word (by omega), testBit_plan_pwrLf, if_neg (by omega)]
    rfl

/-! ### Fields that only the loader writes -/

/-- A write outside the loader's time to a register all of whose fields only the loader writes leaves it; one that would change a
field is a violation (R439, R440). -/
theorem busWrite_violation {s : State} {ini : Ini} {n : RegName} {i j : Nat} {v : W32} {t : Nat}
    (hl : lookupReg (regOff n i j) = some (n, i, j)) (hb : blockHeld s (regOff n i j) = false) (hn : n ≠ .tmrPourCfg)
    (ho : rwbOpen s ini n = false) {p : Plan}
    (hp : planWrite n i (regView s n i j t).toNat v.toNat (s.hwBits t (regOff n i j)) false = p)
    (hr : p.rsvd = false) (hv : p.viol = true) :
    busWrite s ini (regOff n i j) v t =
      regStore (tampViolation (s.noteReg t (regOff n i j) (s.reg n i j)) ini (regOff n i j) t) ini n i j (cleanWord n v.toNat)
        (mergeRwb n p.word p.rwb) t := by
  have ho' : rwbOpen (tampViolation (s.noteReg t (regOff n i j) (s.reg n i j)) ini (regOff n i j) t) ini n = false :=
    (rwbOpen_tampViolation _ ini ini _ t hn).trans ho
  simp only [busWrite, hb, hl, ho, hp, hr, hv, Bool.false_and, Bool.false_eq_true, if_false, if_true, ho']

/-- A word that has no bit of a mask. -/
theorem testBit_eq_false_of_and_eq_zero {v m b : Nat} (hz : v &&& m = 0) (hm : m.testBit b = true) : v.testBit b = false := by
  have := congrArg (fun n => n.testBit b) hz
  simpa only [Nat.testBit_and, hm, Bool.and_true, Nat.zero_testBit] using this

/-- A word whose reserved bits of SYS_LCLASSk are 0 is the sum of its fields. -/
theorem fieldBits_sysLclass {v : Nat} (hlt : v < 2 ^ 32) (hz : v &&& 0x88888888 = 0) : fieldBits .sysLclass v = v := by
  have hbit (b : Nat) (hb : Nat.testBit 0x88888888 b = true) : v / 2 ^ b % 2 = 0 := by
    simpa [Nat.testBit_eq_decide_div_mod_eq] using testBit_eq_false_of_and_eq_zero hz hb
  have h0 := hbit 3 (by decide)
  have h1 := hbit 7 (by decide)
  have h2 := hbit 11 (by decide)
  have h3 := hbit 15 (by decide)
  have h4 := hbit 19 (by decide)
  have h5 := hbit 23 (by decide)
  have h6 := hbit 27 (by decide)
  have h7 := hbit 31 (by decide)
  simp only [fieldBits, regRow, fd, List.foldl, bitsOf, Nat.shiftRight_eq_div_pow]
  omega

/-- A word that differs from the classes in effect differs in a field. -/
theorem sysLclass_field_ne {old v : Nat} (hlt : v < 2 ^ 32) (hz : v &&& 0x88888888 = 0) (hne : old &&& 0x77777777 ≠ v) :
    ∃ f ∈ (regRow .sysLclass).fields, bitsOf v f.lo (f.hi + 1 - f.lo) ≠ bitsOf old f.lo (f.hi + 1 - f.lo) := by
  have hcover : ∀ b < 32, if Nat.testBit 0x77777777 b then ∃ f ∈ (regRow .sysLclass).fields, f.lo ≤ b ∧ b ≤ f.hi
      else Nat.testBit 0x88888888 b = true := by decide
  by_contra! hall
  refine hne (Nat.eq_of_testBit_eq fun b => ?_)
  rw [Nat.testBit_and]
  by_cases hb : b < 32
  · have h := hcover b hb
    cases hm : Nat.testBit 0x77777777 b
    · simp only [hm, Bool.false_eq_true, if_false] at h
      rw [Bool.and_false, testBit_eq_false_of_and_eq_zero hz h]
    · simp only [hm, if_true] at h
      obtain ⟨f, hf, h1, h2⟩ := h
      rw [Bool.and_true, testBit_eq_of_bitsOf_eq (hall f hf) h1 (by omega)]
  · have hpow : 2 ^ 32 ≤ 2 ^ b := Nat.pow_le_pow_right (by decide) (by omega)
    rw [Nat.testBit_lt_two_pow (Nat.lt_of_lt_of_le hlt hpow),
      Nat.testBit_lt_two_pow (Nat.lt_of_lt_of_le (by decide : 0x77777777 < 2 ^ 32) hpow), Bool.and_false]

/-- The plan of such a word outside the loader's time: a violation that stores nothing. -/
theorem plan_sysLclass_closed (k hw : Nat) {old v : Nat} (hlt : v < 2 ^ 32) (hz : v &&& 0x88888888 = 0)
    (hne : old &&& 0x77777777 ≠ v) :
    planWrite .sysLclass k old v hw false = { word := old, rwb := old, rsvd := false, viol := true } := by
  have hviol : ((regRow .sysLclass).fields.any fun f =>
      decide (bitsOf v f.lo (f.hi + 1 - f.lo) ≠ bitsOf old f.lo (f.hi + 1 - f.lo))) = true := by
    simpa only [List.any_eq_true, decide_eq_true_eq] using sysLclass_field_ne hlt hz hne
  rw [planWrite_unfixed rfl]
  refine (planFold_closed _ (by decide) _).trans ?_
  rw [hviol, fieldBits_sysLclass hlt hz, Nat.mod_eq_of_lt hlt]
  simp [wordLegal]

theorem regOff_sysLclass (k : Nat) : regOff .sysLclass k 0 = 0x80 + 4 * k := by simp [regOff, regRow]

/-- Such a write stores the classes in effect, after the record of the violation (R439, R440). -/
theorem busWrite_sysLclass_closed {r : State} {ini : Ini} {k : Nat} {v : W32} (t : Nat) (hk : k < 8)
    (hz : v.toNat &&& 0x88888888 = 0) (ho : rwbOpen r ini .sysLclass = false)
    (hne : (r.reg .sysLclass k).toNat &&& 0x77777777 ≠ v.toNat) :
    busWrite r ini (0x80 + 4 * k) v t =
      (tampViolation (noted r t .sysLclass k) ini (0x80 + 4 * k) t).setReg .sysLclass (r.reg .sysLclass k) k := by
  have hl : ∀ k < 8, lookupReg (regOff .sysLclass k 0) = some (.sysLclass, k, 0) := by decide
  have hoff := regOff_sysLclass k
  have hp := plan_sysLclass_closed k (r.hwBits t (regOff .sysLclass k 0)) v.isLt hz hne
  rw [← hoff, busWrite_violation (hl k hk) (blockHeld_low r (by omega)) (by decide) ho hp rfl rfl, mergeRwb_self,
    BitVec.ofNat_toNat, BitVec.setWidth_eq]
  rfl

/-- Outside the loader's time a write that would change a tamped field leaves it and is recorded as a violation. -/
theorem registerWrite_sysLclass {s r : State} {t : Nat} (h : runsAt s t r) {ini : Ini} {k : Nat} {v : W32} (hk : k < 8)
    (hz : v.toNat &&& 0x88888888 = 0) (ho : rwbOpen r ini .sysLclass = false)
    (hne : (r.reg .sysLclass k).toNat &&& 0x77777777 ≠ v.toNat) :
    completes (.registerWrite t ini (0x80 + 4 * k) v) s fun u =>
      u.reg .sysLclass k = r.reg .sysLclass k ∧ u.bit .sysTampViol 0 = true ∧ u.mem = r.mem ∧
      (r.bit .sysTampViol 0 = false → u.fld .sysTampViol 31 8 = (0x80 + 4 * k) / 4 ∧
        u.fld .sysTampViol 3 2 = iniCode ini) := by
  have hviol : regOff .sysTampViol 0 0 ≠ regOff .sysLclass k 0 := by
    rw [regOff_sysLclass]
    change 0x54 ≠ _
    omega
  refine ⟨_, exec_registerWrite_word h ini v (by omega) (by omega), ?_⟩
  rw [busWrite_sysLclass_closed t hk hz ho hne]
  simp only [State.bit, State.fld, reg_setReg_ne _ _ hviol]
  refine ⟨reg_setReg_same _ _ _ _ _, tampViolation_valid _ ini _ t, tampViolation_mem (noted r t .sysLclass k) ini _ t, fun hfirst => ?_⟩
  obtain ⟨hword, hini⟩ := tampViolation_first (noted r t .sysLclass k) ini (0x80 + 4 * k) t hfirst
  exact ⟨hword.trans (Nat.mod_eq_of_lt (by omega)), hini⟩

/-- Settles O49, kind of offset by kind of offset: past the region nothing happens (the model's choice, log entry 18), then the
lemmas above. -/
theorem registerWrites : Obligations.RegisterWrites := by
  unfold Obligations.RegisterWrites
  intro s r t ini h
  refine ⟨fun off v => ⟨fun hoff => ?_, fun hlt h4 => ?_⟩, fun off v hlt h4 hb hl => ?_,
    fun c v hc hv => registerWrite_tmrCapCfg h ini hc hv, fun v hv => registerWrite_pwrLf h ini hv, fun k v hk hz ho hne => ?_⟩
  · rw [exec_registerWrite h, upTo, if_neg (by omega)]
  · rw [exec_registerWrite h, upTo_lt hlt, if_neg h4]
  · exact registerWrite_unmapped h ini v hlt h4 hb hl
  · exact registerWrite_sysLclass h hk hz (by simpa [rwbOpen] using ho) hne

end Sys2Proof.Machine
end

section
/-! SUPPORT. What every command keeps: the lemmas of the commands put together over the dispatch (R24, R28). -/

namespace Sys2Proof.Machine

/-- No command changes what `Kept` speaks of. -/
theorem exec_kept {s u : State} (c : Instr) (h : exec c s = .next u) : Kept s u :=
  match c with
  | .tick .. => execTick_kept _ s h
  | .bundleIssue .. => execBundleIssue_kept _ _ _ s h
  | .unitResultDelivery .. => execUnitResultDelivery_kept _ _ s h
  | .accumulatorLanding .. => execAccumulatorLanding_kept _ _ s h
  | .loadDelivery .. => execLoadDelivery_kept _ _ s h
  | .bmoveEnd .. => execBmoveEnd_kept _ _ s h
  | .carafeLoadReady .. => execCarafeLoadReady_kept _ _ s h
  | .carafeGrant .. => execCarafeGrant_kept _ _ _ _ s h
  | .storeBufferPerformed .. => execStoreBufferPerformed_kept _ _ s h
  | .sendItemStored .. => execSendItemStored_kept _ _ s h
  | .receiveItemDelivered .. => execReceiveItemDelivered_kept _ _ _ s h
  | .receiveTimeout .. => execReceiveTimeout_kept _ _ _ s h
  | .entry .. => execEntry_kept _ _ s h
  | .sourceEvent .. => execSourceEvent_kept _ _ _ s h
  | .coalesceTimeRelease .. => execCoalesceTimeRelease_kept _ _ s h
  | .pendingWrite .. => execPendingWrite_kept _ _ _ _ s h
  | .inServiceComplete .. => execInServiceComplete_kept _ _ _ _ s h
  | .baristaClaim .. => execBaristaClaim_kept _ s h
  | .channelArm .. => execChannelArm_kept _ _ _ _ s h
  | .channelDisarm .. => execChannelDisarm_kept _ _ _ _ s h
  | .compareStage .. => execCompareStage_kept _ _ _ _ s h
  | .compareCommit .. => execCompareCommit_kept _ _ _ _ s h
  | .groupStart .. => execGroupStart_kept _ _ _ s h
  | .channelMatch .. => execChannelMatch_kept _ _ s h
  | .channelOverflow .. => execChannelOverflow_kept _ _ s h
  | .snapshotNtc .. => execSnapshotNtc_kept _ _ s h
  | .snapshotSharedChannel .. => execSnapshotSharedChannel_kept _ _ _ s h
  | .snapshotPrivateChannel .. => execSnapshotPrivateChannel_kept _ _ _ s h
  | .captureEvent .. => execCaptureEvent_kept _ _ _ s h
  | .captureRead .. => execCaptureRead_kept _ _ _ s h
  | .ringTimeLost .. => execRingTimeLost_kept _ s h
  | .descriptorWrite .. => execDescriptorWrite_kept _ _ _ _ _ s h
  | .initiatorSend .. => execInitiatorSend_kept _ _ _ s h
  | .initiatorReceive .. => execInitiatorReceive_kept _ _ _ s h
  | .initiatorOpEnd .. => execInitiatorOpEnd_kept _ _ s h
  | .inputPlacement .. => execInputPlacement_kept _ _ _ s h
  | .scheduledForward .. => execScheduledForward_kept _ _ s h
  | .itemAgeTimeout .. => execItemAgeTimeout_kept _ _ s h
  | .heartbeatReceived .. => execHeartbeatReceived_kept _ _ s h
  | .supervisionExpiry .. => execSupervisionExpiry_kept _ _ s h
  | .remoteFaultReceived .. => execRemoteFaultReceived_kept _ _ s h
  | .portWrap .. => execPortWrap_kept _ _ s h
  | .portReturned .. => execPortReturned_kept _ _ s h
  | .ringFrameReceived .. => execRingFrameReceived_kept _ _ _ _ s h
  | .beaconSend .. => execBeaconSend_kept _ _ s h
  | .delayRequestSend .. => execDelayRequestSend_kept _ _ s h
  | .epochGrantSend .. => execEpochGrantSend_kept _ _ s h
  | .upstreamTimeout .. => execUpstreamTimeout_kept _ _ s h
  | .islandLeaderElection .. => execIslandLeaderElection_kept _ _ s h
  | .trainOrigin .. => execTrainOrigin_kept _ _ _ _ s h
  | .groupMissing .. => execGroupMissing_kept _ _ _ _ s h
  | .unreservedFrameSend .. => execUnreservedFrameSend_kept _ _ s h
  | .mailboxSend .. => execMailboxSend_kept _ _ s h
  | .controlTransmit .. => execControlTransmit_kept _ _ _ s h
  | .edgeFrameReceived .. => execEdgeFrameReceived_kept _ _ _ s h
  | .edgeStreamTransmit .. => execEdgeStreamTransmit_kept _ _ s h
  | .streamSilent .. => execStreamSilent_kept _ _ s h
  | .crmLive .. => execCrmLive_kept _ _ _ s h
  | .startNightSweep .. => execStartNightSweep_kept _ _ _ s h
  | .crmOff .. => execCrmOff_kept _ _ _ s h
  | .startReflectometry .. => execStartReflectometry_kept _ _ _ s h
  | .velocityCalibration .. => execVelocityCalibration_kept _ _ _ s h
  | .abortReflectometry .. => execAbortReflectometry_kept _ _ _ s h
  | .cremaFrameEnd .. => execCremaFrameEnd_kept _ _ _ s h
  | .fastFault .. => execFastFault_kept _ _ s h
  | .liveWindowEnd .. => execLiveWindowEnd_kept _ _ _ s h
  | .nightStageAEnd .. => execNightStageAEnd_kept _ _ _ s h
  | .nightStageBEnd .. => execNightStageBEnd_kept _ _ _ s h
  | .reflectPulse .. => execReflectPulse_kept _ _ _ s h
  | .reflectRunEnd .. => execReflectRunEnd_kept _ _ s h
  | .evacDebouncedChange .. => execEvacDebouncedChange_kept _ _ s h
  | .evacMessageStart .. => execEvacMessageStart_kept _ _ s h
  | .evacMessageEnd .. => execEvacMessageEnd_kept _ _ s h
  | .bankFlipRequest .. => execBankFlipRequest_kept _ _ _ s h
  | .placementRequest .. => execPlacementRequest_kept _ _ _ s h
  | .placementComplete .. => execPlacementComplete_kept _ s h
  | .moduleResetRelease .. => execModuleResetRelease_kept _ _ _ s h
  | .imageChoice .. => execImageChoice_kept _ _ _ s h
  | .sectionApply .. => execSectionApply_kept _ s h
  | .loaderChecks .. => execLoaderChecks_kept _ s h
  | .tamp .. => execTamp_kept _ s h
  | .recoveryImageWrite .. => execRecoveryImageWrite_kept _ _ s h
  | .setGoodMark .. => execSetGoodMark_kept _ _ s h
  | .setBadMark .. => execSetBadMark_kept _ _ s h
  | .markProgrammed .. => execMarkProgrammed_kept _ s h
  | .lockstepMismatch .. => execLockstepMismatch_kept _ _ s h
  | .watchdogExpiry .. => execWatchdogExpiry_kept _ s h
  | .watchdogService .. => execWatchdogService_kept _ _ s h
  | .shadowWrite .. => execShadowWrite_kept _ s h
  | .restorePair .. => execRestorePair_kept _ _ s h
  | .restoreComplete .. => execRestoreComplete_kept _ s h
  | .warmRebootBootCopy .. => execWarmRebootBootCopy_kept _ _ s h
  | .warmRebootStaged .. => execWarmRebootStaged_kept _ _ s h
  | .warmRebootTamp .. => execWarmRebootTamp_kept _ s h
  | .keepQuote .. => execKeepQuote_kept _ _ _ s h
  | .keepCert .. => execKeepCert_kept _ _ _ s h
  | .keepRandom .. => execKeepRandom_kept _ _ _ s h
  | .sbkInstall .. => execSbkInstall_kept _ _ _ s h
  | .epochPrepare .. => execEpochPrepare_kept _ _ _ s h
  | .epochAccept .. => execEpochAccept_kept _ _ _ s h
  | .raiseFloor .. => execRaiseFloor_kept _ _ _ s h
  | .slotProgram .. => execSlotProgram_kept _ _ _ s h
  | .slotRevoke .. => execSlotRevoke_kept _ _ _ s h
  | .restoreFactory .. => execRestoreFactory_kept _ _ _ s h
  | .logRead .. => execLogRead_kept _ _ _ s h
  | .debugChallenge .. => execDebugChallenge_kept _ _ _ s h
  | .debugUnlock .. => execDebugUnlock_kept _ _ _ s h
  | .keepCommandComplete .. => execKeepCommandComplete_kept _ _ s h
  | .restoreFuseBurn .. => execRestoreFuseBurn_kept _ s h
  | .drbgReseed .. => execDrbgReseed_kept _ _ s h
  | .spdmRequest .. => execSpdmRequest_kept _ _ s h
  | .ideQuery .. => execIdeQuery_kept _ s h
  | .keyProg .. => execKeyProg_kept _ _ _ _ s h
  | .kSetGo .. => execKSetGo_kept _ _ s h
  | .kSetStop .. => execKSetStop_kept _ _ s h
  | .takeOver .. => execTakeOver_kept _ _ _ s h
  | .retireSpare .. => execRetireSpare_kept _ _ _ s h
  | .takeoverCopyComplete .. => execTakeoverCopyComplete_kept _ s h
  | .agingMeasurement .. => execAgingMeasurement_kept _ _ _ s h
  | .counterIntervalClose .. => execCounterIntervalClose_kept _ _ s h
  | .scrubLine .. => execScrubLine_kept _ _ _ s h
  | .externalPortAccess .. => execExternalPortAccess_kept _ _ _ _ _ _ _ s h
  | .registerWrite .. => execRegisterWrite_kept _ _ _ _ s h
  | .jtagAccess .. => execJtagAccess_kept _ _ s h
  | .perstDeassert .. => execPerstDeassert_kept _ _ s h
  | .linkUp .. => execLinkUp_kept _ _ _ _ s h
  | .linkDown .. => execLinkDown_kept _ _ s h
  | .flr .. => execFlr_kept _ s h
  | .dStateChange .. => execDStateChange_kept _ _ s h
  | .configRequest .. => execConfigRequest_kept _ _ s h
  | .bar0Read .. => execBar0Read_kept _ _ _ _ _ s h
  | .bar0Write .. => execBar0Write_kept _ _ _ _ _ s h
  | .bar2Read .. => execBar2Read_kept _ _ _ _ s h
  | .bar2Write .. => execBar2Write_kept _ _ _ _ s h
  | .hostRingEnable .. => execHostRingEnable_kept _ _ _ _ s h
  | .hostRingEntryWrite .. => execHostRingEntryWrite_kept _ _ s h
  | .hostRingPiWrite .. => execHostRingPiWrite_kept _ _ _ _ s h
  | .hostReadCompletion .. => execHostReadCompletion_kept _ _ _ _ _ s h
  | .hostReadTimeout .. => execHostReadTimeout_kept _ _ s h
  | .msixFire .. => execMsixFire_kept _ _ _ s h
  | .msixUnmask .. => execMsixUnmask_kept _ _ s h
  | .ideIntegrityFailure .. => execIdeIntegrityFailure_kept _ s h
  | .inputOkChange .. => execInputOkChange_kept _ _ _ _ _ s h
  | .inputReversed .. => execInputReversed_kept _ _ _ _ _ s h
  | .inputOvervoltage .. => execInputOvervoltage_kept _ _ _ _ s h
  | .inputReconnect .. => execInputReconnect_kept _ _ _ _ s h
  | .vholdLow .. => execVholdLow_kept _ _ s h
  | .holdupExhausted .. => execHoldupExhausted_kept _ s h
  | .moduleReset .. => execModuleReset_kept _ _ s h
  | .sleepRequest .. => execSleepRequest_kept _ _ s h
  | .wakeEvent .. => execWakeEvent_kept _ _ s h
  | .refaLost .. => execRefaLost_kept _ s h
  | .refaReturn .. => execRefaReturn_kept _ s h
  | .refbLost .. => execRefbLost_kept _ s h
  | .refbReturn .. => execRefbReturn_kept _ s h
  | .temperatureUpdate .. => execTemperatureUpdate_kept _ _ _ s h
  | .thermalShutdown .. => execThermalShutdown_kept _ s h
  | .thermalRestart .. => execThermalRestart_kept _ s h
  | .landSwitchOpen .. => execLandSwitchOpen_kept _ _ _ _ s h
  | .landSwitchClose .. => execLandSwitchClose_kept _ _ _ _ s h
  | .landFault .. => execLandFault_kept _ _ _ _ s h
  | .openInputTest .. => execOpenInputTest_kept _ _ s h
  | .pinEdgeClock .. => execPinEdgeClock_kept _ _ s h
  | .pgRelease .. => execPgRelease_kept _ s h

/-- What keeps the widths and the memory's form keeps the shape. -/
theorem Kept.shaped {s t : State} (h : Kept s t) (hs : Shaped s) : Shaped t := by
  obtain ⟨hcores, hbar, hmap, hports, hpairs, hchans, hruns, hpins, hflash, hmem⟩ := hs
  have hw : t.widths = [4, 2, 32, 8, 8, 2] :=
    h.widths (by simp [State.widths, widthsOf, hports, hpairs, hchans, hruns, hpins, hflash])
  simp only [State.widths, widthsOf, List.cons.injEq, and_true] at hw
  obtain ⟨wports, wpairs, wchans, wruns, wpins, wflash⟩ := hw
  exact ⟨h.cores hcores, h.baristas hbar, h.map hmap, wports, wpairs, wchans, wruns, wpins, wflash, h.mem hmem⟩

/-- The shape is not about the queue of commands or the counter. -/
theorem Shaped.with_pending_ntc {s : State} (hs : Shaped s) (l : List Instr) (n : Nat) :
    Shaped { s with pending := l, ntc := n } := by
  obtain ⟨hcores, hbar, hmap, hports, hpairs, hchans, hruns, hpins, hflash, hmem⟩ := hs
  exact ⟨hcores, hbar, hmap, hports, hpairs, hchans, hruns, hpins, hflash, hmem⟩

/-- Settles O60: an idle step touches the counter alone, and a command what `Kept` allows. -/
theorem shapeKept : Obligations.ShapeKept := by
  unfold Obligations.ShapeKept
  intro s u hs h
  unfold step at h
  split at h
  · split at h <;> cases h
    · exact hs
    · exact hs.with_pending_ntc s.pending (s.ntc + 1)
  · next c rest _ => exact (exec_kept c h).shaped (hs.with_pending_ntc rest s.ntc)

end Sys2Proof.Machine
end

section
/-! SUPPORT. What reset leaves: the registers whose value their table gives, the cores, the map and the windows (R28, R36, R69,
R83, R254, R414). -/

namespace Sys2Proof.Machine

/-- A key that is not listed has no value. -/
theorem kget_of_not_mem {α : Type} {l : List (Nat × α)} {a : Nat} (h : a ∉ l.map Prod.fst) : kget l a = none := by
  induction l with
  | nil => rfl
  | cons x l ih =>
    obtain ⟨k, v⟩ := x
    simp only [List.map_cons, List.mem_cons, not_or] at h
    obtain ⟨hk, hl⟩ := h
    rw [kget, if_neg (Ne.symm hk), ih hl, ite_self]

/-- The registers whose reset value no table gives lie outside the rail and the timers. -/
theorem resetRegs_outside : ∀ a ∈ resetRegs.map Prod.fst, a < 0x10000 ∨ 0x30000 ≤ a := by decide

/-- At reset a register of the rail or of the timers holds the value of its table. -/
theorem reset_reg {n : RegName} {i j : Nat} (hlo : 0x10000 ≤ regOff n i j) (hhi : regOff n i j < 0x30000) :
    State.reset.reg n i j = BitVec.ofNat 32 (regRow n).reset := by
  have hnot : regOff n i j ∉ resetRegs.map Prod.fst := fun hmem => by
    have := resetRegs_outside _ hmem
    omega
  have hnone : kget State.reset.regs (regOff n i j) = none := kget_of_not_mem hnot
  rw [State.reg, hnone]
  rfl

/-- Every source is masked, and none is pending or in service. -/
theorem reset_rail {k : Nat} (hk : k < 32) : State.reset.reg .orlMask k = 0xFFFFFFFF ∧ State.reset.reg .orlPend k = 0 ∧
    State.reset.reg .orlInsvc k = 0 := by
  refine ⟨?_, ?_, ?_⟩ <;> rw [reset_reg (by simp [regOff, regRow]; omega) (by simp [regOff, regRow]; omega)] <;> rfl

/-- No channel is armed, and every count is 0 (R254). -/
theorem reset_chan {n : Nat} (hn : n < 264) : chanArmed State.reset n = false ∧ (State.reset.chan n).count = 0 := by
  refine ⟨?_, rfl⟩
  have hctl : chanCtl State.reset n = 0 := by
    unfold chanCtl
    split <;> rw [reset_reg (by simp [regOff, regRow]; omega) (by simp [regOff, regRow]; omega)] <;> rfl
  rw [chanArmed, hctl]
  rfl

/-- The grid of the first pours: 96 kHz and 4 samples (R36). -/
theorem reset_pour : State.reset.pourLen = 32000 / 2 * 4 ∧ State.reset.pourSize = 4 := by
  have hcfg : State.reset.reg .tmrPourCfg = 0x14 := reset_reg (by decide) (by decide)
  simp only [State.pourLen, State.pourSize, State.fld, hcfg]
  decide

/-- Every core is as core reset leaves it (R69, R83). -/
theorem reset_core (w : CoreSel) : State.reset.core w = Core.reset := by
  cases w with
  | eduno p => exact List.getElem?_getD_replicate_default_eq _ _ _
  | barista r => exact List.getElem?_getD_replicate_default_eq _ _ _

/-- Logical core l is held by physical core l (R28). -/
theorem reset_physOf {l : Nat} (hl : l < 64) : State.reset.physOf l = some l := by
  simp [State.physOf, State.reset, nth, hl]

/-- The windows (R414). -/
theorem reset_barWin : ∀ j < 8, (State.reset.reg .barWin j).toNat = [0x200, 0x300, 0x100, 0x110, 0, 1, 2, 3].getD j 0 := by
  decide

theorem reset_shaped : Shaped State.reset := ⟨rfl, rfl, rfl, rfl, rfl, rfl, rfl, rfl, rfl, reset_wf⟩

/-- Settles O59, part by part of the state. -/
theorem resetState : Obligations.ResetState := by
  unfold Obligations.ResetState
  refine ⟨reset_shaped, rfl, rfl, rfl, rfl, by decide, fun _ => reset_physOf, reset_pour.1, reset_pour.2, fun w _ => ?_,
    reset_barWin, fun _ => reset_rail, fun _ => reset_chan⟩
  rw [reset_core w]
  exact ⟨rfl, rfl, rfl, rfl, rfl, rfl, rfl, rfl⟩

end Sys2Proof.Machine
end

section
/-! SUPPORT. Accesses to memory in which no unit is in error: a read gives the bytes, a write writes them, and neither raises
anything (R185, R200, R538, R543). -/

namespace Sys2Proof.Machine

/-- Taking rounds of a Carafe slice changes the rounds alone (R200). -/
theorem carRounds_eq (s : State) (t : Nat) (w : MemWho) (us : List Nat) :
    ∃ l, carRounds s t w us = { s with carLast := l } := by
  unfold carRounds
  split
  · split
    · exact ⟨_, rfl⟩
    · exact ⟨_, rfl⟩
  · exact ⟨_, rfl⟩

section
variable {s : State} (hclean : s.memErr = [])
include hclean

theorem unitErr_clean (u : Nat) : unitErr s u = none := by rw [unitErr, hclean, kget_nil]

theorem badUnits_clean (us : List Nat) : badUnits s us = [] := by simp [badUnits, unitErr_clean hclean]

/-- There is nothing to correct. -/
theorem correctUnits_clean (t : Nat) (us : List Nat) : correctUnits s t us = s := by
  unfold correctUnits
  induction us with
  | nil => rfl
  | cons u us ih => rwa [List.foldl_cons, unitErr_clean hclean, if_neg (by simp)]

/-- Nor to repair. -/
theorem repairUnits_clean (t a n : Nat) (us : List Nat) : repairUnits s t a n us = s := by
  have hdel (u : Nat) : { s with memErr := kdel s.memErr u } = s := by rw [hclean, kdel, ← hclean]
  unfold repairUnits
  induction us with
  | nil => rfl
  | cons u us ih =>
    have hnone : unitErr s u ≠ some false := by simp [unitErr_clean hclean]
    rwa [List.foldl_cons, hdel, if_neg hnone, ite_self]

/-- A read gives the bytes, and takes its rounds. -/
theorem readPhys_clean (t : Nat) (w : MemWho) (a n : Nat) :
    ∃ l, readPhys s t w a n = (memRead s.mem a n, false, { s with carLast := l }) := by
  obtain ⟨l, hl⟩ := carRounds_eq s t w (unitsOf a n)
  refine ⟨l, ?_⟩
  rw [readPhys, badUnits_clean hclean, hl, correctUnits_clean (by exact hclean)]
  rfl

end

theorem writeSkipping_nil (m : List Host.Cell) (a : Nat) (bs : List Byte) : writeSkipping m [] a bs = memWrite m a bs := by
  induction bs generalizing m a with
  | nil => rfl
  | cons b bs ih => exact ih _ _

/-- A write writes its bytes, and takes its rounds. -/
theorem writePhys_clean {s : State} (hclean : s.memErr = []) (t : Nat) (w : MemWho) (a : Nat) (bs : List Byte) :
    ∃ l, writePhys s t w a bs = (false, { s with mem := memWrite s.mem a bs, carLast := l }) := by
  obtain ⟨l, hl⟩ := carRounds_eq s t w (unitsOf a bs.length)
  refine ⟨l, ?_⟩
  rw [writePhys, badUnits_clean hclean, hl, repairUnits_clean (by exact hclean)]
  simp [writeSkipping_nil]

theorem memRead_congr {m m' : List Host.Cell} {a n : Nat} (h : ∀ i < n, memGet m' (a + i) = memGet m (a + i)) :
    memRead m' a n = memRead m a n := by
  induction n generalizing a with
  | zero => rfl
  | succ n ih =>
    have hrest : memRead m' (a + 1) n = memRead m (a + 1) n := ih fun i hi => by
      rw [Nat.add_right_comm]
      exact h (i + 1) (by omega)
    rw [memRead, memRead, hrest]
    exact congrArg (· :: _) (h 0 (Nat.succ_pos n))

/-- A write of n bytes reads back, and leaves every byte outside. -/
theorem memWrite_window {m : List Host.Cell} (hwf : Memory.wf m = true) {a n : Nat} {bs : List Byte} (hlen : bs.length = n) :
    memRead (memWrite m a bs) a n = bs ∧ ∀ c, ¬ (a ≤ c ∧ c < a + n) → memGet (memWrite m a bs) c = memGet m c := by
  subst hlen
  exact ⟨memRead_memWrite hwf, fun c hc => memGet_memWrite_out hwf (by omega)⟩

/-! ### Through the external port of a core memory (R185) -/

theorem length_memRead (m : List Host.Cell) (a n : Nat) : (memRead m a n).length = n := by
  induction n generalizing a with
  | zero => rfl
  | succ n ih => rw [memRead, List.length_cons, ih]

theorem length_asBefore (rec : Nat × List (Nat × Byte)) (t a : Nat) (bs : List Byte) :
    (asBefore rec t a bs).length = bs.length := by
  unfold asBefore
  split <;> simp

theorem length_coreMask (a : Nat) (bs : List Byte) : (coreMask a bs).length = bs.length := by simp [coreMask]

/-- The bytes that the external port reads of a memory with no unit in error. -/
def extBytes (s : State) (t a n : Nat) : List Byte := coreMask a (asBefore s.coreOld t a (memRead s.mem a n))

theorem length_extBytes (s : State) (t a n : Nat) : (extBytes s t a n).length = n := by
  rw [extBytes, length_coreMask, length_asBefore, length_memRead]

theorem extRead_clean {s : State} (hclean : s.memErr = []) (t : Nat) (w : MemWho) (a n : Nat) :
    ∃ l, extRead s t w a n = (extBytes s t a n, false, { s with carLast := l }) := by
  obtain ⟨l, hl⟩ := readPhys_clean hclean t w a n
  exact ⟨l, by rw [extRead, hl]; rfl⟩

/-- Where every byte is one that the stride holds, none is masked. -/
theorem coreMask_eq {a : Nat} {bs : List Byte} (h : ∀ i < bs.length, coreByte (coreOff (a + i)) = true) : coreMask a bs = bs := by
  refine List.ext_getElem (length_coreMask a bs) fun i h1 h2 => ?_
  simp [coreMask, h i h2]

/-- A write of bytes that the stride holds, into a core that no takeover holds and in a cycle without stores of its own, writes
them and no more of memory (R185, R473). -/
theorem extWrite_clean {s : State} (hclean : s.memErr = []) {t : Nat} (hold : s.coreOld.1 ≠ t) {w : MemWho} {a : Nat}
    (hheld : writeHeld s w (coreOf a) = false) {bs : List Byte} (hbs : ∀ i < bs.length, coreByte (coreOff (a + i)) = true) :
    (extWrite s t w a bs).1 = false ∧ (extWrite s t w a bs).2.mem = memWrite s.mem a bs ∧
      (extWrite s t w a bs).2.queues = s.queues := by
  have hwins : coreWins { s with extOld := noteOld s.extOld s.mem t a bs.length } t a (coreMask a bs) = bs := by
    rw [coreMask_eq hbs, coreWins, if_neg hold]
  obtain ⟨l, hl⟩ := writePhys_clean (s := { s with extOld := noteOld s.extOld s.mem t a bs.length }) hclean t w a bs
  simp only [extWrite, hheld, hwins, hl, Bool.false_eq_true, if_false, setCore_mem, setCore_queues, and_self]

/-- Address x below the end of a core's data memory, as the external ports see it (R182). -/
theorem coreByte_data {p x : Nat} (hx : x < 524286) : coreByte (coreOff (coreBase + 0x100000 * p + x)) = true := by
  have : coreOff (coreBase + 0x100000 * p + x) = x := by
    simp only [coreOff, coreBase]
    omega
  rw [coreByte, this]
  exact decide_eq_true (Or.inl hx)

theorem coreOf_data {p x : Nat} (hp : p < 68) (hx : x < 0x100000) : coreOf (coreBase + 0x100000 * p + x) = p := by
  simp only [coreOf, coreBase]
  omega

end Sys2Proof.Machine
end

section
/-! SUPPORT. Blocks and the words in them: a block is the bytes of its words, and its channels put back together are the block
(R6, R276). -/

namespace Sys2Proof.Machine

/-- The bytes of the number that some bytes spell are those bytes (R6). -/
theorem toBytesLE_ofBytesLE (bs : List Byte) : toBytesLE bs.length (ofBytesLE bs) = bs := by
  induction bs with
  | nil => rfl
  | cons b bs ih =>
    have hlow : BitVec.ofNat 8 (b.toNat + 256 * ofBytesLE bs) = b :=
      BitVec.eq_of_toNat_eq (by rw [BitVec.toNat_ofNat]; omega)
    have hhigh : (b.toNat + 256 * ofBytesLE bs) / 256 = ofBytesLE bs := by omega
    rw [ofBytesLE, List.length_cons, toBytesLE, hlow, hhigh, ih]

theorem ofBytesLE_lt (bs : List Byte) : ofBytesLE bs < 256 ^ bs.length := by
  induction bs with
  | nil => exact Nat.one_pos
  | cons b bs ih =>
    rw [ofBytesLE, List.length_cons, Nat.pow_succ]
    omega

/-- Three bytes taken as a word and put down again (R276). -/
theorem wordBytes_word {bs : List Byte} (h : bs.length = 3) :
    toBytesLE 3 (sfield 24 (BitVec.ofNat 24 (ofBytesLE bs)).toInt) = bs := by
  have hlt : ofBytesLE bs < 2 ^ 24 := by simpa [h] using ofBytesLE_lt bs
  rw [sfield, BitVec.ofInt_toInt, BitVec.toNat_ofNat, Nat.mod_eq_of_lt hlt, ← h, toBytesLE_ofBytesLE]

theorem length_blockWords (n : Nat) (bs : List Byte) : (blockWords n bs).length = n := by
  induction n generalizing bs with
  | zero => rfl
  | succ n ih => rw [blockWords, List.length_cons, ih]

/-- The words of a block are its bytes. -/
theorem wordBytes_blockWords {n : Nat} {bs : List Byte} (h : bs.length = 3 * n) : wordBytes (blockWords n bs) = bs := by
  induction n generalizing bs with
  | zero => exact (List.length_eq_zero_iff.mp (by omega)).symm
  | succ n ih =>
    have hrest := ih (bs := bs.drop 3) (by rw [List.length_drop]; omega)
    have hword := wordBytes_word (bs := bs.take 3) (by rw [List.length_take]; omega)
    simp only [wordBytes, blockWords, List.flatMap_cons] at hrest ⊢
    rw [hword, hrest, List.take_append_drop]

/-- A block of zeros has words 0. -/
theorem wordBytes_zeros (n : Nat) : wordBytes (List.replicate n 0) = List.replicate (3 * n) 0 := by
  induction n with
  | zero => rfl
  | succ n ih =>
    rw [wordBytes] at ih
    rw [wordBytes, List.replicate_succ, List.flatMap_cons, ih]
    rfl

/-- Reading n groups of k in turn is reading n * k. -/
theorem flatMap_range_mul {α : Type} (f : Nat → α) (k n : Nat) :
    ((List.range n).flatMap fun i => (List.range k).map fun j => f (i * k + j)) = (List.range (n * k)).map f := by
  induction n with
  | zero => simp
  | succ n ih => simp [List.range_succ, ih, Nat.succ_mul, List.range_add]

/-- The channels of a sample-major block, put back together, are the block (R276). -/
theorem interleave_columns {ws : List Int} {k n : Nat} (h : k * n = ws.length) :
    interleave ((List.range k).map (column ws k n)) n = ws := by
  have hcol : ∀ i ∈ List.range n, ((List.range k).map (column ws k n)).map (fun c => c.getD i 0) =
      (List.range k).map fun j => ws.getD (i * k + j) 0 := by
    intro i hi
    have hi : i < n := List.mem_range.mp hi
    simp [column, hi]
  rw [interleave, List.flatMap_congr hcol, flatMap_range_mul (fun x => ws.getD x 0), Nat.mul_comm, h]
  exact List.ext_getElem (by simp) fun i h1 h2 => by simp [h2]

end Sys2Proof.Machine
end

section
/-! SUPPORT. What a queue's state and descriptor depend on, and a Runner's accesses to its slots and blocks with no unit in error
(R273, R291, R292, R294, R540). -/

namespace Sys2Proof.Machine

theorem queue_setQueue_same (s : State) (h : Nat) (q : QueueSt) : (s.setQueue h q).queue h = q := by
  simp [State.queue, State.setQueue]

/-- What a queue's state is depends on the queues alone. -/
theorem queue_congr {s u : State} (hq : u.queues = s.queues) (h : Nat) : u.queue h = s.queue h := by
  rw [State.queue, hq]
  rfl

/-- The descriptors stay where no byte of the table changes (R273). -/
theorem qdWord_congr {s u : State} (hm : ∀ a, qdBase ≤ a → memGet u.mem a = memGet s.mem a) (h off : Nat) :
    u.qdWord h off = s.qdWord h off := by
  rw [State.qdWord, memNat, memRead_congr fun i _ => hm _ (by simp only [qdAddr, qdBase]; omega)]
  rfl

theorem qConsumer_congr {s u : State} (hm : ∀ a, qdBase ≤ a → memGet u.mem a = memGet s.mem a) (h : Nat) :
    qConsumer u h = qConsumer s h := by
  rw [qConsumer, State.qdFld, qdWord_congr hm]
  rfl

section
variable {s : State} (hclean : s.memErr = [])
include hclean

theorem readSlot_clean (t h slot : Nat) :
    ∃ l, readSlot s t h slot = (memRead s.mem (qStore s h + slotBytes s h * slot) (slotBytes s h), { s with carLast := l }) := by
  obtain ⟨l, hl⟩ := readPhys_clean hclean t .runner (qStore s h + slotBytes s h * slot) (slotBytes s h)
  exact ⟨l, by rw [readSlot, hl]; rfl⟩

theorem writeSlot_clean (t h slot : Nat) (bs : List Byte) :
    ∃ l, writeSlot s t h slot bs = { s with mem := memWrite s.mem (qStore s h + slotBytes s h * slot) bs, carLast := l } := by
  obtain ⟨l, hl⟩ := writePhys_clean hclean t .runner (qStore s h + slotBytes s h * slot) bs
  exact ⟨l, by rw [writeSlot, hl]; rfl⟩

theorem readBlock_clean (t h p addr n : Nat) :
    ∃ l, readBlock s t h p addr n = (extBytes s t (coreBase + 0x100000 * p + addr) n, { s with carLast := l }) := by
  obtain ⟨l, hl⟩ := extRead_clean hclean t .runner (coreBase + 0x100000 * p + addr) n
  exact ⟨l, by rw [readBlock, hl]; rfl⟩

end

/-- The bytes that a scheduled queue holds for its consumer: zeros when no block has been stored (R292). -/
def storedBytes (s : State) (h : Nat) : List Byte :=
  match (s.queue h).lastSlot with
  | some sl => memRead s.mem (qStore s h + 3 * qBsize s h * sl) (3 * qBsize s h)
  | none => List.replicate (3 * qBsize s h) 0

theorem length_storedBytes (s : State) (h : Nat) : (storedBytes s h).length = 3 * qBsize s h := by
  unfold storedBytes
  split
  · exact length_memRead _ _ _
  · exact List.length_replicate

theorem slotBytes_scheduled {s : State} {h : Nat} (hk : qKind s h = 2) : slotBytes s h = 3 * qBsize s h := by simp [slotBytes, hk]

/-- The block that stage 1 takes is what the queue holds. -/
theorem storeBlock_clean {s : State} (hclean : s.memErr = []) (t : Nat) {h : Nat} (hk : qKind s h = 2) :
    ∃ ws l, storeBlock s t h = (ws, { s with carLast := l }) ∧ ws.length = qBsize s h ∧ wordBytes ws = storedBytes s h := by
  cases hslot : (s.queue h).lastSlot with
  | none =>
    simp only [storeBlock, storedBytes, hslot]
    exact ⟨_, s.carLast, rfl, List.length_replicate, wordBytes_zeros _⟩
  | some sl =>
    obtain ⟨l, hl⟩ := readSlot_clean hclean t h sl
    simp only [storeBlock, storedBytes, hslot, hl, slotBytes_scheduled hk]
    exact ⟨_, l, rfl, length_blockWords _ _, wordBytes_blockWords (length_memRead _ _ _)⟩

end Sys2Proof.Machine
end

section
/-! SUPPORT. INPUT_PLACEMENT and SCHEDULED_FORWARD of scheduled queues between cores, and of the outputs that no queue feeds
(R32, R276, R291, R292). -/

namespace Sys2Proof.Machine

theorem exec_inputPlacement {s r : State} {t : Nat} (hr : runsAt s t r) {h : Nat} (hh : h < 65536) (samples : List W24) :
    exec (.inputPlacement t h samples) s = .next (inputPlacement r h (samples.map BitVec.toInt) t) :=
  (congrArg _ (awake_runs hr _)).trans (congrArg _ (upTo_lt hh _ _))

theorem exec_scheduledForward {s r : State} {t : Nat} (hr : runsAt s t r) (h : Option Nat) :
    exec (.scheduledForward t h) s = .next (scheduledForward r h t) := congrArg _ (awake_runs hr _)

/-! ### INPUT_PLACEMENT -/

section
variable {r : State} {t h : Nat} (samples : List Int)

/-- Nothing while the block cannot be complete or was placed. -/
theorem inputPlacement_idle (hidle : qEn r h = false ∨ qKind r h ≠ 2 ∨ (r.queue h).placed = some (nextTick r t).1 ∨
    inputReady r h t = false) : inputPlacement r h samples t = r := by
  rw [inputPlacement, if_pos (by simpa using hidle)]

/-- A core's block waits for nothing. -/
theorem inputReady_core (hprod : epClass (qProducer r h) = 0) : inputReady r h t = true := by simp [inputReady, hprod]

/-- Channels without a delay stage pass as they are. -/
theorem delayStage_none {s : State} (hstage : stageOf s h = none) (cols : List (List Int)) : delayStage s t h cols = (cols, s) := by
  rw [delayStage, hstage]

/-- Where a block of pour m lands in the data memory of physical core p (R276, R292). -/
abbrev landAddr (s : State) (h p m : Nat) : Nat := coreBase + 0x100000 * p + qLanding s h + 3 * qBsize s h * (m % 2)

/-- A block lands in the data memory of the core that serves the consumer, and nowhere else (R292). -/
theorem landInput_clean {s : State} (hclean : s.memErr = []) (hold : s.coreOld.1 ≠ t) {p m : Nat} {ws : List Int}
    (hland : landCore s (epIndex (qConsumer s h)) = some p) (hp : p < 68) (hheld : writeHeld s .runner p = false)
    (hlen : (wordBytes ws).length = 3 * qBsize s h)
    (hfit : qLanding s h + 3 * qBsize s h * (m % 2) + 3 * qBsize s h ≤ 524286) :
    (landInput s t h m ws).mem = memWrite s.mem (landAddr s h p m) (wordBytes ws) ∧
      (landInput s t h m ws).queues = s.queues := by
  have haddr (i : Nat) : landAddr s h p m + i =
      coreBase + 0x100000 * p + (qLanding s h + 3 * qBsize s h * (m % 2) + i) := by simp only [landAddr, Nat.add_assoc]
  have hcore : coreOf (landAddr s h p m) = p := by
    rw [← Nat.add_zero (landAddr s h p m), haddr]
    exact coreOf_data hp (by omega)
  obtain ⟨hok, hmem, hqueues⟩ := extWrite_clean hclean hold (w := .runner) (bs := wordBytes ws) (by rwa [hcore])
    fun i hi => by rw [haddr]; exact coreByte_data (by omega)
  simp only [landInput, hland, hok, Bool.false_eq_true, if_false]
  exact ⟨hmem, hqueues⟩

/-- A queue with the pour of its block recorded. -/
def markPlaced (s : State) (h m : Nat) : State := s.setQueue h { s.queue h with placed := some m }

/-- What a queue holds does not depend on that record. -/
theorem storedBytes_markPlaced (s : State) (h m : Nat) : storedBytes (markPlaced s h m) h = storedBytes s h := by
  simp only [storedBytes, markPlaced, queue_setQueue_same]
  rfl

/-- Of a queue from core to core whose block is due, the block of its store goes through the delay stage and lands (R292). -/
theorem inputPlacement_core (hen : qEn r h = true) (hk : qKind r h = 2) {m : Nat} (hm : (nextTick r t).1 = m)
    (hplaced : (r.queue h).placed ≠ some m) (hprod : epClass (qProducer r h) = 0) (hcons : epClass (qConsumer r h) = 0) :
    inputPlacement r h samples t =
      let b := storeBlock (markPlaced r h m) t h
      let d := delayStage b.2 t h ((List.range (qChans r h)).map (column b.1 (qChans r h) (qPer r h)))
      landInput d.2 t h m (interleave d.1 (qPer r h)) := by
  rw [inputPlacement, if_neg (by simp [hen, hk, hm, hplaced, inputReady_core hprod]), hm]
  exact (if_pos hprod).trans (if_neg (not_not.mpr hcons))

/-- Without a delay stage the block lands as it is held, at the slot of the next pour (R276, R292). -/
theorem inputPlacement_lands (hclean : r.memErr = []) (hold : r.coreOld.1 ≠ t) (hen : qEn r h = true) (hk : qKind r h = 2)
    {m : Nat} (hm : (nextTick r t).1 = m) (hplaced : (r.queue h).placed ≠ some m) (hprod : epClass (qProducer r h) = 0)
    (hcons : epClass (qConsumer r h) = 0) (hstage : stageOf r h = none) (hchans : qChans r h * qPer r h = qBsize r h) {p : Nat}
    (hland : landCore r (epIndex (qConsumer r h)) = some p) (hp : p < 68) (hheld : writeHeld r .runner p = false)
    (hfit : qLanding r h + 3 * qBsize r h * (m % 2) + 3 * qBsize r h ≤ 524286) :
    (inputPlacement r h samples t).mem = memWrite r.mem (landAddr r h p m) (storedBytes r h) ∧
      ((inputPlacement r h samples t).queue h).placed = some m := by
  obtain ⟨ws, l, hblock, hlen, hbytes⟩ := storeBlock_clean (s := markPlaced r h m) hclean t (h := h) hk
  have hcols : interleave ((List.range (qChans r h)).map (column ws (qChans r h) (qPer r h))) (qPer r h) = ws :=
    interleave_columns (hchans.trans hlen.symm)
  rw [storedBytes_markPlaced] at hbytes
  rw [inputPlacement_core samples hen hk hm hplaced hprod hcons, hblock]
  simp only [delayStage_none (s := { markPlaced r h m with carLast := l }) hstage, hcols]
  obtain ⟨hmem, hqueues⟩ := landInput_clean (s := { markPlaced r h m with carLast := l }) (m := m) (ws := ws) hclean hold hland
    hp hheld (by rw [hbytes, length_storedBytes]; rfl) hfit
  rw [hmem, hbytes, queue_congr hqueues]
  exact ⟨rfl, congrArg QueueSt.placed (queue_setQueue_same r h _)⟩

end

/-! ### SCHEDULED_FORWARD -/

/-- Whether the span in which the blocks of the pour that has ended are forwarded is over, or no pour has begun (R291). -/
abbrev spanOver (s : State) (t : Nat) : Prop := s.lastTick.isNone ∨ s.pourAt t * s.pourLen + 4096 ≤ t

/-- A core is no port: its queue has no output channels. -/
theorem epTarget_core {e : Nat} (he : epClass e = 0) : epTarget e = none := by simp [epTarget, he]

section
variable {r : State} {t h : Nat}

/-- With no block committed in the pour there is nothing to copy. -/
theorem copyCommitted_none {n : Nat} (hfind : (r.queue h).committed.find? (fun x => decide (x.1 = n)) = none) :
    copyCommitted r t h n = r := by
  rw [copyCommitted, hfind]

/-- A block read from a core's data memory and written to a slot changes the bytes of the slot, and no queue. -/
theorem copyBlock_clean (hclean : r.memErr = []) (p addr n slot : Nat) :
    let b := readBlock r t h p addr n
    (writeSlot b.2 t h slot b.1).mem = memWrite r.mem (qStore r h + slotBytes r h * slot)
        (extBytes r t (coreBase + 0x100000 * p + addr) n) ∧
      (writeSlot b.2 t h slot b.1).queues = r.queues := by
  obtain ⟨l, hread⟩ := readBlock_clean hclean t h p addr n
  obtain ⟨l', hwrite⟩ := writeSlot_clean (s := { r with carLast := l }) hclean t h slot
    (extBytes r t (coreBase + 0x100000 * p + addr) n)
  simp only [hread, hwrite]
  exact ⟨rfl, trivial⟩

/-- A queue without the blocks committed in pour n. -/
def dropPour (s : State) (h n : Nat) : State :=
  s.setQueue h { s.queue h with committed := (s.queue h).committed.filter fun x => decide (x.1 ≠ n) }

theorem queue_dropPour (s : State) (h n : Nat) : (dropPour s h n).queue h =
    { s.queue h with committed := (s.queue h).committed.filter fun x => decide (x.1 ≠ n) } := queue_setQueue_same s h _

/-- A queue with the slot that the Runner wrote last. -/
def markSlot (s : State) (h slot : Nat) : State := s.setQueue h { s.queue h with lastSlot := some slot }

theorem markSlot_mem (s : State) (h slot : Nat) : (markSlot s h slot).mem = s.mem := rfl

theorem queue_markSlot (s : State) (h slot : Nat) : (markSlot s h slot).queue h = { s.queue h with lastSlot := some slot } :=
  queue_setQueue_same s h _

/-- The block committed in pour n is copied from its producer's data memory into the slot of that pour (R291). -/
theorem copyCommitted_core {n p : Nat} {x : Nat × W48}
    (hfind : (r.queue h).committed.find? (fun x => decide (x.1 = n)) = some x) (hprod : epClass (qProducer r h) = 0)
    (hphys : r.physOf (epIndex (qProducer r h)) = some p) :
    copyCommitted r t h n =
      let b := readBlock (dropPour r h n) t h p (x.2.toNat % 2 ^ 32) (slotBytes r h)
      markSlot (writeSlot b.2 t h (n % 2) b.1) h (n % 2) := by
  have hprod' : epClass (qProducer (dropPour r h n) h) = 0 := hprod
  have hphys' : (dropPour r h n).physOf (epIndex (qProducer (dropPour r h n) h)) = some p := hphys
  simp only [dropPour] at hprod' hphys'
  simp only [copyCommitted, hfind, hprod', hphys', if_true]
  rfl

/-- What the copy makes of memory and of the queue. -/
theorem copyCommitted_clean (hclean : r.memErr = []) {n p : Nat} {x : Nat × W48}
    (hfind : (r.queue h).committed.find? (fun x => decide (x.1 = n)) = some x) (hprod : epClass (qProducer r h) = 0)
    (hphys : r.physOf (epIndex (qProducer r h)) = some p) :
    (copyCommitted r t h n).mem = memWrite r.mem (qStore r h + slotBytes r h * (n % 2))
        (extBytes r t (coreBase + 0x100000 * p + x.2.toNat % 2 ^ 32) (slotBytes r h)) ∧
      ((copyCommitted r t h n).queue h).lastSlot = some (n % 2) ∧
      ((copyCommitted r t h n).queue h).fwd = (r.queue h).fwd := by
  obtain ⟨hmem, hqueues⟩ := copyBlock_clean (r := dropPour r h n) (t := t) (h := h) hclean p (x.2.toNat % 2 ^ 32)
    (slotBytes r h) (n % 2)
  rw [copyCommitted_core hfind hprod hphys, markSlot_mem, queue_markSlot, queue_congr hqueues, queue_dropPour]
  exact ⟨hmem, rfl, rfl⟩

/-- A queue with the pour last forwarded recorded. -/
def markForwarded (s : State) (h n : Nat) : State := s.setQueue h { s.queue h with fwd := some n }

theorem queue_markForwarded (s : State) (h n : Nat) : (markForwarded s h n).queue h = { s.queue h with fwd := some n } :=
  queue_setQueue_same s h _

/-- Nothing outside the span, for a queue that is not scheduled, or a second time. -/
theorem forwardQueue_idle (hidle : spanOver r t ∨ qEn r h = false ∨ qKind r h ≠ 2 ∨
    (r.queue h).fwd = some r.audio.ended) : forwardQueue r h t = r := by
  rw [forwardQueue, if_pos]
  simp only [Bool.not_eq_true']
  tauto

/-- For a core only the copy is made. -/
theorem forwardQueue_core (hspan : ¬ spanOver r t) (hen : qEn r h = true)
    (hk : qKind r h = 2) (hfwd : (r.queue h).fwd ≠ some r.audio.ended)
    (hcons : epClass (qConsumer (copyCommitted (markForwarded r h r.audio.ended) t h r.audio.ended) h) = 0) :
    forwardQueue r h t = copyCommitted (markForwarded r h r.audio.ended) t h r.audio.ended := by
  rw [forwardQueue, if_neg (by simpa [hen, hk, hfwd] using hspan)]
  have hnone := epTarget_core hcons
  simp only [markForwarded] at hnone ⊢
  simp only [hnone]

end

/-- Of a queue between cores whose pour has a block, the copy is all that is made of memory: the descriptors, below which the
slot ends, stay (R291). -/
theorem forwardQueue_copies {r : State} {t h : Nat} (hwf : Memory.wf r.mem = true) (hclean : r.memErr = [])
    (hspan : ¬ spanOver r t) (hen : qEn r h = true) (hk : qKind r h = 2)
    (hfwd : (r.queue h).fwd ≠ some r.audio.ended) (hprod : epClass (qProducer r h) = 0) (hcons : epClass (qConsumer r h) = 0)
    {p : Nat} {x : Nat × W48} (hfind : (r.queue h).committed.find? (fun x => decide (x.1 = r.audio.ended)) = some x)
    (hphys : r.physOf (epIndex (qProducer r h)) = some p)
    (hfit : qStore r h + slotBytes r h * (r.audio.ended % 2) + slotBytes r h ≤ qdBase) :
    (forwardQueue r h t).mem = memWrite r.mem (qStore r h + slotBytes r h * (r.audio.ended % 2))
        (extBytes r t (coreBase + 0x100000 * p + x.2.toNat % 2 ^ 32) (slotBytes r h)) ∧
      ((forwardQueue r h t).queue h).lastSlot = some (r.audio.ended % 2) ∧
      ((forwardQueue r h t).queue h).fwd = some r.audio.ended := by
  have hqueue := queue_markForwarded r h r.audio.ended
  obtain ⟨hmem, hslot, hdone⟩ := copyCommitted_clean (r := markForwarded r h r.audio.ended) (t := t) hclean
    (by rw [hqueue]; exact hfind) hprod hphys
  have hcons' : epClass (qConsumer (copyCommitted (markForwarded r h r.audio.ended) t h r.audio.ended) h) = 0 := by
    rw [qConsumer_congr (s := r) fun a ha => ?_, hcons]
    rw [hmem]
    refine memGet_memWrite_out hwf (Or.inr ?_)
    rw [length_extBytes]
    exact hfit.trans ha
  rw [forwardQueue_core hspan hen hk hfwd hcons']
  exact ⟨hmem, hslot, hdone.trans (congrArg QueueSt.fwd hqueue)⟩

/-- With no block committed in the pour that has ended no byte changes. -/
theorem forwardQueue_empty {r : State} {t h : Nat} (hspan : ¬ spanOver r t)
    (hen : qEn r h = true) (hk : qKind r h = 2) (hfwd : (r.queue h).fwd ≠ some r.audio.ended)
    (hcons : epClass (qConsumer r h) = 0)
    (hfind : (r.queue h).committed.find? (fun x => decide (x.1 = r.audio.ended)) = none) :
    forwardQueue r h t = markForwarded r h r.audio.ended := by
  have hcopy : copyCommitted (markForwarded r h r.audio.ended) t h r.audio.ended = markForwarded r h r.audio.ended :=
    copyCommitted_none (by rw [queue_markForwarded]; exact hfind)
  rw [forwardQueue_core hspan hen hk hfwd (by rw [hcopy]; exact hcons), hcopy]

/-! ### Outputs that no queue feeds -/

theorem forwardUnfed_idle {r : State} {t : Nat} (hidle : spanOver r t ∨
    r.audio.unfed = some r.audio.ended) : forwardUnfed r t = r := by
  rw [forwardUnfed, if_pos (or_assoc.mp hidle)]

/-- With no output to forward the pour alone is recorded (R390). -/
theorem forwardUnfed_none {r : State} {t : Nat} (hspan : ¬ spanOver r t)
    (hunfed : r.audio.unfed ≠ some r.audio.ended) (hnone : unfedTargets r = []) :
    forwardUnfed r t = { r with audio := { r.audio with unfed := some r.audio.ended } } := by
  have hnone' : unfedTargets { r with audio := { r.audio with unfed := some r.audio.ended } } = [] := hnone
  rw [forwardUnfed, if_neg fun hpast => (or_assoc.mpr hpast).elim hspan hunfed]
  simp only [hnone', List.foldl_nil]

/-- Settles O24: each row by its cases, idle, due with nothing to copy, and due with a block. -/
theorem scheduledQueues : Obligations.ScheduledQueues := by
  unfold Obligations.ScheduledQueues
  refine ⟨fun s r t h p samples hr hs hh => ⟨fun hidle => ?_, ?_⟩,
    fun s r t hr hs => ⟨fun h _ hidle => ?_, ?_, fun hidle => ?_, ?_⟩⟩
  · rw [exec_inputPlacement hr hh, inputPlacement_idle _ hidle]
  · intro hclean hold hen hk hplaced hprod hcons hstage hchans hland hp hheld hfit
    refine ⟨_, exec_inputPlacement hr hh samples, ?_⟩
    obtain ⟨hmem, hdone⟩ := inputPlacement_lands (samples.map BitVec.toInt) hclean hold hen hk rfl hplaced hprod hcons hstage
      hchans hland hp hheld hfit
    obtain ⟨hread, hframe⟩ := memWrite_window hs.mem (length_storedBytes r h)
    rw [hmem]
    exact ⟨hread, hdone, hframe⟩
  · rw [exec_scheduledForward hr, scheduledForward, forwardQueue_idle hidle]
  · intro h _ hspan hen hk hfwd hclean hprod hcons
    refine ⟨fun hfind => ⟨_, exec_scheduledForward hr _, ?_⟩,
      fun p item hfind hphys hfit => ⟨_, exec_scheduledForward hr _, ?_⟩⟩
    · have hqueue := queue_markForwarded r h r.audio.ended
      rw [scheduledForward, forwardQueue_empty hspan hen hk hfwd hcons hfind]
      exact ⟨(congrArg QueueSt.fwd hqueue :), (congrArg QueueSt.lastSlot hqueue :), rfl⟩
    · obtain ⟨hmem, hslot, hdone⟩ := forwardQueue_copies hs.mem hclean hspan hen hk hfwd hprod hcons hfind hphys hfit
      obtain ⟨hread, hframe⟩ := memWrite_window hs.mem (length_extBytes r t (coreBase + 0x100000 * p + item.toNat % 2 ^ 32) _)
      obtain ⟨_, hext⟩ := extRead_clean hclean t .runner (coreBase + 0x100000 * p + item.toNat % 2 ^ 32) (slotBytes r h)
      rw [scheduledForward, hmem, hext]
      exact ⟨hread, hslot, hdone, hframe⟩
  · rw [exec_scheduledForward hr, scheduledForward, forwardUnfed_idle hidle]
  · intro hspan hnone hunfed
    rw [exec_scheduledForward hr, scheduledForward, forwardUnfed_none hspan hunfed hnone]

end Sys2Proof.Machine
end

section
/-! PROOF. TICK: the cycle it falls on, and the cycle it leaves as that of the last tick (R36, R37, R41, R254). -/

namespace Sys2Proof.Machine

/-! ### The cycle of a tick -/

theorem le_ceilDiv_mul {p : Nat} (hp : 0 < p) (b : Nat) : b ≤ ceilDiv b p * p := by
  have h := Nat.div_add_mod (b + p - 1) p
  have hlt := Nat.mod_lt (b + p - 1) hp
  rw [ceilDiv, Nat.mul_comm]
  omega

/-- A pour lasts some cycles (R36). -/
theorem pourLen_pos (s : State) : 0 < s.pourLen := by
  have hrate : s.fld .tmrPourCfg 5 4 ≤ 3 := Nat.le_of_lt_succ (Nat.mod_lt _ (by decide))
  have hdiv : 2 ^ s.fld .tmrPourCfg 5 4 ≤ 32000 := (Nat.pow_le_pow_right (by decide) hrate).trans (by decide)
  exact Nat.mul_pos (Nat.div_pos hdiv (Nat.two_pow_pos _)) (Nat.two_pow_pos _)

/-- With no stretch under way the tick falls on the multiple of the pour length that rounds up the least cycle it may have: one that
is not past, not before the first cycle set for it, and after the last tick. -/
theorem tickCycle_unstretched {s : State} {o : Nat} (h : tickCycle s = some o) (hs : s.stretch = none) :
    ∃ b, o = ceilDiv b (withPourCfg s).pourLen * (withPourCfg s).pourLen ∧ s.ntc ≤ b ∧ (∀ lo, s.tickMin = some lo → lo ≤ b) ∧
      ∀ l, s.lastTick = some l → l < b := by
  unfold tickCycle at h
  split at h
  · next lo hlo _ =>
    simp only [hs] at h
    cases hl : s.lastTick <;> rw [hl] at h <;> cases h
    · exact ⟨_, rfl, by omega, by simp [hlo], by simp⟩
    · exact ⟨_, rfl, by omega, by simp [hlo], by simp⟩
  · cases h

theorem tickCycle_grid {s : State} {o : Nat} (h : tickCycle s = some o) (hs : s.stretch = none) :
    s.ntc ≤ o ∧ (withPourCfg s).pourLen ∣ o ∧ (∀ l, s.lastTick = some l → l < o) ∧ ∀ lo, s.tickMin = some lo → lo ≤ o := by
  obtain ⟨b, rfl, hntc, hmin, hlast⟩ := tickCycle_unstretched h hs
  have hb := le_ceilDiv_mul (pourLen_pos (withPourCfg s)) b
  exact ⟨hntc.trans hb, Nat.dvd_mul_left .., fun l hl => (hlast l hl).trans_le hb, fun lo hlo => (hmin lo hlo).trans hb⟩

/-! ### The cycle that a tick records -/

/-- Presenting tickets to every core is a matter of the rail. -/
theorem presentAll_railOnly (s : State) (t : Nat) : RailOnly s (presentAll s t) := by
  refine RailOnly.trans ?_ (presentCore_railOnly _ _ _)
  exact List.foldlRecOn _ _ (RailOnly.refl s) fun u h p _ => h.trans (presentCore_railOnly u (.eduno p) t)

/-- Reframing the ports leaves the NTC (R392). -/
theorem portsReframe_ntc (s : State) (t : Nat) : (portsReframe s t).ntc = s.ntc := by
  refine List.foldlRecOn (motive := fun u : State => u.ntc = s.ntc) _ _ rfl fun u h n hn => ?_
  have hn' := List.mem_range.mp hn
  exact (congrArg State.ntc (pulse_railOnly _ t (n := 512 + n) (by omega)).eq).trans h

/-- At the end of a stretch to the realm's tick of pour m the NTC takes m × P (R41, R254). -/
theorem ntcLoad_ntc (s : State) (o m : Nat) : (ntcLoad s o m).ntc = m * s.pourLen := by
  rw [ntcLoad, portsReframe_ntc]
  rfl

theorem tick_none {s : State} (h : tickCycle s = none) (evac : Nat) : tick s evac = s := by rw [tick, h]

theorem tick_some {s : State} {o : Nat} (h : tickCycle s = some o) (evac : Nat) : tick s evac = tickAt s o evac := by rw [tick, h]

/-- The tick of a stretch's end records the cycle that the NTC was loaded with, any other its own. -/
theorem tickAt_lastTick (s : State) (o evac : Nat) : (tickAt s o evac).lastTick =
    some (match (reach s o).stretch with | some (_, m) => m * (reach s o).pourLen | none => o) := by
  refine (congrArg State.lastTick (presentAll_railOnly _ _).eq).trans (congrArg some ?_)
  cases (reach s o).stretch with
  | none => rfl
  | some x => exact ntcLoad_ntc _ _ _

end Sys2Proof.Machine

namespace Sys2Proof.Proofs

open Sys2Proof.Machine

/-- Settles O11: the cycle is what `tickCycle_grid` says, and the tick records it or what the NTC was loaded with. -/
theorem tick : Obligations.Tick := by
  unfold Obligations.Tick
  intro s evac
  refine ⟨fun h => ?_, fun o h => ?_, fun o h hs => tickCycle_grid h hs⟩
  · exact congrArg Host.Outcome.next (tick_none h evac)
  · have he : exec (.tick evac) s = .next (tickAt s o evac) := congrArg Host.Outcome.next (tick_some h evac)
    exact ⟨_, he, (exec_kept _ he).pending, tickAt_lastTick s o evac⟩

end Sys2Proof.Proofs
end

section
/-! PROOF. Reference clocks, the loss of ring time and the temperature (R38, R39, R42, R522, R525; log entry 17). -/

namespace Sys2Proof.Machine

theorem bit_setBit_same (s : State) (n : RegName) (b : Nat) (v : Bool) (i j : Nat) {c : Nat} (hc : c < 32) :
    (s.setBit n b v i j).bit n c i j = if c = b then v else s.bit n c i j := by
  rw [State.bit, State.setBit, reg_setFld_same, bitOf, testBit_withField (Nat.le_refl b) hc]
  by_cases h : c = b
  · subst h
    cases v <;> simp [ofBool]
  · rw [if_neg (by omega), if_neg h]
    rfl

/-! ### A flag of PWR_STAT (R522, R525) -/

section
variable (s : State) (b : Nat) {src : Nat} (v : Bool) (t : Nat) (hsrc : src < 1024)

theorem refFlag_same (h : s.bit .pwrStat b = v) : refFlag s b src v t = s := if_pos h

include hsrc

/-- Apart from the flag, a change of it is a pulse of its source. -/
theorem refFlag_railOnly : RailOnly (s.setBit .pwrStat b v) (refFlag s b src v t) ∨ refFlag s b src v t = s := by
  unfold refFlag
  split
  · exact .inr rfl
  · exact .inl (pulse_railOnly _ t hsrc)

theorem refFlag_mem : (refFlag s b src v t).mem = s.mem := by
  rcases refFlag_railOnly s b v t hsrc with h | h
  · exact (congrArg State.mem h.eq :)
  · rw [h]

/-- The flag takes the value, and no other bit changes. -/
theorem bit_refFlag {c : Nat} (hc : c < 32) : (refFlag s b src v t).bit .pwrStat c = if c = b then v else s.bit .pwrStat c := by
  unfold refFlag
  split
  · next h =>
    split
    · next hcb => rw [hcb, h]
    · rfl
  · rw [State.bit, (pulse_railOnly _ t hsrc).reg .pwrStat 0 0 (by decide)]
    exact bit_setBit_same s .pwrStat b v 0 0 hc

theorem reg_refFlag_ne (n : RegName) (hn : regOff n 0 0 ≠ regOff .pwrStat 0 0) (hp : ¬ (0x10200 ≤ regOff n 0 0 ∧ regOff n 0 0 < 0x10280)) :
    (refFlag s b src v t).reg n = s.reg n := by
  rcases refFlag_railOnly s b v t hsrc with h | h
  · rw [h.reg n 0 0 hp, State.setBit, reg_setFld_ne _ _ _ _ hn]
  · rw [h]

end

/-- A reference clock is lost or returns: nothing happens where its flag says so already. -/
theorem refFlag_completes {c : Instr} {s r : State} {t b src : Nat} {v : Bool} (hc : exec c s = .next (refFlag r b src v t)) (hb : b < 32)
    (hsrc : src < 1024) :
    if r.bit .pwrStat b = v then exec c s = .next r
    else completes c s fun u => u.bit .pwrStat b = v ∧ (∀ d, d < 32 → d ≠ b → u.bit .pwrStat d = r.bit .pwrStat d) ∧ u.mem = r.mem := by
  split
  · next h => rw [hc, refFlag_same r b v t h]
  · refine ⟨_, hc, ?_, fun d hd hne => ?_, refFlag_mem r b v t hsrc⟩
    · rw [bit_refFlag r b v t hsrc hb, if_pos rfl]
    · rw [bit_refFlag r b v t hsrc hd, if_neg hne]

/-! ### Holdover (R38, R39, R42) -/

/-- A pair that is on becomes an island. -/
def islandPair (t : Nat) (s : State) (q : Nat) : State :=
  if pairOn s q ∧ !(s.rpair q).island then pulse (s.setRpair q { s.rpair q with island := true }) 263 t else s

/-- A state that follows ring time no longer. -/
def unfollowed (s : State) : State := { setTickSource s 2 with stretchOff := none, lossAt := none }

/-- The loss of ring time in a state that follows it: Holdover, and each pair that is on becomes an island. -/
theorem holdover_following {s : State} (h : tickSource s = 1 ∨ tickSource s = 3) (t : Nat) :
    holdover s t = islandPair t (islandPair t (unfollowed s) 0) 1 := if_pos h

/-- From s to u only the ring changed, and what events of the order rail write. -/
def RingRail (s u : State) : Prop := RailOnly { s with ring := u.ring } u

theorem RingRail.trans {s u v : State} (h : RingRail s u) (k : RingRail u v) : RingRail s v := by
  have h' : RailOnly { s with ring := v.ring } { u with ring := v.ring } :=
    ⟨congrArg (fun x : State => { x with ring := v.ring }) h.eq, h.regs, h.core⟩
  exact RailOnly.trans h' k

theorem RingRail.reg {s u : State} (h : RingRail s u) (n : RegName) (hn : ¬ (0x10200 ≤ regOff n 0 0 ∧ regOff n 0 0 < 0x10280)) :
    u.reg n = s.reg n := RailOnly.reg h n 0 0 hn

/-- Which pairs are on is a matter of ZWR_CFG (R303, R339). -/
theorem pairOn_congr {s u : State} (h : u.reg .zwrCfg = s.reg .zwrCfg) (q : Nat) : pairOn u q = pairOn s q := by
  have hbit : u.bit .zwrCfg q = s.bit .zwrCfg q := congrArg (fun w : W32 => bitOf w.toNat q) h
  have hfld : u.fld .zwrCfg 5 4 = s.fld .zwrCfg 5 4 := congrArg (fun w => fieldOf w 5 4) h
  rw [pairOn, pairOn, hbit, hfld]

theorem islandPair_ring (t : Nat) (s : State) (q : Nat) : (islandPair t s q).ring =
    if pairOn s q ∧ !(s.rpair q).island then (s.setRpair q { s.rpair q with island := true }).ring else s.ring := by
  unfold islandPair
  split
  · exact (congrArg State.ring (pulse_railOnly (n := 263) _ t (by decide)).eq :)
  · rfl

theorem islandPair_ringRail (t : Nat) (s : State) (q : Nat) : RingRail s (islandPair t s q) := by
  rw [RingRail, islandPair_ring]
  unfold islandPair
  split
  · exact pulse_railOnly _ t (by decide)
  · exact .refl s

theorem islandPair_pairs (t : Nat) (s : State) (q : Nat) : (islandPair t s q).ring.pairs.length = s.ring.pairs.length := by
  rw [islandPair_ring]
  split
  · exact List.length_set
  · rfl

/-- Pair q, if it is on, and every pair that was an island is one. -/
theorem islandPair_island (t : Nat) {s : State} {q p : Nat} (hq : q < s.ring.pairs.length)
    (hp : (s.rpair p).island = true ∨ p = q ∧ pairOn s q = true) : ((islandPair t s q).rpair p).island = true := by
  rw [State.rpair, islandPair_ring]
  split
  · change (nth (setNth s.ring.pairs q _) p _).island = true
    rw [nth, setNth, List.getD_eq_getElem?_getD, List.getElem?_set]
    split
    · rfl
    · next hne =>
      rw [← List.getD_eq_getElem?_getD]
      exact hp.resolve_right fun h => hne h.1.symm
  · next hn =>
    rcases hp with hp | ⟨rfl, hon⟩
    · exact hp
    · have hisl : (s.rpair p).island = true := by simpa [hon] using hn
      exact hisl

theorem holdover_ringRail {s : State} (h : tickSource s = 1 ∨ tickSource s = 3) (t : Nat) :
    RingRail (unfollowed s) (holdover s t) := by
  rw [holdover_following h]
  exact (islandPair_ringRail t _ 0).trans (islandPair_ringRail t _ 1)

/-- What Holdover makes of the tick source, and what it leaves (R38). -/
theorem holdover_keeps {s u : State} (h : RingRail (unfollowed s) u) : tickSource u = 2 ∧ u.stretchOff = none ∧ u.lossAt = none ∧
    u.ntc = s.ntc ∧ u.lastTick = s.lastTick ∧ u.mem = s.mem := by
  refine ⟨?_, (congrArg State.stretchOff h.eq :), (congrArg State.lossAt h.eq :), (congrArg State.ntc h.eq :),
    (congrArg State.lastTick h.eq :), (congrArg State.mem h.eq :)⟩
  rw [tickSource, State.fld, h.reg .tmrPourStat (by decide)]
  exact fld_setFld_same s .tmrPourStat 2 0 0 (by decide) (by decide)

/-- The device becomes an island on each pair that is on (R39). -/
theorem holdover_island {s : State} (h : tickSource s = 1 ∨ tickSource s = 3) (t : Nat) (hpairs : s.ring.pairs.length = 2) {q : Nat}
    (hq : q < 2) (hon : pairOn s q = true) : ((holdover s t).rpair q).island = true := by
  have hcfg : (unfollowed s).reg .zwrCfg = s.reg .zwrCfg := reg_setFld_ne _ _ _ _ (by decide)
  have hon' : pairOn (unfollowed s) q = true := (pairOn_congr hcfg q).trans hon
  have hlen : (unfollowed s).ring.pairs.length = 2 := hpairs
  have hlen0 : (islandPair t (unfollowed s) 0).ring.pairs.length = 2 := (islandPair_pairs t _ 0).trans hlen
  rw [holdover_following h]
  refine islandPair_island t (by omega) ?_
  rcases (by omega : q = 0 ∨ q = 1) with rfl | rfl
  · exact .inl (islandPair_island t (by omega) (.inr ⟨rfl, hon'⟩))
  · exact .inr ⟨rfl, (pairOn_congr ((islandPair_ringRail t _ 0).reg .zwrCfg (by decide)) 1).trans hon'⟩

/-! ### Temperature (R525) -/

theorem tempOf_mod (n : Nat) : tempOf (n % 1024) = (BitVec.ofNat 10 n).toInt := by
  rw [tempOf]
  congr 1
  exact BitVec.eq_of_toNat_eq (by simp)

/-- The two fields of PWR_TEMP as TEMPERATURE_UPDATE leaves them. -/
def putTemps (s : State) (m a : Nat) : State := (s.setFld .pwrTemp 25 16 m).setFld .pwrTemp 9 0 a

theorem putTemps_fields (s : State) (m a : Nat) :
    (putTemps s m a).fld .pwrTemp 25 16 = m % 1024 ∧ (putTemps s m a).fld .pwrTemp 9 0 = a % 1024 := by
  constructor
  · rw [putTemps, fld_setFld_ne _ _ _ _ _ (by decide) (by decide) (by decide)]
    exact fld_setFld_same _ _ _ _ _ (by decide) (by decide)
  · exact fld_setFld_same _ _ _ _ _ (by decide) (by decide)

theorem putTemps_pwrStat (s : State) (m a : Nat) : (putTemps s m a).reg .pwrStat = s.reg .pwrStat := by
  rw [putTemps, reg_setFld_ne _ _ _ _ (by decide), reg_setFld_ne _ _ _ _ (by decide)]

/-- TEMPERATURE_UPDATE sets the fields, and the hot flag where the temperature leaves the band between its two limits. -/
theorem temperature_eq (s : State) (m a t : Nat) :
    temperature s m a t =
      refFlag (putTemps s m a) 21 709
        (if 420 ≤ (BitVec.ofNat 10 m).toInt then true else if (BitVec.ofNat 10 m).toInt < 400 then false else s.bit .pwrStat 21) t := by
  simp only [temperature, ← tempOf_mod]
  split
  · rfl
  · split
    · rfl
    · exact (refFlag_same (putTemps s m a) 21 _ t (congrArg (fun w : W32 => bitOf w.toNat 21) (putTemps_pwrStat s m a))).symm

/-! ### Thermal shutdown (R525) -/

/-- A module reset records its cause (R516). -/
theorem moduleReset_cause (s : State) {why : Nat} (hw : why < 8) : (moduleReset s why).fld .pwrStat 26 24 = why := by
  rw [State.fld, moduleReset, reg_setReg_same, fieldOf, BitVec.toNat_ofNat]
  simp only [bitsOf, Nat.shiftRight_eq_div_pow]
  omega

theorem setPower_fld (s : State) (x : Power) (n : RegName) (hi lo i j : Nat) : (s.setPower x).fld n hi lo i j = s.fld n hi lo i j := rfl

/-- The rails off are a module reset without memory and without PG (R514; log entry 17). -/
theorem railsOff_eq (s : State) (why : Nat) : railsOff s why =
    (moduleReset { s with mem := [], memErr := [] } why).setPower
      { s.power with pg := false, resetOn := true, sleepReq := none, asleep := none } := rfl

/-- Above the limit the rails go off until a restart, and their memory is lost. -/
theorem thermalShutdown_facts {s : State} (h : 480 ≤ tmain s) : (thermalShutdown s).power.shutdown = true ∧
    (thermalShutdown s).power.pg = false ∧ (thermalShutdown s).power.resetOn = true ∧
    (thermalShutdown s).fld .pwrStat 26 24 = 2 ∧ (thermalShutdown s).mem = [] := by
  rw [thermalShutdown, if_pos h, railsOff_eq]
  refine ⟨rfl, rfl, rfl, ?_, rfl⟩
  rw [setPower_fld, setPower_fld]
  exact moduleReset_cause _ (by decide)

/-- Settles O56: each command is its operation on the state that time leaves, and the lemmas above say what that does. -/
theorem clocksAndHeat : Obligations.ClocksAndHeat := by
  unfold Obligations.ClocksAndHeat
  rintro s r t rfl
  refine ⟨fun c b v hc => ?_, fun ha => ?_, fun hsrc => ?_, fun m a => ?_, ?_, ?_⟩
  · simp only [List.mem_cons, Prod.mk.injEq, List.not_mem_nil, or_false] at hc
    rcases hc with ⟨rfl, rfl, rfl⟩ | ⟨rfl, rfl, rfl⟩ | ⟨rfl, rfl, rfl⟩ | ⟨rfl, rfl, rfl⟩ <;>
      exact refFlag_completes rfl (by decide) (by decide)
  · exact congrArg Host.Outcome.next (awake_runs ⟨rfl, ha⟩ _)
  · obtain ⟨h2, hoff, hloss, hntc, hlast, hmem⟩ := holdover_keeps (holdover_ringRail hsrc (t + 1))
    exact ⟨h2, hoff, hloss, hntc, hlast, hmem, fun hs q hq hon => holdover_island hsrc (t + 1) hs.pairs hq hon⟩
  · obtain ⟨hmain, hana⟩ := putTemps_fields (reach s t) m a
    refine ⟨_, congrArg Host.Outcome.next (temperature_eq (reach s t) m a t), ?_, ?_, ?_, ?_⟩
    · rw [State.fld, reg_refFlag_ne _ _ _ _ (by decide) .pwrTemp (by decide) (by decide)]
      exact hmain
    · rw [State.fld, reg_refFlag_ne _ _ _ _ (by decide) .pwrTemp (by decide) (by decide)]
      exact hana
    · exact refFlag_mem _ _ _ _ (by decide)
    · rw [bit_refFlag _ _ _ _ (by decide) (by decide), if_pos rfl]
  · split
    · next h => exact ⟨_, rfl, thermalShutdown_facts h⟩
    · next h => exact congrArg Host.Outcome.next (if_neg h)
  · rfl

end Sys2Proof.Machine
end

section
/-! PROOF. A step and its queue: the front is taken, the rest stays, and a command whose index names nothing only lets time
reach its stamp (R51; log entries 1 and 18). -/

namespace Sys2Proof.Machine

/-! ### An index that names nothing -/

theorem selValid_eq_wf (w : CoreSel) : selValid w = w.wf := by cases w <;> rfl

theorem onCore_unnamed {w : CoreSel} (hw : w.wf = false) (s : State) (f : State → State) : onCore w s f = s :=
  if_neg (by simp [selValid_eq_wf, hw])

theorem upTo_unnamed {n i : Nat} (hi : decide (i < n) = false) (s : State) (f : State → State) : upTo n i s f = s :=
  if_neg (of_decide_eq_false hi)

theorem regPut_unnamed {n : RegName} {i : Nat} (hi : decide (i < (regRow n).n1) = false) (s : State) (ini : Ini) (v : W32) (t : Nat) :
    regPut s ini n i v t = s := if_neg (of_decide_eq_false hi)

theorem regGet_unnamed {n : RegName} {i : Nat} (hi : decide (i < (regRow n).n1) = false) (s : State) (ini : Ini) (t : Nat) :
    regGet s ini n i t = s := if_neg (of_decide_eq_false hi)

/-- Channels 128 to 263 are those of the cores (`Chan`): a write of a channel beyond them reaches no register. -/
theorem regPut_chan_unnamed {b : RegName} {n : Nat} (hb : (regRow b).n1 = 136) (hn : decide (n < 264) = false) (a : RegName)
    (s : State) (ini : Ini) (v : W32) (t : Nat) :
    (if n < 128 then regPut s ini a n v t else regPut s ini b (n - 128) v t) = s := by
  have hn' := of_decide_eq_false hn
  rw [if_neg (by omega), regPut_unnamed (by simp [hb]; omega)]

/-- No source from 1024 on has an input (R234). -/
theorem srcHasInput_unnamed {n : Nat} (hn : decide (n < 1024) = false) : srcHasInput n = false := by
  have hn' := of_decide_eq_false hn
  simp only [srcHasInput, List.any_cons, List.any_nil, Bool.or_false, Bool.or_eq_false_iff, decide_eq_false_iff_not]
  omega

/-! ### The commands that carry one -/

theorem exec_sourceEvent_unnamed {s : State} {t n : Nat} {level : Bool} (hn : decide (n < 1024) = false) :
    exec (.sourceEvent t n level) s = .next (reach s t) :=
  congrArg Host.Outcome.next (if_neg (by simp [srcHasInput_unnamed hn]))

section
variable {s : State} {t : Nat} (ha : (reach s t).power.asleep = none)
include ha

/-- On the running clock, an effect that leaves every state leaves what time leaves. -/
theorem next_awake_idle {f : State → State} (hf : ∀ u, f u = u) : (.next (awake s t f) : Out) = .next (reach s t) := by
  rw [awake_runs ⟨rfl, ha⟩, hf]

theorem next_onCore_unnamed {w : CoreSel} {f : State → State} (hw : w.wf = false) :
    (.next (awake s t fun s => onCore w s f) : Out) = .next (reach s t) :=
  next_awake_idle ha fun u => onCore_unnamed hw u f

theorem next_upTo_unnamed {n i : Nat} {f : State → State} (hi : decide (i < n) = false) :
    (.next (awake s t fun s => upTo n i s f) : Out) = .next (reach s t) :=
  next_awake_idle ha fun u => upTo_unnamed hi u f

theorem next_regPut_unnamed {n : RegName} {i : Nat} {ini : Ini} {v : W32} (hi : decide (i < (regRow n).n1) = false) :
    (.next (awake s t fun s => regPut s ini n i v t) : Out) = .next (reach s t) :=
  next_awake_idle ha fun u => regPut_unnamed hi u ini v t

theorem next_chan_unnamed {a b : RegName} {n : Nat} {ini : Ini} {v : W32} (hb : (regRow b).n1 = 136) (hn : decide (n < 264) = false) :
    (.next (awake s t fun s => if n < 128 then regPut s ini a n v t else regPut s ini b (n - 128) v t) : Out) = .next (reach s t) :=
  next_awake_idle ha fun u => regPut_chan_unnamed hb hn a u ini v t

/-- A descriptor is a word of one of the 65,536 queues' 32 bytes (R273, R277). -/
theorem exec_descriptorWrite_unnamed {ini : Ini} {h off : Nat} {v : W32}
    (hw : (decide (h < 65536) && decide (off < 32 ∧ off % 4 = 0)) = false) :
    exec (.descriptorWrite t ini h off v) s = .next (reach s t) := by
  refine next_awake_idle ha fun u => ?_
  rcases Bool.and_eq_false_iff.mp hw with hh | hoff
  · exact upTo_unnamed hh u _
  · simp only [if_neg (of_decide_eq_false hoff), upTo, ite_self]

/-- The edge has the upper two of the four ports (R339). -/
theorem exec_edgeFrameReceived_unnamed {p : Nat} {bytes : List Byte} (hw : (decide (p < 4) && decide (2 ≤ p)) = false) :
    exec (.edgeFrameReceived t p bytes) s = .next (reach s t) := by
  refine next_awake_idle ha fun u => ?_
  rcases Bool.and_eq_false_iff.mp hw with hp | hp
  · exact upTo_unnamed hp u _
  · have hlow : p < 2 := Nat.lt_of_not_le (of_decide_eq_false hp)
    simp only [if_pos hlow, upTo, ite_self]

/-- A command whose index names nothing the block has (log entry 18). -/
theorem exec_illFormed (c : Instr) (hwf : wellFormed c = false) (hst : c.stamp = some t) : exec c s = .next (reach s t) := by
  cases c <;> cases hst
  case bundleIssue | unitResultDelivery | accumulatorLanding | loadDelivery | bmoveEnd | carafeLoadReady | storeBufferPerformed | entry =>
    exact next_onCore_unnamed ha hwf
  case carafeGrant | sendItemStored | receiveItemDelivered | receiveTimeout | coalesceTimeRelease | pendingWrite | inServiceComplete |
      channelMatch | channelOverflow | snapshotSharedChannel | snapshotPrivateChannel | captureEvent | initiatorOpEnd |
      inputPlacement | itemAgeTimeout | heartbeatReceived | supervisionExpiry | remoteFaultReceived | portWrap | portReturned |
      ringFrameReceived | beaconSend | delayRequestSend | epochGrantSend | upstreamTimeout | islandLeaderElection | trainOrigin |
      groupMissing | unreservedFrameSend | mailboxSend | edgeStreamTransmit | streamSilent | crmLive | startNightSweep | crmOff |
      startReflectometry | velocityCalibration | abortReflectometry | cremaFrameEnd | fastFault | liveWindowEnd | nightStageAEnd |
      nightStageBEnd | reflectPulse | reflectRunEnd | evacDebouncedChange | evacMessageStart | evacMessageEnd | lockstepMismatch |
      keepCommandComplete | takeOver | retireSpare | counterIntervalClose | externalPortAccess | registerWrite | hostRingEntryWrite |
      hostRingPiWrite | hostReadCompletion | hostReadTimeout | msixUnmask | pinEdgeClock =>
    exact next_upTo_unnamed ha hwf
  case channelArm | channelDisarm | compareStage | compareCommit => exact next_chan_unnamed ha rfl hwf
  case initiatorSend | initiatorReceive | keepQuote | keepCert | keepRandom | sbkInstall | epochPrepare | epochAccept | raiseFloor |
      slotProgram | slotRevoke | restoreFactory | logRead | debugChallenge | debugUnlock | hostRingEnable =>
    exact next_regPut_unnamed ha hwf
  case captureRead ini c => exact next_awake_idle ha fun u => regGet_unnamed (n := .tmrCapLo) hwf u ini t
  case sourceEvent => exact exec_sourceEvent_unnamed hwf
  case descriptorWrite => exact exec_descriptorWrite_unnamed ha hwf
  case edgeFrameReceived => exact exec_edgeFrameReceived_unnamed ha hwf
  all_goals exact nomatch hwf

end

/-- Settles O58: the queue is what `exec_kept` says no command changes, and `exec_illFormed` goes through the commands with an
index. -/
theorem stepTakesFront : Obligations.StepTakesFront := by
  unfold Obligations.StepTakesFront
  intro s
  refine ⟨fun c rest hq => ?_, fun c u h => (exec_kept c h).pending, fun hq => ?_, fun c t hwf hst ha => exec_illFormed ha c hwf hst⟩
  · rw [step, hq]
  · rw [step, hq]
    exact (apply_ite Host.Outcome.next _ _ _).symm

end Sys2Proof.Machine
end

section
/-! SUPPORT. A core of the device set twice, and read after it was set (R24, R413). -/

namespace Sys2Proof.Machine

theorem core_setCore_valid {s : State} {w : CoreSel} (c : Core) (hs : Shaped s) (hw : selValid w = true) :
    (s.setCore w c).core w = c := by
  cases w with
  | eduno p => exact core_setCore_same s c (hs.cores ▸ of_decide_eq_true hw)
  | barista r => exact core_setCore_pair s c (hs.baristas ▸ of_decide_eq_true hw)

@[simp] theorem setCore_setCore (s : State) (w : CoreSel) (c d : Core) : (s.setCore w c).setCore w d = s.setCore w d := by
  cases w <;> simp only [State.setCore, setNth, List.set_set]

end Sys2Proof.Machine
end

section
/-! PROOF. UNIT_RESULT_DELIVERY, ACCUMULATOR_LANDING and LOAD_DELIVERY of one operation in flight (R63, R129, R131, R146, R221). -/

namespace Sys2Proof.Machine

/-! ### A unit set -/

@[simp] theorem unitsFor_setUnits (c : Core) (sup : Bool) (u : UnitSet) : unitsFor (setUnits c sup u) sup = u := by
  cases sup <;> rfl

@[simp] theorem setUnits_g (c : Core) (sup : Bool) (u : UnitSet) : (setUnits c sup u).g = c.g := by cases sup <;> rfl
@[simp] theorem setUnits_acc (c : Core) (sup : Bool) (u : UnitSet) : (setUnits c sup u).acc = c.acc := by cases sup <;> rfl
@[simp] theorem setUnits_astat (c : Core) (sup : Bool) (u : UnitSet) : (setUnits c sup u).astat = c.astat := by cases sup <;> rfl
@[simp] theorem setUnits_fly (c : Core) (sup : Bool) (u : UnitSet) : (setUnits c sup u).fly = c.fly := by cases sup <;> rfl

/-! ### Lanes (R129, R131, R133) -/

theorem landLane_acc_ne {k op j i : Nat} (ra x : Row) (y : W24) (c : Core) (h : i ≠ 4 * k + j) :
    nth (landLane k op ra x y c j).acc i 0 = nth c.acc i 0 := nth_setNth_ne _ _ h

/-- Lanes that are not the one of index i leave it. -/
theorem landLanes_acc_ne {k op i : Nat} (ra x : Row) (y : W24) (l : List Nat) (c : Core) (h : ∀ j ∈ l, i ≠ 4 * k + j) :
    nth (l.foldl (landLane k op ra x y) c).acc i 0 = nth c.acc i 0 := by
  induction l generalizing c with
  | nil => rfl
  | cons j l ih =>
    obtain ⟨hj, hl⟩ := List.forall_mem_cons.mp h
    exact (ih _ hl).trans (landLane_acc_ne ra x y c hj)

/-- Each lane of a landing takes its result from the lane as it was before (R131). -/
theorem landLanes_acc {k op j : Nat} (ra x : Row) (y : W24) (l : List Nat) (c : Core) (hd : l.Nodup) (hj : j ∈ l)
    (hlen : 4 * k + j < c.acc.length) :
    nth (l.foldl (landLane k op ra x y) c).acc (4 * k + j) 0 =
      (macLane op k (nth c.acc (4 * k + j) 0) (rowWord ra (4 * (k / 2) + j)) (rowWord x (4 * (k / 2) + j)) y).1 := by
  induction l generalizing c with
  | nil => exact absurd hj List.not_mem_nil
  | cons i l ih =>
    obtain ⟨hil, hdl⟩ := List.nodup_cons.mp hd
    by_cases hij : j = i
    · subst hij
      rw [List.foldl_cons, landLanes_acc_ne ra x y l _ (fun n hn he => hil (by rwa [Nat.add_left_cancel he]))]
      exact nth_setNth_same _ _ hlen
    · have hlane : 4 * k + j ≠ 4 * k + i := by omega
      have hl : j ∈ l := (List.mem_cons.mp hj).resolve_left hij
      rw [List.foldl_cons, ih _ hdl hl (by simpa only [landLane, setNth_length] using hlen), landLane_acc_ne ra x y c hlane]

/-- A landing leaves the registers (R131). -/
theorem landLanes_g {k op : Nat} (ra x : Row) (y : W24) (l : List Nat) (c : Core) :
    (l.foldl (landLane k op ra x y) c).g = c.g := by
  induction l generalizing c with
  | nil => rfl
  | cons j l ih => exact ih _

theorem deliver_fly (c : Core) (f : Flight) : (deliver c f).fly = c.fly := by
  unfold deliver
  cases f.what with
  | ext k ctl => simp only [List.foldl, extLane, setUnits_fly]
  | land k op ra x y => rfl
  | _ => simp only [setUnits_fly]

/-! ### One operation in flight -/

/-- Nothing in flight that the test names: nothing is delivered. -/
theorem deliverAll_none {mark : Bool} {now : Flight → Bool} {c : Core} (h : ∀ f ∈ c.fly, now f = false) :
    deliverAll mark now c = c := by
  have hnow : c.fly.filter now = [] := List.filter_eq_nil_iff.mpr fun f hf => by simp [h f hf]
  have hrest : c.fly.filter (fun f => !now f) = c.fly := List.filter_eq_self.mpr fun f hf => by simp [h f hf]
  simp [deliverAll, hnow, hrest]

/-- The core after the one operation in flight has delivered: what it sets in the status is added to what was set. -/
def delivered (c : Core) (f : Flight) : Core :=
  let d := deliver { c with fly := [], astat := 0 } f
  { d with astat := c.astat ||| d.astat }

theorem delivered_fly (c : Core) (f : Flight) : (delivered c f).fly = [] := deliver_fly _ f

theorem deliverAll_one (mark : Bool) {now : Flight → Bool} {c : Core} {f : Flight} (hfly : c.fly = [f]) (h : now f = true) :
    ∃ x, deliverAll mark now c = { delivered c f with astatSet := x } := by
  simp [deliverAll, hfly, h, delivered]

/-- One operation in flight that is due delivers, whether it was due before the last bundle or ended with it. -/
theorem settleSel_one {sel : Deliver → Bool} {b : Nat} {c : Core} {f : Flight} (hfly : c.fly = [f]) (hsel : sel f.what = true)
    (hdue : f.due ≤ b) : ∃ x, settleSel sel b c = { delivered c f with astatSet := x } := by
  by_cases hlt : f.due < b
  · obtain ⟨x, hx⟩ := deliverAll_one (now := fun f => sel f.what && decide (f.due < b)) false hfly (by simp [hsel, hlt])
    refine ⟨x, ?_⟩
    rw [settleSel, hx]
    exact deliverAll_none fun g hg => by simp [delivered_fly] at hg
  · have hnone : ∀ g ∈ c.fly, (sel g.what && decide (g.due < b)) = false := by simp [hfly, Nat.le_of_not_lt hlt]
    rw [settleSel, deliverAll_none hnone]
    exact deliverAll_one true hfly (by simp [hsel, hdue])

/-- A delivery command completes with the one operation that is due delivered in the core, and memory as it was. -/
theorem completes_delivered {s r : State} {t : Nat} {w : CoreSel} {i : Instr} {sel : Deliver → Bool} {f : Flight}
    (hi : exec i s = .next (awake s t fun s => onCore w s fun s => s.setCore w (settleSel sel (s.core w).bcount (s.core w))))
    (hr : runsAt s t r) (hs : Shaped r) (hw : selValid w = true) (hfly : (r.core w).fly = [f]) (hsel : sel f.what = true)
    (hdue : f.due ≤ (r.core w).bcount) :
    completes i s fun u => u.mem = r.mem ∧ ∃ x, u.core w = { delivered (r.core w) f with astatSet := x } := by
  obtain ⟨x, hx⟩ := settleSel_one hfly hsel hdue
  refine ⟨_, hi, ?_⟩
  rw [awake_runs hr, onCore_valid hw, hx]
  exact ⟨setCore_mem _ _ _, x, core_setCore_valid _ hs hw⟩

/-- A result of an ALU reaches its port, with the status it sets (R63, R221). -/
theorem delivered_alu (c : Core) (due : Nat) (sup : Bool) (n : Nat) (v : W48) (fl : BitVec 6) :
    delivered c ⟨due, sup, .alu n v fl⟩ =
      { setUnits c sup { unitsFor c sup with aluR := setNth (unitsFor c sup).aluR n v } with fly := [], astat := c.astat ||| fl } := by
  cases sup <;> simp [delivered, deliver, setUnits, unitsFor]

/-- A landing updates the four lanes of its accumulator (R129, R131). -/
theorem delivered_land (c : Core) (due : Nat) (sup : Bool) (k op : Nat) (ra x : Row) (y : W24) :
    ∃ f, delivered c ⟨due, sup, .land k op ra x y⟩ =
      { [0, 1, 2, 3].foldl (landLane k op ra x y) { c with fly := [], astat := 0 } with astat := f } := ⟨_, rfl⟩

/-- A scalar load reaches its port and sets no status (R146, R221). -/
theorem delivered_scalar (c : Core) (due : Nat) (sup : Bool) (n : Nat) (v : W48) :
    delivered c ⟨due, sup, .scalar n v⟩ =
      { setUnits c sup { unitsFor c sup with lsuS := setNth (unitsFor c sup).lsuS n v } with fly := [] } := by
  cases sup <;> simp [delivered, deliver, setUnits, unitsFor]

end Sys2Proof.Machine

namespace Sys2Proof.Proofs

open Sys2Proof.Machine

/-- Settles O14: each command delivers the one operation that is due, by `completes_delivered`; a landing is four lanes. -/
theorem deliveries : Obligations.Deliveries := by
  unfold Obligations.Deliveries
  intro s r t w due sup hr hs hw c hdue
  refine ⟨fun n v fl hfly hn => ?_, fun k op ra x y hfly _ => ?_, fun n v hfly hn => ?_⟩
  · obtain ⟨u, hu, hmem, b, hcore⟩ := completes_delivered (i := .unitResultDelivery t w) rfl hr hs hw hfly rfl hdue
    rw [delivered_alu] at hcore
    have hport := unitsFor_setUnits c sup { unitsFor c sup with aluR := setNth (unitsFor c sup).aluR n v }
    refine ⟨u, hu, ?_, congrArg Core.astat hcore, congrArg Core.fly hcore, (congrArg Core.g hcore).trans (setUnits_g _ _ _),
      (congrArg Core.acc hcore).trans (setUnits_acc _ _ _), hmem⟩
    rw [hcore]
    exact (congrArg (fun x : UnitSet => nth x.aluR n 0) hport).trans (nth_setNth_same _ _ hn)
  · obtain ⟨u, hu, hmem, b, hcore⟩ := completes_delivered (i := .accumulatorLanding t w) rfl hr hs hw hfly rfl hdue
    have hfly' : (u.core w).fly = [] := (congrArg Core.fly hcore).trans (delivered_fly c _)
    obtain ⟨f, hland⟩ := delivered_land c due sup k op ra x y
    rw [hland] at hcore
    refine ⟨u, hu, fun j hj hlen => ?_, fun i hi => ?_, hfly', ?_, hmem⟩
    · exact (congrArg (fun d : Core => nth d.acc (4 * k + j) 0) hcore).trans
        (landLanes_acc (k := k) (op := op) ra x y [0, 1, 2, 3] { c with fly := [], astat := 0 } (by decide) (by simp; omega) hlen)
    · exact (congrArg (fun d : Core => nth d.acc i 0) hcore).trans
        (landLanes_acc_ne (k := k) (op := op) ra x y [0, 1, 2, 3] { c with fly := [], astat := 0 } (by simp; omega))
    · exact (congrArg Core.g hcore).trans (landLanes_g (k := k) (op := op) ra x y [0, 1, 2, 3] { c with fly := [], astat := 0 })
  · obtain ⟨u, hu, hmem, b, hcore⟩ := completes_delivered (i := .loadDelivery t w) rfl hr hs hw hfly rfl hdue
    rw [delivered_scalar] at hcore
    have hport := unitsFor_setUnits c sup { unitsFor c sup with lsuS := setNth (unitsFor c sup).lsuS n v }
    refine ⟨u, hu, ?_, (congrArg Core.astat hcore).trans (setUnits_astat _ _ _), congrArg Core.fly hcore,
      (congrArg Core.g hcore).trans (setUnits_g _ _ _), (congrArg Core.acc hcore).trans (setUnits_acc _ _ _), hmem⟩
    rw [hcore]
    exact (congrArg (fun x : UnitSet => nth x.lsuS n 0) hport).trans (nth_setNth_same _ _ hn)

end Sys2Proof.Proofs
end

section
/-! PROOF. The arithmetic of the units on exact integers: saturation to 24 bits, lanes modulo 2^56 (R76, R81, R128, R129). -/

namespace Sys2Proof.Machine

/-! ### Clamping (R81) -/

theorem clampInt_fst (w : Nat) (y : Int) :
    (clampInt w y).1 = max (-((2 ^ (w - 1) : Nat) : Int)) (min (((2 ^ (w - 1) : Nat) : Int) - 1) y) := by
  have hpos : 0 < 2 ^ (w - 1) := Nat.two_pow_pos _
  unfold clampInt
  dsimp only
  split
  · dsimp only; omega
  · split <;> dsimp only <;> omega

theorem clampInt_snd (w : Nat) (y : Int) :
    (clampInt w y).2 = true ↔ ¬ (-((2 ^ (w - 1) : Nat) : Int) ≤ y ∧ y < ((2 ^ (w - 1) : Nat) : Int)) := by
  have hpos : 0 < 2 ^ (w - 1) := Nat.two_pow_pos _
  unfold clampInt
  dsimp only
  split
  · simp only [true_iff]; omega
  · split
    · simp only [true_iff]; omega
    · simp only [Bool.false_eq_true, false_iff]; omega

/-- A status bit is set exactly when the clamp changed the value. -/
theorem clampInt_flag (w : Nat) (y : Int) (f : Astat) : (if (clampInt w y).2 then f else astatNone) =
    if -((2 ^ (w - 1) : Nat) : Int) ≤ y ∧ y < ((2 ^ (w - 1) : Nat) : Int) then 0 else f := by
  simp only [clampInt_snd, ite_not, astatNone]

/-! ### The ALU (R128) -/

theorem aluSat_toInt (y : Int) : (aluSat y).1.toInt = max (-8388608) (min 8388607 y) := by
  have hfst : (clampInt 24 y).1 = max (-8388608) (min 8388607 y) := clampInt_fst 24 y
  rw [aluSat, hfst, BitVec.toInt_ofInt_eq_self] <;> omega

theorem aluSat_flag (y : Int) : (aluSat y).2 = if -8388608 ≤ y ∧ y ≤ 8388607 then 0 else astatAlu :=
  (clampInt_flag 24 y astatAlu).trans (if_congr (by omega) rfl rfl)

/-- The saturating operations with their exact results. -/
theorem aluOp_saturates {o t : W48} {op : Nat} {y : Int}
    (h : (op, y) ∈ [(0x02, o.toInt + t.toInt), (0x04, o.toInt - t.toInt), (0x10, -t.toInt), (0x0E, (t.toInt.natAbs : Int))]) :
    aluOp op o t = aluSat y := by
  simp only [List.mem_cons, Prod.mk.injEq, List.not_mem_nil, or_false] at h
  obtain ⟨rfl, rfl⟩ | ⟨rfl, rfl⟩ | ⟨rfl, rfl⟩ | ⟨rfl, rfl⟩ := h
  · rfl
  · rfl
  · rfl
  · have habs : (t.toInt.natAbs : Int) = if t.toInt < 0 then -t.toInt else t.toInt := by omega
    rw [habs]
    rfl

/-- A plain add wraps in a register of 24 bits (R76). -/
theorem aluOp_add_low (o t : W48) : ((aluOp 0x01 o t).1.setWidth 24).toNat = (o.toNat + t.toNat) % 2 ^ 24 := by
  change ((o + t).setWidth 24).toNat = _
  rw [BitVec.toNat_setWidth, BitVec.toNat_add]
  omega

/-! ### Accumulator lanes (R129) -/

/-- The accumulating operations with their exact results. -/
theorem macLane_accumulates {k op : Nat} {acc : W56} {a w s : W24} {y : Int}
    (h : (op, y) ∈ [(0, acc.toInt + a.toInt * w.toInt), (1, acc.toInt - a.toInt * w.toInt), (3, acc.toInt + w.toInt * s.toInt),
      (4, acc.toInt - w.toInt * s.toInt)]) :
    macLane op k acc a w s = (BitVec.ofInt 56 y, if (clampInt 56 y).2 then astatAcc k else astatNone) := by
  simp only [List.mem_cons, Prod.mk.injEq, List.not_mem_nil, or_false] at h
  obtain ⟨rfl, rfl⟩ | ⟨rfl, rfl⟩ | ⟨rfl, rfl⟩ | ⟨rfl, rfl⟩ := h <;> rfl

/-- A product of two words fits a lane. -/
theorem macLane_mpy_toInt (k : Nat) (acc : W56) (a w s : W24) : (macLane 2 k acc a w s).1.toInt = a.toInt * w.toInt := by
  have hlo : -2 ^ (24 * 2 - 2) ≤ a.toInt * w.toInt := BitVec.le_toInt_mul_toInt
  have hhi : a.toInt * w.toInt ≤ 2 ^ (24 * 2 - 2) := BitVec.toInt_mul_toInt_le
  exact BitVec.toInt_ofInt_eq_self (by decide) (le_trans (by decide) hlo) (lt_of_le_of_lt hhi (by decide))

end Sys2Proof.Machine

namespace Sys2Proof.Proofs

open Sys2Proof.Machine

/-- Settles O15: each saturating operation is `aluSat` of its exact result, each accumulating one is its exact result cut to a lane. -/
theorem unitArithmetic : Obligations.UnitArithmetic := by
  unfold Obligations.UnitArithmetic
  refine ⟨fun o t op y h => ?_, fun o t => ⟨aluOp_add_low o t, rfl⟩, fun k acc a w s op y h => ?_,
    fun k acc a w s => ⟨macLane_mpy_toInt k acc a w s, rfl, rfl⟩⟩
  · rw [aluOp_saturates h]
    exact ⟨aluSat_toInt y, aluSat_flag y⟩
  · rw [macLane_accumulates h]
    exact ⟨rfl, clampInt_flag 56 y (astatAcc k)⟩

end Sys2Proof.Proofs
end

section
/-! PROOF. BUNDLE_ISSUE: it completes for every core, and what a bundle does whose acting moves only write registers and latches
(R59, R61, R65, R67, R70, R99, R150, R153). -/

namespace Sys2Proof.Machine

/-! ### A move to a register or latch -/

/-- Core c with what step 3 of R59 writes as in core d: registers, latches, CORE_ASTAT, TSBR and ctl.hold. -/
def withWritten (c d : Core) : Core :=
  { c with g := d.g, a := d.a, m := d.m, cb := d.cb, cl := d.cl, acc := d.acc, p := d.p, ln := d.ln, bc := d.bc
           setU := d.setU, setS := d.setS, astat := d.astat, tsbr := d.tsbr, hold := d.hold }

/-- From core state c to d only what step 3 writes changed. -/
def WritesOnly (c d : Core) : Prop := d = withWritten c d

theorem WritesOnly.trans {c d e : Core} (hcd : WritesOnly c d) (hde : WritesOnly d e) : WritesOnly c e :=
  calc e = withWritten d e := hde
    _ = withWritten (withWritten c d) e := congrArg (withWritten · e) hcd
    _ = withWritten c e := rfl

theorem setUnits_writesOnly (c : Core) (sup : Bool) (u : UnitSet) : WritesOnly c (setUnits c sup u) := by
  cases sup <;> rfl

theorem writeDst_writesOnly (c0 : Core) (ret : Option Nat) (c : Core) (m : LiveMove) : WritesOnly c (writeDst c0 ret c m) := by
  unfold writeDst
  cases m.dst with
  | p i => dsimp only; split <;> rfl
  | call => cases ret <;> rfl
  | agT p k md => dsimp only; split <;> rfl
  | lsuT p n k md => dsimp only; split <;> rfl
  | aluO | macO | macRa | shfO | spuO | lpe | qioQ | carSd | sd | srow => exact setUnits_writesOnly _ _ _
  | _ => rfl

theorem writeAll_writesOnly (c0 : Core) (ret : Option Nat) (ms : List LiveMove) (c : Core) :
    WritesOnly c (ms.foldl (writeDst c0 ret) c) := by
  induction ms generalizing c with
  | nil => rfl
  | cons m ms ih => exact (writeDst_writesOnly c0 ret c m).trans (ih _)

/-- The return offset of a call is for a call alone. -/
theorem writeDst_plain_ret {c0 c : Core} {m : LiveMove} (h : plainDst m.dst = true) (ret : Option Nat) :
    writeDst c0 ret c m = writeDst c0 none c m := by
  unfold writeDst
  cases hd : m.dst with
  | call => simp [hd, plainDst] at h
  | _ => rfl

/-! ### The general registers (R61, R67, R70) -/

/-- A move names g-register i: by itself or in its pair. -/
def namesG (i : Nat) (m : LiveMove) : Prop := m.dst = .g i ∨ m.dst = .d (i / 2)

/-- What the g-registers are after a move. -/
def gAfter (g : List W24) (m : LiveMove) : List W24 :=
  match m.dst with
  | .g i => setNth g i (m.v.setWidth 24)
  | .d i => setNth (setNth g (2 * i) (m.v.setWidth 24)) (2 * i + 1) (BitVec.ofNat 24 (m.v.toNat / 2 ^ 24))
  | _ => g

theorem writeDst_g (c0 : Core) (ret : Option Nat) (c : Core) (m : LiveMove) : (writeDst c0 ret c m).g = gAfter c.g m := by
  unfold writeDst gAfter
  cases m.dst with
  | p i => dsimp only; split <;> rfl
  | call => cases ret <;> rfl
  | agT p k md => dsimp only; split <;> rfl
  | lsuT p n k md => dsimp only; split <;> rfl
  | aluO | macO | macRa | shfO | spuO | lpe | qioQ | carSd | sd | srow => exact setUnits_g _ _ _
  | _ => rfl

theorem writeAll_g (c0 : Core) (ret : Option Nat) (ms : List LiveMove) (c : Core) :
    (ms.foldl (writeDst c0 ret) c).g = ms.foldl gAfter c.g := by
  induction ms generalizing c with
  | nil => rfl
  | cons m ms ih => rw [List.foldl_cons, ih, writeDst_g, List.foldl_cons]

theorem gAfter_length (g : List W24) (m : LiveMove) : (gAfter g m).length = g.length := by
  unfold gAfter
  split <;> simp only [setNth_length]

theorem gAfterAll_length (ms : List LiveMove) (g : List W24) : (ms.foldl gAfter g).length = g.length := by
  induction ms generalizing g with
  | nil => rfl
  | cons m ms ih => rw [List.foldl_cons, ih, gAfter_length]

/-- A move that does not name a register leaves it (R70). -/
theorem gAfter_unnamed {m : LiveMove} {i : Nat} (g : List W24) (h : ¬ namesG i m) : nth (gAfter g m) i 0 = nth g i 0 := by
  obtain ⟨hg, hd⟩ := not_or.mp h
  unfold gAfter
  split
  · next j hj => exact nth_setNth_ne _ _ fun e => hg (e ▸ hj)
  · next j hj =>
    have hij : i / 2 ≠ j := fun e => hd (e ▸ hj)
    rw [nth_setNth_ne _ _ (by omega), nth_setNth_ne _ _ (by omega)]
  · rfl

theorem gAfterAll_unnamed {ms : List LiveMove} {i : Nat} (g : List W24) (h : ∀ m ∈ ms, ¬ namesG i m) :
    nth (ms.foldl gAfter g) i 0 = nth g i 0 := by
  induction ms generalizing g with
  | nil => rfl
  | cons m ms ih =>
    obtain ⟨hm, hms⟩ := List.forall_mem_cons.mp h
    exact (ih _ hms).trans (gAfter_unnamed g hm)

/-- The last move that names a register gives it its value (R61, R67). -/
theorem gAfterAll_last {g : List W24} {m : LiveMove} {i : Nat} (l l' : List LiveMove) (hi : i < g.length) (hm : m.dst = .g i)
    (hl' : ∀ x ∈ l', ¬ namesG i x) : nth ((l ++ m :: l').foldl gAfter g) i 0 = m.v.setWidth 24 := by
  have hlen : i < (l.foldl gAfter g).length := by rwa [gAfterAll_length]
  rw [List.foldl_append, List.foldl_cons, gAfterAll_unnamed _ hl', gAfter, hm]
  exact nth_setNth_same _ _ hlen

/-! ### What a move to a register or latch does not do -/

theorem plainDst_ne {d e : Dst} (hd : plainDst d = true) (he : plainDst e = false) : d ≠ e := fun h => by
  rw [h, he] at hd
  exact Bool.false_ne_true hd

theorem isFlow_plain {d : Dst} (h : plainDst d = true) : isFlow d = false := by
  cases d with
  | jmp | call | ret | lp | rep | bmove => exact absurd h Bool.false_ne_true
  | _ => rfl

theorem loadMove_plain {m : LiveMove} (h : plainDst m.dst = true) (w : CoreSel) (t : Nat) (c0 : Core) (s : State) :
    loadMove w t c0 s m = s := by
  unfold loadMove
  split
  · next hd => exact absurd hd (plainDst_ne h rfl)
  · rfl

theorem storeMove_plain {m : LiveMove} (h : plainDst m.dst = true) (w : CoreSel) (t : Nat) (c0 : Core) (s : State) :
    storeMove w t c0 s m = s := by
  unfold storeMove
  split
  · next hd => exact absurd hd (plainDst_ne h rfl)
  · rfl

theorem portMove_plain {m : LiveMove} (h : plainDst m.dst = true) (w : CoreSel) (t : Nat) (c0 : Core) (s : State) :
    portMove w t c0 s m = s := by
  unfold portMove
  cases hd : m.dst with
  | carLd | carSt | send | rcv => exact absurd hd (plainDst_ne h rfl)
  | _ => cases w <;> rfl

theorem unitStart_plain {m : LiveMove} (h : plainDst m.dst = true) (c c0 : Core) : unitStart c c0 m = none := by
  unfold unitStart
  cases hd : m.dst with
  | aluT | macT | accT | shfT | spuT | agT => exact absurd hd (plainDst_ne h rfl)
  | _ => rfl

/-! ### A bundle of such moves -/

/-- A fold whose every step leaves what it is given. -/
theorem foldl_idle {α β : Type} {f : α → β → α} {l : List β} (h : ∀ a, ∀ b ∈ l, f a b = a) (a : α) : l.foldl f a = a :=
  (List.foldl_ext f (fun a _ => a) a h).trans (List.foldl_fixed' (fun _ => rfl) l)

section
variable {ms : List LiveMove} (h : ∀ m ∈ ms, plainDst m.dst = true)
include h

/-- It holds no move to a trigger, a mode or ctl.hold. -/
theorem any_dst_plain {d : Dst} (hd : plainDst d = false) : (ms.any fun m => decide (m.dst = d)) = false :=
  List.any_eq_false.mpr fun m hm he => plainDst_ne (h m hm) hd (of_decide_eq_true he)

theorem filter_dst_plain {d : Dst} (hd : plainDst d = false) : (ms.filter fun m => decide (m.dst = d)) = [] :=
  List.filter_eq_nil_iff.mpr fun m hm he => plainDst_ne (h m hm) hd (of_decide_eq_true he)

theorem filter_flow_plain : (ms.filter fun m => isFlow m.dst) = [] :=
  List.filter_eq_nil_iff.mpr fun m hm he => by simp [isFlow_plain (h m hm)] at he

theorem writeAll_plain_ret (c0 c : Core) (ret : Option Nat) : ms.foldl (writeDst c0 ret) c = ms.foldl (writeDst c0 none) c :=
  List.foldl_ext _ _ _ fun _ m hm => writeDst_plain_ret (h m hm) ret

theorem startUnits_plain (c0 c : Core) : startUnits c0 ms c = c := by
  have hnone : ms.filterMap (fun m => (unitStart c c0 m).map fun d => Flight.mk (c0.bcount + d.1) (!c0.user) d.2) = [] :=
    List.filterMap_eq_nil_iff.mpr fun m hm => by rw [unitStart_plain (h m hm), Option.map_none]
  rw [startUnits, hnone, List.append_nil]

/-- The next bundle of an Eduno core may issue in the next cycle (R65). -/
theorem issueAfter_plain (s : State) (p : Nat) (c : Core) (t : Nat) : issueAfter s (.eduno p) c t ms = t + 1 := by
  unfold issueAfter
  extract_lets bus
  have hbus : bus = false := by
    refine List.any_eq_false.mpr fun m hm => ?_
    split
    · next hd => exact absurd hd (plainDst_ne (h m hm) rfl)
    · exact Bool.false_ne_true
  simp only [hbus, nextIssue, Bool.false_and, Bool.false_eq_true, if_false, Nat.add_zero]

end

/-! ### A core at ease moves past a bundle (R153, R162, R174) -/

theorem modeStep_none {c : Core} (h : c.modePend = []) : modeStep c = c := by
  cases c
  cases h
  rfl

theorem captureStep_off {c : Core} (h : c.lbuf = .off) (off : Nat) (bytes : List Byte) : captureStep c off bytes = c := by
  rw [captureStep, h]

theorem loopEnd_inactive {c : Core} (h : ∀ l ∈ c.loops, l.active = false) (k off : Nat) : loopEnd k off c = (c, none) := by
  have hk : (nth c.loops k Loop.off).active = false := by
    rw [nth, List.getD_eq_getElem?_getD]
    cases hl : c.loops[k]? with
    | none => rfl
    | some l => exact h l (List.mem_of_getElem? hl)
  simp [loopEnd, hk]

theorem advancePc_ease {c : Core} (hb : c.branch = none) (hl : ∀ l ∈ c.loops, l.active = false) (hbuf : c.lbuf = .off)
    (off : Nat) (bytes : List Byte) (sup : Bool) (bits : Nat) :
    advancePc c off bytes sup bits [] = { c with pc := off + bytes.length } := by
  simp only [advancePc, List.foldl_nil, captureStep_off hbuf, hb, loopEnds, loopEnd_inactive hl, Option.getD_none]

theorem noRep_eq {c : Core} (hr : c.rep = none) (hb : c.repBytes = none) : { c with rep := none, repBytes := none } = c := by
  cases c
  cases hr
  cases hb
  rfl

theorem atEase_written {c d : Core} (hc : atEase c) (hd : WritesOnly c d) : atEase d := by
  rw [hd]
  exact hc

/-- The core after a bundle of n bytes whose acting moves only write registers and latches. -/
def pastPlain (c : Core) (t n : Nat) (ms : List LiveMove) : Core :=
  { ms.foldl (writeDst c none) c with
    bcount := c.bcount + 1, pc := c.pc + n, readyAt := t + 1, issuedAt := t, astatSet := 0
    tsbrAt := if ms.any (fun m => decide (m.dst = .tsbr)) then some t else c.tsbrAt
    old := c.old.filter fun o => decide (c.bcount + 1 < o.bundle) || decide (t < o.cycle) }

/-- Step by step in the order of R59: the moves write, no load, store, unit or port starts, and the core goes on behind the
bundle. -/
theorem bundleEffects_plain {s : State} {p t : Nat} {bytes : List Byte} {ms : List LiveMove}
    (hcore : ∀ c, (s.setCore (.eduno p) c).core (.eduno p) = c) (hease : atEase (s.core (.eduno p)))
    (h : ∀ m ∈ ms, plainDst m.dst = true) :
    bundleEffects s (.eduno p) t bytes ms = s.setCore (.eduno p) (pastPlain (s.core (.eduno p)) t bytes.length ms) := by
  unfold bundleEffects
  extract_lets c0 ret link callW u u1 u2 s1 s2 s3 s4 s5 s6 c any mode c' off bits flow go d e f d1 d2
  have hcall : callW = false := any_dst_plain h rfl
  have hu : u = ms.foldl (writeDst c0 none) c0 := writeAll_plain_ret h c0 c0 _
  have hu2 : u2 = u := by
    simp only [u2, u1, hcall, any_dst_plain h (d := .flush) rfl, Bool.false_and, Bool.false_eq_true, if_false]
  have hs2 : s2 = s.setCore (.eduno p) u := by simp only [s2, s1, hcall, hu2, Bool.false_and, Bool.false_eq_true, if_false]
  have hs4 : s4 = s2 := (foldl_idle (fun a m hm => storeMove_plain (h m hm) _ t c0 a) s3).trans
    (foldl_idle (fun a m hm => loadMove_plain (h m hm) _ t c0 a) s2)
  have hs6 : s6 = s.setCore (.eduno p) u := (foldl_idle (fun a m hm => portMove_plain (h m hm) _ t c0 a) s5).trans (by
    simp only [s5, hs4, hs2, hcore, startUnits_plain h, setCore_setCore])
  have hc : c = u := (congrArg (fun x : State => x.core (.eduno p)) hs6).trans (hcore u)
  have hmode : mode = none := congrArg List.getLast? (filter_dst_plain h rfl)
  have hflow : flow = [] := filter_flow_plain h
  have hc' : c' = u := by simp only [c', hmode, hc, Option.map_none, Option.toList_none, List.append_nil]
  have hwrites : WritesOnly c0 u := hu ▸ writeAll_writesOnly c0 none ms c0
  obtain ⟨hbranch, hloops, hrep, hreps, hmodes, -, hlbuf, -, hentering, hfresh'⟩ : atEase c' := hc' ▸ atEase_written hease hwrites
  have hd : { d with pc := c0.pc + bytes.length } = pastPlain c0 t bytes.length ms := by
    have hhold : any .hold = false := any_dst_plain h rfl
    have hready : issueAfter s6 (.eduno p) c0 t ms = t + 1 := issueAfter_plain h s6 p c0 t
    have hfresh : u.fresh = false := hc' ▸ hfresh'
    have htsbr : u.tsbrAt = c0.tsbrAt := (congrArg Core.tsbrAt hwrites).trans rfl
    have hold : u.old = c0.old := (congrArg Core.old hwrites).trans rfl
    simp only [d, hc', pastPlain, ← hu, hhold, hready, hfresh, htsbr, hold, Bool.false_eq_true, if_false]
    rfl
  have hf : f = d := noRep_eq hrep hreps
  have hgo : go f = { d with pc := off + bytes.length } := by
    simp only [go, hflow, hf, modeStep_none (c := d) hmodes, advancePc_ease (c := d) hbranch hloops hlbuf, List.foldl_nil]
  have hd1 : d1 = { d with pc := off + bytes.length } := by
    have hrep' : d.rep = none := hrep
    simp only [d1, hrep', hflow, List.find?_nil, hgo]
  have hd2 : d2 = d1 := by
    have hentering' : d.entering = none := hentering
    simp only [d2, hd1, hentering']
  rw [hs6, hd2, hd1, hd, setCore_setCore]

/-! ### Issue (R59, R65, R150) -/

theorem correctFetch_clean {s : State} (hclean : s.memErr = []) (w : CoreSel) (c : Core) (t n : Nat) : correctFetch s w c t n = s := by
  unfold correctFetch
  split
  · rfl
  · exact correctUnits_clean hclean t _

theorem dropStale_off {c : Core} (h : c.lbuf = .off) (stale : Bool) : dropStale stale c = c := by rw [dropStale, h]

theorem markOnTime_started {c : Core} (h : c.fresh = false) (s : State) (t : Nat) : markOnTime s c t = c := by
  simp only [markOnTime, h, Bool.false_eq_true, if_false]

/-- A bundle that does not move to ctl.rfe starts no exit (R230). -/
theorem issueCore_stays {s u : State} {w : CoreSel} {t : Nat} (h : issueBundle s w t = (u, false)) : issueCore s w t = u := by
  rw [issueCore, h]
  rfl

/-- A core that cannot issue leaves the state (R65). -/
theorem issueCore_idle {s : State} {w : CoreSel} {t : Nat}
    (h : canIssue (settleSel selAll (s.core w).bcount (s.core w)) t = false) : issueCore s w t = s :=
  issueCore_stays (by simp [issueBundle, h])

theorem sysOf_plain {ms : List LiveMove} (h : ∀ m ∈ ms, plainDst m.dst = true) : sysOf ms = none := by
  rw [sysOf, filter_dst_plain h rfl]
  rfl

section
variable {r : State} {p t : Nat} {ms : List LiveMove} (hs : Shaped r) (hp : p < 68) (hclean : r.memErr = [])
include hs hp hclean

/-- A bundle of an Eduno core at ease whose acting moves only write registers and latches. -/
theorem issueBundle_plain :
    let w := CoreSel.eduno p
    let c := settleSel selAll (r.core w).bcount (r.core w)
    let f := fetchBundle r w c t
    canIssue c t = true → atEase c → judgeBundle r w c f.2.1 f.2.2 = .act ms → (∀ m ∈ ms, plainDst m.dst = true) →
    issueBundle r w t = (r.setCore w (pastPlain c t f.1.length ms), false) := by
  intro w c f hissue hease hact h
  have ⟨_, _, _, _, _, _, hlbuf, _, _, hfresh⟩ := hease
  have hset (d : Core) : (r.setCore w d).core w = d := core_setCore_valid d hs (decide_eq_true hp)
  have hmoves : bundleEffects (r.setCore w c) w t f.1 ms = r.setCore w (pastPlain c t f.1.length ms) := by
    rw [bundleEffects_plain (fun d => by rw [setCore_setCore, hset]) (by rwa [hset]) h, hset, setCore_setCore]
  have hfetched : (if f.2.1 then r else correctFetch r w c t f.1.length) = r := by
    rw [correctFetch_clean hclean, ite_self]
  unfold issueBundle
  extract_lets j c' s'
  have hj : j = .act ms := hact
  have hc' : c' = c := dropStale_off hlbuf _
  have hs' : s' = r.setCore w c := (congrArg (fun x : State => x.setCore w c') hfetched).trans (congrArg _ hc')
  rw [if_neg (by simp [hissue]), hj, hc', hs']
  simp only [markOnTime_started hfresh, setCore_setCore, any_dst_plain h (d := .eop) rfl, any_dst_plain h (d := .hold) rfl,
    any_dst_plain h (d := .rfe) rfl, sysOf_plain h, Bool.false_eq_true, if_false]
  exact congrArg (·, false) hmoves

end

theorem wdogFirst_eduno (s : State) (p t : Nat) : wdogFirst s (.eduno p) t = s := by simp [wdogFirst]

theorem exec_bundleIssue {s r : State} {t : Nat} (hr : runsAt s t r) (w : CoreSel) (upset : List Upset) :
    exec (.bundleIssue t w upset) s = .next (if selValid w then issueCore (wdogFirst (upsets r upset) w t) w t else r) :=
  congrArg Host.Outcome.next (awake_runs hr _)

end Sys2Proof.Machine

namespace Sys2Proof.Proofs

open Sys2Proof.Machine

/-- Settles O12: a bundle that only writes is what `issueBundle_plain` says, and the g-registers are what its moves make of them. -/
theorem plainBundle : Obligations.PlainBundle := by
  unfold Obligations.PlainBundle
  refine ⟨fun s r t w upset hr => exec_bundleIssue hr w upset, fun s t w h => issueCore_idle h, ?_, ?_⟩
  · intro s r t p ms hr hs hp hclean w c f hissue hease hact h
    have hvalid : selValid w = true := decide_eq_true hp
    rw [exec_bundleIssue hr, if_pos hvalid, wdogFirst_eduno]
    exact congrArg Host.Outcome.next (issueCore_stays (issueBundle_plain hs hp hclean hissue hease hact h))
  · intro c0 c ms i hlen hi named u
    have hg : u.g = ms.foldl gAfter c.g := writeAll_g c0 none ms c
    refine ⟨fun hno => ?_, fun l m l' hms hm hno => ?_⟩
    · rw [hg]
      exact gAfterAll_unnamed c.g hno
    · rw [hg, hms]
      exact gAfterAll_last l l' (hlen ▸ hi) hm hno

end Sys2Proof.Proofs
end

section
/-! PROOF. A bundle comes back from its bytes: what its header says of its moves, its length, and each move read from its word
(R92 to R99, R118, R119). -/

namespace Sys2Proof.Machine

/-! ### Little-endian bytes (R6) -/

@[simp] theorem length_toBytesLE (n v : Nat) : (toBytesLE n v).length = n := by
  induction n generalizing v with
  | zero => rfl
  | succ n ih => rw [toBytesLE, List.length_cons, ih]

/-- A number that fits n bytes comes back from them. -/
theorem ofBytesLE_toBytesLE {n v : Nat} (h : v < 256 ^ n) : ofBytesLE (toBytesLE n v) = v := by
  induction n generalizing v with
  | zero => exact (Nat.lt_one_iff.mp h).symm
  | succ n ih =>
    have hhigh : v / 256 < 256 ^ n := Nat.div_lt_of_lt_mul (by rwa [Nat.pow_succ, Nat.mul_comm] at h)
    rw [toBytesLE, ofBytesLE, ih hhigh, BitVec.toNat_ofNat]
    exact Nat.mod_add_div v 256

/-- The same with more bytes behind. -/
theorem ofBytesLE_take {n v : Nat} (h : v < 256 ^ n) (rest : List Byte) :
    ofBytesLE ((toBytesLE n v ++ rest).take n) = v := by
  rw [List.take_left' (length_toBytesLE n v), ofBytesLE_toBytesLE h]

theorem drop_toBytesLE (n v : Nat) (rest : List Byte) : (toBytesLE n v ++ rest).drop n = rest :=
  List.drop_left' (length_toBytesLE n v)

/-! ### One move (R97, R98) -/

theorem Move.wf_iff {m : Move} : m.wf = true ↔ m.slot < 8 ∧ m.pred < 8 ∧ m.src < 512 ∧ m.dst < 2048 := by
  simp [Move.wf, and_assoc]

/-- The fields of a move do not overlap in its word, so they come back. -/
theorem moveOf_moveWord {m : Move} (h : m.wf = true) : moveOf m.slot (moveWord m) m.imm = m := by
  obtain ⟨slot, inv, pred, src, dst, imm⟩ := m
  obtain ⟨-, hpred, hsrc, hdst⟩ : slot < 8 ∧ pred < 8 ∧ src < 512 ∧ dst < 2048 := Move.wf_iff.mp h
  have hinv : ofBool inv ≤ 1 := by cases inv <;> decide
  simp only [moveOf, moveWord, bitsOf, bitOf, Nat.shiftRight_eq_div_pow, Nat.testBit_eq_decide_div_mod_eq, Move.mk.injEq,
    true_and, and_true]
  refine ⟨?_, by omega, by omega, by omega⟩
  have hbit : (ofBool inv * 2 ^ 23 + pred * 2 ^ 20 + src * 2 ^ 11 + dst) / 2 ^ 23 % 2 = ofBool inv := by omega
  rw [hbit]
  cases inv <;> rfl

theorem moveWord_lt {m : Move} (h : m.wf = true) : moveWord m < 256 ^ 3 := by
  obtain ⟨-, hpred, hsrc, hdst⟩ := Move.wf_iff.mp h
  have hinv : ofBool m.inv ≤ 1 := by cases m.inv <;> decide
  unfold moveWord
  omega

theorem length_moveBytes (m : Move) : (moveBytes m).length = 3 + 3 * ofBool m.imm.isSome := by
  unfold moveBytes
  cases m.imm <;> simp [ofBool]

/-- The move of a slot that the header names is read from its bytes, long or short as the header says (R94, R98). -/
theorem readMoves_cons {header : Nat} {m : Move} (h : m.wf = true) (hpresent : bitOf header (8 + m.slot) = true)
    (hlong : bitOf header m.slot = m.imm.isSome) (is : List Nat) (rest : List Byte) :
    readMoves header (m.slot :: is) (moveBytes m ++ rest) = m :: readMoves header is rest := by
  have hmove := moveOf_moveWord h
  have hword := ofBytesLE_take (moveWord_lt h)
  rw [readMoves, hpresent, hlong, moveBytes]
  cases himm : m.imm with
  | none =>
    rw [himm] at hmove
    simp only [Option.isSome_none, Bool.not_true, Bool.false_eq_true, if_false, List.append_nil, hword, drop_toBytesLE, hmove]
  | some v =>
    have himmediate : ofBytesLE ((toBytesLE 3 v.toNat ++ rest).take 3) = v.toNat := ofBytesLE_take v.isLt rest
    have hdrop : (toBytesLE 3 (moveWord m) ++ (toBytesLE 3 v.toNat ++ rest)).drop 6 = rest := by
      rw [← List.append_assoc]
      exact List.drop_left' (by simp)
    rw [himm] at hmove
    simp only [Option.isSome_some, Bool.not_true, Bool.false_eq_true, if_false, if_true, List.append_assoc, hword, drop_toBytesLE,
      himmediate, hdrop, BitVec.ofNat_toNat, BitVec.setWidth_eq, hmove]

/-! ### The moves (R92) -/

/-- The slots of the long moves. -/
def longSlots (ms : List Move) : List Nat := (ms.filter fun m => m.imm.isSome).map Move.slot

/-- In the slots listed the header names the moves and marks the long ones. -/
def HeaderNames (header : Nat) (is : List Nat) (ms : List Move) : Prop :=
  ∀ i ∈ is, (bitOf header (8 + i) = true ↔ i ∈ ms.map Move.slot) ∧ (bitOf header i = true ↔ i ∈ longSlots ms)

theorem mem_longSlots_cons {m : Move} {ms : List Move} {i : Nat} :
    i ∈ longSlots (m :: ms) ↔ (m.imm.isSome = true ∧ i = m.slot) ∨ i ∈ longSlots ms := by
  unfold longSlots
  rw [List.filter_cons]
  split <;> simp_all

theorem longSlots_subset (ms : List Move) : longSlots ms ⊆ ms.map Move.slot :=
  List.map_subset _ (List.filter_subset_self _)

/-- Moves in ascending slots, named by the header, are read from their bytes. -/
theorem readMoves_moveBytes {header : Nat} {is : List Nat} {ms : List Move} (rest : List Byte) (hdistinct : is.Nodup)
    (hslots : (ms.map Move.slot).Sublist is) (hwf : ∀ m ∈ ms, m.wf = true) (hnames : HeaderNames header is ms) :
    readMoves header is (ms.flatMap moveBytes ++ rest) = ms := by
  induction is generalizing ms with
  | nil =>
    rw [List.map_eq_nil_iff.mp (List.sublist_nil.mp hslots)]
    rfl
  | cons i is ih =>
    obtain ⟨hi, hdist⟩ := List.nodup_cons.mp hdistinct
    obtain ⟨⟨hpresent, hlong⟩, hothers⟩ := List.forall_mem_cons.mp hnames
    obtain hskip | ⟨slots, hcons, hrest⟩ := List.sublist_cons_iff.mp hslots
    · have habsent : bitOf header (8 + i) = false :=
        Bool.eq_false_iff.mpr fun h => hi (hskip.subset (hpresent.mp h))
      rw [readMoves, habsent]
      exact ih hdist hskip hwf hothers
    · obtain ⟨m, ms, rfl, rfl, rfl⟩ := List.map_eq_cons_iff.mp hcons
      obtain ⟨hm, hms⟩ := List.forall_mem_cons.mp hwf
      have hnot : m.slot ∉ longSlots ms := fun h => hi (hrest.subset (longSlots_subset ms h))
      have hmark : bitOf header m.slot = m.imm.isSome :=
        Bool.eq_iff_iff.mpr (hlong.trans (by simp [mem_longSlots_cons, hnot]))
      have hkept : HeaderNames header is ms := fun j hj => by
        have hne : j ≠ m.slot := fun e => hi (e ▸ hj)
        simpa [mem_longSlots_cons, hne] using hothers j hj
      rw [List.flatMap_cons, List.append_assoc, readMoves_cons hm (hpresent.mpr (by simp)) hmark, ih hdist hrest hms hkept]

/-! ### The header (R93) -/

/-- The bits that the header of a list of moves sets: the slots of its long moves, then those of its moves, eight higher. -/
def headerBits (ms : List Move) : List Nat := longSlots ms ++ ms.map fun m => 8 + m.slot

theorem headerOf_cons (m : Move) (ms : List Move) :
    headerOf (m :: ms) = 2 ^ (8 + m.slot) + (if m.imm.isSome then 2 ^ m.slot else 0) + headerOf ms := by
  have hsum (ms : List Move) :
      headerOf ms = (ms.map fun m => 2 ^ (8 + m.slot) + if m.imm.isSome then 2 ^ m.slot else 0).sum := by
    rw [List.sum_eq_foldl, List.foldl_map]
    simp only [← Nat.add_assoc]
    rfl
  rw [hsum, hsum, List.map_cons, List.sum_cons]

theorem headerOf_eq_sum (ms : List Move) : headerOf ms = ((headerBits ms).map (2 ^ ·)).sum := by
  induction ms with
  | nil => rfl
  | cons m ms ih =>
    rw [headerOf_cons, ih]
    simp only [headerBits, longSlots, List.filter_cons]
    split <;> simp <;> omega

/-- Slots rise strictly, from `lo` on. -/
theorem slots_pairwise {lo : Nat} {ms : List Move} (h : slotsRise lo ms = true) :
    (ms.map Move.slot).Pairwise (· < ·) ∧ ∀ i ∈ ms.map Move.slot, lo ≤ i := by
  induction ms generalizing lo with
  | nil => simp
  | cons m ms ih =>
    simp only [slotsRise, Bool.and_eq_true, decide_eq_true_eq] at h
    obtain ⟨hlo, hrest⟩ := h
    obtain ⟨hpair, hall⟩ := ih hrest
    refine ⟨List.pairwise_cons.mpr ⟨fun i hi => hall i hi, hpair⟩, List.forall_mem_cons.mpr ⟨hlo, fun i hi => ?_⟩⟩
    exact hlo.trans (Nat.le_of_succ_le (hall i hi))

/-- Bits whose places are all below n make a number below 2 ^ n. -/
theorem lt_two_pow_of_places {v n : Nat} {l : List Nat} (hv : ∀ i, v.testBit i = true ↔ i ∈ l) (hl : ∀ i ∈ l, i < n) : v < 2 ^ n :=
  Nat.lt_pow_two_of_testBit _ fun i hi => Bool.eq_false_iff.mpr fun h => Nat.not_lt.mpr hi (hl i ((hv i).mp h))

section
variable {ms : List Move} (hrise : slotsRise 0 ms = true) (hwf : ∀ m ∈ ms, m.wf = true)

include hwf in
theorem slot_lt {i : Nat} (hi : i ∈ ms.map Move.slot) : i < 8 := by
  obtain ⟨m, hm, rfl⟩ := List.mem_map.mp hi
  exact (Move.wf_iff.mp (hwf m hm)).1

include hwf in
theorem longSlot_lt {i : Nat} (hi : i ∈ longSlots ms) : i < 8 := slot_lt hwf (longSlots_subset ms hi)

include hrise in
theorem slots_nodup : (ms.map Move.slot).Nodup := (slots_pairwise hrise).1.imp Nat.ne_of_lt

include hrise in
theorem longSlots_pairwise : (longSlots ms).Pairwise (· < ·) :=
  (slots_pairwise hrise).1.sublist (List.filter_sublist.map _)

include hrise hwf in
theorem headerBits_pairwise : (headerBits ms).Pairwise (· < ·) := by
  refine List.pairwise_append.mpr ⟨longSlots_pairwise hrise, ?_, fun i hi j hj => ?_⟩
  · have hp := (slots_pairwise hrise).1
    rw [List.pairwise_map] at hp ⊢
    exact hp.imp (Nat.add_lt_add_left · 8)
  · obtain ⟨m, -, rfl⟩ := List.mem_map.mp hj
    have := longSlot_lt hwf hi
    omega

include hrise hwf in
/-- A header has the bits of its moves and no other. -/
theorem testBit_headerOf (i : Nat) : (headerOf ms).testBit i = true ↔ i ∈ headerBits ms := by
  rw [← Nat.mem_bitIndices, headerOf_eq_sum, Nat.bitIndices_sum_map_two_pow (headerBits_pairwise hrise hwf).sortedLT]

include hrise hwf in
theorem headerOf_lt : headerOf ms < 256 ^ 2 := by
  refine lt_two_pow_of_places (n := 16) (testBit_headerOf hrise hwf) fun i hi => ?_
  obtain hlong | hslot := List.mem_append.mp hi
  · exact (longSlot_lt hwf hlong).trans (by decide)
  · obtain ⟨m, hm, rfl⟩ := List.mem_map.mp hslot
    have := slot_lt hwf (List.mem_map_of_mem (f := Move.slot) hm)
    omega

include hrise hwf in
/-- Bits 15:8 of the header name the slots that hold a move. -/
theorem testBit_present (i : Nat) : (bitsOf (headerOf ms) 8 8).testBit i = true ↔ i ∈ ms.map Move.slot := by
  rw [testBit_bitsOf, Bool.and_eq_true, decide_eq_true_eq, testBit_headerOf hrise hwf, headerBits, List.mem_append]
  constructor
  · rintro ⟨-, hlong | hslot⟩
    · have := longSlot_lt hwf hlong
      omega
    · simpa using hslot
  · exact fun h => ⟨slot_lt hwf h, Or.inr (by simpa using h)⟩

include hrise hwf in
/-- Bits 7:0 mark the long moves. -/
theorem testBit_long (i : Nat) : (bitsOf (headerOf ms) 0 8).testBit i = true ↔ i ∈ longSlots ms := by
  rw [testBit_bitsOf, Bool.and_eq_true, decide_eq_true_eq, testBit_headerOf hrise hwf, headerBits, List.mem_append, Nat.zero_add]
  constructor
  · rintro ⟨hi, hlong | hslot⟩
    · exact hlong
    · obtain ⟨m, -, rfl⟩ := List.mem_map.mp hslot
      omega
  · exact fun h => ⟨longSlot_lt hwf h, Or.inl h⟩

include hrise hwf in
theorem headerOf_names : HeaderNames (headerOf ms) (List.range 8) ms := fun i hi => by
  have hpresent := testBit_present hrise hwf i
  have hlong := testBit_long hrise hwf i
  rw [testBit_bitsOf, decide_eq_true (List.mem_range.mp hi), Bool.true_and] at hpresent hlong
  exact ⟨hpresent, by rwa [Nat.zero_add] at hlong⟩

include hrise hwf in
theorem slots_sublist : (ms.map Move.slot).Sublist (List.range 8) :=
  List.sublist_of_subperm_of_sortedLE
    ((slots_nodup hrise).subperm fun _ hi => List.mem_range.mpr (slot_lt hwf hi))
    (slots_pairwise hrise).1.sortedLT.sortedLE (List.sortedLT_range 8).sortedLE

include hrise hwf in
theorem present_ne_zero (hne : ms ≠ []) : bitsOf (headerOf ms) 8 8 ≠ 0 := fun hzero => by
  obtain ⟨m, hm⟩ := List.exists_mem_of_ne_nil ms hne
  have hbit := (testBit_present hrise hwf m.slot).mpr (List.mem_map_of_mem hm)
  rw [hzero, Nat.zero_testBit] at hbit
  exact Bool.false_ne_true hbit

include hrise hwf in
/-- With moves in slots 0 and 1 alone the header names and marks no other (R413). -/
theorem header_low (hlow : ∀ m ∈ ms, m.slot < 2) : bitsOf (headerOf ms) 8 8 < 2 ^ 2 ∧ bitsOf (headerOf ms) 0 8 < 2 ^ 2 := by
  have hslots : ∀ i ∈ ms.map Move.slot, i < 2 := List.forall_mem_map.mpr hlow
  exact ⟨lt_two_pow_of_places (testBit_present hrise hwf) hslots,
    lt_two_pow_of_places (testBit_long hrise hwf) fun i hi => hslots i (longSlots_subset ms hi)⟩

include hrise hwf in
/-- No absent slot is marked long. -/
theorem long_absent : bitsOf (headerOf ms) 0 8 &&& (255 - bitsOf (headerOf ms) 8 8) = 0 := by
  have hlt : bitsOf (headerOf ms) 8 8 < 2 ^ 8 := Nat.mod_lt _ (by decide)
  have hsub : 255 - bitsOf (headerOf ms) 8 8 = 2 ^ 8 - (bitsOf (headerOf ms) 8 8 + 1) := by omega
  refine Nat.eq_of_testBit_eq fun i => ?_
  rw [Nat.testBit_and, hsub, Nat.testBit_two_pow_sub_succ hlt, Nat.zero_testBit]
  by_cases hlong : (bitsOf (headerOf ms) 0 8).testBit i = true
  · have hpresent := (testBit_present hrise hwf i).mpr (longSlots_subset ms ((testBit_long hrise hwf i).mp hlong))
    rw [hpresent, Bool.not_true, Bool.and_false, Bool.and_false]
  · rw [Bool.eq_false_iff.mpr hlong, Bool.false_and]

end

/-! ### The length (R94) -/

theorem popcount_eq_filter (v n : Nat) : popcount v n = ((List.range n).filter v.testBit).length := by
  induction n with
  | zero => rfl
  | succ n ih =>
    rw [popcount, ih, List.range_succ, List.filter_append, List.length_append]
    cases h : v.testBit n <;> simp [ofBool, h]

/-- A number whose bits are at the places listed, all below n, has as many of them. -/
theorem popcount_eq_length {v n : Nat} {l : List Nat} (hdistinct : l.Nodup) (hl : ∀ i ∈ l, i < n)
    (hv : ∀ i, v.testBit i = true ↔ i ∈ l) : popcount v n = l.length := by
  rw [popcount_eq_filter]
  refine ((List.perm_ext_iff_of_nodup (List.nodup_range.filter _) hdistinct).mpr fun i => ?_).length_eq
  rw [List.mem_filter, List.mem_range, hv]
  exact and_iff_right_of_imp (hl i)

theorem length_flatMap_moveBytes (ms : List Move) :
    (ms.flatMap moveBytes).length = 3 * ms.length + 3 * (longSlots ms).length := by
  induction ms with
  | nil => rfl
  | cons m ms ih =>
    rw [List.flatMap_cons, List.length_append, ih, length_moveBytes, longSlots, longSlots, List.filter_cons]
    cases m.imm.isSome <;> simp [ofBool] <;> omega

section
variable {ms : List Move} (hrise : slotsRise 0 ms = true) (hwf : ∀ m ∈ ms, m.wf = true)
include hrise hwf

theorem bundleLen_headerOf : bundleLen (headerOf ms) = 2 + 3 * ms.length + 3 * (longSlots ms).length := by
  have hpresent := popcount_eq_length (slots_nodup hrise) (fun _ => slot_lt hwf) (testBit_present hrise hwf)
  have hlong := popcount_eq_length ((longSlots_pairwise hrise).imp Nat.ne_of_lt) (fun _ => longSlot_lt hwf)
    (testBit_long hrise hwf)
  rw [bundleLen, hpresent, hlong, List.length_map]

theorem length_encodeBundle : (encodeBundle ms).length = bundleLen (headerOf ms) := by
  rw [bundleLen_headerOf hrise hwf, encodeBundle, List.length_append, length_toBytesLE, length_flatMap_moveBytes, Nat.add_assoc]

end

/-! ### Decoding (R118 to R120, R413) -/

theorem bundleWf_iff {bar : Bool} {ms : List Move} : bundleWf bar ms = true ↔
    ms ≠ [] ∧ slotsRise 0 ms = true ∧ (∀ m ∈ ms, m.wf = true) ∧ (∀ m ∈ ms, moveFault bar m = none) ∧
      (bar = true → ∀ m ∈ ms, m.slot < 2) := by
  cases bar <;> simp [bundleWf, and_assoc]

/-- Moves that the encoding admits are read from their bytes, whatever bytes follow. -/
theorem decodeBundle_encodeBundle {bar : Bool} {ms : List Move} (h : bundleWf bar ms = true) (rest : List Byte) :
    decodeBundle bar (encodeBundle ms ++ rest) = .ok ⟨headerOf ms, (encodeBundle ms).length, ms⟩ := by
  obtain ⟨hne, hrise, hwf, hfault, hbar⟩ := bundleWf_iff.mp h
  have hheader : ofBytesLE ((encodeBundle ms ++ rest).take 2) = headerOf ms := by
    rw [encodeBundle, List.append_assoc, ofBytesLE_take (headerOf_lt hrise hwf)]
  have hmoves : readMoves (headerOf ms) [0, 1, 2, 3, 4, 5, 6, 7] ((encodeBundle ms ++ rest).drop 2) = ms := by
    rw [encodeBundle, List.append_assoc, drop_toBytesLE]
    exact readMoves_moveBytes (is := List.range 8) rest List.nodup_range (slots_sublist hrise hwf) hwf (headerOf_names hrise hwf)
  have hlen : bundleLen (headerOf ms) ≤ (encodeBundle ms ++ rest).length := by
    rw [← length_encodeBundle hrise hwf, List.length_append]
    exact Nat.le_add_right _ _
  have htwo : 2 ≤ bundleLen (headerOf ms) := by
    rw [bundleLen]
    omega
  have hslots : ¬ (bar = true ∧ (3 < bitsOf (headerOf ms) 8 8 ∨ 3 < bitsOf (headerOf ms) 0 8)) := fun ⟨hb, hbig⟩ => by
    have hlow := header_low hrise hwf (hbar hb)
    omega
  have hnofault : ms.findSome? (fun m => (moveFault bar m).map fun k => (k, m.slot)) = none :=
    List.findSome?_eq_none_iff.mpr fun m hm => by rw [hfault m hm, Option.map_none]
  unfold decodeBundle
  simp only [hheader, hmoves, hnofault]
  rw [if_neg (by omega), if_neg (present_ne_zero hrise hwf hne), if_neg (not_or.mpr ⟨not_not_intro (long_absent hrise hwf), hslots⟩),
    if_neg (by omega), length_encodeBundle hrise hwf]

end Sys2Proof.Machine

namespace Sys2Proof.Proofs

open Sys2Proof.Machine

/-- Settles O21: the header names each move and its length, and each move is read from its own bytes. -/
theorem bundleRoundTrip : Obligations.BundleRoundTrip := by
  unfold Obligations.BundleRoundTrip
  exact fun _ _ rest h => decodeBundle_encodeBundle h rest

end Sys2Proof.Proofs
end

section
/-! PROOF. BUNDLE_ISSUE of a bundle that meets an exception: its record, the entry it begins, and the first stage of that entry
(R122, R124, R212, R213, R215, R218, R228). -/

namespace Sys2Proof.Machine

/-! ### Presentation leaves a core in the span of an entry where it is (R228, R246) -/

/-- From s to t no core went into the span of an entry, or out of it. -/
def SpansKept (s t : State) : Prop := ∀ w, inSpan (t.core w) = inSpan (s.core w)

theorem SpansKept.refl (s : State) : SpansKept s s := fun _ => rfl

theorem SpansKept.trans {s t u : State} (h : SpansKept s t) (k : SpansKept t u) : SpansKept s u := fun w => (k w).trans (h w)

theorem SpansKept.ite {s t u : State} {c : Prop} [Decidable c] (h : SpansKept s t) (k : SpansKept s u) :
    SpansKept s (if c then t else u) := by split <;> assumption

theorem SpansKept.of_cores {s t : State} (hc : t.cores = s.cores) (hb : t.baristas = s.baristas) : SpansKept s t := fun w => by
  cases w <;> simp only [State.core, hc, hb]

theorem core_setCore_cases (s : State) (w v : CoreSel) (c : Core) :
    (s.setCore w c).core v = s.core v ∨ (v = w ∧ (s.setCore w c).core v = c) := by
  by_cases hv : v = w
  · subst hv
    cases v with
    | eduno p =>
      by_cases hp : p < s.cores.length
      · exact Or.inr ⟨rfl, core_setCore_same s c hp⟩
      · exact Or.inl (by simp only [State.core, State.setCore, setNth, List.set_eq_of_length_le (Nat.le_of_not_lt hp)])
    | barista r =>
      by_cases hr : r < s.baristas.length
      · exact Or.inr ⟨rfl, core_setCore_pair s c hr⟩
      · exact Or.inl (by simp only [State.core, State.setCore, setNth, List.set_eq_of_length_le (Nat.le_of_not_lt hr)])
  · exact Or.inl (core_setCore_ne s c hv)

theorem setCore_spansKept {s : State} {w : CoreSel} {c : Core} (h : inSpan c = inSpan (s.core w)) : SpansKept s (s.setCore w c) := by
  intro v
  obtain hold | ⟨rfl, hnew⟩ := core_setCore_cases s w v c
  · rw [hold]
  · rw [hnew, h]

/-- Presentation starts an entry at its stage 0, and leaves the stage of one that is under way. -/
theorem presentCore_spansKept (s : State) (w : CoreSel) (t : Nat) : SpansKept s (presentCore s w t) := by
  unfold presentCore
  dsimp only
  split
  · cases he : (s.core w).entering with
    | none =>
      dsimp only
      split
      · exact setCore_spansKept (by simp [inSpan, he, startEntry])
      · exact .refl s
    | some e =>
      dsimp only
      split
      · exact setCore_spansKept (by simp [inSpan, he])
      · next hstage =>
        split
        · exact .refl s
        · refine setCore_spansKept ?_
          cases standing t (some e.req) (coreRequest s w (s.core w)) <;> simp [inSpan, he, hstage]
  · exact .refl s

theorem presentTarget_spansKept (s : State) (n t : Nat) : SpansKept s (presentTarget s n t) := by
  unfold presentTarget
  split
  · exact presentCore_spansKept _ _ _
  · split
    · exact presentCore_spansKept _ _ _
    · exact .refl s

theorem mirror_spansKept (s : State) (n : Nat) : SpansKept s (mirror s n) := by
  unfold mirror msixDue
  repeat' split
  all_goals exact .of_cores rfl rfl

theorem setSrc_spansKept (s : State) (n : Nat) (x : SrcSt) : SpansKept s (s.setSrc n x) := .of_cores rfl rfl

theorem release_spansKept (s : State) (n t : Nat) : SpansKept s (release s n t) :=
  .trans (.of_cores rfl rfl) (mirror_spansKept _ _)

theorem windowEnd_spansKept (s : State) (n t : Nat) : SpansKept s (windowEnd s n t) := by
  unfold windowEnd
  split
  · exact .ite ((setSrc_spansKept _ _ _).trans (release_spansKept _ _ _)) (.refl s)
  · exact .refl s

theorem srcEvent_spansKept (s : State) (n t : Nat) : SpansKept s (srcEvent s n t) := by
  unfold srcEvent
  exact .ite (.refl s) ((windowEnd_spansKept s n t).trans
    (.ite ((setSrc_spansKept _ _ _).trans (release_spansKept _ _ _)) (setSrc_spansKept _ _ _)))

theorem pulse_spansKept (s : State) (n t : Nat) : SpansKept s (pulse s n t) := by
  unfold pulse
  refine .ite (.ite (setSrc_spansKept _ _ _) (.refl s)) (.ite ?_ (.ite (setSrc_spansKept _ _ _) ?_))
  · exact .trans (.trans (setSrc_spansKept _ _ _) (.ite (mirror_spansKept _ _) (.refl _))) (presentTarget_spansKept _ _ _)
  · exact .trans (.trans (setSrc_spansKept _ _ _) (srcEvent_spansKept _ _ _)) (presentTarget_spansKept _ _ _)

/-! ### A health event (R484 to R486) -/

/-- From s to t only what a health event writes changed, as far as the cores see it: their registers (which begin at 0x400000), their
entries and memory. -/
structure CountsOnly (s t : State) : Prop where
  mem : t.mem = s.mem
  regs : ∀ off, 0x400000 ≤ off → kget t.regs off = kget s.regs off
  core : ∀ w, PresentOnly (s.core w) (t.core w)
  spans : SpansKept s t

theorem CountsOnly.refl (s : State) : CountsOnly s s := ⟨rfl, fun _ _ => rfl, fun _ => rfl, .refl s⟩

theorem CountsOnly.trans {s t u : State} (h : CountsOnly s t) (k : CountsOnly t u) : CountsOnly s u :=
  ⟨k.mem.trans h.mem, fun off hoff => (k.regs off hoff).trans (h.regs off hoff), fun w => (h.core w).trans (k.core w),
    h.spans.trans k.spans⟩

theorem CountsOnly.ite {s t u : State} {c : Prop} [Decidable c] (h : CountsOnly s t) (k : CountsOnly s u) :
    CountsOnly s (if c then t else u) := by split <;> assumption

theorem pulse_countsOnly (s : State) {n : Nat} (t : Nat) (hn : n < 1024) : CountsOnly s (pulse s n t) := by
  have hrail := pulse_railOnly s t hn
  exact ⟨by rw [hrail.eq], fun off hoff => hrail.regs off (by omega), hrail.core, pulse_spansKept s n t⟩

theorem raise_countsOnly (s : State) (t : Nat) {n : RegName} (bits i : Nat) (hn : regOff n i 0 < 0x400000) :
    CountsOnly s (s.raise t n bits i) :=
  ⟨rfl, fun _ hoff => kget_raise_ne _ _ _ (by omega), fun w => by cases w <;> rfl, .of_cores rfl rfl⟩

theorem countOne_countsOnly (s : State) (t code idx m : Nat) {n : Nat} (hn : n < 32) : CountsOnly s (countOne s t code idx m n) := by
  have hval : regOff .hltCntVal n 0 < 0x400000 := by
    simp only [regOff, regRow]
    omega
  have hcount (v : W32) (x : Service) : CountsOnly s { s.setReg .hltCntVal v n with service := x } :=
    ⟨rfl, fun _ hoff => kget_setReg_ne s v (by omega), fun w => by cases w <;> rfl, .of_cores rfl rfl⟩
  unfold countOne
  refine .ite (.ite ?_ (hcount _ _)) (.refl s)
  exact ((hcount _ _).trans (raise_countsOnly _ _ _ _ (by decide))).trans (pulse_countsOnly _ _ (by decide))

theorem countEvent_countsOnly (s : State) (t code idx : Nat) : CountsOnly s (countEvent s t code idx) := by
  have hfold (l : List Nat) (hl : ∀ n ∈ l, n < 32) (u : State) :
      CountsOnly u (l.foldl (fun s n => countOne s t code idx 1 n) u) := by
    induction l generalizing u with
    | nil => exact .refl u
    | cons n l ih =>
      obtain ⟨hn, hrest⟩ := List.forall_mem_cons.mp hl
      exact (countOne_countsOnly u t code idx 1 hn).trans (ih hrest _)
  exact hfold _ (fun n hn => List.mem_range.mp hn) s

theorem CountsOnly.bit_coreDfault {s t : State} (h : CountsOnly s t) (b p : Nat) : t.bit .coreDfault b p = s.bit .coreDfault b p := by
  have hoff : 0x400000 ≤ regOff .coreDfault p 0 := by
    simp only [regOff, regRow]
    omega
  simp only [State.bit, State.reg, h.regs _ hoff]

/-! ### The record of a decode fault (R122, R124) -/

theorem record_valid (s : State) (t : Nat) (n : RegName) (w : W32) (i : Nat) : (s.record t n w i).bit n 0 i = true := by
  unfold State.record
  split
  · next h => rw [bit_raise_same _ _ _ _ _ _ (by decide), h, Bool.true_or]
  · rw [bit_raise_same _ _ _ _ _ _ (by decide)]
    exact Bool.or_true _

theorem record_mem (s : State) (t : Nat) (n : RegName) (w : W32) (i : Nat) : (s.record t n w i).mem = s.mem := by
  unfold State.record
  split <;> rfl

theorem recordDecode_valid (s : State) (p t : Nat) (f : DecodeFault) (off : Nat) :
    (recordDecode s (.eduno p) t f off).bit .coreDfault 0 p = true := record_valid _ _ _ _ _

theorem recordDecode_mem (s : State) (p t : Nat) (f : DecodeFault) (off : Nat) :
    (recordDecode s (.eduno p) t f off).mem = s.mem := by
  rw [recordDecode, record_mem]
  split <;> rfl

/-! ### The entry that an exception begins (R213, R215, R228) -/

/-- The entry that a synchronous exception begins in cycle t, on a core at this level. -/
def syncEntry (level t : Nat) (cause : Cause) : Entering :=
  { cycle0 := t, lastIssue := 0, req := ⟨16, cause, t⟩, chained := false, second := false, stage := 0, claimed := none, handler := 0
    frame := 0, saved := level, umode := none, car := none, rcv := none, bytes := [], next := none }

theorem raiseSync_mem (s : State) (w : CoreSel) (t : Nat) (cause : Cause) : (raiseSync s w t cause).mem = s.mem := setCore_mem _ _ _

theorem raiseSync_regs (s : State) (w : CoreSel) (t : Nat) (cause : Cause) : (raiseSync s w t cause).regs = s.regs :=
  setCore_regs _ _ _

theorem raiseSync_core {s : State} {w : CoreSel} {c : Core} (t : Nat) (cause : Cause) (hs : Shaped s) (hw : selValid w = true)
    (hc : PresentOnly c (s.core w)) (hspan : inSpan (s.core w) = false) :
    (raiseSync s w t cause).core w = { c with readyAt := t + 1, entering := some (syncEntry c.level t cause) } := by
  rw [raiseSync, core_setCore_valid _ hs hw, hspan, hc]
  rfl

/-- The cause of a condition, as an entry records it. -/
def Cond.cause (x : Cond) : Cause := ⟨x.code, x.kind, x.slot, x.baddr, none⟩

/-- A core whose bundle of cycle t met an exception: the bundle counts as issued (R218). -/
def issued (c : Core) (t : Nat) : Core :=
  { c with
    bcount := c.bcount + 1, fresh := false, issuedAt := t, astatSet := 0, merr := c.merr.filter fun e => decide (c.bcount < e.due) }

/-- The same core with the entry that condition x begins. -/
def faulted (c : Core) (t : Nat) (x : Cond) : Core :=
  { issued c t with readyAt := t + 1, entering := some (syncEntry c.level t x.cause) }

theorem faultBundle_shaped {s : State} (hs : Shaped s) (w : CoreSel) (t : Nat) (x : Cond) (f : Option DecodeFault) :
    Shaped (faultBundle s w t x f) := (faultBundle_kept s w t x f (.refl s)).shaped hs

/-- The state after a decode fault of an Eduno core, if there is one, has been recorded. -/
def recorded (s : State) (p t : Nat) (f : Option DecodeFault) (off : Nat) : State :=
  match f with
  | some f => recordDecode s (.eduno p) t f off
  | none => s

theorem recorded_mem (s : State) (p t : Nat) (f : Option DecodeFault) (off : Nat) : (recorded s p t f off).mem = s.mem := by
  cases f with
  | none => rfl
  | some f => exact recordDecode_mem s p t f off

theorem recorded_shaped {s : State} (hs : Shaped s) (p t : Nat) (f : Option DecodeFault) (off : Nat) :
    Shaped (recorded s p t f off) := by
  cases f with
  | none => exact hs
  | some f => exact (recordDecode_kept s (.eduno p) t f off (.refl s)).shaped hs

theorem recorded_valid (s : State) (p t : Nat) {f : Option DecodeFault} (hf : f.isSome = true) (off : Nat) :
    (recorded s p t f off).bit .coreDfault 0 p = true := by
  obtain ⟨g, rfl⟩ := Option.isSome_iff_exists.mp hf
  exact recordDecode_valid s p t g off

section
variable {s : State} {p : Nat} (hs : Shaped s) (hp : p < 68) (hfree : (s.core (.eduno p)).entering = none)
include hs hp hfree

/-- A bundle that meets condition x on an Eduno core with no entry under way: the core begins entry, what it holds stays, and a
decode fault is recorded. -/
theorem faultBundle_eduno (t : Nat) (x : Cond) (f : Option DecodeFault) :
    let u := faultBundle s (.eduno p) t x f
    u.core (.eduno p) = faulted (s.core (.eduno p)) t x ∧ u.mem = s.mem ∧ (f.isSome = true → u.bit .coreDfault 0 p = true) := by
  have hvalid : selValid (.eduno p) = true := decide_eq_true hp
  have hout : inSpan (s.core (.eduno p)) = false := by simp [inSpan, hfree]
  unfold faultBundle
  extract_lets c s1 s2 s3 u
  have hs1 : s1 = recorded s p t f c.pc := by cases f <;> rfl
  have hshaped2 : Shaped s2 := (setCore_kept s1 _ _ (.refl s1)).shaped (hs1 ▸ recorded_shaped hs p t f c.pc)
  have hcore2 : s2.core (.eduno p) = issued c t := core_setCore_valid _ (hs1 ▸ recorded_shaped hs p t f c.pc) hvalid
  have hcount : CountsOnly s2 s3 := .ite (countEvent_countsOnly s2 t 0x07 p) (.refl s2)
  have hshaped3 : Shaped s3 := (Kept.ite (countEvent_kept s2 t 0x07 p (.refl s2)) (.refl s2)).shaped hshaped2
  have hout3 : inSpan (s3.core (.eduno p)) = false :=
    (hcount.spans (.eduno p)).trans ((congrArg inSpan hcore2).trans hout)
  have hu : u = raiseSync s3 (.eduno p) t x.cause := if_neg (by simp [c, hout])
  rw [hu]
  refine ⟨raiseSync_core t x.cause hshaped3 hvalid (hcore2 ▸ hcount.core (.eduno p)) hout3, ?_, fun hf => ?_⟩
  · calc (raiseSync s3 (.eduno p) t x.cause).mem = s3.mem := raiseSync_mem _ _ _ _
      _ = s1.mem := hcount.mem.trans (setCore_mem _ _ _)
      _ = s.mem := hs1 ▸ recorded_mem s p t f c.pc
  · calc (raiseSync s3 (.eduno p) t x.cause).bit .coreDfault 0 p
      _ = s3.bit .coreDfault 0 p := bit_congr (raiseSync_regs _ _ _ _) _ _ _ _
      _ = s2.bit .coreDfault 0 p := hcount.bit_coreDfault 0 p
      _ = s1.bit .coreDfault 0 p := bit_congr (setCore_regs _ _ _) _ _ _ _
      _ = true := hs1 ▸ recorded_valid s p t hf c.pc

end

/-! ### Issue, and the first stage of the entry (R212, R223, R228) -/

/-- A pass that runs old content only ends a capture. -/
theorem dropStale_eq (stale : Bool) (c : Core) : ∃ b, dropStale stale c = { c with lbuf := b } := by
  unfold dropStale
  split
  · split
    · exact ⟨_, rfl⟩
    · exact ⟨_, rfl⟩
  · exact ⟨_, rfl⟩

theorem issueBundle_fault {r : State} {w : CoreSel} {t : Nat} {x : Cond} {d : Option DecodeFault} (hclean : r.memErr = []) :
    let c := settleSel selAll (r.core w).bcount (r.core w)
    let f := fetchBundle r w c t
    canIssue c t = true → judgeBundle r w c f.2.1 f.2.2 = .fault x d →
    ∃ b, issueBundle r w t = (faultBundle (r.setCore w { c with lbuf := b }) w t x d, false) := by
  intro c f hissue hfault
  obtain ⟨b, hb⟩ := dropStale_eq (staleFetch r w c t f.1.length) c
  refine ⟨b, ?_⟩
  unfold issueBundle
  extract_lets j c' s'
  have hj : j = .fault x d := hfault
  have hs' : s' = r.setCore w { c with lbuf := b } := by
    simp only [s', c', correctFetch_clean hclean, ite_self]
    exact congrArg _ hb
  rw [if_neg (by simp [hissue]), hj, hs']

theorem clearTaken_level (c : Core) (code : Nat) : (clearTaken c code).level = c.level := by
  unfold clearTaken
  split
  · rfl
  · split <;> rfl

/-- The first stage of an entry that no exit chains and no ticket requests: the level of the request, and the handler that the
vector names. -/
theorem entryStage_begin {s : State} {p : Nat} (hs : Shaped s) (hp : p < 68) {e : Entering} (hstage : e.stage = 0)
    (hchain : e.chained = false) (hexc : e.req.cause.ticket = none) (t : Nat) :
    ((entryStage s (.eduno p) e t).core (.eduno p)).level = e.req.level ∧
      ((entryStage s (.eduno p) e t).core (.eduno p)).entering =
        some { e with stage := 1, saved := (s.core (.eduno p)).level, handler := s.fld .coreHvec 15 0 p } := by
  have hcore : (entryStage s (.eduno p) e t).core (.eduno p) =
      { clearTaken (s.core (.eduno p)) e.req.cause.code with
        level := e.req.level
        entering := some { e with
          stage := 1, saved := (clearTaken (s.core (.eduno p)) e.req.cause.code).level, handler := s.fld .coreHvec 15 0 p } } := by
    simp only [entryStage, hstage, beginEntry, hchain, handlerOff, hexc, Option.isSome_none, Bool.false_eq_true, if_false]
    exact core_setCore_valid _ hs (decide_eq_true hp)
  rw [hcore, clearTaken_level]
  exact ⟨rfl, rfl⟩

/-- BUNDLE_ISSUE of a bundle that meets condition x on an Eduno core with no entry under way. -/
theorem bundleIssue_faults {s r : State} {t p : Nat} {x : Cond} {d : Option DecodeFault} (hr : runsAt s t r) (hs : Shaped r)
    (hp : p < 68) (hclean : r.memErr = []) :
    let w := CoreSel.eduno p
    let c := settleSel selAll (r.core w).bcount (r.core w)
    let f := fetchBundle r w c t
    canIssue c t = true → c.entering = none → judgeBundle r w c f.2.1 f.2.2 = .fault x d →
    ∃ u b, exec (.bundleIssue t w []) s = .next u ∧ Shaped u ∧ u.core w = faulted { c with lbuf := b } t x ∧ u.mem = r.mem ∧
      (d.isSome = true → u.bit .coreDfault 0 p = true) := by
  intro w c f hissue hfree hfault
  have hvalid : selValid w = true := decide_eq_true hp
  obtain ⟨b, hb⟩ := issueBundle_fault hclean hissue hfault
  have hset : (r.setCore w { c with lbuf := b }).core w = { c with lbuf := b } := core_setCore_valid _ hs hvalid
  have hshaped : Shaped (r.setCore w { c with lbuf := b }) := (setCore_kept r w _ (.refl r)).shaped hs
  obtain ⟨hcore, hmem, hrecord⟩ := faultBundle_eduno hshaped hp ((congrArg Core.entering hset).trans hfree) t x d
  have hexec : exec (.bundleIssue t w []) s = .next (faultBundle (r.setCore w { c with lbuf := b }) w t x d) := by
    rw [exec_bundleIssue hr, if_pos hvalid, wdogFirst_eduno]
    exact congrArg Host.Outcome.next (issueCore_stays hb)
  exact ⟨_, b, hexec, faultBundle_shaped hshaped w t x d, hcore.trans (congrArg (faulted · t x) hset),
    hmem.trans (setCore_mem _ _ _), hrecord⟩

end Sys2Proof.Machine

namespace Sys2Proof.Proofs

open Sys2Proof.Machine

/-- Settles O13: the bundle faults as `bundleIssue_faults` says, and the stage that follows is `entryStage_begin`. -/
theorem faultingBundle : Obligations.FaultingBundle := by
  unfold Obligations.FaultingBundle
  intro s r t p x d hr hs hp hclean w c f hissue hfree hfault
  obtain ⟨u, b, hexec, hshaped, (hcore : u.core w = faulted { c with lbuf := b } t x), hmem, hrecord⟩ :=
    bundleIssue_faults hr hs hp hclean hissue hfree hfault
  obtain ⟨hlevel, hentering⟩ := entryStage_begin (e := syncEntry c.level t x.cause) hshaped hp rfl rfl rfl t
  clear_value f c
  rw [hcore] at hentering
  refine ⟨u, hexec, (congrArg Core.bcount hcore).trans rfl, (congrArg Core.pc hcore).trans rfl, (congrArg Core.g hcore).trans rfl,
    (congrArg Core.a hcore).trans rfl, (congrArg Core.acc hcore).trans rfl, hmem, hrecord, syncEntry c.level t x.cause, ?_⟩
  exact ⟨(congrArg Core.entering hcore).trans rfl, rfl, rfl, rfl, hlevel, _, hentering, rfl, rfl, rfl⟩

end Sys2Proof.Proofs
end

section
/-! PROOF. BMOVE_END at the last element of a fill: the pieces of the store, the count, and the bundle that the move ends (R85, R143,
R162, R168 to R170, R177, R185). -/

namespace Sys2Proof.Machine

/-! ### The end of a bundle moves the core on (R153, R162, R174) -/

/-- Core c with the place of core d: its loops and loop buffer, its pending branch and its offset. -/
def withPlace (c d : Core) : Core := { c with loops := d.loops, lbuf := d.lbuf, branch := d.branch, pc := d.pc }

/-- From core state c to d only the place changed. -/
def PlaceOnly (c d : Core) : Prop := d = withPlace c d

theorem PlaceOnly.trans {c d e : Core} (hcd : PlaceOnly c d) (hde : PlaceOnly d e) : PlaceOnly c e :=
  calc e = withPlace d e := hde
    _ = withPlace (withPlace c d) e := congrArg (withPlace · e) hcd
    _ = withPlace c e := rfl

theorem captureStep_placeOnly (c : Core) (off : Nat) (bytes : List Byte) : PlaceOnly c (captureStep c off bytes) := by
  unfold captureStep
  split
  · dsimp only
    split
    · rfl
    · split <;> rfl
  · rfl

theorem captureTaken_placeOnly (c : Core) : PlaceOnly c (captureTaken c) := by
  unfold captureTaken
  split
  · rfl
  · split <;> rfl
  · rfl

theorem loopEnd_placeOnly (k off : Nat) (c : Core) : PlaceOnly c (loopEnd k off c).1 := by
  unfold loopEnd
  dsimp only
  split
  · split
    · split <;> rfl
    · rfl
  · rfl

theorem loopEnds_placeOnly (c : Core) (off next : Nat) : PlaceOnly c (loopEnds c off next).1 := by
  have hinner := loopEnd_placeOnly 1 off c
  unfold loopEnds
  split
  · next hback => rwa [hback] at hinner
  · next hpast =>
    rw [hpast] at hinner
    exact hinner.trans (loopEnd_placeOnly 0 off _)

/-- Past a bundle with no branch, loop or repeat trigger. -/
theorem advancePc_placeOnly (c : Core) (off : Nat) (bytes : List Byte) (sup : Bool) (bits : Nat) :
    PlaceOnly c (advancePc c off bytes sup bits []) := by
  have hcapture := captureStep_placeOnly c off bytes
  dsimp only [advancePc, List.foldl_nil]
  split
  · exact (hcapture.trans (captureTaken_placeOnly _)).trans rfl
  · exact hcapture.trans rfl
  · exact (hcapture.trans (loopEnds_placeOnly _ _ _)).trans rfl

/-! ### The move ends (R169, R170) -/

/-- With no entry under way the end of a move keeps the count, and memory. -/
theorem bmFinish_ends {s : State} {w : CoreSel} (hs : Shaped s) (hw : selValid w = true) (hfree : (s.core w).entering = none)
    (b : Bmove) (t : Nat) :
    let u := bmFinish s w b t
    (u.core w).bmove = none ∧ (u.core w).bc = (s.core w).bc ∧ u.mem = s.mem := by
  have huntaken : takenBy (s.core w) t = false := by rw [takenBy, hfree]
  unfold bmFinish
  extract_lets c d u
  have hplace : PlaceOnly (modeStep { c with bmove := none, bmvResume := false }) d := advancePc_placeOnly _ _ _ _ _
  have hu : u = s.setCore w { d with readyAt := nextIssue s w d.level t } := if_neg (by simp [c, huntaken])
  rw [hu, core_setCore_valid _ hs hw, setCore_mem]
  exact ⟨(congrArg Core.bmove hplace).trans rfl, (congrArg Core.bc hplace).trans rfl, rfl⟩

/-- At a count of 1 an iteration that steps register k is the last one. -/
theorem bmCount_last {s : State} {w : CoreSel} (hs : Shaped s) (hw : selValid w = true) (hfree : (s.core w).entering = none)
    (hbc : (s.core w).bc = 1) (b : Bmove) (t k : Nat) :
    let u := bmCount s w b t [k]
    (u.core w).bmove = none ∧ (u.core w).bc = 0 ∧ u.mem = s.mem := by
  unfold bmCount
  extract_lets c c1 c2 s1 u
  have hzero : c2.bc = 0 := (congrArg (· - 1) hbc).trans (by decide)
  have hcore : s1.core w = { c2 with bmove := some b } := core_setCore_valid _ hs hw
  obtain ⟨hmove, hcount, hmem⟩ := bmFinish_ends ((setCore_kept s w _ (.refl s)).shaped hs) hw
    ((congrArg Core.entering hcore).trans hfree) b t
  have hu : u = bmFinish s1 w b t := if_pos hzero
  rw [hu]
  exact ⟨hmove, hcount.trans ((congrArg Core.bc hcore).trans hzero), hmem.trans (setCore_mem _ _ _)⟩

/-! ### The pieces of a store of an Eduno core (R143, R177, R185) -/

/-- From s to u core p stored in memory: of the core only what fetch still sees changed, and no byte outside the pieces of l. -/
structure StoredIn (p : Nat) (l : List (Nat × Nat)) (s u : State) : Prop where
  core : ∃ o, u.core (.eduno p) = { s.core (.eduno p) with old := o }
  memErr : u.memErr = s.memErr
  frame : ∀ a, (∀ x ∈ l, ¬ (localPhys (.eduno p) x.1 ≤ a ∧ a < localPhys (.eduno p) x.1 + x.2)) → memGet u.mem a = memGet s.mem a

theorem StoredIn.refl (p : Nat) (l : List (Nat × Nat)) (s : State) : StoredIn p l s s := ⟨⟨_, rfl⟩, rfl, fun _ _ => rfl⟩

theorem StoredIn.cons {p : Nat} {x : Nat × Nat} {l : List (Nat × Nat)} {s t u : State} (h : StoredIn p [x] s t)
    (k : StoredIn p l t u) : StoredIn p (x :: l) s u where
  core := by
    obtain ⟨_, ho⟩ := h.core
    obtain ⟨o, ho'⟩ := k.core
    exact ⟨o, by rw [ho', ho]⟩
  memErr := k.memErr.trans h.memErr
  frame a ha := by
    obtain ⟨hx, hl⟩ := List.forall_mem_cons.mp ha
    exact (k.frame a hl).trans (h.frame a (List.forall_mem_singleton.mpr hx))

section
variable {s : State} {p : Nat} (hclean : s.memErr = [])
include hclean

/-- A piece writes its bytes where a region of the core holds it, and nothing where none does. -/
theorem storePiece_eduno (t b a : Nat) (bs : List Byte) :
    let w := CoreSel.eduno p
    storePiece s w t b a bs = s ∨ ∃ l o, storePiece s w t b a bs =
      State.setCore { s with coreOld := l, mem := memWrite s.mem (localPhys w a) bs } w { s.core w with old := o } := by
  have hwin : lregOf s (.eduno p) a bs.length ≠ .win := by
    unfold lregOf
    split_ifs <;> exact LReg.noConfusion
  unfold storePiece
  dsimp only
  split
  · exact Or.inl rfl
  · exact Or.inl rfl
  · next h => exact absurd h hwin
  · rw [repairUnits_clean (by exact hclean)]
    exact Or.inr ⟨_, _, rfl⟩

theorem storePiece_storedIn (hs : Shaped s) (hp : p < 68) (t b a n : Nat) (bs : List Byte) :
    StoredIn p [(a, n)] s (storePiece s (.eduno p) t b a (bs.take n)) := by
  obtain hidle | ⟨l, o, hwrite⟩ := storePiece_eduno (p := p) hclean t b a (bs.take n)
  · rw [hidle]
    exact .refl _ _ _
  · rw [hwrite]
    refine ⟨⟨o, core_setCore_same _ _ (hs.cores ▸ hp)⟩, setCore_memErr _ _ _, fun c hc => ?_⟩
    rw [setCore_mem]
    have hout := List.forall_mem_singleton.mp hc
    have hlen := List.length_take_le n bs
    exact memGet_memWrite_out hs.mem (by dsimp only at hout; omega)

theorem storeAll_clean (w : CoreSel) (t b : Nat) (ps : List (Nat × Nat)) (bs : List Byte) :
    storeAll s w t b ps bs = (none, storePieces w t b ps bs s) := by
  have hgood : storeBad s w ps = none := by
    refine List.findSome?_eq_none_iff.mpr fun x _ => ?_
    dsimp only
    split
    · rfl
    · rfl
    · rfl
    · rw [badUnits_clean hclean]
      rfl
  rw [storeAll, hgood]

end

theorem storePieces_storedIn {s : State} {p : Nat} (hclean : s.memErr = []) (hs : Shaped s) (hp : p < 68) (t b : Nat)
    (ps : List (Nat × Nat)) (bs : List Byte) : StoredIn p ps s (storePieces (.eduno p) t b ps bs s) := by
  induction ps generalizing s bs with
  | nil => exact .refl _ _ _
  | cons x ps ih =>
    have hpiece := storePiece_storedIn hclean hs hp t b x.1 x.2 bs
    have hshaped := (storePiece_kept s (.eduno p) t b x.1 (bs.take x.2) (.refl s)).shaped hs
    exact hpiece.cons (ih (hpiece.memErr.trans hclean) hshaped (bs.drop x.2))

/-! ### The last element of a fill (R168 to R170) -/

/-- The pieces of the store of an iteration of the move that ctl describes: a destination register in mode pm. -/
def bmStoreAt (c : Core) (ctl : Nat) : List (Nat × Nat) :=
  let k := bitsOf ctl 8 3
  accessPieces k (4 + bmKind ctl) (nth c.cb k 0) (nth c.cl k 0) (bmStep c k (nth c.a k 0)).1

theorem bmStore_clean {s : State} {w : CoreSel} {b : Bmove} (hclean : s.memErr = [])
    (hjudge : judge s w b.user b.slot (4 + bmKind b.ctl) (bmStoreAt (s.core w) b.ctl) = none) (t : Nat) (data : List Byte) :
    bmStore s w b t data = (none, storePieces w t ((s.core w).bcount - 1) (bmStoreAt (s.core w) b.ctl) data s) := by
  unfold bmStoreAt at hjudge
  unfold bmStore
  dsimp only
  rw [hjudge]
  dsimp only
  rw [storeAll_clean hclean]
  rfl

/-- A fill in cycle t of its move: the element is stored and counted. -/
theorem moveEnd_fill {s : State} {w : CoreSel} {t : Nat} {b : Bmove} (hclean : s.memErr = []) (hfree : (s.core w).entering = none)
    (hb : (s.core w).bmove = some b) (hfill : bitsOf b.ctl 0 2 = 1) (ht : b.start + b.ran + 1 = t)
    (hjudge : judge s w b.user b.slot (4 + bmKind b.ctl) (bmStoreAt (s.core w) b.ctl) = none) :
    moveEnd s w t = bmCount (storePieces w t ((s.core w).bcount - 1) (bmStoreAt (s.core w) b.ctl) (bmFillData b.ctl b.sd) s) w
      { b with ran := b.ran + 1 } t [bitsOf b.ctl 8 3] := by
  subst ht
  have huntaken : takenBy (s.core w) (b.start + (b.ran + 1)) = false := by rw [takenBy, hfree]
  have hstore := bmStore_clean (b := { b with ran := b.ran + 1 }) hclean hjudge (b.start + (b.ran + 1)) (bmFillData b.ctl b.sd)
  rw [moveEnd, hb]
  dsimp only
  rw [if_pos (by omega), bmCycle, hb]
  dsimp only
  rw [if_pos hfill, if_neg (by simp [huntaken]), hstore]
  rfl

end Sys2Proof.Machine

namespace Sys2Proof.Proofs

open Sys2Proof.Machine

/-- Settles O16: the element is stored piece by piece (`storePieces_storedIn`), and its count is the last (`bmCount_last`). -/
theorem bmoveEnd : Obligations.BmoveEnd := by
  unfold Obligations.BmoveEnd
  intro s r t p b hr hs hp hclean w c k ps hb hfill hbc hfree ht hjudge
  have hvalid : selValid w = true := decide_eq_true hp
  have hexec : exec (.bmoveEnd t w) s = .next (moveEnd r w t) :=
    congrArg Host.Outcome.next ((awake_runs hr _).trans (onCore_valid hvalid r _))
  have hfilled : moveEnd r w t = bmCount (storePieces w t (c.bcount - 1) ps (bmFillData b.ctl b.sd) r) w
      { b with ran := b.ran + 1 } t [k] := moveEnd_fill hclean hfree hb hfill ht hjudge
  have hstored : StoredIn p ps r _ := storePieces_storedIn hclean hs hp t (c.bcount - 1) ps (bmFillData b.ctl b.sd)
  have hshaped := (storePieces_kept w t (c.bcount - 1) ps (bmFillData b.ctl b.sd) r (.refl r)).shaped hs
  obtain ⟨o, hcore⟩ := hstored.core
  obtain ⟨hmove, hcount, hmem⟩ := bmCount_last hshaped hvalid ((congrArg Core.entering hcore).trans hfree)
    ((congrArg Core.bc hcore).trans hbc) { b with ran := b.ran + 1 } t k
  rw [← hfilled] at hmove hcount hmem
  exact ⟨_, hexec, hmove, hcount, hmem, fun a ha => (congrArg (memGet · a) hmem).trans (hstored.frame a ha)⟩

end Sys2Proof.Proofs
end

section
/-! PROOF. EXTERNAL_PORT_ACCESS by the pair and the host, and JTAG_ACCESS at debug levels 0 and 2 (R185, R459, R531, R542). -/

namespace Sys2Proof.Machine

/-! ### The external port of a core's data memory (R185) -/

theorem exec_externalPortAccess {s r : State} {t p : Nat} (hr : runsAt s t r) (hp : p < 68) (ini : Ini) (off n : Nat)
    (bs : Option (List Byte)) :
    exec (.externalPortAccess t ini p off n bs []) s = .next (externalAccess r ini p off n bs t) :=
  congrArg Host.Outcome.next ((awake_runs hr _).trans (upTo_lt hp _ _))

theorem regionOf_core {p x : Nat} (hp : p < 68) (hx : x < 0x100000) : regionOf (coreBase + 0x100000 * p + x) = .core := by
  rw [regionOf, if_neg, if_neg, if_neg, if_neg, if_pos] <;> simp only [coreBase, carBase] <;> omega

/-- An offset within a core's stride is taken as it is (R182). -/
theorem portAddr_eq {p x : Nat} (hp : p < 68) (hx : x < 0x100000) :
    coreBase + 0x100000 * (p % 68) + x % 0x100000 = coreBase + 0x100000 * p + x := by
  rw [Nat.mod_eq_of_lt hp, Nat.mod_eq_of_lt hx]

/-- The last byte of an access within a core's data memory is the core's. -/
theorem regionOf_last {p off n : Nat} (hp : p < 68) (hn : 0 < n) (hfit : off + n ≤ 0x7FFFE) :
    regionOf (coreBase + 0x100000 * p + off + n - 1) = .core := by
  rw [show coreBase + 0x100000 * p + off + n - 1 = coreBase + 0x100000 * p + (off + n - 1) by omega]
  exact regionOf_core hp (by omega)

section
variable {r : State} (hclean : r.memErr = []) {t p off : Nat} (hp : p < 68) (hold : r.coreOld.1 ≠ t)
include hclean hp hold

/-- The pair reads the bytes of a core's data memory as they stand. -/
theorem externalAccess_read {n : Nat} (hn : 0 < n) (hfit : off + n ≤ 0x7FFFE) :
    ∃ l, externalAccess r .barista p off n none t =
      State.answer { r with carLast := l } .barista (memRead r.mem (coreBase + 0x100000 * p + off) n) false := by
  have hoff : off < 0x100000 := by omega
  obtain ⟨l, hl⟩ := extRead_clean hclean t .barista (coreBase + 0x100000 * p + off) n
  have hbytes : extBytes r t (coreBase + 0x100000 * p + off) n = memRead r.mem (coreBase + 0x100000 * p + off) n := by
    rw [extBytes, asBefore, if_neg hold]
    refine coreMask_eq fun i hi => ?_
    rw [length_memRead] at hi
    rw [Nat.add_assoc]
    exact coreByte_data (by omega)
  refine ⟨l, ?_⟩
  simp only [externalAccess, portAddr_eq hp hoff, regionOf_last hp hn hfit, physLoad, regionOf_core hp hoff, hl,
    hbytes]
  simp

/-- The pair writes bytes of a core's data memory, and no others. -/
theorem externalAccess_write {bs : List Byte} (hbs : bs ≠ []) (hfit : off + bs.length ≤ 0x7FFFE)
    (hheld : writeHeld r .barista p = false) (n : Nat) :
    let u := externalAccess r .barista p off n (some bs) t
    kget u.resps 0 = some ⟨[], false⟩ ∧ u.mem = memWrite r.mem (coreBase + 0x100000 * p + off) bs := by
  have hlen : 0 < bs.length := List.length_pos_iff.mpr hbs
  have hoff : off < 0x100000 := by omega
  obtain ⟨hok, hmem, -⟩ := extWrite_clean hclean hold (w := .barista) (a := coreBase + 0x100000 * p + off) (bs := bs)
    (by rwa [coreOf_data hp hoff]) fun i hi => by rw [Nat.add_assoc]; exact coreByte_data (by omega)
  simp [externalAccess, portAddr_eq hp hoff, regionOf_last hp hlen hfit, physStore, regionOf_core hp hoff, hok, hmem, iniNum,
    State.answer]

end

/-! ### JTAG (R459, R531) -/

theorem exec_jtagAccess {s r : State} {t : Nat} (hr : runsAt s t r) (op : JtagOp) :
    exec (.jtagAccess t op) s = .next (jtagAccess r op t) := by
  obtain ⟨hreach, hawake⟩ := hr
  refine congrArg Host.Outcome.next ?_
  rw [now, hreach, if_neg (by simp [hawake])]

/-- Sleep does not stop IDCODE. -/
theorem exec_jtagAccess_idcode (s : State) (t : Nat) :
    exec (.jtagAccess t .idcode) s = .next ((reach s t).answer .jtag (toBytesLE 4 0x1816414B) false) :=
  congrArg Host.Outcome.next (if_neg fun h => h.2 rfl)

section
variable {r : State} (t : Nat)

/-- At level 0 nothing but the registers of the keep is read. -/
theorem jtagAccess_read_closed (hlevel : debugLevel r = 0) {a : Nat} (ha : jtagKeep a = false) (n : Nat) :
    jtagAccess r (.read a n) t = r.answer .jtag [] true := if_pos (Or.inl ⟨hlevel, by simp [ha]⟩)

/-- Below level 2 nothing but the registers of the keep is written. -/
theorem jtagAccess_write_closed (hlevel : debugLevel r ≠ 2) {a : Nat} (ha : jtagKeep a = false) (bs : List Byte) :
    jtagAccess r (.write a bs) t = r.answer .jtag [] true := if_pos (Or.inl ⟨hlevel, by simp [ha]⟩)

/-- Below level 2 no core is halted. -/
theorem jtagAccess_halt_closed (hlevel : debugLevel r ≠ 2) (w : CoreSel) (v : Bool) :
    jtagAccess r (.halt w v) t = r.answer .jtag [] true := if_neg fun h => hlevel h.1

theorem jtagAccess_halt_open (hlevel : debugLevel r = 2) {w : CoreSel} (hw : selValid w = true) (v : Bool) :
    jtagAccess r (.halt w v) t = r.setCore w { r.core w with halted := v } := if_pos ⟨hlevel, hw⟩

theorem physOk_dram {a n : Nat} (hn : 0 < n) (hfit : a + n ≤ 0x200000000) (jtag : Bool) : physOk a n jtag = true := by
  have hfirst : regionOf a = .dram := if_pos (by omega)
  have hlast : regionOf (a + (n - 1)) = .dram := if_pos (by omega)
  rw [physOk, rangeRegion, hfirst, hlast]
  rfl

/-- At level 2 a write of the DRAM writes its bytes. -/
theorem jtagAccess_write_dram (hclean : r.memErr = []) (hlevel : debugLevel r = 2) {a : Nat} {bs : List Byte} (hbs : bs ≠ [])
    (hfit : a + bs.length ≤ 0x200000000) :
    ∃ l, jtagAccess r (.write a bs) t = State.answer { r with mem := memWrite r.mem a bs, carLast := l } .jtag [] false := by
  have hlen : 0 < bs.length := List.length_pos_iff.mpr hbs
  have hregion : regionOf a = .dram := if_pos (by omega)
  obtain ⟨l, hl⟩ := writePhys_clean hclean t .jtag a bs
  refine ⟨l, ?_⟩
  simp only [jtagAccess, physOk_dram hlen hfit, physStore, hregion, hl]
  simp [hlevel]

end

end Sys2Proof.Machine

namespace Sys2Proof.Proofs

open Sys2Proof.Machine

/-- Settles O48, initiator by initiator. -/
theorem ports : Obligations.Ports := by
  unfold Obligations.Ports
  intro s r t hreach
  refine ⟨fun hawake hs hclean p off hp => ?port, hreach ▸ exec_jtagAccess_idcode s t, fun hawake => ⟨fun hlevel => ?closed,
    fun hlevel => ⟨fun w v hw => ?halt, fun hs hclean a bs hbs hfit => ?dram⟩⟩⟩
  case port =>
    intro a0
    have hexec := exec_externalPortAccess (off := off) ⟨hreach, hawake⟩ hp
    refine ⟨fun n bs => ?host, fun n hn hfit hold => ?read, fun n bs hbs hfit hold hheld => ?write⟩
    case host => exact (hexec .host n bs).trans (congrArg _ (if_pos rfl))
    case read =>
      obtain ⟨l, hread⟩ := externalAccess_read hclean hp hold hn hfit
      exact ⟨_, hexec .barista n none, hread ▸ ⟨kget_kput_same _ _ _, rfl, rfl⟩⟩
    case write =>
      obtain ⟨hresp, hmem⟩ := externalAccess_write hclean hp hold hbs hfit hheld n
      obtain ⟨hback, hframe⟩ := memWrite_window hs.mem (a := a0) (bs := bs) rfl
      exact ⟨_, hexec .barista n (some bs), hresp, hmem ▸ hback, hmem ▸ hframe⟩
  case closed =>
    intro a n bs w v err
    have hexec := exec_jtagAccess ⟨hreach, hawake⟩
    have hbelow : debugLevel r ≠ 2 := by omega
    exact ⟨fun ha => ⟨(hexec _).trans (congrArg _ (jtagAccess_read_closed t hlevel ha n)),
      (hexec _).trans (congrArg _ (jtagAccess_write_closed t hbelow ha bs))⟩,
      (hexec _).trans (congrArg _ (jtagAccess_halt_closed t hbelow w v))⟩
  case halt => exact (exec_jtagAccess ⟨hreach, hawake⟩ _).trans (congrArg _ (jtagAccess_halt_open t hlevel hw v))
  case dram =>
    obtain ⟨l, hwrite⟩ := jtagAccess_write_dram t hclean hlevel hbs hfit
    obtain ⟨hback, hframe⟩ := memWrite_window hs.mem (a := a) (bs := bs) rfl
    exact ⟨_, exec_jtagAccess ⟨hreach, hawake⟩ _, hwrite ▸ ⟨kget_kput_same _ _ _, hback, hframe⟩⟩

end Sys2Proof.Proofs
end

section
/-! PROOF. CARAFE_GRANT of a load of a Barista core: the half's record of its last round is one round late (R200, R201). The load is
granted in its round like any other request, and then takes a round again as an access of the Barista (`carRounds`): the half is
taken in the next round too, and the half's record names that one. -/

namespace Sys2Proof.Machine

/-- A load of three bytes at offset 0, which waits at the even half of slice 0. -/
def waitingLoad : CarLoad :=
  { off := 0, real := 0, blend := none, kind := 0, at' := 0, slot := 0, sup := false, granted := [], grantAt := 0, entered := 0
    fwd := false, waits := none, data := [0, 0, 0], bad := false }

/-- The state after reset in cycle 100, with that load in pair 0. -/
def pairLoading : State :=
  { State.reset.setCore (.barista 0) { Core.reset with carU := some waitingLoad } with ntc := 100 }

theorem pairLoading_runs : runsAt pairLoading 100 pairLoading := runs_rest (by decide +kernel) rfl (Nat.le_refl _)

theorem pairLoading_shaped : Shaped pairLoading := ⟨rfl, rfl, rfl, rfl, rfl, rfl, rfl, rfl, rfl, rfl⟩

theorem pairLoading_free : kget pairLoading.carLast 0 = none := rfl

theorem pairLoading_clean : pairLoading.memErr = [] := rfl

/-- Arbitration names the load of the pair, requester 18 (R202). -/
theorem pairLoading_arbitrate : arbitrate pairLoading 0 100 = some ⟨.barista 0, some false, 0, 18, 50, 0⟩ := by decide +kernel

theorem exec_carafeGrant {s r : State} {t slice half : Nat} (hr : runsAt s t r) (hslice : slice < 8) (hhalf : half < 2) :
    exec (.carafeGrant t slice half []) s = .next (carafeGrant r (2 * slice + half) t) := by
  have hexec : exec (.carafeGrant t slice half []) s = .next (carafeGrant r (2 * slice + half % 2) t) :=
    congrArg Host.Outcome.next ((awake_runs hr _).trans (upTo_lt hslice _ _))
  rwa [Nat.mod_eq_of_lt hhalf] at hexec

/-- Cycle 100 lies in round 50, and the half records round 51. -/
theorem pairLoading_granted : kget (carafeGrant pairLoading 0 100).carLast 0 = some (18, 51) := by decide +kernel

end Sys2Proof.Machine

namespace Sys2Proof.Proofs

open Sys2Proof.Machine

/-- Refutes O17: the grant of a load of pair 0 in round 50 leaves its half with round 51 as the last one granted. -/
theorem not_carafeAccesses : ¬ Obligations.CarafeAccesses := by
  unfold Obligations.CarafeAccesses
  rintro ⟨-, hgrant, -⟩
  have hfresh : ∀ g, kget pairLoading.carLast 0 = some g → g.2 < 100 / 2 := by simp [pairLoading_free]
  obtain ⟨u, hexec, hlast, -⟩ := hgrant pairLoading pairLoading 100 0 0 _ pairLoading_runs pairLoading_shaped pairLoading_clean
    (by decide) (by decide) hfresh pairLoading_arbitrate
  rw [exec_carafeGrant pairLoading_runs (by decide) (by decide)] at hexec
  obtain rfl := Host.Outcome.next.inj hexec
  exact absurd (pairLoading_granted.symm.trans hlast) (by decide)

end Sys2Proof.Proofs
end

section
/-! PROOF. What entry saves, exit restores: each field of a task-state block and of a ring header is read from its own bytes (R226,
R227, R230, R306, R307). -/

namespace Sys2Proof.Machine

/-! ### A number among the bytes of others (R6) -/

/-- The lowest n bytes of a number hold it modulo 256ⁿ. -/
theorem ofBytesLE_take_low {n k : Nat} (h : n ≤ k) (v : Nat) (rest : List Byte) :
    ofBytesLE ((toBytesLE k v ++ rest).take n) = v % 256 ^ n := by
  induction n generalizing k v with
  | zero => exact (Nat.mod_one v).symm
  | succ n ih =>
    cases k with
    | zero => exact absurd h (Nat.not_succ_le_zero n)
    | succ k =>
      calc ofBytesLE ((toBytesLE (k + 1) v ++ rest).take (n + 1))
        _ = v % 256 + 256 * (v / 256 % 256 ^ n) := by
          rw [toBytesLE, List.cons_append, List.take_succ_cons, ofBytesLE, ih (Nat.le_of_succ_le_succ h), BitVec.toNat_ofNat]
        _ = v % 256 ^ (n + 1) := by rw [Nat.pow_succ', Nat.mod_mul]

theorem toNat_mod_bytes {w n : Nat} (x : BitVec w) (h : w ≤ 8 * n) : x.toNat % 256 ^ n = x.toNat := by
  have hpow : 2 ^ w ≤ 256 ^ n := calc
    2 ^ w ≤ 2 ^ (8 * n) := Nat.pow_le_pow_right (by decide) h
    _ = 256 ^ n := Nat.pow_mul 2 8 n
  exact Nat.mod_eq_of_lt (Nat.lt_of_lt_of_le x.isLt hpow)

/-- Sign extension keeps the low 32 bits (R67). -/
theorem ofNat_sext48 (x : W32) : BitVec.ofNat 32 (sext48 32 x.toNat).toNat = x := by
  have hext : sext48 32 x.toNat = x.signExtend 48 := by rw [sext48, BitVec.ofNat_toNat, BitVec.setWidth_eq, BitVec.signExtend]
  rw [hext, BitVec.ofNat_toNat]
  ext i hi
  rw [BitVec.getElem_setWidth, BitVec.getLsbD_signExtend]
  simp [hi, Nat.lt_trans hi]

/-- The first n elements of a list that has as many. -/
theorem map_nth_range {α : Type} {l : List α} {n : Nat} (d : α) (h : n ≤ l.length) :
    (List.range n).map (fun i => nth l i d) = l.take n := by
  refine List.ext_getElem (by simp [h]) fun i hi hj => ?_
  rw [List.length_take] at hj
  simp [nth, List.getElem?_eq_getElem (by omega : i < l.length)]

/-- A bit of a number that is written as a sum. -/
theorem bitOf_eq {n i : Nat} {b : Bool} (h : n / 2 ^ i % 2 = ofBool b) : bitOf n i = b := by
  rw [bitOf, Nat.testBit_eq_decide_div_mod_eq, h]
  cases b <;> rfl

theorem ofBool_le (b : Bool) : ofBool b ≤ 1 := by cases b <;> decide

/-! ### A field of a block (R226) -/

theorem tsbNat_front {off n k : Nat} (hoff : off = 0) (h : n ≤ k) (v : Nat) (rest : List Byte) :
    tsbNat (toBytesLE k v ++ rest) off n = v % 256 ^ n := by
  subst hoff
  exact ofBytesLE_take_low h v rest

theorem tsbNat_append {pre : List Byte} {off : Nat} (h : pre.length ≤ off) (rest : List Byte) (n : Nat) :
    tsbNat (pre ++ rest) off n = tsbNat rest (off - pre.length) n := by
  rw [tsbNat, List.drop_append, List.drop_eq_nil_of_le h, List.nil_append, tsbNat]

theorem tsbNat_skip {k off : Nat} (h : k ≤ off) (v : Nat) (rest : List Byte) (n : Nat) :
    tsbNat (toBytesLE k v ++ rest) off n = tsbNat rest (off - k) n := by
  rw [tsbNat_append (by rwa [length_toBytesLE]), length_toBytesLE]

/-- Bytes of the registers of a file of m, k bytes each. -/
theorem length_regFile (k m : Nat) (f : Nat → Nat) : ((List.range m).flatMap fun i => toBytesLE k (f i)).length = m * k := by
  simp

theorem tsbNat_skip_regFile {k m off : Nat} (h : m * k ≤ off) (f : Nat → Nat) (rest : List Byte) (n : Nat) :
    tsbNat ((List.range m).flatMap (fun i => toBytesLE k (f i)) ++ rest) off n = tsbNat rest (off - m * k) n := by
  rw [tsbNat_append (by rwa [length_regFile]), length_regFile]

/-- Register i of a file. -/
theorem tsbNat_regFile {k m i off : Nat} (hi : i < m) (hoff : off = k * i) (f : Nat → Nat) (rest : List Byte) :
    tsbNat ((List.range m).flatMap (fun i => toBytesLE k (f i)) ++ rest) off k = f i % 256 ^ k := by
  subst hoff
  induction m generalizing i f with
  | zero => exact absurd hi (Nat.not_lt_zero i)
  | succ m ih =>
    rw [List.range_succ_eq_map, List.flatMap_cons, List.append_assoc, List.flatMap_map]
    cases i with
    | zero => exact tsbNat_front (Nat.mul_zero k) (Nat.le_refl k) _ _
    | succ i =>
      rw [tsbNat_skip (Nat.le_mul_of_pos_right k (Nat.succ_pos i)), Nat.mul_succ, Nat.add_sub_cancel]
      exact ih (Nat.lt_of_succ_lt_succ hi) fun i => f (i + 1)

/-! ### What the bytes of a block hold (R226) -/

theorem length_tsbBytes (c : Core) (level : Nat) (car : Option CarLoad) (rcv : Option Rcv) :
    (tsbBytes c level car rcv).length = 255 := by
  unfold tsbBytes
  simp

/-- A block holds the fields of core c, with this level, load and receive: what exit reads where the spec's table places it. -/
structure TsbHolds (bs : List Byte) (c : Core) (level : Nat) (car : Option CarLoad) (rcv : Option Rcv) : Prop where
  state : tsbNat bs 0 3 = tsbState c car rcv % 256 ^ 3
  pc : tsbNat bs 3 3 = (if c.phase = .waiting then 0 else c.pc) % 256 ^ 3
  level : tsbNat bs 0x0C 3 = (level % 32 + 32 * (c.p.toNat / 2)) % 256 ^ 3
  cause : tsbNat bs 0x0F 3 = c.cause.toNat
  baddr : tsbNat bs 0x12 6 = c.baddr.toNat
  count0 : tsbNat bs 0x18 2 = (nth c.loops 0 Loop.off).count % 256 ^ 2
  count1 : tsbNat bs 0x1B 2 = (nth c.loops 1 Loop.off).count % 256 ^ 2
  start0 : tsbNat bs 0x1E 3 = (nth c.loops 0 Loop.off).start % 256 ^ 3
  stop0 : tsbNat bs 0x21 3 = (nth c.loops 0 Loop.off).stop % 256 ^ 3
  start1 : tsbNat bs 0x24 3 = (nth c.loops 1 Loop.off).start % 256 ^ 3
  stop1 : tsbNat bs 0x27 3 = (nth c.loops 1 Loop.off).stop % 256 ^ 3
  bc : tsbNat bs 0x2A 3 = c.bc.toNat
  ln : tsbNat bs 0x2D 6 = c.ln.toNat
  g : ∀ i < 8, tsbNat bs (0x42 + 3 * i) 3 = (nth c.g i 0).toNat
  a : ∀ i < 8, tsbNat bs (0x5A + 6 * i) 6 = (nth c.a i 0).toNat
  m : ∀ i < 8, tsbNat bs (0x8A + 6 * i) 6 = (sext48 32 (nth c.m i 0).toNat).toNat
  cb : ∀ i < 4, tsbNat bs (0xBA + 6 * i) 6 = (nth c.cb i 0).toNat
  cl : ∀ i < 4, tsbNat bs (0xD2 + 6 * i) 6 = (nth c.cl i 0).toNat

theorem tsbBytes_holds (c : Core) (level : Nat) (car : Option CarLoad) (rcv : Option Rcv) :
    TsbHolds (tsbBytes c level car rcv) c level car rcv := by
  unfold tsbBytes
  constructor
  case g | a | m | cb | cl =>
    intro i hi
    simp (disch := omega) only [List.append_assoc, tsbNat_skip, tsbNat_skip_regFile]
    rw [tsbNat_regFile hi (by omega), toNat_mod_bytes _ (by decide)]
  all_goals simp (disch := omega) only [List.append_assoc, tsbNat_skip, tsbNat_front, toNat_mod_bytes]

/-! ### The state word (R226) -/

/-- With no load and no receive recorded, what a pending branch and a repetition write lies in bits 2 to 12. -/
theorem tsbState_running {c : Core} (hrun : c.phase = .running) :
    tsbState c none none % 4 = ofBool c.user ∧ tsbState c none none / 2 ^ 13 =
      ofBool c.bmvResume + 2 * ofBool (nth c.loops 0 Loop.off).active + 4 * ofBool (nth c.loops 1 Loop.off).active := by
  have huser := ofBool_le c.user
  unfold tsbState
  rw [hrun]
  simp only [reduceCtorEq, decide_false, Option.isSome_none, show ofBool false = 0 from rfl]
  cases c.branch <;> cases c.rep <;> dsimp only <;> omega

/-- The bits of the state word that exit reads back into the core. -/
theorem tsbState_bits {c : Core} (hrun : c.phase = .running) :
    let st := tsbState c none none % 256 ^ 3
    bitOf st 0 = c.user ∧ bitOf st 1 = false ∧ bitOf st 13 = c.bmvResume ∧ bitOf st 14 = (nth c.loops 0 Loop.off).active ∧
      bitOf st 15 = (nth c.loops 1 Loop.off).active := by
  obtain ⟨hlow, hhigh⟩ := tsbState_running hrun
  have huser := ofBool_le c.user
  have hresume := ofBool_le c.bmvResume
  have hloop0 := ofBool_le (nth c.loops 0 Loop.off).active
  have hloop1 := ofBool_le (nth c.loops 1 Loop.off).active
  have hzero : ofBool false = 0 := rfl
  refine ⟨bitOf_eq ?_, bitOf_eq ?_, bitOf_eq ?_, bitOf_eq ?_, bitOf_eq ?_⟩ <;> omega

/-! ### What exit reads back (R226, R227, R230) -/

/-- The registers that a file's numbers name. -/
theorem map_ofNat_range {w n : Nat} {f : Nat → Nat} {l : List (BitVec w)} (h : ∀ i < n, BitVec.ofNat w (f i) = nth l i 0)
    (hn : n ≤ l.length) : (List.range n).map (fun i => BitVec.ofNat w (f i)) = l.take n :=
  calc (List.range n).map (fun i => BitVec.ofNat w (f i))
    _ = (List.range n).map (fun i => nth l i 0) := List.map_congr_left fun i hi => h i (List.mem_range.mp hi)
    _ = l.take n := map_nth_range 0 hn

theorem ofNat_of_toNat {w n : Nat} {x : BitVec w} (h : n = x.toNat) : BitVec.ofNat w n = x := by
  rw [h, BitVec.ofNat_toNat, BitVec.setWidth_eq]

/-- An offset fits the three bytes of its field (R95, R226). -/
theorem offset_mod {bits v : Nat} (hbits : bits ≤ 24) (hv : v < 2 ^ bits) : v % 256 ^ 3 % 2 ^ bits = v := by
  have hpow : 2 ^ bits ≤ 2 ^ 24 := Nat.pow_le_pow_right (by decide) hbits
  rw [Nat.mod_eq_of_lt (b := 256 ^ 3) (by omega), Nat.mod_eq_of_lt hv]

/-- A loop whose fields come back from their bytes. -/
theorem loop_restored {bits start stop count : Nat} {active : Bool} {l : Loop} (hbits : bits ≤ 24)
    (hl : l.start < 2 ^ bits ∧ l.stop < 2 ^ bits ∧ l.count < 2 ^ 16) (hactive : active = l.active)
    (hstart : start = l.start % 256 ^ 3) (hstop : stop = l.stop % 256 ^ 3) (hcount : count = l.count % 256 ^ 2) :
    ({ active := active, start := start % 2 ^ bits, stop := stop % 2 ^ bits, count := count } : Loop) = l := by
  obtain ⟨hs, he, hc⟩ := hl
  rw [hactive, hstart, hstop, hcount, offset_mod hbits hs, offset_mod hbits he, Nat.mod_eq_of_lt (b := 256 ^ 2) hc]

section
variable {bs : List Byte} {c : Core} {level bits : Nat} (h : TsbHolds bs c level none none) (c0 : Core)
include h

/-- The register files: g0 to g7 before the registers that the block does not hold, and the files of address registers whole. -/
theorem tsbRestore_files (hg : 8 ≤ c.g.length) (ha : c.a.length = 8) (hm : c.m.length = 8) (hcb : c.cb.length = 4)
    (hcl : c.cl.length = 4) :
    let r := tsbRestore bits bs c0
    r.g = c.g.take 8 ++ c0.g.drop 8 ∧ r.a = c.a ∧ r.m = c.m ∧ r.cb = c.cb ∧ r.cl = c.cl := by
  have hgs := map_ofNat_range (fun i hi => ofNat_of_toNat (h.g i hi)) hg
  have has := map_ofNat_range (fun i hi => ofNat_of_toNat (h.a i hi)) ha.ge
  have hms := map_ofNat_range (fun i hi => (congrArg (BitVec.ofNat 32) (h.m i hi)).trans (ofNat_sext48 (nth c.m i 0))) hm.ge
  have hcbs := map_ofNat_range (fun i hi => ofNat_of_toNat (h.cb i hi)) hcb.ge
  have hcls := map_ofNat_range (fun i hi => ofNat_of_toNat (h.cl i hi)) hcl.ge
  exact ⟨congrArg (· ++ c0.g.drop 8) hgs, has.trans (List.take_of_length_le ha.le), hms.trans (List.take_of_length_le hm.le),
    hcbs.trans (List.take_of_length_le hcb.le), hcls.trans (List.take_of_length_le hcl.le)⟩

theorem tsbRestore_words :
    let r := tsbRestore bits bs c0
    r.ln = c.ln ∧ r.bc = c.bc ∧ r.cause = c.cause &&& 0xFFFFDF ∧ r.baddr = c.baddr :=
  ⟨ofNat_of_toNat h.ln, ofNat_of_toNat h.bc, congrArg (· &&& 0xFFFFDF) (ofNat_of_toNat h.cause), ofNat_of_toNat h.baddr⟩

/-- Level and p share a word. -/
theorem tsbRestore_level (hlevel : level ≤ 16 ∨ level = 31) (hp : c.p.toNat % 2 = 1) :
    let r := tsbRestore bits bs c0
    r.level = level ∧ r.p = c.p := by
  have hword := h.level
  have hbound := c.p.isLt
  refine ⟨?_, ofNat_of_toNat ?_⟩
  · have hlow : tsbNat bs 0x0C 3 % 32 = level := by omega
    exact (congrArg (fun v => if v ≤ 16 ∨ v = 31 then v else 0) hlow).trans (if_pos hlevel)
  · rw [hword, bitsOf, Nat.shiftRight_eq_div_pow]
    omega

theorem tsbHolds_bits (hrun : c.phase = .running) :
    let st := tsbNat bs 0 3
    bitOf st 0 = c.user ∧ bitOf st 1 = false ∧ bitOf st 13 = c.bmvResume ∧ bitOf st 14 = (nth c.loops 0 Loop.off).active ∧
      bitOf st 15 = (nth c.loops 1 Loop.off).active := h.state ▸ tsbState_bits hrun

/-- What the state word says, and the place of the core. -/
theorem tsbRestore_state (hrun : c.phase = .running) (hbits : bits ≤ 24) (hpc : c.pc < 2 ^ bits) :
    let r := tsbRestore bits bs c0
    r.user = c.user ∧ r.pc = c.pc ∧ r.phase = .running ∧ r.bmvResume = c.bmvResume := by
  obtain ⟨huser, hwait, hresume, -, -⟩ := tsbHolds_bits h hrun
  have hplace : tsbNat bs 3 3 % 2 ^ bits = c.pc := by
    rw [h.pc, hrun, if_neg (by decide), offset_mod hbits hpc]
  refine ⟨huser, hplace, if_neg (by simp [hwait]), ?_⟩
  exact (congrArg₂ (fun x y => !x && y) hwait hresume).trans (Bool.true_and _)

/-- The loops, outer before inner. -/
theorem tsbRestore_loops (hrun : c.phase = .running) (hbits : bits ≤ 24) (hlen : c.loops.length = 2)
    (hloops : ∀ l ∈ c.loops, l.start < 2 ^ bits ∧ l.stop < 2 ^ bits ∧ l.count < 2 ^ 16) :
    (tsbRestore bits bs c0).loops = c.loops := by
  obtain ⟨-, -, -, hactive0, hactive1⟩ := tsbHolds_bits h hrun
  have hpair : [nth c.loops 0 Loop.off, nth c.loops 1 Loop.off] = c.loops :=
    (map_nth_range (n := 2) Loop.off hlen.ge).trans (List.take_of_length_le hlen.le)
  have hloop0 := loop_restored hbits (hloops _ (hpair ▸ List.mem_cons_self)) hactive0 h.start0 h.stop0 h.count0
  have hloop1 := loop_restored hbits (hloops _ (hpair ▸ List.mem_cons_of_mem _ List.mem_cons_self)) hactive1 h.start1 h.stop1
    h.count1
  exact (congrArg₂ (fun l k => [l, k]) hloop0 hloop1).trans hpair

end

/-! ### A ring header (R306, R307) -/

theorem length_toBytesBE (n v : Nat) : (toBytesBE n v).length = n := by
  rw [toBytesBE, List.length_reverse, length_toBytesLE]

/-- The bytes of a number hold it modulo 256ⁿ, the highest first. -/
theorem ofBytesBE_toBytesBE (n v : Nat) : ofBytesBE (toBytesBE n v) = v % 256 ^ n := by
  have hlow := ofBytesLE_take_low (Nat.le_refl n) v []
  rwa [List.take_left' (length_toBytesLE n v), ← List.reverse_reverse (toBytesLE n v)] at hlow

/-- Eight bytes are the four of the high word before the four of the low word. -/
theorem toBytesBE_eight (v : Nat) : toBytesBE 8 v = toBytesBE 4 (v / 2 ^ 32) ++ toBytesBE 4 v := by
  simp only [toBytesBE, toBytesLE, Nat.div_div_eq_div_mul, Nat.reduceMul, Nat.reducePow, List.reverse_cons, List.reverse_nil,
    List.nil_append, List.cons_append]

/-- Word i of words of four bytes. -/
theorem ofBytesBE_word {ws : List Nat} {i : Nat} (hi : i < ws.length) (rest : List Byte) :
    ofBytesBE (((ws.flatMap (toBytesBE 4) ++ rest).drop (4 * i)).take 4) = ws[i] % 2 ^ 32 := by
  induction ws generalizing i with
  | nil => exact absurd hi (Nat.not_lt_zero i)
  | cons w ws ih =>
    rw [List.flatMap_cons, List.append_assoc]
    cases i with
    | zero => rw [Nat.mul_zero, List.drop_zero, List.take_left' (length_toBytesBE 4 w), ofBytesBE_toBytesBE]; rfl
    | succ i =>
      rw [Nat.mul_succ, Nat.add_comm, ← List.drop_drop, List.drop_left' (length_toBytesBE 4 w)]
      exact ih (Nat.lt_of_succ_lt_succ hi)

/-- The six words of a header (R307). -/
def hdrWords (h : Hdr) : List Nat :=
  [h.typ * 2 ^ 28 + h.ver * 2 ^ 24 + ofBool h.west * 2 ^ 23 + ofBool h.wrap * 2 ^ 22 + h.hops * 2 ^ 15 + h.res0 * 2 ^ 11 + h.len,
    h.src * 2 ^ 14 + h.epoch * 2 ^ 12 + h.aux, h.dst * 2 ^ 14 + h.scope * 2 ^ 12 + h.res2, h.stamp, h.ctr / 2 ^ 32, h.ctr]

theorem hdrBytes_eq (h : Hdr) : hdrBytes h = (hdrWords h).flatMap (toBytesBE 4) := by
  simp only [hdrBytes, hdrWords, toBytesBE_eight, List.flatMap_cons, List.flatMap_nil, List.append_nil, List.append_assoc]

theorem length_hdrBytes (h : Hdr) : (hdrBytes h).length = 24 := by
  simp only [hdrBytes, List.length_append, length_toBytesBE]

/-- The values that the fields of a header can hold (R307, R308). -/
structure Hdr.Fits (h : Hdr) : Prop where
  typ : h.typ < 16
  ver : h.ver < 16
  hops : h.hops < 128
  res0 : h.res0 < 16
  len : h.len < 2048
  src : h.src < 2 ^ 18
  epoch : h.epoch < 4
  aux : h.aux < 4096
  dst : h.dst < 2 ^ 18
  scope : h.scope < 4
  res2 : h.res2 < 4096
  stamp : h.stamp < 2 ^ 32
  ctr : h.ctr < 2 ^ 64

/-- The fields of a header do not overlap in its words, so they come back. -/
theorem parseHdr_hdrBytes {h : Hdr} (hfits : h.Fits) (rest : List Byte) : parseHdr (hdrBytes h ++ rest) = h := by
  have hword (i : Nat) (hi : i < 6) : ofBytesBE (((hdrBytes h ++ rest).drop (4 * i)).take 4) = (hdrWords h)[i] % 2 ^ 32 :=
    hdrBytes_eq h ▸ ofBytesBE_word (ws := hdrWords h) hi rest
  obtain ⟨htyp, hver, hhops, hres0, hlen, hsrc, hepoch, haux, hdst, hscope, hres2, hstamp, hctr⟩ := hfits
  obtain ⟨typ, ver, west, wrap, hops, res0, len, src, epoch, aux, dst, scope, res2, stamp, ctr⟩ := h
  have hwest := ofBool_le west
  have hwrap := ofBool_le wrap
  unfold parseHdr
  dsimp only
  rw [hword 0 (by decide), hword 1 (by decide), hword 2 (by decide), hword 3 (by decide), hword 4 (by decide), hword 5 (by decide)]
  simp only [hdrWords, List.getElem_cons_zero, List.getElem_cons_succ, bitsOf, Nat.shiftRight_eq_div_pow, Hdr.mk.injEq]
  dsimp only at *
  refine ⟨?_, ?_, bitOf_eq ?_, bitOf_eq ?_, ?_, ?_, ?_, ?_, ?_, ?_, ?_, ?_, ?_, ?_, ?_⟩ <;> omega

end Sys2Proof.Machine

namespace Sys2Proof.Proofs

open Sys2Proof.Machine

/-- Settles O20: a block holds the fields of the core (`tsbBytes_holds`), exit restores each from where it stands, and the words of a
header hold its fields (`parseHdr_hdrBytes`). -/
theorem layoutsRoundTrip : Obligations.LayoutsRoundTrip := by
  unfold Obligations.LayoutsRoundTrip
  refine ⟨?_, ?_⟩
  · intro c c0 level bits hbits hg ha hm hcb hcl hp hrun hpc hlevel hlen hloops
    have hwidth : bits ≤ 24 := by omega
    have hholds := tsbBytes_holds c level none none
    obtain ⟨hgs, has, hms, hcbs, hcls⟩ := tsbRestore_files (bits := bits) hholds c0 (hg ▸ by decide) ha hm hcb hcl
    obtain ⟨hln, hbc, hcause, hbaddr⟩ := tsbRestore_words (bits := bits) hholds c0
    obtain ⟨hlev, hps⟩ := tsbRestore_level (bits := bits) hholds c0 hlevel hp
    obtain ⟨huser, hpcs, hphase, hresume⟩ := tsbRestore_state hholds c0 hrun hwidth hpc
    have hls := tsbRestore_loops hholds c0 hrun hwidth hlen hloops
    exact ⟨hgs, has, hms, hcbs, hcls, hps, hln, hbc, huser, hpcs, hphase, hlev, hcause, hbaddr, hls, rfl, hresume⟩
  · intro h htyp hver hhops hres0 hlen hsrc hepoch haux hdst hscope hres2 hstamp hctr
    exact ⟨length_hdrBytes h, parseHdr_hdrBytes
      ⟨htyp, hver, hhops, hres0, hlen, hsrc, hepoch, haux, hdst, hscope, hres2, hstamp, hctr⟩⟩

end Sys2Proof.Proofs
end

section
/-! PROOF. ENTRY presents, and the stages of an entry from cycle 80 to cycle 86: what is in flight completes, the block is written in
six parts, and the handler starts (R215, R216, R223, R226, R228, R244). -/

namespace Sys2Proof.Machine

/-! ### Presentation (R244) -/

/-- Presentation writes an entry into the one core, or nothing. -/
theorem presentCore_eq (s : State) (w : CoreSel) (t : Nat) :
    presentCore s w t = s ∨ ∃ c, presentCore s w t = s.setCore w c := by
  unfold presentCore
  dsimp only
  repeat' split
  all_goals first | exact .inl rfl | exact .inr ⟨_, rfl⟩

/-- ENTRY changes nothing but the entry of its core. -/
theorem enterCore_presentOnly (s : State) (w : CoreSel) (t : Nat) :
    let u := enterCore s w t
    PresentOnly (s.core w) (u.core w) ∧ u.mem = s.mem ∧ u.regs = s.regs ∧ ∀ v, v ≠ w → u.core v = s.core v := by
  refine ⟨(presentCore_railOnly s w t).core w, ?_⟩
  obtain hsame | ⟨c, hset⟩ := presentCore_eq s w t
  · rw [enterCore, hsame]
    exact ⟨rfl, rfl, fun _ _ => rfl⟩
  · rw [enterCore, hset]
    exact ⟨setCore_mem s w c, setCore_regs s w c, fun _ hv => core_setCore_ne s c hv⟩

/-! ### What was in flight completes (R66, R228) -/

@[simp] theorem setUnits_tsbr (c : Core) (sup : Bool) (u : UnitSet) : (setUnits c sup u).tsbr = c.tsbr := by cases sup <;> rfl

theorem setLoad_tsbr (c : Core) (sup : Bool) (l : Option CarLoad) : (setLoad c sup l).tsbr = c.tsbr := by cases sup <;> rfl

theorem deliver_tsbr (c : Core) (f : Flight) : (deliver c f).tsbr = c.tsbr := by
  unfold deliver
  cases f.what with
  | ext k ctl => simp only [List.foldl, extLane, setUnits_tsbr]
  | land k op ra x y => rfl
  | _ => simp only [setUnits_tsbr]

theorem settleAllOps_tsbr (c : Core) : (settleAllOps c).tsbr = c.tsbr := by
  have hfold (l : List Flight) (d : Core) : (l.foldl deliver d).tsbr = d.tsbr := by
    induction l generalizing d with
    | nil => rfl
    | cons f l ih => exact (ih _).trans (deliver_tsbr d f)
  exact hfold _ _

/-- From s to u core w kept its frame pointer, and memory and the registers stand. -/
structure FrameKept (w : CoreSel) (s u : State) : Prop where
  mem : u.mem = s.mem
  memErr : u.memErr = s.memErr
  regs : u.regs = s.regs
  tsbr : (u.core w).tsbr = (s.core w).tsbr

theorem FrameKept.refl (w : CoreSel) (s : State) : FrameKept w s s := ⟨rfl, rfl, rfl, rfl⟩

theorem FrameKept.trans {w : CoreSel} {s t u : State} (h : FrameKept w s t) (k : FrameKept w t u) : FrameKept w s u :=
  ⟨k.mem.trans h.mem, k.memErr.trans h.memErr, k.regs.trans h.regs, k.tsbr.trans h.tsbr⟩

theorem setCore_frameKept {s : State} {w : CoreSel} {c : Core} (h : c.tsbr = (s.core w).tsbr) : FrameKept w s (s.setCore w c) := by
  refine ⟨setCore_mem s w c, setCore_memErr s w c, setCore_regs s w c, ?_⟩
  obtain hold | ⟨-, hnew⟩ := core_setCore_cases s w w c
  · rw [hold]
  · rw [hnew, h]

theorem carBlend_frameKept {s : State} (hclean : s.memErr = []) (w : CoreSel) (ld : CarLoad) (t : Nat) :
    FrameKept w s (carBlend s w ld t).2 := by
  unfold carBlend
  split
  · exact .refl w s
  · next o j _ =>
    obtain ⟨l, hread⟩ := readPhys_clean hclean t (memWhoOf w) (carBase + o) (carBytes ld.kind)
    dsimp only
    rw [hread]
    exact ⟨rfl, rfl, rfl, by cases w <;> rfl⟩

theorem carDeliver_frameKept {s : State} (hclean : s.memErr = []) (w : CoreSel) (sup : Bool) (t : Nat) :
    FrameKept w s (carDeliver s w sup t) := by
  unfold carDeliver
  split
  · exact .refl w s
  · next ld _ =>
    dsimp only
    have hblend : FrameKept w s (if ld.fwd then (ld, s) else carBlend s w ld t).2 := by
      split
      · exact .refl w s
      · exact carBlend_frameKept hclean w ld t
    exact hblend.trans (setCore_frameKept (by rw [setUnits_tsbr, setLoad_tsbr]))

theorem drainCore_frameKept {s : State} (hclean : s.memErr = []) (w : CoreSel) (t : Nat) : FrameKept w s (drainCore s w t) := by
  have huser := carDeliver_frameKept hclean w false t
  have hboth := huser.trans (carDeliver_frameKept (huser.memErr.trans hclean) w true t)
  exact hboth.trans (setCore_frameKept (settleAllOps_tsbr _))

/-! ### A part of the block (R226) -/

theorem memWrite_append (m : List Host.Cell) (a : Nat) (xs ys : List Byte) :
    memWrite m a (xs ++ ys) = memWrite (memWrite m a xs) (a + xs.length) ys := by
  induction xs generalizing m a with
  | nil => rfl
  | cons x xs ih =>
    rw [List.cons_append, memWrite, ih, memWrite, List.length_cons, Nat.add_assoc, Nat.add_comm 1]

/-- One piece that the data memory of an Eduno core holds is written there (R177, R180). -/
theorem storePieces_data {s : State} {p a : Nat} {bs : List Byte} (hclean : s.memErr = []) (ha : a + bs.length ≤ 0x7FFFE)
    (t b : Nat) :
    (storePieces (.eduno p) t b [(a, bs.length)] bs s).mem = memWrite s.mem (localPhys (.eduno p) a) bs := by
  have hregion : lregOf s (.eduno p) a bs.length = .data := if_pos ha
  have hactive : isStandby s (.eduno p) = false := rfl
  rw [storePieces, storePieces, List.take_length]
  unfold storePiece
  dsimp only
  rw [hregion]
  dsimp only
  rw [hactive, Bool.false_and, if_neg Bool.false_ne_true, repairUnits_clean (by exact hclean)]
  exact setCore_mem _ _ _

/-- Part k of the block is written where it belongs, and the entry is at the stage of the next part. -/
theorem writeTsb_writes {s : State} {p k : Nat} {e : Entering} (hs : Shaped s) (hp : p < 68) (hclean : s.memErr = [])
    (hfit : e.frame.toNat + 48 * k + 48 ≤ 0x7FFFE) (t : Nat) :
    let w := CoreSel.eduno p
    let u := writeTsb s w e k t
    u.mem = memWrite s.mem (localPhys w (e.frame.toNat + 48 * k)) ((e.bytes.drop (48 * k)).take 48) ∧ u.memErr = [] ∧
      ∃ o, u.core w = { s.core w with old := o, entering := some { e with stage := 4 + k } } := by
  unfold writeTsb
  intro w
  extract_lets part v u
  have hvalid : selValid w = true := decide_eq_true hp
  have hpart : part.length ≤ 48 := List.length_take_le 48 _
  have hstored : StoredIn p _ s v := storePieces_storedIn hclean hs hp t _ _ part
  have hv : Shaped v := (storePieces_kept w t _ _ part s (.refl s)).shaped hs
  obtain ⟨o, hcore⟩ := hstored.core
  refine ⟨(setCore_mem _ _ _).trans (storePieces_data hclean (by omega) t _),
    (setCore_memErr _ _ _).trans (hstored.memErr.trans hclean), o, ?_⟩
  exact (core_setCore_valid _ hv hvalid).trans
    (congrArg (fun d : Core => { d with entering := some { e with stage := 4 + k } }) hcore)

/-- The first k parts of the block that entry e of core p writes stand in memory, which was m before: the core is c but for what
fetch still sees, at the stage of the next part. -/
structure Saving (p : Nat) (c : Core) (m : List Host.Cell) (e : Entering) (k : Nat) (s : State) : Prop where
  shaped : Shaped s
  memErr : s.memErr = []
  mem : s.mem = memWrite m (localPhys (.eduno p) e.frame.toNat) (e.bytes.take (48 * k))
  core : ∃ o, s.core (.eduno p) = { c with old := o, entering := some { e with stage := k + 3 } }

section
variable {p : Nat} {c : Core} {m : List Host.Cell} {e : Entering} {k : Nat} {s : State} (hp : p < 68)
  (hframe : e.frame.toNat + 0x2FF ≤ 0x7FFFD) (hlen : e.bytes.length = 255)
include hp hframe hlen

/-- Part k, after those before it. -/
theorem writeTsb_saving (hk : k ≤ 5) (hs : Shaped s) (hclean : s.memErr = [])
    (hmem : s.mem = memWrite m (localPhys (.eduno p) e.frame.toNat) (e.bytes.take (48 * k)))
    (hcore : ∃ o x, s.core (.eduno p) = { c with old := o, entering := x }) (n t : Nat) :
    Saving p c m e (k + 1) (writeTsb s (.eduno p) { e with stage := n } k t) := by
  have hshaped := (writeTsb_kept s (.eduno p) { e with stage := n } k t (.refl s)).shaped hs
  obtain ⟨hmemu, hcleanu, o, hcoreu⟩ := writeTsb_writes (e := { e with stage := n }) (k := k) hs hp hclean (by dsimp only; omega) t
  obtain ⟨_, _, hcore⟩ := hcore
  have hbase : localPhys (.eduno p) (e.frame.toNat + 48 * k) =
      localPhys (.eduno p) e.frame.toNat + (e.bytes.take (48 * k)).length := by
    rw [List.length_take, hlen, Nat.min_eq_left (by omega)]
    exact (Nat.add_assoc _ _ _).symm
  refine ⟨hshaped, hcleanu, ?_, o, ?_⟩
  · rw [hmemu, hbase, hmem, ← memWrite_append, ← List.take_add, Nat.mul_succ]
  · rw [hcoreu, hcore, Nat.add_right_comm, Nat.add_comm 4 k]

end

/-! ### The stages (R228) -/

/-- What an entry under way does in its cycle 80 + i. -/
def entryStep (p : Nat) (s : State) (i : Nat) : State :=
  match (s.core (.eduno p)).entering with
  | some e => entryStage s (.eduno p) e (e.cycle0 + 80 + i)
  | none => s

theorem entryStep_eq {p : Nat} {s : State} {e : Entering} (h : (s.core (.eduno p)).entering = some e) (i : Nat) :
    entryStep p s i = entryStage s (.eduno p) e (e.cycle0 + 80 + i) := by rw [entryStep, h]

/-- Between stage 3 and stage 9 a part of the block is written. -/
theorem entryStage_part {e : Entering} {k : Nat} (hstage : e.stage = k + 3) (h1 : 1 ≤ k) (h2 : k ≤ 5)
    (s : State) (w : CoreSel) (t : Nat) :
    entryStage s w e t = writeTsb s w e k t := by
  unfold entryStage
  split
  case h_7 => rw [hstage, Nat.add_sub_cancel]
  all_goals omega

/-- The entry with the frame and the bytes that it writes from core c. -/
def withBlock (e : Entering) (c : Core) : Entering := { e with frame := c.tsbr, bytes := tsbBytes c e.saved e.car e.rcv }

theorem length_withBlock (e : Entering) (c : Core) : (withBlock e c).bytes.length = 255 := by
  rw [withBlock, length_tsbBytes]

theorem frameOk_le {s : State} {p : Nat} {f : W32} {limit : Bool} (h : frameOk s (.eduno p) f limit = true) :
    f.toNat + 0x2FF ≤ 0x7FFFD := by
  simp only [frameOk, Bool.and_eq_true, decide_eq_true_eq] at h
  exact h.2.1

theorem frameOk_congr {s u : State} (h : u.regs = s.regs) (w : CoreSel) (f : W32) (limit : Bool) :
    frameOk u w f limit = frameOk s w f limit := by simp only [frameOk, reg_congr h]

/-- Stage 3 of an entry that nothing chains, with a valid frame. -/
theorem saveState_eq {s : State} {w : CoreSel} {e : Entering} {t : Nat} (hchain : e.chained = false)
    (hframe : frameOk (drainCore s w t) w ((drainCore s w t).core w).tsbr true = true) :
    saveState s w e t = writeTsb (drainCore s w t) w (withBlock e ((drainCore s w t).core w)) 0 t := by
  unfold saveState withBlock
  dsimp only
  rw [if_neg (by simp [hchain]), if_neg (by simp [hframe])]

section
variable {r : State} {p : Nat} {c : Core} {e : Entering} (hs : Shaped r) (hp : p < 68) (hclean : r.memErr = [])
  (hframe : frameOk r (.eduno p) (r.core (.eduno p)).tsbr true = true) (hchain : e.chained = false)
  (hc : (drainCore r (.eduno p) (e.cycle0 + 80)).core (.eduno p) = c)
include hs hp hclean hframe hchain hc

/-- Stage 3 writes the first part. -/
theorem saveState_saving : Saving p c r.mem (withBlock e c) 1 (saveState r (.eduno p) e (e.cycle0 + 80)) := by
  have hdrain := drainCore_frameKept hclean (.eduno p) (e.cycle0 + 80)
  have hshaped : Shaped (drainCore r (.eduno p) (e.cycle0 + 80)) := (drainCore_kept r (.eduno p) _ (.refl r)).shaped hs
  have hok : frameOk (drainCore r (.eduno p) (e.cycle0 + 80)) (.eduno p) c.tsbr true = true := by
    rw [← hc, frameOk_congr hdrain.regs, hdrain.tsbr, hframe]
  rw [saveState_eq hchain (hc.symm ▸ hok), hc]
  have hnone : (drainCore r (.eduno p) (e.cycle0 + 80)).mem =
      memWrite r.mem (localPhys (.eduno p) (withBlock e c).frame.toNat) ((withBlock e c).bytes.take (48 * 0)) := by
    rw [Nat.mul_zero, List.take_zero, hdrain.mem, memWrite]
  exact writeTsb_saving (n := (withBlock e c).stage) hp (frameOk_le hok) (length_withBlock e c) (Nat.zero_le 5) hshaped
    (hdrain.memErr.trans hclean) hnone ⟨c.old, c.entering, hc⟩ _

/-- The parts of the block, one a cycle. -/
theorem entrySteps_saving (hentry : (r.core (.eduno p)).entering = some e) (hstage : e.stage = 3) {k : Nat} (hk : k ≤ 5) :
    Saving p c r.mem (withBlock e c) (k + 1) ((List.range (k + 1)).foldl (entryStep p) r) := by
  induction k with
  | zero =>
    have hfirst : entryStep p r 0 = saveState r (.eduno p) e (e.cycle0 + 80) := by
      rw [entryStep_eq hentry]
      unfold entryStage
      rw [hstage]
      rfl
    rw [Nat.zero_add, List.range_one, List.foldl_cons, List.foldl_nil, hfirst]
    exact saveState_saving hs hp hclean hframe hchain hc
  | succ k ih =>
    have hbefore := ih (by omega)
    rw [List.range_succ, List.foldl_append]
    generalize (List.range (k + 1)).foldl (entryStep p) r = u at hbefore ⊢
    obtain ⟨o, hcore⟩ := hbefore.core
    have hlow : (withBlock e c).frame.toNat + 0x2FF ≤ 0x7FFFD := by
      have htsbr := (drainCore_frameKept hclean (.eduno p) (e.cycle0 + 80)).tsbr
      exact frameOk_le (hc ▸ htsbr ▸ hframe)
    rw [List.foldl_cons, List.foldl_nil, entryStep_eq (congrArg Core.entering hcore), entryStage_part rfl (by omega) hk]
    exact writeTsb_saving hp hlow (length_withBlock e c) hk hbefore.shaped hbefore.memErr hbefore.mem ⟨o, _, hcore⟩ _ _

end

/-- What cycle 86 does to an Eduno core, but for the entry of a takeover (R216, R223, R226, R228). -/
theorem startHandler_eduno {s : State} {p : Nat} (hs : Shaped s) (hp : p < 68) {e : Entering} (hchain : e.chained = false)
    (hcode : e.req.cause.code ≠ 0x0D) (t : Nat) :
    let w := CoreSel.eduno p
    let c := s.core w
    let u := startHandler s w e t
    u.mem = s.mem ∧ (u.core w).pc = e.handler ∧ (u.core w).user = false ∧ (u.core w).readyAt = e.cycle0 + 96 ∧
    (u.core w).cause = causeWord (e.umode.getD c.user) e.req.cause (if e.req.cause.ticket.isSome then e.claimed.getD 2047 else 0) ∧
    (u.core w).baddr = (if e.req.cause.ticket.isSome then c.baddr else e.req.cause.baddr) ∧
    (u.core w).tsbr = c.tsbr - 0x300 ∧ (u.core w).g = c.g := by
  intro w c u
  have hticket : entryTicket s w e = (if e.req.cause.ticket.isSome then e.claimed.getD 2047 else 0, s) := by
    unfold entryTicket
    cases e.req.cause.ticket <;> rfl
  have hskip : entrySkip e = 0 := if_neg hcode
  have hvalid : selValid w = true := decide_eq_true hp
  have hu : u = startHandler s w e t := rfl
  clear_value u
  unfold startHandler at hu
  dsimp only at hu
  rw [hticket, hskip, hchain] at hu
  rw [hu, core_setCore_valid _ hs hvalid, setCore_mem]
  exact ⟨rfl, rfl, rfl, rfl, rfl, rfl, rfl, rfl⟩

end Sys2Proof.Machine

namespace Sys2Proof.Proofs

open Sys2Proof.Machine

/-- Settles O19: ENTRY presents; the block is written part by part (`entrySteps_saving`), and the handler starts
(`startHandler_eduno`). -/
theorem entry : Obligations.Entry := by
  unfold Obligations.Entry
  refine ⟨?_, ?_⟩
  · intro s r t w hr hw
    have hexec : exec (.entry t w) s = .next (enterCore r w t) :=
      congrArg Host.Outcome.next ((awake_runs hr _).trans (onCore_valid hw r _))
    exact ⟨_, hexec, enterCore_presentOnly r w t⟩
  · intro r p e hs hp hclean w c u hentry hstage hchain hcode hframe
    have hsaved : Saving p c r.mem (withBlock e c) 6 ((List.range 6).foldl (entryStep p) r) :=
      entrySteps_saving hs hp hclean hframe hchain rfl hentry hstage (Nat.le_refl 5)
    have hlast : u = entryStep p ((List.range 6).foldl (entryStep p) r) 6 := by
      have hsteps : u = (List.range 7).foldl (entryStep p) r := rfl
      rw [hsteps, List.range_succ, List.foldl_append, List.foldl_cons, List.foldl_nil]
    clear_value u c
    generalize (List.range 6).foldl (entryStep p) r = v at hsaved hlast
    obtain ⟨hshaped, -, hmem, o, hcore⟩ := hsaved
    rw [entryStep_eq (congrArg Core.entering hcore)] at hlast
    have hstart : u = startHandler v w { withBlock e c with stage := 9 } (e.cycle0 + 80 + 6) := hlast
    obtain ⟨hmem', hpc, huser, hready, hcause, hbaddr, htsbr, hg⟩ := startHandler_eduno (e := { withBlock e c with stage := 9 })
      hshaped hp hchain hcode (e.cycle0 + 80 + 6)
    rw [← hstart] at hmem' hpc huser hready hcause hbaddr htsbr hg
    rw [hcore] at hcause hbaddr htsbr hg
    have hblock : (withBlock e c).bytes.take (48 * 6) = (withBlock e c).bytes :=
      List.take_of_length_le (by rw [length_withBlock]; decide)
    have hwritten : u.mem = memWrite r.mem (localPhys w c.tsbr.toNat) (tsbBytes c e.saved e.car e.rcv) := by
      rw [hmem', hmem, hblock, withBlock]
    obtain ⟨hread, houtside⟩ := memWrite_window hs.mem (a := localPhys w c.tsbr.toNat) (length_tsbBytes c e.saved e.car e.rcv)
    rw [hwritten]
    exact ⟨hread, houtside, hpc, huser, hready, hcause, hbaddr, htsbr, hg⟩

end Sys2Proof.Proofs
end

section
/-! SUPPORT. What presentation and the MSI-X mirror write, and the state of a source through an event (R237, R241, R244, R500). -/

namespace Sys2Proof.Machine

/-! ### Presentation and the mirror -/

/-- From s to t only what presentation and the mirror write changed: entries of cores and MSI-X messages. -/
def Presented (s t : State) : Prop :=
  t = { s with cores := t.cores, baristas := t.baristas, msixPend := t.msixPend, msixOut := t.msixOut }

namespace Presented

variable {s t u : State}

theorem refl (s : State) : Presented s s := rfl

theorem trans (h : Presented s t) (k : Presented t u) : Presented s u := by
  unfold Presented at h k ⊢
  rw [h] at k
  exact k

theorem ite {c : Prop} [Decidable c] (h : Presented s t) (k : Presented s u) : Presented s (if c then t else u) := by
  split <;> assumption

theorem regs (h : Presented s t) : t.regs = s.regs := (congrArg State.regs h :)
theorem srcs (h : Presented s t) : t.srcs = s.srcs := (congrArg State.srcs h :)
theorem mem (h : Presented s t) : t.mem = s.mem := (congrArg State.mem h :)

theorem reg (h : Presented s t) (n : RegName) (i : Nat) : t.reg n i = s.reg n i := reg_congr h.regs n i 0
theorem bit (h : Presented s t) (n : RegName) (b i : Nat) : t.bit n b i = s.bit n b i := bit_congr h.regs n b i 0

theorem src (h : Presented s t) (n : Nat) : t.src n = s.src n := by rw [State.src, h.srcs]; rfl

end Presented

theorem setCore_presented (s : State) (w : CoreSel) (c : Core) : Presented s (s.setCore w c) := by cases w <;> rfl

theorem presentCore_presented (s : State) (w : CoreSel) (t : Nat) : Presented s (presentCore s w t) := by
  obtain h | ⟨c, h⟩ := presentCore_eq s w t
  · rw [h]
    exact .refl s
  · rw [h]
    exact setCore_presented s w c

theorem presentTarget_presented (s : State) (n t : Nat) : Presented s (presentTarget s n t) := by
  unfold presentTarget
  split
  · exact presentCore_presented _ _ _
  · split
    · exact presentCore_presented _ _ _
    · exact .refl s

theorem presentAll_presented (s : State) (t : Nat) : Presented s (presentAll s t) :=
  .trans (List.foldlRecOn _ _ (.refl s) fun u h p _ => h.trans (presentCore_presented u (.eduno p) t))
    (presentCore_presented _ _ _)

theorem mirror_presented (s : State) (n : Nat) : Presented s (mirror s n) := by
  unfold mirror msixDue
  exact .ite (.ite rfl (.ite (.ite rfl rfl) rfl)) rfl

theorem release_presented (s : State) (n t : Nat) :
    Presented (s.raise t .orlPend (2 ^ (n % 32)) (n / 32)) (release s n t) := mirror_presented _ _

/-! ### One source -/

@[simp] theorem src_setSrc_same (s : State) (n : Nat) (x : SrcSt) : (s.setSrc n x).src n = x := by
  simp [State.src, State.setSrc]

@[simp] theorem coalesceOf_setSrc (s : State) (n t k : Nat) (x : SrcSt) : coalesceOf (s.setSrc k x) n t = coalesceOf s n t := rfl

@[simp] theorem release_src (s : State) (n t k : Nat) : (release s n t).src k = s.src k :=
  (release_presented s n t).src k

theorem release_mem (s : State) (n t : Nat) : (release s n t).mem = s.mem := (release_presented s n t).mem

/-- A release sets the pending bit (R241). -/
theorem release_pend (s : State) (n t : Nat) : (release s n t).bit .orlPend (n % 32) (n / 32) = true := by
  rw [(release_presented s n t).bit, bit_raise_same _ _ _ _ _ _ (Nat.mod_lt _ (by decide)), bitOf, Nat.testBit_two_pow_self,
    Bool.or_true]

/-! ### The end of a window and an event (R241) -/

/-- No window of the source has ended by cycle t. -/
def windowOpen (s : State) (n t : Nat) : Prop := ∀ e, (s.src n).winEnd = some e → t < e

theorem windowEnd_open {s : State} {n t : Nat} (h : windowOpen s n t) : windowEnd s n t = s := by
  unfold windowEnd
  split
  · next e he => exact if_neg (Nat.not_le.mpr (h e he))
  · rfl

theorem windowEnd_ended {s : State} {n t e : Nat} (he : (s.src n).winEnd = some e) (h : e ≤ t) :
    windowEnd s n t = release (s.setSrc n { s.src n with winEnd := none, count := 0 }) n e := by
  simp only [windowEnd, he, if_pos h]

/-- The end of a window does nothing, or it is a release of the source with its count and window reset. -/
theorem windowEnd_cases (s : State) (n t : Nat) : windowEnd s n t = s ∨
    ∃ e, windowEnd s n t = release (s.setSrc n { s.src n with winEnd := none, count := 0 }) n e := by
  by_cases h : windowOpen s n t
  · exact .inl (windowEnd_open h)
  · obtain ⟨e, he, hle⟩ : ∃ e, (s.src n).winEnd = some e ∧ ¬ t < e := by simpa [windowOpen] using h
    exact .inr ⟨e, windowEnd_ended he (Nat.le_of_not_lt hle)⟩

theorem windowEnd_level (s : State) (n t : Nat) : ((windowEnd s n t).src n).level = (s.src n).level := by
  obtain h | ⟨e, h⟩ := windowEnd_cases s n t
  · rw [h]
  · rw [h, release_src, src_setSrc_same]

theorem windowEnd_mem (s : State) (n t : Nat) : (windowEnd s n t).mem = s.mem := by
  obtain h | ⟨e, h⟩ := windowEnd_cases s n t
  · rw [h]
  · rw [h, release_mem]
    rfl

/-- An event that follows a latch's is none; any other changes the source after the end of its window, its level apart, and may
release it (R240, R241). -/
theorem srcEvent_cases (s : State) (n t : Nat) : srcEvent s n t = s ∨
    ∃ x : SrcSt, x.level = (s.src n).level ∧
      (srcEvent s n t = release ((windowEnd s n t).setSrc n x) n t ∨ srcEvent s n t = (windowEnd s n t).setSrc n x) := by
  unfold srcEvent
  split
  · exact .inl rfl
  · dsimp only
    split
    · refine .inr ⟨_, ?_, .inl rfl⟩
      exact windowEnd_level s n t
    · refine .inr ⟨_, ?_, .inr rfl⟩
      exact windowEnd_level s n t

theorem srcEvent_level (s : State) (n t : Nat) : ((srcEvent s n t).src n).level = (s.src n).level := by
  obtain h | ⟨x, hx, h | h⟩ := srcEvent_cases s n t
  · rw [h]
  · rw [h, release_src, src_setSrc_same, hx]
  · rw [h, src_setSrc_same, hx]

theorem srcEvent_mem (s : State) (n t : Nat) : (srcEvent s n t).mem = s.mem := by
  obtain h | ⟨x, -, h | h⟩ := srcEvent_cases s n t
  · rw [h]
  · rw [h, release_mem]
    exact windowEnd_mem s n t
  · rw [h]
    exact windowEnd_mem s n t

section
variable {s : State} {n t : Nat} (hlatch : (s.src n).latchAt ≠ some t) (hopen : windowOpen s n t)
include hlatch hopen

/-- The event that makes the held count reach N is released. -/
theorem srcEvent_released (hcount : (coalesceOf s n t).1 ≤ (s.src n).count + 1) :
    srcEvent s n t = release (s.setSrc n { s.src n with count := 0, winEnd := none }) n t := by
  simp only [srcEvent, if_neg hlatch, windowEnd_open hopen, if_pos hcount]

/-- Any other is held, and opens a window where T is not 0 and none is open. -/
theorem srcEvent_held (hcount : ¬ (coalesceOf s n t).1 ≤ (s.src n).count + 1) :
    srcEvent s n t = s.setSrc n { s.src n with
      count := (s.src n).count + 1
      winEnd := (s.src n).winEnd <|> (if 0 < (coalesceOf s n t).2 then some (t + 1536 * (coalesceOf s n t).2) else none) } := by
  simp only [srcEvent, if_neg hlatch, windowEnd_open hopen, if_neg hcount]
  cases (s.src n).winEnd <;> rfl

end

end Sys2Proof.Machine
end

section
/-! PROOF. SOURCE_EVENT and COALESCE_TIME_RELEASE: sensing, counting and release (R234, R237, R238, R241). -/

namespace Sys2Proof.Machine

/-! ### SOURCE_EVENT -/

theorem exec_sourceEvent_none (s : State) (t : Nat) {n : Nat} (level : Bool) (hn : srcHasInput n = false) :
    exec (.sourceEvent t n level) s = .next (reach s t) := by
  refine congrArg Host.Outcome.next (if_neg ?_)
  rw [hn]
  decide

theorem exec_sourceEvent {s r : State} {t : Nat} (hr : runsAt s t r) {n : Nat} (level : Bool) (hn : srcHasInput n = true) :
    exec (.sourceEvent t n level) s = .next (setLevel r n level t) :=
  congrArg Host.Outcome.next ((now_runs hr _).trans (if_pos hn))

theorem srcHasInput_lt {n : Nat} (hn : srcHasInput n = true) : n < 1024 := by
  by_contra h
  rw [srcHasInput_unnamed (decide_eq_false h)] at hn
  cases hn

/-- What an edge source senses in a change to a level (R237). -/
def senses (s : State) (n : Nat) (level : Bool) : Prop :=
  srcSense s n = 4 ∨ (srcSense s n = 2 ∧ level = true) ∨ (srcSense s n = 3 ∧ level = false)

theorem senses_iff {s : State} {n : Nat} {level : Bool} :
    (srcSense s n = 4 ∨ (srcSense s n = 2 ∧ level = true) ∨ (srcSense s n = 3 ∧ (!level) = true)) ↔ senses s n level := by
  rw [senses, Bool.not_eq_true']

section
variable {s : State} {n t : Nat} {level : Bool} (hawake : s.power.asleep = none)
include hawake

theorem setLevel_levelSource (hl : srcIsLevel s n = true) :
    Presented (s.setSrc n { s.src n with level := level }) (setLevel s n level t) := by
  simp only [setLevel, hawake, hl, Option.isSome_none, Bool.false_eq_true, if_false, if_true]
  exact .trans (.ite (mirror_presented _ _) (.refl _)) (presentTarget_presented _ _ _)

/-- A level that the signal already has is no event. -/
theorem setLevel_unchanged (hl : srcIsLevel s n = false) (h : (s.src n).level = level) :
    setLevel s n level t = s.setSrc n { s.src n with level := level } := by
  simp only [setLevel, hawake, hl, h, Option.isSome_none, Bool.false_eq_true, if_false, if_true]

/-- A change that an edge source senses is one event, which is then presented. -/
theorem setLevel_sensed (hl : srcIsLevel s n = false) (h : (s.src n).level ≠ level) (hs : senses s n level) :
    Presented (srcEvent (s.setSrc n { s.src n with level := level }) n t) (setLevel s n level t) := by
  simp only [setLevel, hawake, hl, h, senses_iff, hs, Option.isSome_none, Bool.false_eq_true, if_false, if_true]
  exact presentTarget_presented _ _ _

theorem setLevel_unsensed (hl : srcIsLevel s n = false) (h : (s.src n).level ≠ level) (hs : ¬ senses s n level) :
    setLevel s n level t = s.setSrc n { s.src n with level := level } := by
  simp only [setLevel, hawake, hl, h, senses_iff, hs, Option.isSome_none, Bool.false_eq_true, if_false]

/-- The signal takes the level (R237). -/
theorem setLevel_level : ((setLevel s n level t).src n).level = level := by
  cases hl : srcIsLevel s n with
  | true => rw [(setLevel_levelSource hawake hl).src, src_setSrc_same]
  | false =>
    by_cases h : (s.src n).level = level
    · rw [setLevel_unchanged hawake hl h, src_setSrc_same]
    · by_cases hs : senses s n level
      · rw [(setLevel_sensed hawake hl h hs).src, srcEvent_level, src_setSrc_same]
      · rw [setLevel_unsensed hawake hl h hs, src_setSrc_same]

section
variable (hl : srcIsLevel s n = false) (h : (s.src n).level ≠ level) (hs : senses s n level)
  (hlatch : (s.src n).latchAt ≠ some t) (hopen : windowOpen s n t)
include hl h hs hlatch hopen

/-- A sensed event that is released: pending is set, and count and window start again (R241). -/
theorem setLevel_released (hcount : (coalesceOf s n t).1 ≤ (s.src n).count + 1) :
    let u := setLevel s n level t
    u.bit .orlPend (n % 32) (n / 32) = true ∧ (u.src n).count = 0 ∧ (u.src n).winEnd = none := by
  intro u
  have hu : Presented (srcEvent (s.setSrc n { s.src n with level := level }) n t) u := setLevel_sensed hawake hl h hs
  rw [srcEvent_released (by simpa using hlatch) (by simpa [windowOpen] using hopen) (by simpa using hcount)] at hu
  rw [hu.bit, hu.src, release_src, src_setSrc_same, src_setSrc_same]
  exact ⟨release_pend _ _ _, rfl, rfl⟩

/-- One that is held: pending stays, and the count and the window say so (R241). -/
theorem setLevel_held (hcount : ¬ (coalesceOf s n t).1 ≤ (s.src n).count + 1) :
    let u := setLevel s n level t
    u.bit .orlPend (n % 32) (n / 32) = s.bit .orlPend (n % 32) (n / 32) ∧ (u.src n).count = (s.src n).count + 1 ∧
      (u.src n).winEnd =
        ((s.src n).winEnd <|> (if 0 < (coalesceOf s n t).2 then some (t + 1536 * (coalesceOf s n t).2) else none)) := by
  intro u
  have hu : Presented (srcEvent (s.setSrc n { s.src n with level := level }) n t) u := setLevel_sensed hawake hl h hs
  rw [srcEvent_held (by simpa using hlatch) (by simpa [windowOpen] using hopen) (by simpa using hcount)] at hu
  rw [hu.bit, hu.src, src_setSrc_same, src_setSrc_same]
  exact ⟨rfl, rfl, rfl⟩

end

end

/-! ### COALESCE_TIME_RELEASE -/

theorem exec_coalesceTimeRelease {s r : State} {t : Nat} (hr : runsAt s t r) {n : Nat} (hn : n < 1024) :
    exec (.coalesceTimeRelease t n) s = .next (presentTarget (windowEnd r n t) n t) :=
  congrArg Host.Outcome.next ((awake_runs hr _).trans (upTo_lt hn _ _))

/-- In the cycle in which a window ends, what it held is released, and the window closes (R241). -/
theorem windowEnd_releases {r : State} {n t : Nat} (hend : (r.src n).winEnd = some t) :
    let u := presentTarget (windowEnd r n t) n t
    u.bit .orlPend (n % 32) (n / 32) = true ∧ (u.src n).count = 0 ∧ (u.src n).winEnd = none := by
  intro u
  have hu : Presented (windowEnd r n t) u := presentTarget_presented _ _ _
  rw [windowEnd_ended hend (Nat.le_refl t)] at hu
  rw [hu.bit, hu.src, release_src, src_setSrc_same]
  exact ⟨release_pend _ _ _, rfl, rfl⟩

end Sys2Proof.Machine

namespace Sys2Proof.Proofs

open Sys2Proof.Machine

/-- Settles O7: the level is taken (`setLevel_level`), and a sensed change is an event that is released (`setLevel_released`) or held
(`setLevel_held`); the end of a window releases what is held (`windowEnd_releases`). -/
theorem sourceEvents : Obligations.SourceEvents := by
  unfold Obligations.SourceEvents
  refine ⟨fun s t n level hn => exec_sourceEvent_none s t level hn, ?_, fun r n t hj => if_pos hj, ?_⟩
  · intro s r t n level hr hn x nt
    have hawake := hr.2
    refine ⟨_, exec_sourceEvent hr level hn, setLevel_level hawake, setLevel_railOnly r level t (srcHasInput_lt hn), ?_,
      fun hl heq => setLevel_unchanged hawake hl heq⟩
    intro hl hne hs hlatch hopen
    split
    · next hcount => exact setLevel_released hawake hl hne hs hlatch hopen hcount
    · next hcount => exact setLevel_held hawake hl hne hs hlatch hopen hcount
  · intro s r t n hr hn hend
    obtain ⟨hpend, hcount, hwin⟩ := windowEnd_releases hend
    exact ⟨_, exec_coalesceTimeRelease hr hn, hpend, hcount, hwin,
      (windowEnd_railOnly r t hn).trans (presentTarget_railOnly _ n t)⟩

end Sys2Proof.Proofs
end

section
/-! PROOF. PENDING_WRITE and IN_SERVICE_COMPLETE of the shared sources and of those of one core (R238, R239, R242, R253). -/

namespace Sys2Proof.Machine

/-! ### PENDING_WRITE -/

theorem exec_pendingWrite {s r : State} {t : Nat} (hr : runsAt s t r) (ini : Ini) {k : Nat} (v : W32) (hk : k < 32) :
    exec (.pendingWrite t ini k v) s = .next (pendWrite (noted r t .orlPend k) k v t) :=
  congrArg Host.Outcome.next <|
    (awake_runs hr _).trans <| (upTo_lt (by omega) _ _).trans <| (if_pos hk).trans (put_orlPend hk)

theorem exec_pendingWrite_core {s r : State} {t : Nat} (hr : runsAt s t r) (ini : Ini) {p : Nat} {v : W32} (hp : p < 68)
    (hv : reservedIn .orlPpend p v.toNat = false) :
    exec (.pendingWrite t ini (32 + p) v) s = .next (privPendWrite (noted r t .orlPpend p) p v t) := by
  have hput := put_orlPpend (s := r) (ini := ini) (t := t) hp hv
  refine congrArg Host.Outcome.next ((awake_runs hr _).trans ((upTo_lt (by omega) _ _).trans ((if_neg (by omega)).trans ?_)))
  rw [Nat.add_sub_cancel_left, hput]

/-- A sum of the powers of two below 2^m that p leaves out has the other bits below m. -/
theorem testBit_sumUnless (p : Nat → Bool) (m : Nat) :
    (List.range m).foldl (fun a i => if p i then a else a + 2 ^ i) 0 < 2 ^ m ∧
    ∀ i, ((List.range m).foldl (fun a i => if p i then a else a + 2 ^ i) 0).testBit i = (decide (i < m) && !p i) := by
  induction m with
  | zero => simp
  | succ m ih =>
    obtain ⟨hlt, hbit⟩ := ih
    rw [List.range_succ, List.foldl_append, List.foldl_cons, List.foldl_nil]
    generalize (List.range m).foldl (fun a i => if p i then a else a + 2 ^ i) 0 = a at *
    have hdouble : 2 ^ (m + 1) = 2 ^ m + 2 ^ m := by rw [Nat.pow_succ, Nat.mul_two]
    by_cases hp : p m = true
    · rw [if_pos hp]
      refine ⟨by omega, fun i => (hbit i).trans ?_⟩
      by_cases him : i = m
      · simp [him, hp]
      · simp [Nat.le_iff_lt_or_eq, him]
    · rw [if_neg hp]
      have hor : a + 2 ^ m = 2 ^ m ||| a := by simpa [Nat.add_comm] using Nat.two_pow_add_eq_or_of_lt hlt 1
      refine ⟨by omega, fun i => ?_⟩
      rw [hor, Nat.testBit_or, hbit, Nat.testBit_two_pow]
      by_cases him : i = m
      · simp [him, hp]
      · simp [Nat.le_iff_lt_or_eq, him, Ne.symm him]

/-- Bit i of word k belongs to an edge source (R238). -/
theorem testBit_edgeBits (s : State) (k : Nat) {i : Nat} (hi : i < 32) :
    (edgeBits s k).testBit i = !srcIsLevel s (32 * k + i) := by
  rw [edgeBits, (testBit_sumUnless (fun i => srcIsLevel s (32 * k + i)) 32).2, decide_eq_true hi, Bool.true_and]

/-- A register that is set and then raised has the bits of both. -/
theorem bit_raise_setReg (s : State) (t : Nat) (n : RegName) (x bits i : Nat) {b : Nat} (hb : b < 32) :
    ((s.setReg n (BitVec.ofNat 32 x) i).raise t n bits i).bit n b i = (bitOf x b || bitOf bits b) := by
  rw [bit_raise_same _ _ _ _ _ _ hb, State.bit, reg_setReg_same, bitOf, testBit_ofNat_word hb]
  rfl

/-- A written 1 sets the bit of an edge source and a written 0 clears it, but for what hardware sets in the cycle (R238, R253). -/
theorem bit_pendWrite (s : State) (k : Nat) (v : W32) (t : Nat) {i : Nat} (hi : i < 32) :
    (pendWrite s k v t).bit .orlPend i k =
      ((!srcIsLevel s (32 * k + i) && bitOf v.toNat i) || bitOf (s.hwBits t (regOff .orlPend k 0)) i) := by
  rw [pendWrite, (presentAll_presented _ t).bit, bit_raise_setReg s t .orlPend _ _ k hi, bitOf, bitOf, Nat.testBit_and,
    testBit_edgeBits s k hi, Bool.or_comm, Bool.and_comm]
  rfl

theorem pendWrite_src (s : State) (k : Nat) (v : W32) (t n : Nat) : (pendWrite s k v t).src n = s.src n :=
  (presentAll_presented _ t).src n

theorem setPend_railOnly (s : State) (v : W32) {k : Nat} (hk : k < 32) : RailOnly s (s.setReg .orlPend v k) := by
  refine ⟨rfl, fun off hoff => kget_setReg_ne s v ?_, fun w => by cases w <;> rfl⟩
  simp only [regOff, regRow]
  omega

theorem pendWrite_railOnly (s : State) {k : Nat} (v : W32) (t : Nat) (hk : k < 32) : RailOnly s (pendWrite s k v t) :=
  ((setPend_railOnly s _ hk).trans (raisePend_railOnly _ t _ hk)).trans (presentAll_railOnly _ t)

/-- What a write of the pending bits of one core leaves to presentation (R253). -/
theorem privPendWrite_presented (s : State) (p : Nat) (v : W32) (t : Nat) :
    Presented ((s.setReg .orlPpend (BitVec.ofNat 32 (s.hwBits t (regOff .orlPpend p 0))) p).raise t .orlPpend v.toNat p)
      (privPendWrite s p v t) := presentCore_presented _ _ t

theorem bit_privPendWrite (s : State) (p : Nat) (v : W32) (t : Nat) {i : Nat} (hi : i < 32) :
    (privPendWrite s p v t).bit .orlPpend i p = (bitOf v.toNat i || bitOf (s.hwBits t (regOff .orlPpend p 0)) i) := by
  rw [(privPendWrite_presented s p v t).bit, bit_raise_setReg s t .orlPpend _ _ p hi, Bool.or_comm]

/-! ### IN_SERVICE_COMPLETE -/

theorem exec_inServiceComplete {s r : State} {t : Nat} (hr : runsAt s t r) (ini : Ini) {k : Nat} (v : W32) (hk : k < 32) :
    exec (.inServiceComplete t ini k v) s = .next (insvcWrite (noted r t .orlInsvc k) k v t) :=
  congrArg Host.Outcome.next <|
    (awake_runs hr _).trans <| (upTo_lt (by omega) _ _).trans <| (if_pos hk).trans (put_orlInsvc hk)

theorem exec_inServiceComplete_core {s r : State} {t : Nat} (hr : runsAt s t r) (ini : Ini) {p : Nat} {v : W32} (hp : p < 68)
    (hv : reservedIn .orlPinsvc p v.toNat = false) :
    exec (.inServiceComplete t ini (32 + p) v) s = .next (privInsvcWrite (noted r t .orlPinsvc p) p v t) := by
  have hput := put_orlPinsvc (s := r) (ini := ini) (t := t) hp hv
  refine congrArg Host.Outcome.next ((awake_runs hr _).trans ((upTo_lt (by omega) _ _).trans ((if_neg (by omega)).trans ?_)))
  rw [Nat.add_sub_cancel_left, hput]

/-- Completion of a source clears its in-service bit and presents (R239). -/
theorem completeShared_presented (s : State) (n t : Nat) :
    Presented (s.setBit .orlInsvc (n % 32) false (n / 32)) (completeShared s n t) :=
  .trans (.ite (mirror_presented _ _) (.refl _)) (presentTarget_presented _ _ _)

/-- From s to u the in-service bits of word k that c names are cleared, and of the rail's words and sources nothing else. -/
structure Completed (k : Nat) (c : Nat → Bool) (s u : State) : Prop where
  bits : ∀ i < 32, u.bit .orlInsvc i k = (s.bit .orlInsvc i k && !c i)
  pend : ∀ i < 32, u.reg .orlPend i = s.reg .orlPend i
  src : ∀ n, u.src n = s.src n
  mem : u.mem = s.mem

theorem Completed.trans {k : Nat} {c d : Nat → Bool} {s t u : State} (h : Completed k c s t) (j : Completed k d t u) :
    Completed k (fun i => c i || d i) s u where
  bits i hi := by rw [j.bits i hi, h.bits i hi, Bool.not_or, Bool.and_assoc]
  pend i hi := (j.pend i hi).trans (h.pend i hi)
  src n := (j.src n).trans (h.src n)
  mem := j.mem.trans h.mem

/-- What a write of in-service word k does for its bit i. -/
def completeBit (k : Nat) (v : W32) (t : Nat) (s : State) (i : Nat) : State :=
  if bitOf v.toNat i && srcInsvc s (32 * k + i) then completeShared s (32 * k + i) t else s

theorem completeBit_completed {k i : Nat} (v : W32) (t : Nat) (s : State) (hk : k < 32) (hi : i < 32) :
    Completed k (fun j => decide (j = i) && bitOf v.toNat j) s (completeBit k v t s i) := by
  have hmod : (32 * k + i) % 32 = i := by omega
  have hdiv : (32 * k + i) / 32 = k := by omega
  unfold completeBit
  split
  · next hc =>
    obtain ⟨hv, -⟩ := Bool.and_eq_true_iff.mp hc
    have hu := completeShared_presented s (32 * k + i) t
    rw [hmod, hdiv] at hu
    refine ⟨fun j hj => ?_, fun j hj => ?_, hu.src, hu.mem⟩
    · rw [hu.bit, bit_setBit_same s .orlInsvc i false k 0 hj]
      by_cases h : j = i
      · simp [h, hv]
      · simp [h]
    · rw [hu.reg, reg_setBit_ne]
      simp only [regOff, regRow]
      omega
  · next hc =>
    have hbit : (s.bit .orlInsvc i k && bitOf v.toNat i) = false := by
      simpa [srcInsvc, hmod, hdiv, Bool.and_comm] using hc
    refine ⟨fun j hj => ?_, fun _ _ => rfl, fun _ => rfl, rfl⟩
    by_cases h : j = i
    · subst h
      revert hbit
      cases s.bit .orlInsvc j k <;> cases bitOf v.toNat j <;> simp
    · simp [h]

theorem foldl_completeBit_completed {k : Nat} (v : W32) (t : Nat) (hk : k < 32) (l : List Nat) (hl : ∀ i ∈ l, i < 32) (s : State) :
    Completed k (fun j => decide (j ∈ l) && bitOf v.toNat j) s (l.foldl (completeBit k v t) s) := by
  induction l generalizing s with
  | nil => exact ⟨fun i _ => by simp, fun _ _ => rfl, fun _ => rfl, rfl⟩
  | cons i l ih =>
    obtain ⟨hi, hrest⟩ := List.forall_mem_cons.mp hl
    have h := (completeBit_completed v t s hk hi).trans (ih hrest _)
    simpa only [List.foldl_cons, List.mem_cons, Bool.decide_or, Bool.and_or_distrib_right] using h

theorem insvcWrite_completed (s : State) {k : Nat} (v : W32) (t : Nat) (hk : k < 32) :
    Completed k (bitOf v.toNat) s (insvcWrite s k v t) := by
  obtain ⟨hbits, hpend, hsrc, hmem⟩ :=
    foldl_completeBit_completed v t hk (List.range 32) (fun i hi => List.mem_range.mp hi) s
  refine ⟨fun i hi => (hbits i hi).trans ?_, hpend, hsrc, hmem⟩
  rw [decide_eq_true (List.mem_range.mpr hi), Bool.true_and]

theorem privInsvcWrite_presented (s : State) (p : Nat) (v : W32) (t : Nat) :
    Presented (s.setReg .orlPinsvc (s.reg .orlPinsvc p &&& ~~~v) p) (privInsvcWrite s p v t) := presentCore_presented _ _ t

end Sys2Proof.Machine

namespace Sys2Proof.Proofs

open Sys2Proof.Machine

/-- Settles O8: the bits are what `bit_pendWrite` and `bit_privPendWrite` say, and the rest of the write is presentation. -/
theorem pendingWrite : Obligations.PendingWrite := by
  unfold Obligations.PendingWrite
  intro s r t ini k v hr
  refine ⟨fun hk => ?_, fun p hp hk hv => ?_⟩
  · exact ⟨_, exec_pendingWrite hr ini v hk, fun i hi => bit_pendWrite _ k v t hi, pendWrite_src _ k v t,
      pendWrite_railOnly _ v t hk⟩
  · subst hk
    have hu := privPendWrite_presented (noted r t .orlPpend p) p v t
    exact ⟨_, exec_pendingWrite_core hr ini hp hv, fun i hi => bit_privPendWrite _ p v t hi, hu.src, hu.mem⟩

/-- Settles O9: word k is completed bit by bit (`insvcWrite_completed`), the word of one core at once. -/
theorem inServiceComplete : Obligations.InServiceComplete := by
  unfold Obligations.InServiceComplete
  intro s r t ini k v hr
  refine ⟨fun hk => ?_, fun p hp hk hv => ?_⟩
  · obtain ⟨hbits, hpend, hsrc, hmem⟩ := insvcWrite_completed (noted r t .orlInsvc k) v t hk
    exact ⟨_, exec_inServiceComplete hr ini v hk, hbits, hsrc, hpend, hmem⟩
  · subst hk
    have hu := privInsvcWrite_presented (noted r t .orlPinsvc p) p v t
    exact ⟨_, exec_inServiceComplete_core hr ini hp hv, (hu.reg .orlPinsvc p).trans (reg_setReg_same _ _ _ _ _), hu.mem⟩

end Sys2Proof.Proofs
end

section
/-! PROOF. BARISTA_CLAIM: the ticket presented, its claim, and what the count of the claim leaves (R239, R244, R248, R484). -/

namespace Sys2Proof.Machine

/-! ### The best of the tickets (R244) -/

/-- Ticket x goes before ticket y, or is y: a higher priority, or the same one and a number not higher. -/
def firstOf (x y : Nat × Nat) : Prop := y.2 < x.2 ∨ (y.2 = x.2 ∧ x.1 ≤ y.1)

theorem firstOf_refl (x : Nat × Nat) : firstOf x x := .inr ⟨rfl, Nat.le_refl _⟩

theorem firstOf_trans {x y z : Nat × Nat} (h : firstOf x y) (k : firstOf y z) : firstOf x z := by
  unfold firstOf at *
  omega

theorem betterTicket_some (x y : Nat × Nat) : ∃ z, betterTicket (some x) (some y) = some z ∧ (z = x ∨ z = y) ∧
    firstOf z x ∧ firstOf z y := by
  unfold betterTicket
  dsimp only
  split
  · next h => exact ⟨y, rfl, .inr rfl, h.imp id fun h => ⟨h.1, h.2.le⟩, firstOf_refl y⟩
  · next h =>
    refine ⟨x, rfl, .inl rfl, firstOf_refl x, ?_⟩
    unfold firstOf
    omega

/-- Folded from a ticket, the tickets of a list leave one of them that goes before all. -/
theorem foldl_betterTicket (l : List (Nat × Nat)) (x : Nat × Nat) :
    ∃ z, l.foldl (fun a y => betterTicket a (some y)) (some x) = some z ∧ z ∈ x :: l ∧ ∀ y ∈ x :: l, firstOf z y := by
  induction l generalizing x with
  | nil => exact ⟨x, rfl, by simp, by simpa using firstOf_refl x⟩
  | cons y l ih =>
    obtain ⟨b, hb, hmem, hx, hy⟩ := betterTicket_some x y
    obtain ⟨z, hz, hzmem, hfirst⟩ := ih b
    obtain ⟨hzb, hzl⟩ := List.forall_mem_cons.mp hfirst
    rw [List.foldl_cons, hb]
    refine ⟨z, hz, ?_, List.forall_mem_cons.mpr ⟨firstOf_trans hzb hx, List.forall_mem_cons.mpr ⟨firstOf_trans hzb hy, hzl⟩⟩⟩
    obtain rfl | hzl := List.mem_cons.mp hzmem
    · obtain rfl | rfl := hmem <;> simp
    · simp [hzl]

/-- The tickets of a list above a running level. -/
def ticketsAbove (level : Nat) (l : List (Nat × Nat)) : List (Nat × Nat) := l.filter fun x => decide (levelRank level < x.2 + 1)

theorem mem_ticketsAbove {level : Nat} {l : List (Nat × Nat)} {x : Nat × Nat} :
    x ∈ ticketsAbove level l ↔ x ∈ l ∧ levelRank level < x.2 + 1 := by
  rw [ticketsAbove, List.mem_filter, decide_eq_true_iff]

theorem bestTicket_eq (level : Nat) (l : List (Nat × Nat)) :
    bestTicket level l = (ticketsAbove level l).foldl (fun a x => betterTicket a (some x)) none := rfl

theorem bestTicket_cases (level : Nat) (l : List (Nat × Nat)) :
    (bestTicket level l = none ∧ ticketsAbove level l = []) ∨
    ∃ x ∈ ticketsAbove level l, bestTicket level l = some x ∧ ∀ y ∈ ticketsAbove level l, firstOf x y := by
  rw [bestTicket_eq]
  cases ticketsAbove level l with
  | nil => exact .inl ⟨rfl, rfl⟩
  | cons x l =>
    obtain ⟨z, hz, hmem, hfirst⟩ := foldl_betterTicket l x
    exact .inr ⟨z, hmem, hz, hfirst⟩

/-! ### The tickets of the pair are shared sources (R233) -/

theorem srcCandidates_lt {s : State} {n : Nat} (h : n ∈ srcCandidates s) : n < 1024 := by
  obtain hpend | hlevel := List.mem_append.mp h
  · obtain ⟨k, hk, hn⟩ := List.mem_flatMap.mp hpend
    have hk' := List.mem_range.mp hk
    dsimp only at hn
    split at hn
    · cases hn
    · obtain ⟨i, hi, rfl⟩ := List.mem_map.mp hn
      have hi' := List.mem_range.mp (List.mem_of_mem_filter hi)
      omega
  · obtain ⟨e, -, he⟩ := List.mem_filterMap.mp hlevel
    split at he
    · cases he
      omega
    · cases he

theorem pairTicket_lt {s : State} {n p : Nat} (h : pairTicket s = some (n, p)) : n < 1024 := by
  unfold pairTicket at h
  split at h
  · cases h
  · obtain ⟨hnone, -⟩ | ⟨x, hmem, hsome, -⟩ := bestTicket_cases (pairLevel s)
        (((srcCandidates s).filter fun n => srcReady s n && decide (srcTarget s n = 0x40)).map fun n => (n, srcPrio s n))
    · rw [hnone] at h
      cases h
    · rw [hsome] at h
      cases h
      obtain ⟨m, hm, hx⟩ := List.mem_map.mp (mem_ticketsAbove.mp hmem).1
      cases hx
      exact srcCandidates_lt (List.mem_of_mem_filter hm)

/-! ### What an event of one source leaves of the others (R241) -/

/-- From s to t the in-service words stay, and of the pending bits at most that of source n changed. -/
structure OthersKept (n : Nat) (s t : State) : Prop where
  pend : ∀ m < 1024, m ≠ n → t.bit .orlPend (m % 32) (m / 32) = s.bit .orlPend (m % 32) (m / 32)
  insvc : ∀ k < 32, t.reg .orlInsvc k = s.reg .orlInsvc k

namespace OthersKept

variable {n : Nat} {s t u : State}

theorem of_regs (h : t.regs = s.regs) : OthersKept n s t :=
  ⟨fun _ _ _ => bit_congr h _ _ _ _, fun _ _ => reg_congr h _ _ _⟩

theorem refl (s : State) : OthersKept n s s := of_regs rfl

theorem trans (h : OthersKept n s t) (k : OthersKept n t u) : OthersKept n s u :=
  ⟨fun m hm hne => (k.pend m hm hne).trans (h.pend m hm hne), fun i hi => (k.insvc i hi).trans (h.insvc i hi)⟩

theorem ite {c : Prop} [Decidable c] (h : OthersKept n s t) (k : OthersKept n s u) : OthersKept n s (if c then t else u) := by
  split <;> assumption

/-- Registers beyond the in-service words do not matter. -/
theorem of_beyond (h : ∀ off < 0x10380, kget t.regs off = kget s.regs off) : OthersKept n s t := by
  refine ⟨fun m hm _ => ?_, fun k hk => ?_⟩
  · rw [State.bit, State.bit, State.reg, State.reg, h _ (by simp only [regOff, regRow]; omega)]
  · rw [State.reg, State.reg, h _ (by simp only [regOff, regRow]; omega)]

end OthersKept

theorem Presented.othersKept {n : Nat} {s t : State} (h : Presented s t) : OthersKept n s t := .of_regs h.regs

section
variable {n : Nat} (hn : n < 1024)
include hn

theorem release_othersKept (s : State) (t : Nat) : OthersKept n s (release s n t) := by
  refine .trans ⟨fun m hm hne => ?_, fun k hk => reg_raise_ne _ _ _ ?_⟩ (release_presented s n t).othersKept
  · by_cases hword : m / 32 = n / 32
    · have hbit : n % 32 ≠ m % 32 := by omega
      rw [hword, bit_raise_same _ _ _ _ _ _ (Nat.mod_lt _ (by decide)), bitOf, Nat.testBit_two_pow_of_ne hbit, Bool.or_false]
    · rw [State.bit, State.bit, reg_raise_ne]
      simp only [regOff, regRow]
      omega
  · simp only [regOff, regRow]
    omega

theorem windowEnd_othersKept (s : State) (t : Nat) : OthersKept n s (windowEnd s n t) := by
  have hset (x : SrcSt) : OthersKept n s (s.setSrc n x) := .of_regs rfl
  obtain h | ⟨e, h⟩ := windowEnd_cases s n t
  · rw [h]
    exact .refl s
  · rw [h]
    exact (hset _).trans (release_othersKept hn _ e)

theorem srcEvent_othersKept (s : State) (t : Nat) : OthersKept n s (srcEvent s n t) := by
  have hset (x : SrcSt) : OthersKept n s ((windowEnd s n t).setSrc n x) := (windowEnd_othersKept hn s t).trans (.of_regs rfl)
  obtain h | ⟨x, -, h | h⟩ := srcEvent_cases s n t
  · rw [h]
    exact .refl s
  · rw [h]
    exact (hset x).trans (release_othersKept hn _ t)
  · rw [h]
    exact hset x

theorem pulse_othersKept (s : State) (t : Nat) : OthersKept n s (pulse s n t) := by
  have hset (x : SrcSt) : OthersKept n s (s.setSrc n x) := .of_regs rfl
  unfold pulse
  refine .ite (.ite (hset _) (.refl s)) (.ite ?_ (.ite (hset _) ?_))
  · exact ((hset _).trans (.ite (mirror_presented _ _).othersKept (.refl _))).trans (presentTarget_presented _ _ _).othersKept
  · exact ((hset _).trans (srcEvent_othersKept hn _ t)).trans (presentTarget_presented _ _ _).othersKept

end

/-- A health counter raises source 736 (R486). -/
theorem countOne_othersKept (s : State) (t code idx m : Nat) {n : Nat} (hn : n < 32) :
    OthersKept 736 s (countOne s t code idx m n) := by
  have hval : 0x10380 ≤ regOff .hltCntVal n 0 := by
    simp only [regOff, regRow]
    omega
  have hcount (v : W32) (x : Service) : OthersKept 736 s { s.setReg .hltCntVal v n with service := x } :=
    .of_beyond fun _ hoff => kget_setReg_ne s v (by omega)
  have halarm (u : State) (bits : Nat) : OthersKept 736 u (u.raise t .hltAlarm bits) :=
    .of_beyond fun _ hoff => kget_raise_ne u t bits (by simp only [regOff, regRow]; omega)
  unfold countOne
  exact .ite (.ite (((hcount _ _).trans (halarm _ _)).trans (pulse_othersKept (by decide) _ t)) (hcount _ _)) (.refl s)

theorem countEvent_othersKept (s : State) (t code idx : Nat) : OthersKept 736 s (countEvent s t code idx) := by
  rw [countEvent, countEvents, if_neg (by decide)]
  exact List.foldlRecOn _ _ (.refl s) fun u h n hn => h.trans (countOne_othersKept u t code idx 1 (List.mem_range.mp hn))

/-! ### The claim (R239, R248) -/

/-- The source goes into service. -/
theorem takeShared_insvc (s : State) (n t : Nat) : (takeShared s n t).bit .orlInsvc (n % 32) (n / 32) = true := by
  have hset : (s.setBit .orlInsvc (n % 32) true (n / 32)).bit .orlInsvc (n % 32) (n / 32) = true := by
    rw [bit_setBit_same s .orlInsvc _ true _ 0 (Nat.mod_lt _ (by decide)), if_pos rfl]
  unfold takeShared
  dsimp only
  split
  · exact hset
  · rw [State.bit, reg_setBit_ne]
    · exact hset
    · simp only [regOff, regRow]
      omega

/-- An edge source that hardware does not set in the cycle is pending no longer. -/
theorem takeShared_pend {s : State} {n t : Nat} (hn : n < 1024) (hl : srcIsLevel s n = false)
    (hhw : bitOf (s.hwBits t (regOff .orlPend (n / 32) 0)) (n % 32) = false) :
    (takeShared s n t).bit .orlPend (n % 32) (n / 32) = false := by
  have hcfg : (s.setBit .orlInsvc (n % 32) true (n / 32)).reg .orlCfg n = s.reg .orlCfg n := by
    refine reg_setBit_ne s _ _ ?_
    simp only [regOff, regRow]
    omega
  have hl' : srcIsLevel (s.setBit .orlInsvc (n % 32) true (n / 32)) n = false := by
    rw [srcIsLevel, srcSense, State.fld, hcfg]
    exact hl
  have hhw' : bitOf ((s.setBit .orlInsvc (n % 32) true (n / 32)).hwBits t (regOff .orlPend (n / 32) 0)) (n % 32) = false := hhw
  rw [takeShared, hl', hhw', Bool.or_false, if_neg (by decide), bit_setBit_same _ _ _ _ _ _ (Nat.mod_lt _ (by decide)), if_pos rfl]

theorem takeShared_mem (s : State) (n t : Nat) : (takeShared s n t).mem = s.mem := by
  unfold takeShared
  dsimp only
  split <;> rfl

theorem barClaim_some {s : State} {n p : Nat} (t : Nat) (h : pairTicket s = some (n, p)) :
    barClaim s t = (BitVec.ofNat 32 (p * 2 ^ 16 + n), countEvent (takeShared s n t) t 0x0A 0x100) := by
  simp only [barClaim, h]

theorem barClaim_none {s : State} (t : Nat) (h : pairTicket s = none) : barClaim s t = (0x7FF, countEvent s t 0x0B 0x100) := by
  simp only [barClaim, h]

/-! ### The read of ORL_BCLAIM, after the falling edges of its cycle (R236) -/

theorem fallEdge_mem (s : State) (n f : Nat) : (fallEdge s n f).mem = s.mem := by
  have hpresent (u : State) : (presentTarget u n f).mem = u.mem := (presentTarget_presented u n f).mem
  unfold fallEdge
  dsimp only
  split
  · split
    · rw [hpresent]
      split
      · exact (mirror_presented _ _).mem
      · rfl
    · rfl
  · split
    · rw [hpresent, srcEvent_mem]
      rfl
    · rfl

theorem settleFalls_mem (s : State) (t : Nat) : (settleFalls s t).mem = s.mem := by
  refine List.foldlRecOn (motive := fun u : State => u.mem = s.mem) _ _ rfl fun u h e _ => ?_
  split
  · split
    · exact (fallEdge_mem _ _ _).trans h
    · exact h
  · exact h

theorem toBytesLE_mod (n v : Nat) : toBytesLE n (v % 256 ^ n) = toBytesLE n v := by
  induction n generalizing v with
  | zero => rfl
  | succ n ih =>
    have hlow : BitVec.ofNat 8 (v % 256 ^ (n + 1)) = BitVec.ofNat 8 v := BitVec.eq_of_toNat_eq <| by
      rw [BitVec.toNat_ofNat, BitVec.toNat_ofNat, Nat.pow_succ', Nat.mod_mul_right_mod]
    have hhigh : v % 256 ^ (n + 1) / 256 = v / 256 % 256 ^ n := by rw [Nat.pow_succ', Nat.mod_mul_right_div_self]
    rw [toBytesLE, toBytesLE, hlow, hhigh, ih]

/-- What the pair's claim leaves, and the answer it gets. -/
def claimed (r : State) (t : Nat) : State :=
  let x := barClaim (settleFalls r t) t
  x.2.answer .barista (toBytesLE 4 x.1.toNat) false

theorem exec_baristaClaim {s r : State} {t : Nat} (hr : runsAt s t r) : exec (.baristaClaim t) s = .next (claimed r t) := by
  refine congrArg Host.Outcome.next ((awake_runs hr _).trans ?_)
  have hlook : lookupReg (regOff .orlBclaim 0 0) = some (.orlBclaim, 0, 0) := by decide
  simp only [regGet, busRead, hlook]
  rfl

theorem claimed_mem (r : State) (t : Nat) : (claimed r t).mem = r.mem := by
  refine Eq.trans ?_ (settleFalls_mem r t)
  change (barClaim (settleFalls r t) t).2.mem = _
  cases h : pairTicket (settleFalls r t) with
  | none =>
    rw [barClaim_none t h]
    exact (countEvent_countsOnly _ _ _ _).mem
  | some x =>
    rw [barClaim_some t h]
    exact (countEvent_countsOnly _ _ _ _).mem.trans (takeShared_mem _ _ _)

theorem claimed_resp (r : State) (t : Nat) :
    kget (claimed r t).resps 0 = some ⟨toBytesLE 4 (barClaim (settleFalls r t) t).1.toNat, false⟩ := kget_kput_same _ _ _

section
variable {r : State} {t : Nat}

/-- With no ticket the pair reads 2047, and the in-service words stay. -/
theorem claimed_none (h : pairTicket (settleFalls r t) = none) :
    kget (claimed r t).resps 0 = some ⟨toBytesLE 4 2047, false⟩ ∧
      ∀ i < 32, (claimed r t).reg .orlInsvc i = (settleFalls r t).reg .orlInsvc i := by
  rw [claimed_resp, claimed, barClaim_none t h]
  exact ⟨rfl, (countEvent_othersKept _ t _ _).insvc⟩

/-- A ticket is read with its priority; it goes into service and is pending no longer. -/
theorem claimed_some {n p : Nat} (h : pairTicket (settleFalls r t) = some (n, p)) :
    kget (claimed r t).resps 0 = some ⟨toBytesLE 4 (p * 2 ^ 16 + n), false⟩ ∧
      (claimed r t).bit .orlInsvc (n % 32) (n / 32) = true ∧
      (srcIsLevel (settleFalls r t) n = false →
        bitOf ((settleFalls r t).hwBits t (regOff .orlPend (n / 32) 0)) (n % 32) = false → n ≠ 736 →
        (claimed r t).bit .orlPend (n % 32) (n / 32) = false) := by
  have hn := pairTicket_lt h
  obtain ⟨hpend, hinsvc⟩ := countEvent_othersKept (takeShared (settleFalls r t) n t) t 0x0A 0x100
  rw [claimed_resp, claimed, barClaim_some t h]
  refine ⟨?_, ?_, fun hl hhw hne => ?_⟩
  · rw [BitVec.toNat_ofNat, show 2 ^ 32 = 256 ^ 4 from rfl, toBytesLE_mod]
  · exact (congrArg (fun w : W32 => bitOf w.toNat (n % 32)) (hinsvc (n / 32) (by omega))).trans (takeShared_insvc _ n t)
  · exact (hpend n hn hne).trans (takeShared_pend hn hl hhw)

end

end Sys2Proof.Machine

namespace Sys2Proof.Proofs

open Sys2Proof.Machine

/-- Settles O10: the claim with a ticket (`claimed_some`) and without one (`claimed_none`); the best ticket by `bestTicket_cases`. -/
theorem baristaClaim : Obligations.BaristaClaim := by
  unfold Obligations.BaristaClaim
  refine ⟨fun s r t hr => ?_, fun level l => ?_⟩
  · refine ⟨_, exec_baristaClaim hr, claimed_mem r t, ?_⟩
    cases h : pairTicket (settleFalls r t) with
    | none => exact claimed_none h
    | some x => exact claimed_some h
  · obtain ⟨hbest, habove⟩ | ⟨x, hx, hbest, hfirst⟩ := bestTicket_cases level l
    · rw [hbest]
      intro y hy hrank
      have hmem : y ∈ ticketsAbove level l := mem_ticketsAbove.mpr ⟨hy, hrank⟩
      rw [habove] at hmem
      cases hmem
    · rw [hbest]
      obtain ⟨hxl, hrank⟩ := mem_ticketsAbove.mp hx
      exact ⟨hxl, hrank, fun y hy hyrank => hfirst y (mem_ticketsAbove.mpr ⟨hy, hyrank⟩)⟩

end Sys2Proof.Proofs
end

section
/-! SUPPORT. The control and status words of the timer channels, and what the operations on a channel can change (R258 to R270). -/

namespace Sys2Proof.Machine

/-! ### Where the words of a channel stand: those of the cores' own channels follow those of the shared ones -/

/-- The offset of the control word of channel n (TMR_CTLn, TMR_PCTLpi). -/
def ctlOff (n : Nat) : Nat := 0x21000 + 0x20 * n

/-- The offset of its status word (TMR_STATn, TMR_PSTATpi). -/
def statOff (n : Nat) : Nat := 0x2100C + 0x20 * n

theorem regOff_tmrCtl (n : Nat) : regOff .tmrCtl n 0 = ctlOff n := by simp [regOff, regRow, ctlOff]
theorem regOff_tmrStat (n : Nat) : regOff .tmrStat n 0 = statOff n := by simp [regOff, regRow, statOff]

theorem regOff_tmrPctl {n : Nat} (hn : ¬ n < 128) : regOff .tmrPctl (n - 128) 0 = ctlOff n := by
  simp only [regOff, regRow, ctlOff]
  omega

theorem regOff_tmrPstat {n : Nat} (hn : ¬ n < 128) : regOff .tmrPstat (n - 128) 0 = statOff n := by
  simp only [regOff, regRow, statOff]
  omega

theorem chanCtl_eq (s : State) (n : Nat) : chanCtl s n = (kget s.regs (ctlOff n)).getD 0 := by
  unfold chanCtl
  split
  · rw [State.reg, regOff_tmrCtl]
    rfl
  · next hn =>
    rw [State.reg, regOff_tmrPctl hn]
    rfl

theorem chanStat_eq (s : State) (n : Nat) : chanStat s n = (kget s.regs (statOff n)).getD 0 := by
  unfold chanStat
  split
  · rw [State.reg, regOff_tmrStat]
    rfl
  · next hn =>
    rw [State.reg, regOff_tmrPstat hn]
    rfl

theorem setChanCtl_eq (s : State) (n : Nat) (v : W32) : setChanCtl s n v = { s with regs := kput s.regs (ctlOff n) v } := by
  unfold setChanCtl
  split
  · rw [State.setReg, regOff_tmrCtl]
  · next hn => rw [State.setReg, regOff_tmrPctl hn]

theorem setAtOnce_eq (s : State) (n : Nat) (v : Bool) :
    setAtOnce s n v = { s with regs := kput s.regs (statOff n) (withField (chanStat s n) 2 2 (ofBool v)) } := by
  unfold setAtOnce chanStat
  split
  · rw [State.setBit, State.setFld, State.setReg, regOff_tmrStat]
  · next hn => rw [State.setBit, State.setFld, State.setReg, regOff_tmrPstat hn]

/-- Raising bits of a status word writes that word, and notes the bits of the cycle (R9). -/
theorem raiseStat_eq (s : State) (n t bits : Nat) : ∃ hw, raiseStat s n t bits =
    { s with regs := kput s.regs (statOff n) (BitVec.ofNat 32 ((chanStat s n).toNat ||| bits)), hwSet := hw } := by
  unfold raiseStat chanStat
  split
  · rw [← regOff_tmrStat]
    exact ⟨_, rfl⟩
  · next hn =>
    rw [← regOff_tmrPstat hn]
    exact ⟨_, rfl⟩

/-! ### What reads after what is written -/

theorem chanCtl_of_kget {s t : State} {n : Nat} (h : kget t.regs (ctlOff n) = kget s.regs (ctlOff n)) : chanCtl t n = chanCtl s n := by
  rw [chanCtl_eq, chanCtl_eq, h]

theorem chanStat_of_kget {s t : State} {n : Nat} (h : kget t.regs (statOff n) = kget s.regs (statOff n)) :
    chanStat t n = chanStat s n := by
  rw [chanStat_eq, chanStat_eq, h]

theorem chan_congr {s t : State} (h : t.chans = s.chans) (n : Nat) : t.chan n = s.chan n := by rw [State.chan, h, State.chan]

section
variable (s : State) (n : Nat)

@[simp] theorem chan_setChan_same (c : Chan) : (s.setChan n c).chan n = c := by
  simp [State.chan, State.setChan]

theorem chan_setChan_ne {m : Nat} (c : Chan) (h : m ≠ n) : (s.setChan n c).chan m = s.chan m := by
  simp [State.chan, State.setChan, h]

@[simp] theorem chanCtl_setChanCtl_same (v : W32) : chanCtl (setChanCtl s n v) n = v := by
  rw [setChanCtl_eq, chanCtl_eq, kget_kput_same]
  rfl

@[simp] theorem setChanCtl_chans (v : W32) : (setChanCtl s n v).chans = s.chans := by rw [setChanCtl_eq]
@[simp] theorem chan_setChanCtl (v : W32) (m : Nat) : (setChanCtl s n v).chan m = s.chan m := chan_congr (setChanCtl_chans s n v) m

@[simp] theorem chanStat_setChanCtl (v : W32) : chanStat (setChanCtl s n v) n = chanStat s n := by
  rw [setChanCtl_eq]
  exact chanStat_of_kget (kget_kput_ne _ _ (by simp only [statOff, ctlOff]; omega))

@[simp] theorem chanStat_setAtOnce (v : Bool) : chanStat (setAtOnce s n v) n = withField (chanStat s n) 2 2 (ofBool v) := by
  rw [setAtOnce_eq, chanStat_eq, kget_kput_same]
  rfl

@[simp] theorem chanCtl_setAtOnce (v : Bool) : chanCtl (setAtOnce s n v) n = chanCtl s n := by
  rw [setAtOnce_eq]
  exact chanCtl_of_kget (kget_kput_ne _ _ (by simp only [statOff, ctlOff]; omega))

@[simp] theorem chan_setAtOnce (v : Bool) (m : Nat) : (setAtOnce s n v).chan m = s.chan m := by
  rw [setAtOnce_eq]
  rfl

@[simp] theorem chanStat_raiseStat (t bits : Nat) :
    chanStat (raiseStat s n t bits) n = BitVec.ofNat 32 ((chanStat s n).toNat ||| bits) := by
  obtain ⟨hw, h⟩ := raiseStat_eq s n t bits
  rw [h, chanStat_eq, kget_kput_same]
  rfl

@[simp] theorem chanCtl_raiseStat (t bits : Nat) : chanCtl (raiseStat s n t bits) n = chanCtl s n := by
  obtain ⟨hw, h⟩ := raiseStat_eq s n t bits
  rw [h]
  exact chanCtl_of_kget (kget_kput_ne _ _ (by simp only [statOff, ctlOff]; omega))

@[simp] theorem chan_raiseStat (t bits m : Nat) : (raiseStat s n t bits).chan m = s.chan m := by
  obtain ⟨hw, h⟩ := raiseStat_eq s n t bits
  rw [h]
  rfl

end

/-! ### What changes of the timers alone -/

namespace TimersOnly

variable {l : List Nat} {s t u : State}

theorem refl (l : List Nat) (s : State) : TimersOnly l s s := ⟨rfl, fun _ _ _ => ⟨rfl, rfl⟩, fun _ _ _ _ => rfl, fun _ => rfl⟩

theorem trans (h : TimersOnly l s t) (k : TimersOnly l t u) : TimersOnly l s u where
  eq := by
    have hk := k.eq
    rw [h.eq] at hk
    exact hk
  chan n hn hl := ⟨(k.chan n hn hl).1.trans (h.chan n hn hl).1, (k.chan n hn hl).2.trans (h.chan n hn hl).2⟩
  regs off h1 h2 h3 := (k.regs off h1 h2 h3).trans (h.regs off h1 h2 h3)
  core w := (h.core w).trans (k.core w)

theorem ite {c : Prop} [Decidable c] (h : TimersOnly l s t) (k : TimersOnly l s u) : TimersOnly l s (if c then t else u) := by
  split <;> assumption

/-- The note of a bus write alone. -/
theorem of_note (s : State) (x : Nat × List (Nat × W32)) (l : List Nat) : TimersOnly l s { s with regWas := x } :=
  ⟨rfl, fun _ _ _ => ⟨rfl, rfl⟩, fun _ _ _ _ => rfl, fun w => by cases w <;> rfl⟩

/-- A change of one channel, its two words and the notes on registers. -/
theorem of_words {n : Nat} (hn : n < 264)
    (heq : t = { s with regs := t.regs, hwSet := t.hwSet, regWas := t.regWas, chans := t.chans })
    (hchan : ∀ m ≠ n, t.chan m = s.chan m)
    (hregs : ∀ off, off ≠ ctlOff n → off ≠ statOff n → kget t.regs off = kget s.regs off) : TimersOnly [n] s t where
  eq := by rw [heq]
  chan m _ hm := by
    have hne : m ≠ n := fun e => hm (by rw [e]; exact List.mem_singleton_self n)
    exact ⟨hchan m hne, chanCtl_of_kget (hregs _ (by simp only [ctlOff]; omega) (by simp only [ctlOff, statOff]; omega))⟩
  regs off h1 _ _ := hregs off (by simp only [ctlOff]; omega) (by simp only [statOff]; omega)
  core w := by
    rw [heq]
    cases w <;> rfl

end TimersOnly

section
variable (s : State) {n : Nat} (hn : n < 264)
include hn

theorem setChan_timersOnly (c : Chan) : TimersOnly [n] s (s.setChan n c) :=
  .of_words hn rfl (fun _ h => chan_setChan_ne s n c h) fun _ _ _ => rfl

theorem setChanCtl_timersOnly (v : W32) : TimersOnly [n] s (setChanCtl s n v) := by
  rw [setChanCtl_eq]
  exact .of_words hn rfl (fun _ _ => rfl) fun _ h _ => kget_kput_ne _ _ h

theorem setAtOnce_timersOnly (v : Bool) : TimersOnly [n] s (setAtOnce s n v) := by
  rw [setAtOnce_eq]
  exact .of_words hn rfl (fun _ _ => rfl) fun _ _ h => kget_kput_ne _ _ h

theorem raiseStat_timersOnly (t bits : Nat) : TimersOnly [n] s (raiseStat s n t bits) := by
  obtain ⟨hw, h⟩ := raiseStat_eq s n t bits
  rw [h]
  exact .of_words hn rfl (fun _ _ => rfl) fun _ _ h => kget_kput_ne _ _ h

end

/-! ### What a pin action and a pulse of the source leave of the channels (R265, R270) -/

/-- From s to t only what a channel's pin action and the pulse of its source write changed: the pins, the rail's sources and pending
words, and the entries of the cores. -/
structure PulseOnly (s t : State) : Prop where
  eq : t = { s with
    srcs := t.srcs, regs := t.regs, hwSet := t.hwSet, cores := t.cores, baristas := t.baristas, msixPend := t.msixPend
    msixOut := t.msixOut, privSpan := t.privSpan, tpHist := t.tpHist, pinActs := t.pinActs }
  regs : ∀ off, ¬ (0x20100 ≤ off ∧ off < 0x20108) → ¬ (0x10200 ≤ off ∧ off < 0x10280) → ¬ (0x12004 ≤ off ∧ off < 0x13200) →
    kget t.regs off = kget s.regs off
  core : ∀ w, PresentOnly (s.core w) (t.core w)

namespace PulseOnly

variable {s t u : State}

theorem refl (s : State) : PulseOnly s s := ⟨rfl, fun _ _ _ _ => rfl, fun _ => rfl⟩

theorem trans (h : PulseOnly s t) (k : PulseOnly t u) : PulseOnly s u where
  eq := by
    have hk := k.eq
    rw [h.eq] at hk
    exact hk
  regs off h1 h2 h3 := (k.regs off h1 h2 h3).trans (h.regs off h1 h2 h3)
  core w := (h.core w).trans (k.core w)

theorem ite {c : Prop} [Decidable c] (h : PulseOnly s t) (k : PulseOnly s u) : PulseOnly s (if c then t else u) := by
  split <;> assumption

theorem of_rail (h : RailOnly s t) : PulseOnly s t where
  eq := by rw [h.eq]
  regs off _ hpend _ := h.regs off hpend
  core := h.core

theorem chan (h : PulseOnly s t) (n : Nat) : t.chan n = s.chan n := chan_congr (congrArg State.chans h.eq :) n

theorem chanCtl (h : PulseOnly s t) (n : Nat) : chanCtl t n = Machine.chanCtl s n :=
  chanCtl_of_kget (h.regs _ (by simp only [ctlOff]; omega) (by simp only [ctlOff]; omega) (by simp only [ctlOff]; omega))

theorem chanStat (h : PulseOnly s t) (n : Nat) : chanStat t n = Machine.chanStat s n :=
  chanStat_of_kget (h.regs _ (by simp only [statOff]; omega) (by simp only [statOff]; omega) (by simp only [statOff]; omega))

theorem timersOnly (h : PulseOnly s t) (l : List Nat) : TimersOnly l s t where
  eq := by rw [h.eq]
  chan n _ _ := ⟨h.chan n, h.chanCtl n⟩
  regs off htimers := h.regs off (by omega)
  core := h.core

end PulseOnly

theorem pinAction_pulseOnly (s : State) (n act : Nat) (ovf : Bool) (t : Nat) : PulseOnly s (pinAction s n act ovf t) := by
  unfold pinAction
  refine .ite (.refl s) ⟨rfl, fun off hpins _ _ => ?_, fun w => by cases w <;> rfl⟩
  have hout : off ≠ regOff .tmrPinOut 0 0 := by simp only [regOff, regRow]; omega
  have hdir : off ≠ regOff .tmrPinDir 0 0 := by simp only [regOff, regRow]; omega
  exact (kget_setReg_ne _ _ hdir).trans (kget_setReg_ne _ _ hout)

theorem privPulse_pulseOnly (s : State) {p : Nat} (n t : Nat) (hp : p < 68) : PulseOnly s (privPulse s p n t) := by
  have hspan : PulseOnly s { s with privSpan := kput s.privSpan (32 * p + n) t } :=
    ⟨rfl, fun _ _ _ _ => rfl, fun w => by cases w <;> rfl⟩
  have hraise (u : State) : PulseOnly u (u.raise t .orlPpend (2 ^ n) p) := by
    refine ⟨rfl, fun off _ _ hpriv => kget_raise_ne _ _ _ ?_, fun w => by cases w <;> rfl⟩
    simp only [regOff, regRow]
    omega
  exact .ite hspan ((hspan.trans (hraise _)).trans (.of_rail (presentCore_railOnly _ _ _)))

theorem chanPulse_pulseOnly (s : State) {n : Nat} (t : Nat) (hn : n < 264) : PulseOnly s (chanPulse s n t) := by
  unfold chanPulse
  split
  · exact .of_rail (pulse_railOnly _ _ (by omega))
  · exact privPulse_pulseOnly _ _ _ (by omega)

end Sys2Proof.Machine
end

section
/-! SUPPORT. The end of a cycle for a timer channel: its count, an overflow, a match and what they leave (R258 to R262, R264). -/

namespace Sys2Proof.Machine

theorem chanArmed_eq (s : State) (n : Nat) : chanArmed s n = bitOf (chanCtl s n).toNat 31 := rfl

/-- The arm bit as a write of hardware leaves it. -/
theorem bitOf_withField_arm (w : W32) (b : Bool) : bitOf (withField w 31 31 (ofBool b)).toNat 31 = b := by
  rw [bitOf, testBit_withField (by decide) (by decide), if_pos (by decide)]
  cases b <;> rfl

theorem chanArmed_setChanCtl_arm (s : State) (n : Nat) (w : W32) (b : Bool) :
    chanArmed (setChanCtl s n (withField w 31 31 (ofBool b))) n = b := by
  rw [chanArmed_eq, chanCtl_setChanCtl_same, bitOf_withField_arm]

section
variable (s : State) (n t : Nat)

/-! ### Overflow and match -/

/-- An overflow sets STAT.ovf; the rest is a pin action and a pulse (R262). -/
theorem overflowChan_pulseOnly {n : Nat} (hn : n < 264) : PulseOnly (raiseStat s n t 2) (overflowChan s n t) :=
  .ite ((pinAction_pulseOnly _ n _ true t).trans (chanPulse_pulseOnly _ t hn)) (pinAction_pulseOnly _ n _ true t)

/-- What a match sets before its pin action and its pulse: the channel is armed no longer, STAT.match is set, and at_once tells
which kind of match it was (R261). -/
def matchMarks (once : Bool) : State :=
  setAtOnce (raiseStat (setChanCtl s n (withField (chanCtl s n) 31 31 0)) n t 1) n once

theorem matchChan_pulseOnly {n : Nat} (once : Bool) (hn : n < 264) : PulseOnly (matchMarks s n t once) (matchChan s n t once) :=
  (pinAction_pulseOnly _ n _ false t).trans (chanPulse_pulseOnly _ t hn)

end

section
variable (s : State) {n : Nat} (t : Nat) (hn : n < 264)
include hn

theorem overflowChan_timersOnly : TimersOnly [n] s (overflowChan s n t) :=
  (raiseStat_timersOnly s hn t 2).trans ((overflowChan_pulseOnly s t hn).timersOnly [n])

theorem chan_overflowChan (m : Nat) : (overflowChan s n t).chan m = s.chan m := by
  rw [(overflowChan_pulseOnly s t hn).chan, chan_raiseStat]

theorem chanCtl_overflowChan : chanCtl (overflowChan s n t) n = chanCtl s n := by
  rw [(overflowChan_pulseOnly s t hn).chanCtl, chanCtl_raiseStat]

theorem chanArmed_overflowChan : chanArmed (overflowChan s n t) n = chanArmed s n := by
  rw [chanArmed_eq, chanCtl_overflowChan s t hn, chanArmed_eq]

theorem overflowChan_ovf : bitOf (chanStat (overflowChan s n t) n).toNat 1 = true := by
  rw [(overflowChan_pulseOnly s t hn).chanStat, chanStat_raiseStat, bitOf, testBit_ofNat_word (by decide), Nat.testBit_or]
  exact Bool.or_true _

variable (once : Bool)

theorem matchChan_timersOnly : TimersOnly [n] s (matchChan s n t once) :=
  (((setChanCtl_timersOnly s hn _).trans (raiseStat_timersOnly _ hn t 1)).trans (setAtOnce_timersOnly _ hn once)).trans
    ((matchChan_pulseOnly s t once hn).timersOnly [n])

theorem chan_matchChan (m : Nat) : (matchChan s n t once).chan m = s.chan m := by
  rw [(matchChan_pulseOnly s t once hn).chan, matchMarks, chan_setAtOnce, chan_raiseStat, chan_setChanCtl]

theorem chanArmed_matchChan : chanArmed (matchChan s n t once) n = false := by
  rw [chanArmed_eq, (matchChan_pulseOnly s t once hn).chanCtl, matchMarks, chanCtl_setAtOnce, chanCtl_raiseStat, ← chanArmed_eq]
  exact chanArmed_setChanCtl_arm s n _ false

/-- Each bit of the status word after a match: match is set, at_once is as it is told, and ovf stays. -/
theorem matchChan_stat {b : Nat} (hb : b < 32) : bitOf (chanStat (matchChan s n t once) n).toNat b =
    if b = 2 then once else bitOf (chanStat s n).toNat b || decide (b = 0) := by
  rw [(matchChan_pulseOnly s t once hn).chanStat, matchMarks, chanStat_setAtOnce, chanStat_raiseStat, chanStat_setChanCtl, bitOf,
    testBit_withField (by decide) hb, testBit_ofNat_word hb, Nat.testBit_or]
  by_cases h2 : b = 2
  · subst h2
    cases once <;> rfl
  · have hone : Nat.testBit 1 b = decide (b = 0) := by
      rw [Bool.eq_iff_iff, decide_eq_true_iff]
      exact Nat.testBit_one_eq_true_iff_self_eq_zero
    rw [if_neg (by omega), if_neg h2, hone]
    rfl

end

/-! ### The end of a cycle -/

/-- The channel with its count brought to the end of cycle t (R258). -/
def countedChan (s : State) (n t : Nat) : Chan :=
  { s.chan n with
    count := chanCount s n t
    base := if chanClk s n = 0 then max (s.chan n).base t else (s.chan n).base
    incAt := none, todo := none }

/-- The count at the end of cycle t, and the overflow if it wraps in it. -/
def wrapped (s : State) (n t : Nat) : State :=
  let u := s.setChan n (countedChan s n t)
  if chanCounts s n t ∧ chanCount s n t = 0 then overflowChan u n t else u

/-- The compare judged after that: at once after an arming or a commit of the cycle, else where the count has reached it. -/
def judged (s : State) (n t : Nat) : State :=
  let c := s.chan n
  let u := wrapped s n t
  if !chanArmed u n then u
  else if c.armAt == some t || c.commitAt == some t then (if atOnceMatch c.cmp (chanCount s n t) then matchChan u n t true else u)
  else if chanCounts s n t ∧ chanCount s n t = c.cmp then matchChan u n t false else u

theorem settleChan_eq (s : State) (n t : Nat) : settleChan s n t =
    if (s.chan n).offAt = some t ∧ (s.chan n).armAt ≠ some t then
      setChanCtl (judged s n t) n (withField (chanCtl (judged s n t) n) 31 31 0)
    else judged s n t := rfl

/-- Outside a write of arm = 0, the end of the cycle is the judgement. -/
theorem settleChan_on {s : State} {n t : Nat} (hoff : (s.chan n).offAt ≠ some t) : settleChan s n t = judged s n t := by
  rw [settleChan_eq, if_neg fun h => hoff h.1]

/-- A write of arm = 0 of the cycle ends the counting, unless the cycle armed the channel (R264). -/
theorem chanArmed_settleChan_off {s : State} {n t : Nat} (hoff : (s.chan n).offAt = some t) (harm : (s.chan n).armAt ≠ some t) :
    chanArmed (settleChan s n t) n = false := by
  rw [settleChan_eq, if_pos ⟨hoff, harm⟩]
  exact chanArmed_setChanCtl_arm _ n _ false

section
variable (s : State) {n : Nat} (t : Nat) (hn : n < 264)
include hn

theorem wrapped_timersOnly : TimersOnly [n] s (wrapped s n t) :=
  (setChan_timersOnly s hn _).trans (.ite (overflowChan_timersOnly _ t hn) (.refl _ _))

theorem chan_wrapped : (wrapped s n t).chan n = countedChan s n t := by
  unfold wrapped
  dsimp only
  split
  · rw [chan_overflowChan _ t hn, chan_setChan_same]
  · exact chan_setChan_same s n _

theorem chanArmed_wrapped : chanArmed (wrapped s n t) n = chanArmed s n := by
  unfold wrapped
  dsimp only
  split
  · exact chanArmed_overflowChan _ t hn
  · rfl

theorem judged_timersOnly : TimersOnly [n] s (judged s n t) := by
  have hmatch (once : Bool) := matchChan_timersOnly (wrapped s n t) t hn once
  exact (wrapped_timersOnly s t hn).trans (.ite (.refl _ _) (.ite (.ite (hmatch true) (.refl _ _)) (.ite (hmatch false) (.refl _ _))))

theorem chan_judged : (judged s n t).chan n = countedChan s n t := by
  have hmatch (once : Bool) : (matchChan (wrapped s n t) n t once).chan n = countedChan s n t :=
    (chan_matchChan _ t hn once n).trans (chan_wrapped s t hn)
  unfold judged
  dsimp only
  split
  · exact chan_wrapped s t hn
  · split
    · split
      · exact hmatch true
      · exact chan_wrapped s t hn
    · split
      · exact hmatch false
      · exact chan_wrapped s t hn

theorem settleChan_timersOnly : TimersOnly [n] s (settleChan s n t) :=
  (judged_timersOnly s t hn).trans (.ite (setChanCtl_timersOnly _ hn _) (.refl _ _))

/-- The count at the end of the cycle is the one of R258, whatever else the end of the cycle brings. -/
theorem count_settleChan : ((settleChan s n t).chan n).count = chanCount s n t := by
  have h : (settleChan s n t).chan n = countedChan s n t := by
    rw [settleChan_eq]
    split
    · rw [chan_setChanCtl, chan_judged s t hn]
    · exact chan_judged s t hn
  rw [h]
  rfl

end

section
variable {s : State} {n t : Nat} (hn : n < 264) (harmed : chanArmed s n = true)
include hn harmed

/-- The compare of an armed channel is met at the end of a cycle that neither arms it nor commits. -/
theorem judged_met (harm : (s.chan n).armAt ≠ some t) (hcommit : (s.chan n).commitAt ≠ some t)
    (hup : chanCounts s n t = true) (hv : chanCount s n t = (s.chan n).cmp) :
    judged s n t = matchChan (wrapped s n t) n t false := by
  simp [judged, chanArmed_wrapped s t hn, harmed, harm, hcommit, hup, hv]

/-- It is not met. -/
theorem judged_unmet (harm : (s.chan n).armAt ≠ some t) (hcommit : (s.chan n).commitAt ≠ some t)
    (hv : chanCount s n t ≠ (s.chan n).cmp) : judged s n t = wrapped s n t := by
  simp [judged, chanArmed_wrapped s t hn, harmed, harm, hcommit, hv]

/-- In the cycle of an arming the compare is judged at once (R260). -/
theorem judged_arming (harm : (s.chan n).armAt = some t) :
    judged s n t = if atOnceMatch (s.chan n).cmp (chanCount s n t) then matchChan (wrapped s n t) n t true else wrapped s n t := by
  simp [judged, chanArmed_wrapped s t hn, harmed, harm]

end

end Sys2Proof.Machine
end

section
/-! PROOF. CHANNEL_MATCH, CHANNEL_OVERFLOW and PIN_EDGE_CLOCK: what the end of a cycle and a pin edge make of a channel (R258,
R260 to R262). -/

namespace Sys2Proof.Machine

/-! ### The end of a cycle -/

section
variable {s r : State} {t : Nat} (hr : runsAt s t r)
include hr

theorem exec_channelMatch (n : Nat) : exec (.channelMatch t n) s = .next (if n < 264 then settleChan r n t else r) :=
  congrArg Host.Outcome.next (awake_runs hr _)

theorem exec_channelOverflow (n : Nat) : exec (.channelOverflow t n) s = .next (if n < 264 then settleChan r n t else r) :=
  congrArg Host.Outcome.next (awake_runs hr _)

end

/-- The count wraps: STAT.ovf is set. -/
theorem wrapped_ovf {r : State} {n t : Nat} (hn : n < 264) (hup : chanCounts r n t = true) (hv : chanCount r n t = 0) :
    bitOf (chanStat (wrapped r n t) n).toNat 1 = true := by
  simp only [wrapped, hup, hv, and_self, if_true]
  exact overflowChan_ovf _ t hn

section
variable {r : State} {n t : Nat} (hn : n < 264) (harmed : chanArmed r n = true) (hcommit : (r.chan n).commitAt ≠ some t)
  (hoff : (r.chan n).offAt ≠ some t)
include hn harmed hoff

/-- In the cycle of an arming a compare that is met at once stops the channel, and any other leaves it armed (R260). -/
theorem settleChan_arming (harm : (r.chan n).armAt = some t) :
    chanArmed (settleChan r n t) n = !atOnceMatch (r.chan n).cmp (chanCount r n t) ∧
      (atOnceMatch (r.chan n).cmp (chanCount r n t) = true → bitOf (chanStat (settleChan r n t) n).toNat 0 = true ∧
        bitOf (chanStat (settleChan r n t) n).toNat 2 = true) := by
  rw [settleChan_on hoff, judged_arming hn harmed harm]
  cases atOnceMatch (r.chan n).cmp (chanCount r n t) with
  | false => exact ⟨(chanArmed_wrapped r t hn).trans harmed, nofun⟩
  | true =>
    refine ⟨chanArmed_matchChan _ t hn true, fun _ => ⟨?_, matchChan_stat _ t hn true (by decide)⟩⟩
    exact (matchChan_stat _ t hn true (by decide)).trans (Bool.or_true _)

include hcommit

/-- The count reaches the compare: the channel stops, with STAT.match set and at_once clear (R261). -/
theorem settleChan_match (harm : (r.chan n).armAt ≠ some t) (hup : chanCounts r n t = true) (hv : chanCount r n t = (r.chan n).cmp) :
    chanArmed (settleChan r n t) n = false ∧ bitOf (chanStat (settleChan r n t) n).toNat 0 = true ∧
      bitOf (chanStat (settleChan r n t) n).toNat 2 = false := by
  rw [settleChan_on hoff, judged_met hn harmed harm hcommit hup hv]
  refine ⟨chanArmed_matchChan _ t hn false, ?_, matchChan_stat _ t hn false (by decide)⟩
  exact (matchChan_stat _ t hn false (by decide)).trans (Bool.or_true _)

/-- The count wraps: STAT.ovf is set, and the channel stops only if its compare is 0 too (R262). -/
theorem settleChan_overflow (harm : (r.chan n).armAt ≠ some t) (hup : chanCounts r n t = true) (hv : chanCount r n t = 0) :
    chanArmed (settleChan r n t) n = decide ((r.chan n).cmp ≠ 0) ∧ bitOf (chanStat (settleChan r n t) n).toNat 1 = true := by
  have hovf := wrapped_ovf hn hup hv
  rw [settleChan_on hoff]
  by_cases hcmp : (r.chan n).cmp = 0
  · rw [judged_met hn harmed harm hcommit hup (hv.trans hcmp.symm), decide_eq_false (not_not_intro hcmp)]
    refine ⟨chanArmed_matchChan _ t hn false, (matchChan_stat _ t hn false (by decide)).trans ?_⟩
    rw [if_neg (by decide), hovf, Bool.true_or]
  · rw [judged_unmet hn harmed harm hcommit (fun h => hcmp (h.symm.trans hv)), decide_eq_true hcmp]
    exact ⟨(chanArmed_wrapped r t hn).trans harmed, hovf⟩

end

/-! ### A pin edge (R258) -/

/-- A channel that counts the edges of a pin and is neither armed nor reclocked in cycle t. -/
def countsEdge (s : State) (pin t n : Nat) : Prop :=
  n < 128 ∧ fieldOf (chanCtl s n) 22 18 = pin ∧ chanArmed s n = true ∧ chanClk s n = 2 ∧
    (s.chan n).armAt ≠ some t ∧ (s.chan n).base ≠ t

/-- The channel with an increment to come in cycle t. -/
def steppedChan (c : Chan) (t : Nat) : Chan := { c with incAt := some t, todo := some t }

/-- The edge at one channel. -/
def edgeStep (pin t : Nat) (s : State) (n : Nat) : State :=
  if n < 128 ∧ fieldOf (chanCtl s n) 22 18 = pin then stepChan s n 2 t else s

theorem edgeStep_counts {s : State} {pin t n : Nat} (h : countsEdge s pin t n) :
    edgeStep pin t s n = s.setChan n (steppedChan (s.chan n) t) := by
  obtain ⟨hn, hpin, hstep⟩ := h
  exact (if_pos ⟨hn, hpin⟩).trans (if_pos hstep)

theorem edgeStep_stays {s : State} {pin t n : Nat} (h : ¬ countsEdge s pin t n) : edgeStep pin t s n = s := by
  unfold edgeStep
  split
  · next hpin => exact if_neg fun hstep => h ⟨hpin.1, hpin.2, hstep⟩
  · rfl

/-- From s to u the channels of a list that count the edge are to count one, and nothing else changed. -/
structure EdgeTaken (pin t : Nat) (l : List Nat) (s u : State) : Prop where
  eq : u = { s with chans := u.chans }
  steps : ∀ n ∈ l, countsEdge s pin t n → u.chan n = steppedChan (s.chan n) t
  stays : ∀ n, n ∉ l ∨ ¬ countsEdge s pin t n → u.chan n = s.chan n

/-- Whether a channel counts the edge does not change with its increment, so a second step of the same channel changes nothing. -/
theorem countsEdge_setChan {s : State} {pin t m n : Nat} :
    countsEdge (s.setChan m (steppedChan (s.chan m) t)) pin t n ↔ countsEdge s pin t n := by
  by_cases hm : n = m
  · subst hm
    simp only [countsEdge, chan_setChan_same]
    exact Iff.rfl
  · simp only [countsEdge, chan_setChan_ne s m _ hm]
    exact Iff.rfl

theorem foldl_edgeStep_taken (pin t : Nat) (l : List Nat) (s : State) : EdgeTaken pin t l s (l.foldl (edgeStep pin t) s) := by
  induction l generalizing s with
  | nil => exact ⟨rfl, fun n hn => absurd hn List.not_mem_nil, fun _ _ => rfl⟩
  | cons m l ih =>
    rw [List.foldl_cons]
    by_cases hm : countsEdge s pin t m
    · rw [edgeStep_counts hm]
      obtain ⟨heq, hsteps, hstays⟩ := ih (s.setChan m (steppedChan (s.chan m) t))
      generalize l.foldl (edgeStep pin t) (s.setChan m (steppedChan (s.chan m) t)) = u at heq hsteps hstays
      have hsame (n : Nat) (hn : countsEdge s pin t n) (hnm : n = m ∨ n ∈ l) : u.chan n = steppedChan (s.chan n) t := by
        by_cases hnl : n ∈ l
        · rw [hsteps n hnl (countsEdge_setChan.mpr hn)]
          by_cases he : n = m
          · rw [he, chan_setChan_same]
            rfl
          · rw [chan_setChan_ne s m _ he]
        · rw [hstays n (.inl hnl), hnm.resolve_right hnl, chan_setChan_same]
      refine ⟨heq, fun n hn hc => hsame n hc (List.mem_cons.mp hn), fun n hn => ?_⟩
      have hne : n ≠ m := fun e => hn.elim (fun h => h (by simp [e])) fun h => h (e ▸ hm)
      rw [hstays n (hn.imp (fun h hl => h (List.mem_cons_of_mem m hl)) fun h hc => h (countsEdge_setChan.mp hc)),
        chan_setChan_ne s m _ hne]
    · rw [edgeStep_stays hm]
      obtain ⟨heq, hsteps, hstays⟩ := ih s
      refine ⟨heq, fun n hn hc => hsteps n ?_ hc, fun n hn => hstays n (hn.imp_left fun h hl => h (List.mem_cons_of_mem m hl))⟩
      exact (List.mem_cons.mp hn).resolve_left fun e => hm (e ▸ hc)

section
variable {s r : State} {t : Nat} (hr : runsAt s t r)
include hr

theorem exec_pinEdgeClock {pin : Nat} (hpin : pin < 32) (hland : landOpen r 14 (7 + pin) = false) :
    exec (.pinEdgeClock t pin) s = .next ((writtenChans r).foldl (edgeStep pin t) (landLevel r pin true t)) :=
  congrArg Host.Outcome.next ((awake_runs hr _).trans ((upTo_lt hpin _ _).trans (if_neg (by rw [hland]; decide))))

/-- An open land, or none, gives no edge. -/
theorem exec_pinEdgeClock_open {pin : Nat} (h : 32 ≤ pin ∨ landOpen r 14 (7 + pin) = true) :
    exec (.pinEdgeClock t pin) s = .next r := by
  refine congrArg Host.Outcome.next ((awake_runs hr _).trans ?_)
  by_cases hpin : pin < 32
  · exact (upTo_lt hpin _ _).trans (if_pos (h.resolve_left (by omega)))
  · exact if_neg hpin

end

end Sys2Proof.Machine

namespace Sys2Proof.Proofs

open Sys2Proof.Machine

/-- Settles O4: an overflow and a match by the end of a cycle (`settleChan_match`, `settleChan_overflow`, `settleChan_arming`), and a
pin edge at every channel in turn (`foldl_edgeStep_taken`). -/
theorem channelMatchOverflow : Obligations.ChannelMatchOverflow := by
  unfold Obligations.ChannelMatchOverflow
  refine ⟨fun s r t n hr => ⟨exec_channelMatch hr n, exec_channelOverflow hr n⟩, ?_, ?_⟩
  · intro r t n hn _ harmed hcommit hoff
    have hcount := count_settleChan r t hn
    have honly := settleChan_timersOnly r t hn
    refine ⟨fun harm hup hv _ => ?_, fun harm hup hv => ?_, fun harm _ => ?_⟩
    · obtain ⟨hstop, hmatch, hlate⟩ := settleChan_match hn harmed hcommit hoff harm hup hv
      exact ⟨hstop, hcount.trans hv, hmatch, hlate, honly⟩
    · obtain ⟨hstop, hovf⟩ := settleChan_overflow hn harmed hcommit hoff harm hup hv
      exact ⟨hstop, hcount.trans hv, hovf, honly⟩
    · obtain ⟨hstop, hstat⟩ := settleChan_arming hn harmed hoff harm
      exact ⟨hstop, hcount, hstat, honly⟩
  · intro s r t pin hr
    refine ⟨fun hpin hland => ?_, exec_pinEdgeClock_open hr⟩
    obtain ⟨heq, hsteps, hstays⟩ := foldl_edgeStep_taken pin t (writtenChans r) (landLevel r pin true t)
    refine ⟨_, exec_pinEdgeClock hr hpin hland, hsteps, hstays, ?_⟩
    rw [heq]
    rfl

end Sys2Proof.Proofs
end

section
/-! SUPPORT. Writes of a channel's control word: the fields it takes, an arming and a disarming (R258, R259, R264, R266). -/

namespace Sys2Proof.Machine

/-! ### Legal words -/

/-- A word with no reserved bit or value has a legal value in each field (R13). -/
theorem fieldLegal_of_reservedIn {n : RegName} {i v : Nat} (hn : wordReg n = true)
    (hf : (regRow n).fields.filter (fun f => !fixedField n i f) = (regRow n).fields) (hr : reservedIn n i v = false) :
    ∀ f ∈ (regRow n).fields, fieldLegal f (bitsOf v f.lo (f.hi + 1 - f.lo)) = true := by
  have hl : ∀ f ∈ (regRow n).fields, f.acc = .rw ∨ f.acc = .wo := fun f hm => by simpa using List.all_eq_true.mp hn f hm
  rw [reservedIn, planWrite, hf] at hr
  exact (planFold_legal _ hl _ hr).2

/-- Whether a word is written to the control word of channel n without a reserved bit or value. -/
def ctlReserved (n : Nat) (w : W32) : Bool :=
  if n < 128 then reservedIn .tmrCtl n w.toNat else reservedIn .tmrPctl (n - 128) w.toNat

theorem ctlMask_private {n : Nat} (hn : ¬ n < 128) (w : W32) :
    ctlMask n w = withField (withField w 26 14 0) 28 27 (if 2 ≤ fieldOf w 28 27 then 0 else fieldOf w 28 27) := if_neg hn

theorem testBit_ctlMask_high {b : Nat} (hlo : 29 ≤ b) (hhi : b < 32) (n : Nat) (w : W32) :
    (ctlMask n w).toNat.testBit b = w.toNat.testBit b := by
  unfold ctlMask
  split
  · split
    · rw [testBit_withField (by decide) hhi, if_neg (by omega)]
    · rfl
  · rw [testBit_withField (by decide) hhi, if_neg (by omega), testBit_withField (by decide) hhi, if_neg (by omega)]

/-- The prescaler is taken as it is written. -/
theorem fieldOf_ctlMask_div (n : Nat) (w : W32) : fieldOf (ctlMask n w) 12 0 = fieldOf w 12 0 := by
  unfold ctlMask
  split
  · split
    · exact fieldOf_withField_ne (by decide) (by decide) (by decide) w 0
    · rfl
  · rw [fieldOf_withField_ne (by decide) (by decide) (by decide), fieldOf_withField_ne (by decide) (by decide) (by decide)]

/-- A clock that is not reserved is taken as it is written (R258, R266). -/
theorem fieldOf_ctlMask_clk {n : Nat} {w : W32} (h : ctlReserved n w = false) : fieldOf (ctlMask n w) 28 27 = fieldOf w 28 27 := by
  unfold ctlReserved at h
  split at h
  · next hn =>
    have hlegal := fieldLegal_of_reservedIn (by decide) rfl h ⟨28, 27, .rw, 0, [(0, 2)]⟩ (by simp [regRow])
    have hclk : fieldOf w 28 27 ≤ 2 := by simpa [fieldLegal, fieldOf] using hlegal
    rw [ctlMask, if_pos hn, if_neg (by omega)]
  · next hn =>
    have hlegal := fieldLegal_of_reservedIn (by decide) rfl h ⟨28, 27, .rw, 0, [(0, 1)]⟩ (by simp [regRow])
    have hclk : fieldOf w 28 27 ≤ 1 := by simpa [fieldLegal, fieldOf] using hlegal
    rw [ctlMask_private hn, fieldOf_withField_same (by decide) (by decide), if_neg (by omega)]
    exact Nat.mod_eq_of_lt (by omega)

/-! ### The count -/

/-- A channel that is not armed keeps its count. -/
theorem chanCount_idle {s : State} {n : Nat} (h : chanArmed s n = false) (t : Nat) : chanCount s n t = (s.chan n).count := by
  simp [chanCount, h]

/-- A count that was brought up to the end of the cycle before goes on to the same count (R258). -/
theorem chanCount_resumed {s u : State} {n t : Nat} (hs : chanArmed s n = true) (hu : chanArmed u n = true)
    (hclk : chanClk u n = chanClk s n) (hdiv : chanDiv u n = chanDiv s n) (hcount : (u.chan n).count = chanCount s n (t - 1))
    (hbase : (u.chan n).base = max (s.chan n).base (t - 1)) (hinc : (u.chan n).incAt = (s.chan n).incAt)
    (hprev : (s.chan n).incAt ≠ some (t - 1)) : chanCount u n t = chanCount s n t := by
  by_cases hc : chanClk s n = 0
  · have hspan (d b : Nat) : (t - 1) / d - b / d + (t / d - max b (t - 1) / d) = t / d - b / d := by
      have hnow : (t - 1) / d ≤ t / d := Nat.div_le_div_right (Nat.sub_le t 1)
      rcases Nat.le_total b (t - 1) with hb | hb
      · have := Nat.div_le_div_right (c := d) hb
        rw [Nat.max_eq_right hb]
        omega
      · have := Nat.div_le_div_right (c := d) hb
        rw [Nat.max_eq_left hb]
        omega
    have hcount0 : chanCount s n (t - 1) =
        ((s.chan n).count + ((t - 1) / chanDiv s n - (s.chan n).base / chanDiv s n)) % 2 ^ 48 := by simp [chanCount, hs, hc]
    simp only [chanCount, hs, hu, hclk, hdiv, hbase, hc, hcount.trans hcount0, Bool.not_true, Bool.false_eq_true, if_true, if_false]
    rw [Nat.mod_add_mod, Nat.add_assoc, hspan]
  · have hcount0 : chanCount s n (t - 1) = (s.chan n).count := by simp [chanCount, hs, hc, hprev]
    simp only [chanCount, hs, hu, hclk, hinc, hc, hcount.trans hcount0, Bool.not_true, Bool.false_eq_true, if_false]

/-! ### An arming -/

/-- A channel armed in cycle t with a count. -/
def armedChan (c : Chan) (t load : Nat) : Chan := { c with count := load, base := t, armAt := some t, incAt := none, todo := some t }

section
variable (s : State) (n t load : Nat)

theorem chan_armChan_same : (armChan s n t load).chan n = armedChan (s.chan n) t load := by
  rw [armChan, chan_setChanCtl, chan_setChan_same]
  rfl

theorem chan_armChan_ne {m : Nat} (h : m ≠ n) : (armChan s n t load).chan m = s.chan m := by
  rw [armChan, chan_setChanCtl, chan_setChan_ne _ _ _ h]

theorem chanArmed_armChan : chanArmed (armChan s n t load) n = true := chanArmed_setChanCtl_arm _ n _ true

theorem armChan_timersOnly {n : Nat} (hn : n < 264) : TimersOnly [n] s (armChan s n t load) :=
  (setChan_timersOnly s hn _).trans (setChanCtl_timersOnly _ hn _)

end

/-! ### A write of the control word -/

/-- The channel as a written control word leaves it before its arm bit acts: a new clock or prescaler counts from the next cycle on. -/
def ctlChan (s : State) (n : Nat) (w : W32) (t : Nat) : Chan :=
  let c := s.chan n
  let old := chanCtl s n
  let moved := fieldOf w 28 27 ≠ fieldOf old 28 27 ∨ fieldOf w 12 0 ≠ fieldOf old 12 0
  { c with
    count := if c.armAt = some t then c.count else chanCount s n (t - 1)
    base := if moved then t else max c.base (t - 1)
    incAt := if moved then none else c.incAt }

/-- The state with that channel and the word, its arm bit as it stood. -/
def ctlTaken (s : State) (n : Nat) (w : W32) (t : Nat) : State :=
  setChanCtl (s.setChan n (ctlChan s n w t)) n (withField w 31 31 (ofBool (chanArmed s n)))

theorem chan_ctlTaken (s : State) (n : Nat) (w : W32) (t : Nat) : (ctlTaken s n w t).chan n = ctlChan s n w t := by
  rw [ctlTaken, chan_setChanCtl, chan_setChan_same]

theorem chanArmed_ctlTaken (s : State) (n : Nat) (w : W32) (t : Nat) : chanArmed (ctlTaken s n w t) n = chanArmed s n :=
  chanArmed_setChanCtl_arm _ n w _

theorem fieldOf_ctlTaken (s : State) (n : Nat) (w : W32) (t : Nat) {hi lo : Nat} (h : hi < 31) :
    fieldOf (chanCtl (ctlTaken s n w t) n) hi lo = fieldOf w hi lo := by
  rw [ctlTaken, chanCtl_setChanCtl_same, fieldOf_withField_ne (by decide) (by omega) (.inl h)]

theorem ctlTaken_timersOnly (s : State) {n : Nat} (w : W32) (t : Nat) (hn : n < 264) : TimersOnly [n] s (ctlTaken s n w t) :=
  (setChan_timersOnly s hn _).trans (setChanCtl_timersOnly _ hn _)

/-- A channel whose write of arm = 0 waits for the end of cycle t (R264). -/
def offChan (c : Chan) (t : Nat) : Chan := { c with offAt := some t, todo := some t }

theorem ctlWrite_eq (s : State) (n : Nat) (w : W32) (t : Nat) : ctlWrite s n w t =
    let u := ctlTaken s n (ctlMask n w) t
    if bitOf (ctlMask n w).toNat 31 then
      (if (chanArmed s n && (s.chan n).offAt != some t) = true ∨ (s.chan n).armAt = some t then u else armChan u n t (armLoad u n t))
    else if chanArmed s n ∧ (s.chan n).armAt ≠ some t then u.setChan n (offChan (u.chan n) t)
    else u := rfl

section
variable {s : State} {n t : Nat} {w : W32} (harm : (s.chan n).armAt ≠ some t)
include harm

/-- arm = 1 on a channel that is not armed arms it (R259). -/
theorem ctlWrite_arms (harmed : chanArmed s n = false) (hw : bitOf w.toNat 31 = true) :
    (ctlWrite s n w t).chan n = armedChan (ctlChan s n (ctlMask n w) t) t (if bitOf w.toNat 30 then 0 else (s.chan n).count) ∧
      chanArmed (ctlWrite s n w t) n = true := by
  have h31 : bitOf (ctlMask n w).toNat 31 = true := (testBit_ctlMask_high (by decide) (by decide) n w).trans hw
  have h30 : bitOf (chanCtl (ctlTaken s n (ctlMask n w) t) n).toNat 30 = bitOf w.toNat 30 := by
    rw [ctlTaken, chanCtl_setChanCtl_same, bitOf, testBit_withField (by decide) (by decide), if_neg (by decide)]
    exact testBit_ctlMask_high (by decide) (by decide) n w
  have hcount : chanCount (ctlTaken s n (ctlMask n w) t) n (t - 1) = (s.chan n).count := by
    rw [chanCount_idle ((chanArmed_ctlTaken s n _ t).trans harmed), chan_ctlTaken]
    exact (if_neg harm).trans (chanCount_idle harmed (t - 1))
  rw [ctlWrite_eq]
  dsimp only
  rw [if_pos h31, if_neg (by simp [harmed, harm]), armLoad, h30, hcount, chan_armChan_same, chan_ctlTaken]
  exact ⟨rfl, chanArmed_armChan _ n t _⟩

/-- arm = 0 on an armed channel waits for the end of the cycle (R264). -/
theorem ctlWrite_disarms (harmed : chanArmed s n = true) (hw : bitOf w.toNat 31 = false) : ctlWrite s n w t =
    (ctlTaken s n (ctlMask n w) t).setChan n (offChan (ctlChan s n (ctlMask n w) t) t) := by
  have h31 : ¬ bitOf (ctlMask n w).toNat 31 = true := by
    rw [bitOf, testBit_ctlMask_high (by decide) (by decide), ← bitOf, hw]
    decide
  rw [ctlWrite_eq]
  dsimp only
  rw [if_neg h31, if_pos ⟨harmed, harm⟩, chan_ctlTaken]

end

theorem ctlWrite_timersOnly (s : State) {n : Nat} (w : W32) (t : Nat) (hn : n < 264) : TimersOnly [n] s (ctlWrite s n w t) :=
  (ctlTaken_timersOnly s _ t hn).trans
    (.ite (.ite (.refl _ _) (armChan_timersOnly _ t _ hn)) (.ite (setChan_timersOnly _ hn _) (.refl _ _)))

/-- A write of the control word of channel n with no reserved bit or value. -/
theorem put_ctl (r : State) (ini : Ini) {n : Nat} {w : W32} (t : Nat) (hn : n < 264) (h : ctlReserved n w = false) :
    ∃ l, (if n < 128 then regPut r ini .tmrCtl n w t else regPut r ini .tmrPctl (n - 128) w t) =
      ctlWrite { r with regWas := l } n w t := by
  unfold ctlReserved at h
  split
  · next hshared =>
    rw [if_pos hshared] at h
    exact ⟨_, put_tmrCtl hshared h⟩
  · next hprivate =>
    rw [if_neg hprivate] at h
    have hput := put_tmrPctl (s := r) (ini := ini) (t := t) (i := n - 128) (by omega) h
    rw [Nat.add_sub_cancel' (by omega)] at hput
    exact ⟨_, hput⟩

end Sys2Proof.Machine
end

section
/-! PROOF. CHANNEL_ARM and GROUP_START (R259, R260, R267). -/

namespace Sys2Proof.Machine

/-! ### CHANNEL_ARM -/

/-- The written word of an arming: its arm bit is set, and the other bits stay. -/
theorem bitOf_or_arm (v : W32) (b : Nat) : bitOf (v ||| 0x80000000).toNat b = (decide (b = 31) || bitOf v.toNat b) := by
  rw [BitVec.toNat_or, bitOf, Nat.testBit_or, Bool.or_comm]
  congr 1
  exact (Nat.testBit_two_pow (n := 31)).trans (decide_eq_decide.mpr eq_comm)

section
variable {s r : State} {t : Nat} (hr : runsAt s t r) (ini : Ini)
include hr

theorem exec_channelArm {n : Nat} {v : W32} (hn : n < 264) (hv : ctlReserved n (v ||| 0x80000000) = false) :
    ∃ l, exec (.channelArm t ini n v) s = .next (ctlWrite { r with regWas := l } n (v ||| 0x80000000) t) := by
  obtain ⟨l, h⟩ := put_ctl r ini t hn hv
  exact ⟨l, congrArg Host.Outcome.next ((awake_runs hr _).trans h)⟩

theorem channelArm_completes {n : Nat} {v : W32} (hn : n < 264) (harmed : chanArmed r n = false) (harm : (r.chan n).armAt ≠ some t)
    (hv : ctlReserved n (v ||| 0x80000000) = false) : completes (.channelArm t ini n v) s fun u =>
      (u.chan n).count = (if bitOf v.toNat 30 then 0 else (r.chan n).count) ∧ (u.chan n).cmp = (r.chan n).cmp ∧
      (u.chan n).armAt = some t ∧ (u.chan n).base = t ∧ (u.chan n).todo = some t ∧ chanArmed u n = true ∧ TimersOnly [n] r u := by
  obtain ⟨l, hexec⟩ := exec_channelArm hr ini hn hv
  have h31 : bitOf (v ||| 0x80000000).toNat 31 = true := bitOf_or_arm v 31
  have h30 : bitOf (v ||| 0x80000000).toNat 30 = bitOf v.toNat 30 := bitOf_or_arm v 30
  obtain ⟨hchan, hon⟩ := ctlWrite_arms (s := { r with regWas := l }) harm harmed h31
  refine ⟨_, hexec, ?_⟩
  beta_reduce
  rw [hchan, h30]
  exact ⟨rfl, rfl, rfl, rfl, rfl, hon, (TimersOnly.of_note r l [n]).trans (ctlWrite_timersOnly _ _ t hn)⟩

end

/-! ### GROUP_START -/

/-- A word of one bit starts the group of that bit alone. -/
theorem startGroups_single (s : State) {g : Nat} (t : Nat) (hg : g < 8) :
    startGroups s (BitVec.ofNat 32 (2 ^ g)) t = startGroup s g t := by
  interval_cases g <;> rfl

theorem exec_groupStart {s r : State} {t : Nat} (hr : runsAt s t r) (ini : Ini) {g : Nat} (hg : g < 8) :
    exec (.groupStart t ini (BitVec.ofNat 32 (2 ^ g))) s = .next (startGroup (noted r t .tmrGstart 0) g t) := by
  have hv : ∀ k < 8, reservedIn .tmrGstart 0 (BitVec.ofNat 32 (2 ^ k)).toNat = false := by decide
  exact congrArg Host.Outcome.next ((awake_runs hr _).trans ((put_tmrGstart (hv g hg)).trans (startGroups_single _ t hg)))

theorem groupMembers_nodup (s : State) (g : Nat) : (groupMembers s g).Nodup := List.nodup_range.filter _

/-- From s to u the channels of a list, each with its count, are armed in cycle t, and the others and memory stay. -/
structure AllArmed (t : Nat) (l : List (Nat × Nat)) (s u : State) : Prop where
  arms : ∀ x ∈ l, u.chan x.1 = armedChan (s.chan x.1) t x.2 ∧ chanArmed u x.1 = true
  stays : ∀ n, n ∉ l.map Prod.fst → u.chan n = s.chan n ∧ kget u.regs (ctlOff n) = kget s.regs (ctlOff n)
  mem : u.mem = s.mem

theorem kget_armChan_ne (s : State) {n m : Nat} (t load : Nat) (h : m ≠ n) :
    kget (armChan s n t load).regs (ctlOff m) = kget s.regs (ctlOff m) := by
  rw [armChan, setChanCtl_eq]
  exact kget_kput_ne _ _ (by simp only [ctlOff]; omega)

theorem armChan_mem (s : State) (n t load : Nat) : (armChan s n t load).mem = s.mem := by
  rw [armChan, setChanCtl_eq]
  rfl

theorem foldl_armChan_armed (t : Nat) (l : List (Nat × Nat)) (hl : (l.map Prod.fst).Nodup) (s : State) :
    AllArmed t l s (l.foldl (fun s x => armChan s x.1 t x.2) s) := by
  induction l generalizing s with
  | nil => exact ⟨fun _ h => absurd h List.not_mem_nil, fun _ _ => ⟨rfl, rfl⟩, rfl⟩
  | cons y l ih =>
    obtain ⟨hy, hl⟩ := List.nodup_cons.mp hl
    obtain ⟨harms, hstays, hmem⟩ := ih hl (armChan s y.1 t y.2)
    refine ⟨fun x hx => ?_, fun n hn => ?_, hmem.trans (armChan_mem s y.1 t y.2)⟩
    · rcases List.mem_cons.mp hx with rfl | hx
      · obtain ⟨hchan, hctl⟩ := hstays x.1 hy
        refine ⟨hchan.trans (chan_armChan_same s x.1 t x.2), ?_⟩
        rw [chanArmed_eq, List.foldl_cons, chanCtl_of_kget hctl]
        exact chanArmed_armChan s x.1 t x.2
      · have hne : x.1 ≠ y.1 := fun e => hy (e ▸ List.mem_map_of_mem hx)
        have h := harms x hx
        rw [chan_armChan_ne s y.1 t y.2 hne] at h
        exact h
    · obtain ⟨hny, hnl⟩ := not_or.mp (fun h => hn (List.mem_cons.mpr h))
      obtain ⟨hchan, hctl⟩ := hstays n hnl
      exact ⟨hchan.trans (chan_armChan_ne s y.1 t y.2 hny), hctl.trans (kget_armChan_ne s t y.2 hny)⟩

/-- The members of a group with their counts, by rank. -/
def memberLoads (s : State) (g : Nat) : List (Nat × Nat) :=
  (groupMembers s g).zipIdx.map fun x =>
    (x.1, groupLoad x.2 ((s.reg .tmrGrpStepl g).toNat + 2 ^ 32 * (s.reg .tmrGrpSteph g).toNat))

theorem memberLoads_fst (s : State) (g : Nat) : (memberLoads s g).map Prod.fst = groupMembers s g := by
  rw [memberLoads, List.map_map]
  exact List.zipIdx_map_fst 0 _

/-- A group that has not started in the cycle starts each member with the count of its rank (R267). -/
theorem startGroup_armed (s : State) {g t : Nat} (h : kget s.grpAt g ≠ some t) : AllArmed t (memberLoads s g) s (startGroup s g t) := by
  have hfold := foldl_armChan_armed t (memberLoads s g) (by rw [memberLoads_fst]; exact groupMembers_nodup s g)
    { s with grpAt := kput s.grpAt g t }
  rw [memberLoads, List.foldl_map] at hfold
  rw [startGroup, if_neg h]
  exact ⟨hfold.arms, hfold.stays, hfold.mem⟩

end Sys2Proof.Machine

namespace Sys2Proof.Proofs

open Sys2Proof.Machine

/-- Settles O1: an arming by one channel's control word (`channelArm_completes`), and one of a group's members (`startGroup_armed`). -/
theorem channelArmings : Obligations.ChannelArmings := by
  unfold Obligations.ChannelArmings
  refine ⟨fun s r t ini n v hr hn harmed harm hv => channelArm_completes hr ini hn harmed harm hv, fun s r t ini g hr hg hgrp => ?_⟩
  obtain ⟨harms, hstays, hmem⟩ := startGroup_armed (noted r t .tmrGstart 0) hgrp
  refine ⟨_, exec_groupStart hr ini hg, fun k n hk => ?_, fun n hn => (hstays n ?_).1, hmem⟩
  · obtain ⟨hchan, hon⟩ := harms (n, _) (List.mem_map_of_mem (List.mk_mem_zipIdx_iff_getElem?.mpr hk))
    dsimp only at hchan hon ⊢
    rw [hchan]
    exact ⟨rfl, rfl, rfl, rfl, hon⟩
  · rw [memberLoads_fst]
    exact hn

end Sys2Proof.Proofs
end

section
/-! PROOF. CHANNEL_DISARM, and COMPARE_STAGE and COMPARE_COMMIT of a channel that is not armed (R259, R263, R264). -/

namespace Sys2Proof.Machine

/-! ### CHANNEL_DISARM -/

/-- The written word of a disarming: its arm bit is clear, and the other bits stay. -/
theorem bitOf_and_disarm (v : W32) (b : Nat) : bitOf (v &&& 0x7FFFFFFF).toNat b = (bitOf v.toNat b && decide (b < 31)) := by
  rw [BitVec.toNat_and, bitOf, Nat.testBit_and]
  congr 1
  exact Nat.testBit_two_pow_sub_one 31 b

theorem fieldOf_and_disarm (v : W32) {hi : Nat} (lo : Nat) (h : hi < 31) : fieldOf (v &&& 0x7FFFFFFF) hi lo = fieldOf v hi lo :=
  fieldOf_congr fun b _ hb => (bitOf_and_disarm v b).trans (by rw [decide_eq_true (show b < 31 by omega), Bool.and_true]; rfl)

theorem exec_channelDisarm {s r : State} {t : Nat} (hr : runsAt s t r) (ini : Ini) {n : Nat} {v : W32} (hn : n < 264)
    (hv : ctlReserved n (v &&& 0x7FFFFFFF) = false) :
    ∃ l, exec (.channelDisarm t ini n v) s = .next (ctlWrite { r with regWas := l } n (v &&& 0x7FFFFFFF) t) := by
  obtain ⟨l, h⟩ := put_ctl r ini t hn hv
  exact ⟨l, congrArg Host.Outcome.next ((awake_runs hr _).trans h)⟩

section
variable {s : State} {n t : Nat} {w : W32} (hw : ctlReserved n w = false) (hclk : fieldOf w 28 27 = chanClk s n)
  (hdiv : fieldOf w 12 0 + 1 = chanDiv s n)
include hw hclk hdiv

/-- A word with the clock and the prescaler as they are leaves the channel counting as it does. -/
theorem ctlChan_unmoved : ctlChan s n (ctlMask n w) t = { s.chan n with
    count := if (s.chan n).armAt = some t then (s.chan n).count else chanCount s n (t - 1)
    base := max (s.chan n).base (t - 1) } := by
  have hclk' : fieldOf (ctlMask n w) 28 27 = fieldOf (chanCtl s n) 28 27 := (fieldOf_ctlMask_clk hw).trans hclk
  have hdiv' : fieldOf (ctlMask n w) 12 0 = fieldOf (chanCtl s n) 12 0 := (fieldOf_ctlMask_div n w).trans (Nat.succ_injective hdiv)
  simp [ctlChan, hclk', hdiv']

/-- The count of the channel at the end of the cycle is what it would be without the write. -/
theorem chanCount_disarmed (harmed : chanArmed s n = true) (harm : (s.chan n).armAt ≠ some t)
    (hprev : (s.chan n).incAt ≠ some (t - 1)) :
    chanCount ((ctlTaken s n (ctlMask n w) t).setChan n (offChan (ctlChan s n (ctlMask n w) t) t)) n t = chanCount s n t := by
  refine chanCount_resumed harmed ((chanArmed_ctlTaken s n _ t).trans harmed) ?_ ?_ ?_ ?_ ?_ hprev
  · exact (fieldOf_ctlTaken s n _ t (by decide)).trans ((fieldOf_ctlMask_clk hw).trans hclk)
  · exact (congrArg (· + 1) ((fieldOf_ctlTaken s n _ t (by decide)).trans (fieldOf_ctlMask_div n w))).trans hdiv
  · rw [chan_setChan_same, ctlChan_unmoved hw hclk hdiv]
    exact if_neg harm
  · rw [chan_setChan_same, ctlChan_unmoved hw hclk hdiv]
    rfl
  · rw [chan_setChan_same, ctlChan_unmoved hw hclk hdiv]
    rfl

end

/-! ### COMPARE_STAGE and COMPARE_COMMIT -/

section
variable {s r : State} {t : Nat} (hr : runsAt s t r) (ini : Ini) {n : Nat}
include hr

theorem exec_compareStage (v : W32) (hn : n < 264) :
    ∃ l, exec (.compareStage t ini n v) s = .next (stageCompare { r with regWas := l } n v) := by
  have hput : ∃ l, (if n < 128 then regPut r ini .tmrCmpl n v t else regPut r ini .tmrPcmpl (n - 128) v t) =
      stageCompare { r with regWas := l } n v := by
    split
    · next hshared => exact ⟨_, put_tmrCmpl hshared⟩
    · have h := put_tmrPcmpl (s := r) (ini := ini) (t := t) (v := v) (i := n - 128) (by omega)
      rw [Nat.add_sub_cancel' (by omega)] at h
      exact ⟨_, h⟩
  obtain ⟨l, h⟩ := hput
  exact ⟨l, congrArg Host.Outcome.next ((awake_runs hr _).trans h)⟩

theorem exec_compareCommit {v : W32} (hv : v.toNat < 2 ^ 16) (hn : n < 264) :
    ∃ l, exec (.compareCommit t ini n v) s = .next (commitCompare { r with regWas := l } n v t) := by
  have hput : ∃ l, (if n < 128 then regPut r ini .tmrCmph n v t else regPut r ini .tmrPcmph (n - 128) v t) =
      commitCompare { r with regWas := l } n v t := by
    split
    · next hshared =>
      refine ⟨_, put_tmrCmph hshared ?_⟩
      simp [reservedIn, planWrite, planField, regRow, fd, fieldBits, bitsOf, wordLegal, fieldLegal, fixedField]
      omega
    · have hlegal : reservedIn .tmrPcmph (n - 128) v.toNat = false := by
        simp [reservedIn, planWrite, planField, regRow, fd, fieldBits, bitsOf, wordLegal, fieldLegal, fixedField]
        omega
      have h := put_tmrPcmph (s := r) (ini := ini) (t := t) (i := n - 128) (by omega) hlegal
      rw [Nat.add_sub_cancel' (by omega)] at h
      exact ⟨_, h⟩
  obtain ⟨l, h⟩ := hput
  exact ⟨l, congrArg Host.Outcome.next ((awake_runs hr _).trans h)⟩

end

/-- Reads of CMPL and CMPH return the compare in effect. -/
theorem regView_compare (s : State) (n t : Nat) :
    (if n < 128 then regView s .tmrCmpl n 0 t else regView s .tmrPcmpl (n - 128) 0 t) = BitVec.ofNat 32 (s.chan n).cmp ∧
      (if n < 128 then regView s .tmrCmph n 0 t else regView s .tmrPcmph (n - 128) 0 t) = BitVec.ofNat 32 ((s.chan n).cmp / 2 ^ 32) := by
  split
  · exact ⟨rfl, rfl⟩
  · simp only [regView, Nat.add_sub_cancel' (show 128 ≤ n by omega), and_self]

end Sys2Proof.Machine

namespace Sys2Proof.Proofs

open Sys2Proof.Machine

/-- Settles O2: the write waits (`ctlWrite_disarms`), and the end of the cycle stops the channel at the count that
`chanCount_disarmed` says. -/
theorem channelDisarm : Obligations.ChannelDisarm := by
  unfold Obligations.ChannelDisarm
  intro s r t ini n v hr hn harmed harm hprev hv hclk hdiv
  obtain ⟨l, hexec⟩ := exec_channelDisarm hr ini hn hv
  have h31 : bitOf (v &&& 0x7FFFFFFF).toNat 31 = false := (bitOf_and_disarm v 31).trans (Bool.and_false _)
  have hclk' := (fieldOf_and_disarm v 27 (by decide)).trans hclk
  have hdiv' := (congrArg (· + 1) (fieldOf_and_disarm v 0 (by decide))).trans hdiv
  have honly := (TimersOnly.of_note r l [n]).trans (ctlWrite_timersOnly { r with regWas := l } (v &&& 0x7FFFFFFF) t hn)
  have hcount := chanCount_disarmed (s := { r with regWas := l }) hv hclk' hdiv' harmed harm hprev
  rw [ctlWrite_disarms (s := { r with regWas := l }) harm harmed h31] at hexec honly
  have hchan := chan_setChan_same (ctlTaken { r with regWas := l } n (ctlMask n (v &&& 0x7FFFFFFF)) t) n
    (offChan (ctlChan { r with regWas := l } n (ctlMask n (v &&& 0x7FFFFFFF)) t) t)
  have hoff := congrArg Chan.offAt hchan
  have htodo := congrArg Chan.todo hchan
  have hcmp := congrArg Chan.cmp hchan
  have hat := congrArg Chan.armAt hchan
  exact ⟨_, hexec, hoff, htodo, hcmp, honly, chanArmed_settleChan_off hoff fun h => harm (hat.symm.trans h),
    (count_settleChan _ t hn).trans hcount⟩

/-- Settles O3: the halves of the compare (`exec_compareStage`, `exec_compareCommit`), which reads return (`regView_compare`). -/
theorem compareStageCommit : Obligations.CompareStageCommit := by
  unfold Obligations.CompareStageCommit
  intro s r t n ini v hr hn
  obtain ⟨l, hstage⟩ := exec_compareStage hr ini v hn
  refine ⟨⟨_, hstage, chan_setChan_same _ n _, fun m hm => chan_setChan_ne _ n _ hm, rfl, rfl⟩, fun hv harmed => ?_⟩
  obtain ⟨l', hcommit⟩ := exec_compareCommit hr ini hv hn
  obtain ⟨hlow, hhigh⟩ := regView_compare (commitCompare { r with regWas := l' } n v t) n t
  refine ⟨_, hcommit, ?_, ?_, ?_, hlow, hhigh, fun m hm => chan_setChan_ne _ n _ hm, rfl, rfl⟩
  all_goals rw [commitCompare, chan_setChan_same]
  · exact congrArg (· * 2 ^ 32 + (r.chan n).stage) (Nat.mod_eq_of_lt hv)
  · exact (ite_congr rfl (fun _ => rfl) fun _ => chanCount_idle harmed (t - 1)).trans (ite_self _)

end Sys2Proof.Proofs
end

section
/-! PROOF. The snapshot commands (R256). -/

namespace Sys2Proof.Machine

/-- The two words of a snapshot set. -/
def putSnap (s : State) (i v : Nat) : State :=
  (s.setReg .tmrSnapLo (BitVec.ofNat 32 v) i).setReg .tmrSnapHi (BitVec.ofNat 32 (v / 2 ^ 32)) i

theorem snapOff_ne (i : Nat) : regOff .tmrSnapLo i 0 ≠ regOff .tmrSnapHi i 0 := by
  simp only [regOff, regRow]
  omega

theorem putSnap_lo (s : State) (i v : Nat) : (putSnap s i v).reg .tmrSnapLo i = BitVec.ofNat 32 v :=
  (reg_setReg_ne _ _ (snapOff_ne i)).trans (reg_setReg_same _ _ _ _ _)

theorem putSnap_hi (s : State) (i v : Nat) : (putSnap s i v).reg .tmrSnapHi i = BitVec.ofNat 32 (v / 2 ^ 32) :=
  reg_setReg_same _ _ _ _ _

theorem kget_putSnap_ne (s : State) {i off : Nat} (v : Nat) (hlo : off ≠ regOff .tmrSnapLo i 0) (hhi : off ≠ regOff .tmrSnapHi i 0) :
    kget (putSnap s i v).regs off = kget s.regs off :=
  (kget_setReg_ne _ _ hhi).trans (kget_setReg_ne _ _ hlo)

/-- The state that a snapshot command finds once its set is its own: an earlier count of the set is not copied again. -/
def snapCleared (r : State) (t i : Nat) : State :=
  { noted r t .tmrSnapCmd 0 with snaps := r.snaps.filter fun e => decide (e.1 ≠ i) }

section
variable {s r : State} {t : Nat} (hr : runsAt s t r) (ini : Ini)
include hr

theorem exec_snapshotNtc : exec (.snapshotNtc t ini) s = .next (putSnap (snapCleared r t (iniNum ini)) (iniNum ini) t) :=
  congrArg Host.Outcome.next ((awake_runs hr _).trans (put_tmrSnapCmd (by decide)))

theorem exec_snapshotSharedChannel {n : Nat} (hn : n < 128) : exec (.snapshotSharedChannel t ini n) s =
    .next { putSnap (snapCleared r t (iniNum ini)) (iniNum ini) (chanCount r n t) with
      snaps := (iniNum ini, n, t) :: r.snaps.filter fun e => decide (e.1 ≠ iniNum ini) } := by
  have hv : ∀ k < 128, reservedIn .tmrSnapCmd 0 (BitVec.ofNat 32 (0x100 + k)).toNat = false ∧
      fieldOf (BitVec.ofNat 32 (0x100 + k)) 9 8 = 1 ∧ fieldOf (BitVec.ofNat 32 (0x100 + k)) 7 0 = k := by decide
  obtain ⟨hlegal, hkind, hidx⟩ := hv n hn
  refine congrArg Host.Outcome.next ((awake_runs hr _).trans ((upTo_lt hn _ _).trans ((put_tmrSnapCmd hlegal).trans ?_)))
  rw [hkind, hidx]
  simp only [snapshot, if_pos hn]
  rfl

theorem exec_snapshotPrivateChannel {n : Nat} (hn : n < 136) : exec (.snapshotPrivateChannel t ini n) s =
    .next { putSnap (snapCleared r t (iniNum ini)) (iniNum ini) (chanCount r (128 + n) t) with
      snaps := (iniNum ini, 128 + n, t) :: r.snaps.filter fun e => decide (e.1 ≠ iniNum ini) } := by
  have hv : ∀ k < 136, reservedIn .tmrSnapCmd 0 (BitVec.ofNat 32 (0x200 + k)).toNat = false ∧
      fieldOf (BitVec.ofNat 32 (0x200 + k)) 9 8 = 2 ∧ fieldOf (BitVec.ofNat 32 (0x200 + k)) 7 0 = k := by decide
  obtain ⟨hlegal, hkind, hidx⟩ := hv n hn
  refine congrArg Host.Outcome.next ((awake_runs hr _).trans ((upTo_lt hn _ _).trans ((put_tmrSnapCmd hlegal).trans ?_)))
  rw [hkind, hidx]
  simp only [snapshot, if_pos hn]
  rfl

end

end Sys2Proof.Machine

namespace Sys2Proof.Proofs

open Sys2Proof.Machine

/-- Settles O5: each command writes the two words of one set (`putSnap`). -/
theorem snapshots : Obligations.Snapshots := by
  unfold Obligations.Snapshots
  intro s r t ini hr
  have hlo (v : Nat) := putSnap_lo (snapCleared r t (iniNum ini)) (iniNum ini) v
  have hhi (v : Nat) := putSnap_hi (snapCleared r t (iniNum ini)) (iniNum ini) v
  have hregs (v off : Nat) := kget_putSnap_ne (snapCleared r t (iniNum ini)) (i := iniNum ini) (off := off) v
  refine ⟨⟨_, exec_snapshotNtc hr ini, ⟨hlo t, hhi t, hregs t, rfl, rfl⟩, fun e he => ?_⟩, fun n hn => ?_, fun n hn => ?_⟩
  · exact of_decide_eq_true (List.mem_filter.mp he).2
  · exact ⟨_, exec_snapshotSharedChannel hr ini hn, ⟨hlo _, hhi _, hregs _, rfl, rfl⟩, List.mem_cons_self⟩
  · exact ⟨_, exec_snapshotPrivateChannel hr ini hn, ⟨hlo _, hhi _, hregs _, rfl, rfl⟩, List.mem_cons_self⟩

end Sys2Proof.Proofs
end

section
/-! PROOF. CAPTURE_EVENT and CAPTURE_READ (R271, R272, R542). -/

namespace Sys2Proof.Machine

/-! ### The falling edges before a read (R236, R237) -/

/-- A falling edge is an event of the rail; a source that the device does not have is a rising one, which it does not concern. -/
theorem fallEdge_railOnly (s : State) (n f : Nat) : RailOnly s (fallEdge s n f) := by
  have hset := setSrc_railOnly s n { s.src n with fall := none }
  unfold fallEdge
  dsimp only
  by_cases hn : n < 1024
  · refine hset.trans (.ite (.ite ?_ (.refl _)) (.ite ?_ (.refl _)))
    · exact .trans (.ite (mirror_railOnly _ _) (.refl _)) (presentTarget_railOnly _ _ _)
    · exact (srcEvent_railOnly _ _ hn).trans (presentTarget_railOnly _ _ _)
  · have hsense (u : State) : srcSense u n = 2 := if_pos (by omega)
    simpa [srcIsLevel, hsense] using hset

theorem settleFalls_railOnly (s : State) (t : Nat) : RailOnly s (settleFalls s t) := by
  refine List.foldlRecOn (motive := RailOnly s) _ _ (.refl s) fun u h e _ => ?_
  split
  · exact .ite (h.trans (fallEdge_railOnly _ _ _)) h
  · exact h

/-! ### One capture unit -/

/-- From s to t capture unit c and its words are unchanged. -/
structure UnitKept (c : Nat) (s t : State) : Prop where
  capt : t.capt c = s.capt c
  regs : ∀ off, 0x20200 + 0x10 * c ≤ off → off < 0x20210 + 0x10 * c → kget t.regs off = kget s.regs off

namespace UnitKept

variable {c : Nat} {s t u : State}

theorem refl (c : Nat) (s : State) : UnitKept c s s := ⟨rfl, fun _ _ _ => rfl⟩

theorem trans (h : UnitKept c s t) (k : UnitKept c t u) : UnitKept c s u :=
  ⟨k.capt.trans h.capt, fun off h1 h2 => (k.regs off h1 h2).trans (h.regs off h1 h2)⟩

theorem of_rail (c : Nat) (h : RailOnly s t) : UnitKept c s t where
  capt := by
    have hcapts : t.capts = s.capts := (congrArg State.capts h.eq :)
    rw [State.capt, State.capt, hcapts]
  regs off hlo _ := h.regs off (by omega)

theorem stat (h : UnitKept c s t) : t.reg .tmrCapStat c = s.reg .tmrCapStat c := by
  rw [State.reg, State.reg, h.regs _ (by simp only [regOff, regRow]; omega) (by simp only [regOff, regRow]; omega)]

theorem cfg (h : UnitKept c s t) : t.reg .tmrCapCfg c = s.reg .tmrCapCfg c := by
  rw [State.reg, State.reg, h.regs _ (by simp only [regOff, regRow]; omega) (by simp only [regOff, regRow]; omega)]

theorem captVals (h : UnitKept c s t) : captVals t c = Machine.captVals s c := by
  rw [Machine.captVals, Machine.captVals, State.bit, State.bit, h.stat, h.capt]

theorem captTakes (h : UnitKept c s t) (pin : Nat) (rising : Bool) : captTakes t c pin rising =
    Machine.captTakes s c pin rising := by
  have hfld (hi lo : Nat) : t.fld .tmrCapCfg hi lo c = s.fld .tmrCapCfg hi lo c := congrArg (fieldOf · hi lo) h.cfg
  rw [Machine.captTakes, Machine.captTakes, hfld, hfld]

end UnitKept

section
variable (s : State) (c : Nat) (x : Capt)

theorem capt_setCapt : (setCapt s c x).capt c = x := by simp [State.capt, setCapt, State.setReg]

theorem setCapt_others {d : Nat} (hd : d ≠ c) : UnitKept d s (setCapt s c x) := by
  refine ⟨by simp [State.capt, setCapt, State.setReg, hd], fun off hlo hhi => kget_setReg_ne _ _ ?_⟩
  simp only [regOff, regRow]
  omega

/-- The status word shows the flag ovr in bit 2. -/
theorem setCapt_ovr : (setCapt s c x).bit .tmrCapStat 2 c = x.vals.ovr := by
  have hword : ∀ new pend ovr : Bool,
      bitOf (BitVec.ofNat 32 (ofBool new + 2 * ofBool pend + 4 * ofBool ovr)).toNat 2 = ovr := by decide
  rw [State.bit, setCapt, reg_setReg_same, hword]

end

/-! ### An event -/

/-- What an event with no capture read in its cycle makes of the values (R272). -/
theorem captStep_eq (a : CapVals) (x : Nat) : captStep a x =
    { a with v := if a.pend then a.v else x, new := a.new || !a.pend, ovr := a.ovr || a.new || a.pend } := by
  obtain ⟨v, s, new, pend, ovr⟩ := a
  cases pend <;> simp [captStep]

/-- The unit after an event, before the pulse of its source. -/
def captMarks (s : State) (c t : Nat) : State :=
  let u := s.capt c
  let a := captVals s c
  let x := t - 6
  let b := if u.readAt = some t then { a with s := x, pend := true } else captStep a x
  let s := setCapt s c { u with vals := b, lastEv := some (t, a) }
  if u.readAt ≠ some t ∧ (a.new ∨ a.pend) then s.raise t .tmrCapStat 4 c else s

theorem captEvent_railOnly (s : State) {c : Nat} (t : Nat) (hc : c < 32) : RailOnly (captMarks s c t) (captEvent s c t) :=
  .ite (pulse_railOnly _ _ (by omega)) (.refl _)

theorem captMarks_others (s : State) {c d : Nat} (t : Nat) (hd : d ≠ c) : UnitKept d s (captMarks s c t) := by
  have hset (x : Capt) := setCapt_others s c x hd
  unfold captMarks
  dsimp only
  split
  · refine (hset _).trans ⟨rfl, fun off hlo hhi => kget_raise_ne _ _ _ ?_⟩
    simp only [regOff, regRow]
    omega
  · exact hset _

theorem captMarks_frame (s : State) (c t : Nat) : (captMarks s c t).mem = s.mem ∧ (captMarks s c t).chans = s.chans := by
  unfold captMarks
  dsimp only
  split <;> exact ⟨rfl, rfl⟩

/-- An event of a unit with no capture read in its cycle (R272). -/
theorem captMarks_unread {s : State} {c t : Nat} (h : (s.capt c).readAt ≠ some t) :
    ((captMarks s c t).capt c).vals = captStep (captVals s c) (t - 6) ∧
      (captMarks s c t).bit .tmrCapStat 2 c = ((captVals s c).ovr || (captVals s c).new || (captVals s c).pend) := by
  have hovr : (captStep (captVals s c) (t - 6)).ovr = ((captVals s c).ovr || (captVals s c).new || (captVals s c).pend) := by
    rw [captStep_eq]
  unfold captMarks
  dsimp only
  rw [if_neg h]
  split
  · next hlost =>
    refine ⟨congrArg Capt.vals (capt_setCapt s c _), ?_⟩
    rw [bit_raise_same _ _ _ _ _ _ (by decide)]
    rcases hlost.2 with hnew | hpend
    · simp [hnew, bitOf, Nat.testBit]
    · simp [hpend, bitOf, Nat.testBit]
  · exact ⟨congrArg Capt.vals (capt_setCapt s c _), (setCapt_ovr s c _).trans hovr⟩

/-- The edge at one unit. -/
def captEdge (pin : Nat) (rising : Bool) (t : Nat) (s : State) (c : Nat) : State :=
  if captTakes s c pin rising then captEvent s c t else s

section
variable (pin : Nat) (rising : Bool) (t : Nat)

theorem captEdge_frame (s : State) {c : Nat} (hc : c < 32) :
    (captEdge pin rising t s c).mem = s.mem ∧ (captEdge pin rising t s c).chans = s.chans := by
  unfold captEdge
  split
  · obtain ⟨hmem, hchans⟩ := captMarks_frame s c t
    have h := (captEvent_railOnly s t hc).eq
    exact ⟨(congrArg State.mem h :).trans hmem, (congrArg State.chans h :).trans hchans⟩
  · exact ⟨rfl, rfl⟩

theorem captEdge_others (s : State) {c d : Nat} (hc : c < 32) (hd : d ≠ c) : UnitKept d s (captEdge pin rising t s c) := by
  unfold captEdge
  split
  · exact (captMarks_others s t hd).trans (.of_rail d (captEvent_railOnly s t hc))
  · exact .refl d s

theorem foldl_captEdge_others (s : State) {l : List Nat} {d : Nat} (hl : ∀ c ∈ l, c < 32) (hd : d ∉ l) :
    UnitKept d s (l.foldl (captEdge pin rising t) s) :=
  List.foldlRecOn l _ (.refl d s) fun u h c hc => h.trans (captEdge_others pin rising t u (hl c hc) fun e => hd (e ▸ hc))

theorem foldl_captEdge_frame (s : State) {l : List Nat} (hl : ∀ c ∈ l, c < 32) :
    (l.foldl (captEdge pin rising t) s).mem = s.mem ∧ (l.foldl (captEdge pin rising t) s).chans = s.chans := by
  refine List.foldlRecOn (motive := fun u : State => u.mem = s.mem ∧ u.chans = s.chans) l _ ⟨rfl, rfl⟩ fun u h c hc => ?_
  obtain ⟨hmem, hchans⟩ := captEdge_frame pin rising t u (hl c hc)
  exact ⟨hmem.trans h.1, hchans.trans h.2⟩

theorem pinEdge_eq (s : State) :
    pinEdge s pin rising t = (List.range 32).foldl (captEdge pin rising t) (landLevel s pin rising t) := by
  unfold pinEdge captEdge
  rfl

theorem pinEdge_frame (s : State) : (pinEdge s pin rising t).mem = s.mem ∧ (pinEdge s pin rising t).chans = s.chans := by
  rw [pinEdge_eq]
  exact foldl_captEdge_frame pin rising t (landLevel s pin rising t) fun c => List.mem_range.mp

variable {pin rising t}

/-- Of the units that an edge reaches in turn, each takes it as if it were the only one. -/
theorem pinEdge_unit (s : State) {c : Nat} (hc : c < 32) (htakes : captTakes s c pin rising = true) :
    ∃ u, UnitKept c s u ∧ UnitKept c (captMarks u c t) (pinEdge s pin rising t) := by
  obtain ⟨l, l', hl⟩ := List.append_of_mem (List.mem_range.mpr hc)
  have hlt : ∀ d ∈ l ++ c :: l', d < 32 := fun d hd => List.mem_range.mp (hl.symm ▸ hd)
  have hnodup : (l ++ c :: l').Nodup := hl.symm ▸ List.nodup_range
  have hnot : c ∉ l ++ l' := (List.nodup_cons.mp (List.nodup_middle.mp hnodup)).1
  have hland : UnitKept c s (landLevel s pin rising t) := ⟨rfl, fun _ _ _ => rfl⟩
  have hbefore := foldl_captEdge_others pin rising t (landLevel s pin rising t) (l := l) (d := c)
    (fun d hd => hlt d (List.mem_append_left _ hd)) fun h => hnot (List.mem_append_left _ h)
  rw [pinEdge_eq, hl, List.foldl_append, List.foldl_cons]
  have hu := hland.trans hbefore
  generalize l.foldl (captEdge pin rising t) (landLevel s pin rising t) = u at hu
  rw [show captEdge pin rising t u c = captEvent u c t from if_pos ((hu.captTakes pin rising).trans htakes)]
  refine ⟨u, hu, (UnitKept.of_rail c (captEvent_railOnly u t hc)).trans ?_⟩
  exact foldl_captEdge_others pin rising t _ (fun d hd => hlt d (List.mem_append_right _ (List.mem_cons_of_mem c hd)))
    fun h => hnot (List.mem_append_right _ h)

theorem exec_captureEvent {s r : State} (hr : runsAt s t r) (hpin : pin < 32) (hland : landOpen r 14 (7 + pin) = false) :
    exec (.captureEvent t pin rising) s = .next (pinEdge r pin rising t) :=
  congrArg Host.Outcome.next ((awake_runs hr _).trans ((upTo_lt hpin _ _).trans (if_neg (by rw [hland]; decide))))

end

/-! ### A read -/

/-- What a capture read leaves of unit c when no event is stamped in its cycle: H takes the high half of the value read, and a
value that waited in S moves up (R272). -/
def captDrained (s : State) (c t : Nat) : State :=
  let a := captVals s c
  let v := if a.pend then a.s else a.v
  (setCapt s c { s.capt c with vals := { a with v := v, new := false, pend := false }, h := v / 2 ^ 32, readAt := some t }).setReg
    .tmrCapHi (BitVec.ofNat 32 (v / 2 ^ 32)) c

theorem captRead_uneventful {s : State} {c t : Nat} (h : ∀ e, (s.capt c).lastEv = some e → e.1 ≠ t) :
    captRead s c t = (BitVec.ofNat 32 (if (captVals s c).pend then (captVals s c).s else (captVals s c).v), captDrained s c t) := by
  cases hlast : (s.capt c).lastEv with
  | none => cases hpend : (captVals s c).pend <;> simp [captRead, captDrained, hlast, hpend]
  | some e =>
    have hne := h e hlast
    cases hpend : (captVals s c).pend <;> simp [captRead, captDrained, hlast, hpend, hne]

theorem captDrained_capt (s : State) (c t : Nat) : ((captDrained s c t).capt c).vals = { captVals s c with
    v := if (captVals s c).pend then (captVals s c).s else (captVals s c).v, new := false, pend := false } :=
  congrArg Capt.vals (capt_setCapt s c _)

theorem captDrained_hi (s : State) (c t : Nat) : (captDrained s c t).reg .tmrCapHi c =
    BitVec.ofNat 32 ((if (captVals s c).pend then (captVals s c).s else (captVals s c).v) / 2 ^ 32) := reg_setReg_same _ _ _ _ _

theorem lookupReg_tmrCapLo {c : Nat} (hc : c < 32) : lookupReg (regOff .tmrCapLo c 0) = some (.tmrCapLo, c, 0) := by
  have h : ∀ k < 32, lookupReg (regOff .tmrCapLo k 0) = some (.tmrCapLo, k, 0) := by decide
  exact h c hc

section
variable {s r : State} {t : Nat} (hr : runsAt s t r) {c : Nat} (hc : c < 32)
include hr hc

theorem exec_captureRead {ini : Ini} (hini : ini ≠ .jtag) : exec (.captureRead t ini c) s =
    .next ((captRead (settleFalls r t) c t).2.answer ini (toBytesLE 4 (captRead (settleFalls r t) c t).1.toNat) false) := by
  refine congrArg Host.Outcome.next ((awake_runs hr _).trans ((if_pos hc).trans ?_))
  simp only [busRead, lookupReg_tmrCapLo hc, decide_eq_true hini, if_true]
  rfl

theorem exec_captureRead_jtag : ∃ d, exec (.captureRead t .jtag c) s = .next ((settleFalls r t).answer .jtag d false) := by
  refine ⟨toBytesLE 4 (regView (settleFalls r t) .tmrCapLo c 0 t).toNat,
    congrArg Host.Outcome.next ((awake_runs hr _).trans ((if_pos hc).trans ?_))⟩
  simp only [busRead, lookupReg_tmrCapLo hc, ne_eq, not_true_eq_false, decide_false, Bool.false_eq_true, if_false]

end

end Sys2Proof.Machine

namespace Sys2Proof.Proofs

open Sys2Proof.Machine

/-- Settles O6: an event reaches each unit as if alone (`pinEdge_unit`), a read drains it (`captRead_uneventful`), and the falling
edges before a read are the rail's own (`settleFalls_railOnly`). -/
theorem captures : Obligations.Captures := by
  unfold Obligations.Captures
  intro s r t c hr hc
  have hfalls := settleFalls_railOnly r t
  have hkept := UnitKept.of_rail c hfalls
  have hmem : (settleFalls r t).mem = r.mem := settleFalls_mem r t
  have hchans : (settleFalls r t).chans = r.chans := (congrArg State.chans hfalls.eq :)
  refine ⟨fun pin rising hpin hland htakes hread => ?_, fun ini hini hev => ?_, ?_⟩
  · obtain ⟨u, hu, hlast⟩ := pinEdge_unit (t := t) r hc htakes
    obtain ⟨hmem, hchans⟩ := pinEdge_frame pin rising t r
    obtain ⟨hvals, hovr⟩ := captMarks_unread (s := u) (c := c) (t := t) (by rw [hu.capt]; exact hread)
    rw [hu.captVals] at hvals hovr
    refine ⟨_, exec_captureEvent hr hpin hland, ?_, ?_, hmem, hchans⟩
    · rw [hlast.capt, hvals, captStep_eq]
    · rw [State.bit, hlast.stat]
      exact hovr
  · have hread := captRead_uneventful (s := settleFalls r t) (c := c) (t := t) (by rw [hkept.capt]; exact hev)
    have hexec := exec_captureRead hr hc hini
    have hcapt := captDrained_capt (settleFalls r t) c t
    have hhi := captDrained_hi (settleFalls r t) c t
    rw [hread] at hexec
    rw [hkept.captVals] at hexec hcapt hhi
    refine ⟨_, hexec, hcapt, ?_, hhi, hmem, hchans⟩
    rw [answer_resps, kget_kput_same, BitVec.toNat_ofNat]
  · obtain ⟨d, hexec⟩ := exec_captureRead_jtag hr hc
    exact ⟨_, hexec, hkept.capt, hmem⟩

end Sys2Proof.Proofs
end

section
/-! SUPPORT. The words of a queue descriptor: what a written one reads, and what the write leaves (R273, R277). -/

namespace Sys2Proof.Machine

/-! ### Words -/

/-- What a descriptor's words hold depends on memory alone. -/
theorem qdWord_of_mem {s u : State} (hm : u.mem = s.mem) (h off : Nat) : u.qdWord h off = s.qdWord h off :=
  qdWord_congr (fun a _ => by rw [hm]) h off

theorem qdFld_of_mem {s u : State} (hm : u.mem = s.mem) (h off hi lo : Nat) : u.qdFld h off hi lo = s.qdFld h off hi lo :=
  congrArg (fieldOf · hi lo) (qdWord_of_mem hm h off)

section
variable {s u : State} (hm : u.mem = s.mem) (h : Nat)
include hm

theorem qStore_of_mem : qStore u h = qStore s h := by rw [qStore, qStore, qdWord_of_mem hm]

theorem qKind_of_mem : qKind u h = qKind s h := qdFld_of_mem hm h 4 30 29

theorem qCount_of_mem : qCount u h = qCount s h := qdFld_of_mem hm h 0x1C 31 16

theorem qCapacity_of_mem : qCapacity u h = qCapacity s h := qdFld_of_mem hm h 0xC 31 16

theorem slotBytes_of_mem : slotBytes u h = slotBytes s h := by
  have hsize : qBsize u h = qBsize s h := qdFld_of_mem hm h 4 10 0
  rw [slotBytes, slotBytes, qKind_of_mem hm, hsize]

theorem tailSlot_of_mem : tailSlot u h = tailSlot s h := by
  have hhead : qHead u h = qHead s h := qdFld_of_mem hm h 0x1C 15 0
  rw [tailSlot, tailSlot, hhead, qCount_of_mem hm, qCapacity_of_mem hm]

end

theorem qCount_lt (s : State) (h : Nat) : qCount s h < 65536 := Nat.mod_lt _ (by decide)

theorem qCapacity_lt (s : State) (h : Nat) : qCapacity s h < 65536 := Nat.mod_lt _ (by decide)

theorem qCredLeft_lt (s : State) (h : Nat) : qCredLeft s h < 65536 := Nat.mod_lt _ (by decide)

section
variable {s : State} (hwf : Memory.wf s.mem = true) (h : Nat)
include hwf

/-- A written word reads as it was written. -/
theorem qdWord_setQdWord_same (off : Nat) (v : W32) : (s.setQdWord h off v).qdWord h off = v := by
  have hread : memRead (s.setQdWord h off v).mem (qdAddr h + off) 4 = toBytesLE 4 v.toNat :=
    (memWrite_window hwf (length_toBytesLE 4 v.toNat)).1
  rw [State.qdWord, memNat, hread, ofBytesLE_toBytesLE v.isLt, BitVec.ofNat_toNat, BitVec.setWidth_eq]

/-- No byte outside the word changes. -/
theorem memGet_setQdWord (off : Nat) (v : W32) {a : Nat} (ha : ¬ (qdAddr h + off ≤ a ∧ a < qdAddr h + off + 4)) :
    memGet (s.setQdWord h off v).mem a = memGet s.mem a :=
  (memWrite_window hwf (length_toBytesLE 4 v.toNat)).2 a ha

/-- So another word of the descriptor reads as before. -/
theorem qdWord_setQdWord_ne {off off' : Nat} (v : W32) (hd : off' + 4 ≤ off ∨ off + 4 ≤ off') :
    (s.setQdWord h off v).qdWord h off' = s.qdWord h off' := by
  rw [State.qdWord, memNat, memRead_congr fun i hi => memGet_setQdWord hwf h off v (by omega)]
  rfl

/-! ### Fields -/

theorem memGet_setQdFld (off hi lo v : Nat) {a : Nat} (ha : ¬ (qdAddr h + off ≤ a ∧ a < qdAddr h + off + 4)) :
    memGet (s.setQdFld h off hi lo v).mem a = memGet s.mem a := memGet_setQdWord hwf h off _ ha

theorem qdFld_setQdFld_same (off : Nat) {hi lo : Nat} (v : Nat) (hl : lo ≤ hi) (hh : hi < 32) :
    (s.setQdFld h off hi lo v).qdFld h off hi lo = v % 2 ^ (hi + 1 - lo) := by
  rw [State.qdFld, State.setQdFld, qdWord_setQdWord_same hwf, fieldOf_withField_same hl hh]

theorem qdFld_setQdFld_ne (off : Nat) {hi lo hi' lo' : Nat} (v : Nat) (hl : lo ≤ hi) (hh : hi' < 32) (hd : hi' < lo ∨ hi < lo') :
    (s.setQdFld h off hi lo v).qdFld h off hi' lo' = s.qdFld h off hi' lo' := by
  rw [State.qdFld, State.setQdFld, qdWord_setQdWord_same hwf, fieldOf_withField_ne hl hh hd]
  rfl

theorem qdWord_setQdFld_ne {off off' : Nat} (hi lo v : Nat) (hd : off' + 4 ≤ off ∨ off + 4 ≤ off') :
    (s.setQdFld h off hi lo v).qdWord h off' = s.qdWord h off' := qdWord_setQdWord_ne hwf h _ hd

theorem qdFld_setQdFld_word {off off' : Nat} (hi lo v hi' lo' : Nat) (hd : off' + 4 ≤ off ∨ off + 4 ≤ off') :
    (s.setQdFld h off hi lo v).qdFld h off' hi' lo' = s.qdFld h off' hi' lo' :=
  congrArg (fieldOf · hi' lo') (qdWord_setQdFld_ne hwf h hi lo v hd)

end

end Sys2Proof.Machine
end

section
/-! SUPPORT. What the events of the Runner and its errors leave of memory, of the queues and of the cores (R281, R293, R294, R296,
R484). -/

namespace Sys2Proof.Machine

/-! ### Events -/

/-- From s to t only what events write changed, as far as queues see it: memory, the queues, the operations of the register sets and
the cores stand, the entries that a presented ticket begins apart. -/
structure EventOnly (s t : State) : Prop where
  mem : t.mem = s.mem
  queues : t.queues = s.queues
  iops : t.iops = s.iops
  core : ∀ w, PresentOnly (s.core w) (t.core w)

namespace EventOnly

variable {s t u : State}

theorem refl (s : State) : EventOnly s s := ⟨rfl, rfl, rfl, fun _ => rfl⟩

theorem trans (h : EventOnly s t) (k : EventOnly t u) : EventOnly s u :=
  ⟨k.mem.trans h.mem, k.queues.trans h.queues, k.iops.trans h.iops, fun w => (h.core w).trans (k.core w)⟩

theorem ite {c : Prop} [Decidable c] (h : EventOnly s t) (k : EventOnly s u) : EventOnly s (if c then t else u) := by
  split <;> assumption

theorem of_rail (h : RailOnly s t) : EventOnly s t :=
  ⟨(congrArg State.mem h.eq :), (congrArg State.queues h.eq :), (congrArg State.iops h.eq :), h.core⟩

/-- Registers and what the health counters note are no part of it. -/
theorem of_fields (h : t = { s with regs := t.regs, hwSet := t.hwSet, service := t.service, privSpan := t.privSpan }) :
    EventOnly s t := by
  rw [h]
  exact ⟨rfl, rfl, rfl, fun w => by cases w <;> rfl⟩

theorem qdFld (h : EventOnly s t) (k off hi lo : Nat) : t.qdFld k off hi lo = s.qdFld k off hi lo := qdFld_of_mem h.mem k off hi lo

theorem queue (h : EventOnly s t) (k : Nat) : t.queue k = s.queue k := queue_congr h.queues k

end EventOnly

theorem pulse_eventOnly (s : State) {n : Nat} (t : Nat) (hn : n < 1024) : EventOnly s (pulse s n t) := .of_rail (pulse_railOnly s t hn)

/-- A queue's source is one of 64 (R277). -/
theorem pulseSrc_eventOnly (s : State) (t h : Nat) : EventOnly s (pulse s (192 + qSrc s h) t) := by
  have hsrc : qSrc s h < 64 := Nat.mod_lt _ (by decide)
  exact pulse_eventOnly s t (by omega)

theorem raise_eventOnly (s : State) (t : Nat) (n : RegName) (bits i : Nat) : EventOnly s (s.raise t n bits i) := .of_fields rfl

theorem privPulse_eventOnly (s : State) (p n t : Nat) : EventOnly s (privPulse s p n t) := by
  have hspan : EventOnly s { s with privSpan := kput s.privSpan (32 * p + n) t } := .of_fields rfl
  exact .ite hspan ((hspan.trans (raise_eventOnly _ t _ _ _)).trans (.of_rail (presentCore_railOnly _ _ _)))

theorem countOne_eventOnly (s : State) (t code idx m n : Nat) : EventOnly s (countOne s t code idx m n) := by
  have hcount (v : W32) (x : Service) : EventOnly s { s.setReg .hltCntVal v n with service := x } := .of_fields rfl
  exact .ite (.ite (((hcount _ _).trans (raise_eventOnly _ t _ _ _)).trans (pulse_eventOnly _ t (by decide))) (hcount _ _)) (.refl s)

theorem countEvent_eventOnly (s : State) (t code idx : Nat) : EventOnly s (countEvent s t code idx) := by
  rw [countEvent, countEvents, if_neg (by decide)]
  exact List.foldlRecOn _ _ (.refl s) fun u h n _ => h.trans (countOne_eventOnly u t code idx 1 n)

/-- A health event writes no register between the rail's and the health counters' (R237, R484). -/
theorem countOne_regs (s : State) (t code idx m : Nat) {n off : Nat} (hlo : 0x10280 ≤ off) (hhi : off < 0xC0000) :
    kget (countOne s t code idx m n).regs off = kget s.regs off := by
  have hval : off ≠ regOff .hltCntVal n 0 := by
    simp only [regOff, regRow]
    omega
  have halarm : off ≠ regOff .hltAlarm 0 0 := by
    simp only [regOff, regRow]
    omega
  have hite {c : Prop} [Decidable c] {u v : State} (hu : kget u.regs off = kget s.regs off) (hv : kget v.regs off = kget s.regs off) :
      kget (if c then u else v).regs off = kget s.regs off := by split <;> assumption
  have hcount (v : W32) (x : Service) : kget ({ s.setReg .hltCntVal v n with service := x } : State).regs off = kget s.regs off :=
    kget_setReg_ne s v hval
  unfold countOne
  refine hite (hite ?_ (hcount _ _)) rfl
  exact ((pulse_railOnly _ t (by decide)).regs off (by omega)).trans ((kget_raise_ne _ _ _ halarm).trans (hcount _ _))

theorem countEvent_regs (s : State) (t code idx : Nat) {off : Nat} (hlo : 0x10280 ≤ off) (hhi : off < 0xC0000) :
    kget (countEvent s t code idx).regs off = kget s.regs off := by
  rw [countEvent, countEvents, if_neg (by decide)]
  exact List.foldlRecOn (motive := fun u : State => kget u.regs off = kget s.regs off) _ _ rfl fun u h n _ =>
    (countOne_regs u t code idx 1 hlo hhi).trans h

/-! ### A first-event record (R9) -/

theorem record_eventOnly (s : State) (t : Nat) (n : RegName) (w : W32) : EventOnly s (s.record t n w) := by
  unfold State.record
  exact .ite (raise_eventOnly _ t _ _ _) (.of_fields rfl)

/-- The first event leaves its word, the bits for valid and multi apart. -/
theorem fld_record_first {s : State} {n : RegName} (h : s.bit n 0 = false) (t : Nat) (w : W32) {hi lo : Nat} (hh : hi < 32)
    (hlo : 2 ≤ lo) : (s.record t n w).fld n hi lo = fieldOf w hi lo := by
  have hflag : bitsOf 1 lo (hi + 1 - lo) = 0 := by
    have h1 : 1 < 2 ^ lo := Nat.one_lt_two_pow (by omega)
    rw [bitsOf, Nat.shiftRight_eq_div_pow, Nat.div_eq_of_lt h1, Nat.zero_mod]
  rw [State.record, if_neg (by simp [h]), fld_raise_same _ _ _ _ _ hh hflag, State.fld, reg_setReg_same]
  refine fieldOf_congr fun b h1 h2 => ?_
  have hlow : (s.reg n 0).toNat / 2 % 2 * 2 < 2 ^ 2 := by omega
  rw [testBit_ofNat_word (by omega), Nat.mul_comm, show 4 = 2 ^ 2 from rfl, Nat.testBit_two_pow_mul_add _ hlow,
    if_neg (by omega), Nat.testBit_div_two_pow, Nat.sub_add_cancel (by omega)]

/-! ### An error of the Runner (R296) -/

/-- The source that tells an error of this kind (R296). -/
def runErrSrc (kind : Nat) : Nat :=
  if kind = 1 ∨ kind = 6 then 192 else if kind = 2 ∨ kind = 3 then 193 else if kind = 4 then 194 else 195

theorem runErr_eq (s : State) (t h kind : Nat) :
    runErr s t h kind = pulse (s.record t .runErr (BitVec.ofNat 32 (h * 2 ^ 16 + kind * 2 ^ 8))) (runErrSrc kind) t := rfl

theorem runErrSrc_lt (kind : Nat) : runErrSrc kind < 1024 := by
  unfold runErrSrc
  split_ifs <;> decide

theorem runErr_eventOnly (s : State) (t h kind : Nat) : EventOnly s (runErr s t h kind) := by
  rw [runErr_eq]
  exact (record_eventOnly s t _ _).trans (pulse_eventOnly _ t (runErrSrc_lt kind))

theorem reg_runErr (s : State) (t h kind : Nat) :
    (runErr s t h kind).reg .runErr = (s.record t .runErr (BitVec.ofNat 32 (h * 2 ^ 16 + kind * 2 ^ 8))).reg .runErr := by
  rw [runErr_eq]
  exact (pulse_railOnly _ t (runErrSrc_lt kind)).reg _ _ _ (by decide)

theorem runErr_valid (s : State) (t h kind : Nat) : (runErr s t h kind).bit .runErr 0 = true := by
  rw [State.bit, reg_runErr]
  exact record_valid s t _ _ 0

/-- The first error leaves its handle and its kind. -/
theorem runErr_first {s : State} (hfirst : s.bit .runErr 0 = false) (t : Nat) {h kind : Nat} (hh : h < 65536) (hk : kind < 16) :
    (runErr s t h kind).fld .runErr 31 16 = h ∧ (runErr s t h kind).fld .runErr 11 8 = kind := by
  have hword (hi lo : Nat) (hhi : hi < 32) (hlo : 2 ≤ lo) :
      (runErr s t h kind).fld .runErr hi lo = fieldOf (BitVec.ofNat 32 (h * 2 ^ 16 + kind * 2 ^ 8)) hi lo := by
    rw [State.fld, reg_runErr]
    exact fld_record_first hfirst t _ hhi hlo
  rw [hword 31 16 (by decide) (by decide), hword 11 8 (by decide) (by decide)]
  simp only [fieldOf, bitsOf, BitVec.toNat_ofNat, Nat.shiftRight_eq_div_pow]
  omega

/-! ### A refusal (R281, R297) -/

/-- A refusal sets the flag of the descriptor; the rest are events. -/
theorem refuse_eventOnly (s : State) (t h who : Nat) : EventOnly (s.setQdFld h 0x18 30 30 1) (refuse s t h who) := by
  have hcount := countEvent_eventOnly (s.setQdFld h 0x18 30 30 1) t 0x08 who
  exact .ite (hcount.trans (privPulse_eventOnly _ _ _ _)) hcount

/-- Of a register set it writes no register of the Runner. -/
theorem refuse_regs (s : State) (t h : Nat) {who off : Nat} (hwho : 68 ≤ who) (hlo : 0x10280 ≤ off) (hhi : off < 0xC0000) :
    kget (refuse s t h who).regs off = kget s.regs off := by
  have hset : refuse s t h who = countEvent (s.setQdFld h 0x18 30 30 1) t 0x08 who := if_neg (Nat.not_lt.mpr hwho)
  rw [hset, countEvent_regs _ _ _ _ hlo hhi, setQdFld_regs]

theorem refuse_flag {s : State} (hwf : Memory.wf s.mem = true) (t h who : Nat) : (refuse s t h who).qdFld h 0x18 30 30 = 1 :=
  ((refuse_eventOnly s t h who).qdFld h 0x18 30 30).trans (qdFld_setQdFld_same hwf h 0x18 1 (by decide) (by decide))

theorem refuse_credit {s : State} (hwf : Memory.wf s.mem = true) (t h who : Nat) : qCredLeft (refuse s t h who) h = qCredLeft s h :=
  ((refuse_eventOnly s t h who).qdFld h 0x14 15 0).trans (qdFld_setQdFld_word hwf h _ _ _ _ _ (by decide))

end Sys2Proof.Machine
end

section
/-! SUPPORT. An item stored at the tail of a queue, and the oldest taken from it, with no unit in error (R281, R284, R285). -/

namespace Sys2Proof.Machine

/-! ### An item at the tail (R281, R293) -/

theorem watermarkEvent_eventOnly (s : State) (t h : Nat) : EventOnly s (watermarkEvent s t h) := by
  refine .ite (.ite ?_ (pulseSrc_eventOnly s t h)) (.refl s)
  split
  · exact privPulse_eventOnly _ _ _ _
  · exact .refl s

theorem core_setQueue (s : State) (h : Nat) (q : QueueSt) (w : CoreSel) : (s.setQueue h q).core w = s.core w := by cases w <;> rfl

theorem core_setQdFld (s : State) (h off hi lo v : Nat) (w : CoreSel) : (s.setQdFld h off hi lo v).core w = s.core w := by
  cases w <;> rfl

/-- A queue with one item more, before the event of its watermark. -/
def grown (s : State) (t h : Nat) : State :=
  (s.setQdFld h 0x1C 31 16 (qCount s h + 1)).setQueue h { s.queue h with born := (s.queue h).born ++ [(t, false)] }

theorem appendItem_eventOnly (s : State) (t h : Nat) : EventOnly (grown s t h) (appendItem s t h) := watermarkEvent_eventOnly _ t h

theorem qCount_grown {s : State} (hwf : Memory.wf s.mem = true) (t : Nat) {h : Nat} (hcount : qCount s h < 65535) :
    qCount (grown s t h) h = qCount s h + 1 := by
  have hmem : (grown s t h).mem = (s.setQdFld h 0x1C 31 16 (qCount s h + 1)).mem := setQueue_mem _ _ _
  rw [qCount_of_mem hmem, qCount, qdFld_setQdFld_same hwf h _ _ (by decide) (by decide)]
  exact Nat.mod_eq_of_lt (by omega)

/-- An item's bytes written to the tail slot, and the item counted. -/
def storeItem (s : State) (t h : Nat) (bs : List Byte) : State := appendItem (writeSlot s t h (tailSlot s h) bs) t h

/-- The tail slot of a queue. -/
def tailAddr (s : State) (h : Nat) : Nat := qStore s h + slotBytes s h * tailSlot s h

/-- A slot lies in its store. -/
theorem slot_fits {n slot cap top : Nat} (hslot : slot < cap) (hfit : top + n * cap ≤ qdBase) : top + n * slot + n ≤ qdBase := by
  have hmul : n * (slot + 1) ≤ n * cap := Nat.mul_le_mul_left n hslot
  rw [Nat.mul_add, Nat.mul_one] at hmul
  omega

theorem tailSlot_lt (s : State) (h : Nat) : tailSlot s h < max 1 (qCapacity s h) := Nat.mod_lt _ (by omega)

theorem tailAddr_of_mem {s u : State} (hm : u.mem = s.mem) (h : Nat) : tailAddr u h = tailAddr s h := by
  rw [tailAddr, tailAddr, qStore_of_mem hm, slotBytes_of_mem hm, tailSlot_of_mem hm]

/-- Between s and u memory differs by an item of these bytes stored in queue h. -/
structure Stored (s : State) (h : Nat) (bs : List Byte) (u : State) : Prop where
  item : memRead u.mem (tailAddr s h) bs.length = bs
  count : qCount u h = qCount s h + 1
  frame : ∀ a, ¬ (tailAddr s h ≤ a ∧ a < tailAddr s h + bs.length) → ¬ (qdAddr h + 0x1C ≤ a ∧ a < qdAddr h + 0x20) →
    memGet u.mem a = memGet s.mem a

theorem Stored.of_mem {s v u : State} {h : Nat} {bs : List Byte} (hst : Stored v h bs u) (hm : v.mem = s.mem) : Stored s h bs u := by
  obtain ⟨hitem, hcount, hframe⟩ := hst
  rw [tailAddr_of_mem hm] at hitem hframe
  rw [qCount_of_mem hm] at hcount
  rw [hm] at hframe
  exact ⟨hitem, hcount, hframe⟩

section
variable {s : State} (hclean : s.memErr = []) (t h : Nat) (bs : List Byte)
include hclean

/-- Storing an item leaves the operations and the cores, entries apart. -/
theorem storeItem_others : (storeItem s t h bs).iops = s.iops ∧ ∀ w, PresentOnly (s.core w) ((storeItem s t h bs).core w) := by
  obtain ⟨l, hwrite⟩ := writeSlot_clean hclean t h (tailSlot s h) bs
  have hevent := appendItem_eventOnly (writeSlot s t h (tailSlot s h) bs) t h
  have hiops : (grown (writeSlot s t h (tailSlot s h) bs) t h).iops = s.iops := by
    rw [grown, setQueue_iops, setQdFld_iops, hwrite]
  have hcore (w : CoreSel) : (grown (writeSlot s t h (tailSlot s h) bs) t h).core w = s.core w := by
    rw [grown, core_setQueue, core_setQdFld, hwrite]
    cases w <;> rfl
  rw [storeItem]
  exact ⟨hevent.iops.trans hiops, fun w => hcore w ▸ hevent.core w⟩

theorem writeSlot_mem : (writeSlot s t h (tailSlot s h) bs).mem = memWrite s.mem (tailAddr s h) bs := by
  obtain ⟨l, hwrite⟩ := writeSlot_clean hclean t h (tailSlot s h) bs
  rw [hwrite, tailAddr]

/-- The item is in the slot, and the descriptor, below which the store ends, counts it. -/
theorem storeItem_stored (hwf : Memory.wf s.mem = true) (hlen : bs.length = slotBytes s h)
    (hfit : qStore s h + slotBytes s h * max 1 (qCapacity s h) ≤ qdBase) (hcount : qCount s h < 65535) :
    Stored s h bs (storeItem s t h bs) := by
  have hend : tailAddr s h + bs.length ≤ qdBase := hlen ▸ slot_fits (tailSlot_lt s h) hfit
  have htable : qdBase ≤ qdAddr h := by
    simp only [qdAddr, qdBase]
    omega
  have hmem := writeSlot_mem hclean t h bs
  have hevent := appendItem_eventOnly (writeSlot s t h (tailSlot s h) bs) t h
  obtain ⟨hread, hout⟩ := memWrite_window (a := tailAddr s h) hwf (rfl : bs.length = bs.length)
  rw [storeItem]
  generalize writeSlot s t h (tailSlot s h) bs = w at hmem hevent ⊢
  have hwfw : Memory.wf w.mem = true := hmem ▸ memWrite_wf hwf
  have hcountw : qCount w h = qCount s h :=
    congrArg (fieldOf · 31 16) (qdWord_congr (fun a ha => by rw [hmem, hout a (by omega)]) h 0x1C)
  have hframe {a : Nat} (ha : ¬ (qdAddr h + 0x1C ≤ a ∧ a < qdAddr h + 0x20)) : memGet (appendItem w t h).mem a = memGet w.mem a := by
    rw [hevent.mem]
    exact memGet_setQdFld hwfw h 0x1C 31 16 _ ha
  refine ⟨?_, ?_, fun a hslot hword => ?_⟩
  · rw [memRead_congr fun i hi => hframe (by omega), hmem, hread]
  · rw [qCount_of_mem hevent.mem, qCount_grown hwfw t (by omega), hcountw]
  · rw [hframe hword, hmem, hout a hslot]

end

/-! ### The oldest item (R284) -/

/-- A longer read begins with a shorter one. -/
theorem take_memRead (m : List Host.Cell) (a : Nat) {k n : Nat} (hk : k ≤ n) : (memRead m a n).take k = memRead m a k := by
  induction k generalizing a n with
  | zero => rfl
  | succ k ih =>
    obtain ⟨n, rfl⟩ := Nat.exists_eq_add_of_le' (Nat.one_le_of_lt hk)
    rw [memRead, memRead, List.take_succ_cons, ih (a + 1) (by omega)]

/-- A message's slot holds 8 bytes, and the item is the first 6 (R275). -/
theorem slotBytes_message {s : State} {h : Nat} (hk : qKind s h = 0) : slotBytes s h = 8 := if_pos hk

/-- A block is at most 2,047 words (R277). -/
theorem slotBytes_block_lt {s : State} {h : Nat} (hk : qKind s h ≠ 0) : slotBytes s h < 0x2000 := by
  have hsize : qBsize s h < 2 ^ 11 := Nat.mod_lt _ (by decide)
  rw [slotBytes, if_neg hk]
  omega

theorem readSlot_message {s : State} (hclean : s.memErr = []) (t : Nat) {h : Nat} (hk : qKind s h = 0) (slot : Nat) :
    (readSlot s t h slot).1.take 6 = memRead s.mem (qStore s h + 8 * slot) 6 := by
  obtain ⟨l, hread⟩ := readSlot_clean hclean t h slot
  rw [hread, slotBytes_message hk, take_memRead _ _ (by decide)]

theorem length_readSlot {s : State} (hclean : s.memErr = []) (t h slot : Nat) : (readSlot s t h slot).1.length = slotBytes s h := by
  obtain ⟨l, hread⟩ := readSlot_clean hclean t h slot
  rw [hread, length_memRead]

/-- The slot behind the oldest item. -/
def nextHead (s : State) (h : Nat) : Nat := (qHead s h + 1) % max 1 (qCapacity s h)

theorem nextHead_lt (s : State) (h : Nat) : nextHead s h < 65536 := by
  have hcap := qCapacity_lt s h
  have hslot := Nat.mod_lt (qHead s h + 1) (by omega : 0 < max 1 (qCapacity s h))
  rw [nextHead]
  omega

section
variable {s : State} (hwf : Memory.wf s.mem = true) (h : Nat)
include hwf

/-- Dropping an item writes the two fields of the last word. -/
theorem dropItem_mem : (dropItem s h).mem = ((s.setQdFld h 0x1C 31 16 (qCount s h - 1)).setQdFld h 0x1C 15 0 (nextHead s h)).mem := by
  have hhead : qHead (s.setQdFld h 0x1C 31 16 (qCount s h - 1)) h = qHead s h := by
    rw [qHead, qdFld_setQdFld_ne hwf h _ _ (by decide) (by decide) (by decide), qHead]
  have hcap : qCapacity (s.setQdFld h 0x1C 31 16 (qCount s h - 1)) h = qCapacity s h := by
    rw [qCapacity, qdFld_setQdFld_word hwf h _ _ _ _ _ (by decide), qCapacity]
  rw [dropItem, setQueue_mem, hhead, hcap, nextHead]

/-- Dropping an item leaves every word of the descriptor but the last. -/
theorem qdFld_dropItem {off : Nat} (hi lo : Nat) (hoff : off + 4 ≤ 0x1C) : (dropItem s h).qdFld h off hi lo = s.qdFld h off hi lo := by
  rw [qdFld_of_mem (dropItem_mem hwf h), qdFld_setQdFld_word (setQdFld_wf hwf) h _ _ _ _ _ (.inl hoff),
    qdFld_setQdFld_word hwf h _ _ _ _ _ (.inl hoff)]

theorem qCount_dropItem : qCount (dropItem s h) h = qCount s h - 1 := by
  have hlt := qCount_lt s h
  rw [qCount, qdFld_of_mem (dropItem_mem hwf h), qdFld_setQdFld_ne (setQdFld_wf hwf) h _ _ (by decide) (by decide) (by decide),
    qdFld_setQdFld_same hwf h _ _ (by decide) (by decide)]
  exact Nat.mod_eq_of_lt (by omega)

theorem qHead_dropItem : qHead (dropItem s h) h = nextHead s h := by
  rw [qHead, qdFld_of_mem (dropItem_mem hwf h), qdFld_setQdFld_same (setQdFld_wf hwf) h _ _ (by decide) (by decide)]
  exact Nat.mod_eq_of_lt (nextHead_lt s h)

end

theorem nextHead_of_mem {s u : State} (hm : u.mem = s.mem) (h : Nat) : nextHead u h = nextHead s h := by
  have hhead : qHead u h = qHead s h := qdFld_of_mem hm h 0x1C 15 0
  rw [nextHead, nextHead, hhead, qCapacity_of_mem hm]

theorem dropItem_memErr (s : State) (h : Nat) : (dropItem s h).memErr = s.memErr := by
  rw [dropItem, setQueue_memErr, setQdFld_memErr, setQdFld_memErr]

theorem dropItem_iops (s : State) (h : Nat) : (dropItem s h).iops = s.iops := by
  rw [dropItem, setQueue_iops, setQdFld_iops, setQdFld_iops]

/-- State d after state s, in which queue h has lost its oldest item. -/
structure Dropped (s : State) (h : Nat) (d : State) : Prop where
  shaped : Shaped d
  clean : d.memErr = []
  iops : d.iops = s.iops
  count : qCount d h = qCount s h - 1
  head : qHead d h = nextHead s h
  fields : ∀ off hi lo, off + 4 ≤ 0x1C → d.qdFld h off hi lo = s.qdFld h off hi lo

/-- The oldest item is read and dropped. -/
theorem dropItem_readSlot {s : State} (hs : Shaped s) (hclean : s.memErr = []) (t h slot : Nat) :
    Dropped s h (dropItem (readSlot s t h slot).2 h) := by
  have hshape : Shaped (readSlot s t h slot).2 := (readSlot_kept s t h slot (.refl s)).shaped hs
  obtain ⟨l, hread⟩ := readSlot_clean hclean t h slot
  rw [hread] at hshape ⊢
  generalize hx : ({ s with carLast := l } : State) = x at hshape
  have hmem : x.mem = s.mem := hx ▸ rfl
  have hiops : x.iops = s.iops := hx ▸ rfl
  have hxclean : x.memErr = [] := hx ▸ hclean
  refine ⟨(dropItem_kept x h (.refl x)).shaped hshape, (dropItem_memErr x h).trans hxclean, (dropItem_iops x h).trans hiops, ?_, ?_,
    fun off hi lo hoff => (qdFld_dropItem hshape.mem h hi lo hoff).trans (qdFld_of_mem hmem h off hi lo)⟩
  · rw [qCount_dropItem hshape.mem, qCount_of_mem hmem]
  · rw [qHead_dropItem hshape.mem, nextHead_of_mem hmem]

end Sys2Proof.Machine
end

section
/-! PROOF. SEND_ITEM_STORED, RECEIVE_ITEM_DELIVERED and RECEIVE_TIMEOUT (R281, R282, R284, R285, R289). -/

namespace Sys2Proof.Machine

/-! ### A send reaches its store (R281, R282) -/

/-- The core without its oldest send. -/
def unsent (s : State) (p : Nat) (rest : List SendEntry) : State :=
  s.setCore (.eduno p) { s.core (.eduno p) with sends := rest }

theorem unsent_mem (s : State) (p : Nat) (rest : List SendEntry) : (unsent s p rest).mem = s.mem := setCore_mem _ _ _

section
variable {s : State} {p : Nat} {e : SendEntry} {rest : List SendEntry} (hsends : (s.core (.eduno p)).sends = e :: rest) (t : Nat)
include hsends

/-- Of a message queue the item itself is stored. -/
theorem sendStored_message (hk : qKind s e.q = 0) :
    sendStored s p t = storeItem (unsent s p rest) t e.q (toBytesLE 8 e.item.toNat) := by
  have hk' : qKind (unsent s p rest) e.q = 0 := (qKind_of_mem (unsent_mem s p rest) e.q).trans hk
  rw [sendStored, hsends]
  exact if_pos hk'

/-- Of a block queue the block that the item names. -/
theorem sendStored_block (hk : qKind s e.q ≠ 0) : sendStored s p t =
    let b := readBlock (unsent s p rest) t e.q p (e.item.toNat % 2 ^ 32) (slotBytes (unsent s p rest) e.q)
    storeItem b.2 t e.q b.1 := by
  have hk' : qKind (unsent s p rest) e.q ≠ 0 := by rwa [qKind_of_mem (unsent_mem s p rest)]
  rw [sendStored, hsends]
  exact if_neg hk'

end

/-- What a send leaves in the store: the item, or the block that it names (R275, R276). -/
def sentBytes (s : State) (t p h : Nat) (item : W48) : List Byte :=
  if qKind s h = 0 then toBytesLE 8 item.toNat
  else (extRead s t .runner (coreBase + 0x100000 * p + item.toNat % 2 ^ 32) (slotBytes s h)).1

theorem length_sentBytes {s : State} (hclean : s.memErr = []) (t p h : Nat) (item : W48) :
    (sentBytes s t p h item).length = slotBytes s h := by
  unfold sentBytes
  split
  · next hk => rw [length_toBytesLE, slotBytes_message hk]
  · obtain ⟨l, hread⟩ := extRead_clean hclean t .runner (coreBase + 0x100000 * p + item.toNat % 2 ^ 32) (slotBytes s h)
    rw [hread, length_extBytes]

/-- The oldest send is stored as an item of those bytes: only the rounds that a block takes come before. -/
theorem sendStored_eq {s : State} (hclean : s.memErr = []) {p : Nat} {e : SendEntry} {rest : List SendEntry}
    (hsends : (s.core (.eduno p)).sends = e :: rest) (t : Nat) :
    ∃ l, sendStored s p t = storeItem { unsent s p rest with carLast := l } t e.q (sentBytes s t p e.q e.item) := by
  by_cases hk : qKind s e.q = 0
  · exact ⟨(unsent s p rest).carLast, by rw [sendStored_message hsends t hk, sentBytes, if_pos hk]⟩
  · obtain ⟨l, hblock⟩ := readBlock_clean (s := unsent s p rest) hclean t e.q p (e.item.toNat % 2 ^ 32) (slotBytes s e.q)
    obtain ⟨_, hread⟩ := extRead_clean hclean t .runner (coreBase + 0x100000 * p + e.item.toNat % 2 ^ 32) (slotBytes s e.q)
    refine ⟨l, ?_⟩
    rw [sendStored_block hsends t hk, slotBytes_of_mem (unsent_mem s p rest), hblock, sentBytes, if_neg hk, hread]
    rfl

/-- The item is at the tail slot, counted, and gone from the send buffer. -/
theorem sendStored_stored {s : State} (hs : Shaped s) (hclean : s.memErr = []) {p : Nat} (hp : p < 68) {e : SendEntry}
    {rest : List SendEntry} (hsends : (s.core (.eduno p)).sends = e :: rest) (t : Nat)
    (hfit : qStore s e.q + slotBytes s e.q * max 1 (qCapacity s e.q) ≤ qdBase) (hcount : qCount s e.q < 65535) :
    Stored s e.q (sentBytes s t p e.q e.item) (sendStored s p t) ∧ ((sendStored s p t).core (.eduno p)).sends = rest := by
  obtain ⟨l, hstore⟩ := sendStored_eq hclean hsends t
  have hset : (unsent s p rest).core (.eduno p) = { s.core (.eduno p) with sends := rest } := core_setCore_same s _ (hs.cores ▸ hp)
  rw [hstore]
  generalize hx : ({ unsent s p rest with carLast := l } : State) = x
  have hmem : x.mem = s.mem := hx ▸ rfl
  have hxclean : x.memErr = [] := hx ▸ hclean
  have hxset : x.core (.eduno p) = { s.core (.eduno p) with sends := rest } := hx ▸ hset
  obtain ⟨-, hcore⟩ := storeItem_others hxclean t e.q (sentBytes s t p e.q e.item)
  constructor
  · refine (storeItem_stored hxclean t e.q _ ?_ ?_ ?_ ?_).of_mem hmem
    · rw [hmem]
      exact hs.mem
    · rw [slotBytes_of_mem hmem, length_sentBytes hclean]
    · rw [qStore_of_mem hmem, slotBytes_of_mem hmem, qCapacity_of_mem hmem]
      exact hfit
    · rw [qCount_of_mem hmem]
      exact hcount
  · exact (congrArg Core.sends (hcore (.eduno p))).trans (congrArg Core.sends hxset)

/-! ### A receive ends with an item (R284, R285, R289) -/

/-- A core whose receive has brought a value. -/
def received (c : Core) (sup : Bool) (v : W48) : Core :=
  setRcv (setUnits c sup { unitsFor c sup with qioR := v, qioTo := false }) sup none

theorem received_units (c : Core) (sup : Bool) (v : W48) :
    unitsFor (received c sup v) sup = { unitsFor c sup with qioR := v, qioTo := false } := by cases sup <;> rfl

theorem received_rcv (c : Core) (sup : Bool) (v : W48) : rcvOf (received c sup v) sup = none := by cases sup <;> rfl

/-- A write of the Runner into a core memory with no unit in error meets none, and stays within its bytes (R185, R473). -/
theorem extWrite_frame {s : State} (hwf : Memory.wf s.mem = true) (hclean : s.memErr = []) (t : Nat) (w : MemWho) (a : Nat)
    (bs : List Byte) : (extWrite s t w a bs).1 = false ∧
      ∀ c, ¬ (a ≤ c ∧ c < a + bs.length) → memGet (extWrite s t w a bs).2.mem c = memGet s.mem c := by
  unfold extWrite
  dsimp only
  split
  · exact ⟨rfl, fun _ _ => rfl⟩
  · generalize hv : ({ s with extOld := noteOld s.extOld s.mem t a bs.length } : State) = v
    have hmem : v.mem = s.mem := hv ▸ rfl
    have hlen : (coreWins v t a (coreMask a bs)).length = bs.length := by
      rw [coreWins]
      split <;> simp [coreMask]
    obtain ⟨l, hwrite⟩ := writePhys_clean (s := v) (hv ▸ hclean) t w a (coreWins v t a (coreMask a bs))
    rw [hwrite]
    refine ⟨rfl, fun c hc => ?_⟩
    rw [setCore_mem, hmem]
    exact (memWrite_window hwf hlen).2 c hc

/-- Where the landing half of a block queue begins in the data memory of its core (R285). -/
def landingOff (s : State) (h n : Nat) : Nat := qLanding s h + n * qLslot s h

section
variable {s : State} (hwf : Memory.wf s.mem = true) (hclean : s.memErr = []) (t h : Nat) {p : Nat} (hp : p < 68) {bs : List Byte}
  (hlen : bs.length < 0x2000)
include hwf hclean hp hlen

/-- A block that lands changes nothing of the descriptor but the half that the next one goes to: the core memories lie below the
table (R182, R273, R285). -/
theorem landBlock_fields : (landBlock s t h p bs).1 = BitVec.ofNat 48 (landingOff s h bs.length) ∧
    qLslot (landBlock s t h p bs).2 h = 1 - qLslot s h ∧
    ∀ off hi lo, off + 4 ≤ 0x18 ∨ 0x18 + 4 ≤ off → (landBlock s t h p bs).2.qdFld h off hi lo = s.qdFld h off hi lo := by
  have hhalf : qLslot s h < 2 := Nat.mod_lt _ (by decide)
  have hbase : qLanding s h < 0x80000 := Nat.mod_lt _ (by decide)
  have hoff : landingOff s h bs.length < 0x82000 := by
    have hmul : bs.length * qLslot s h ≤ bs.length * 1 := Nat.mul_le_mul_left _ (Nat.le_of_lt_succ hhalf)
    rw [landingOff]
    omega
  obtain ⟨hok, hframe⟩ := extWrite_frame hwf hclean t .runner (coreBase + 0x100000 * p + landingOff s h bs.length) bs
  have hwfu := (extWrite_kept s t .runner (coreBase + 0x100000 * p + landingOff s h bs.length) bs (.refl s)).mem hwf
  have hland : landBlock s t h p bs = (BitVec.ofNat 48 (landingOff s h bs.length),
      let u := (extWrite s t .runner (coreBase + 0x100000 * p + landingOff s h bs.length) bs).2
      u.setQdFld h 0x18 31 31 (1 - qLslot u h)) := by
    rw [landingOff] at hok ⊢
    simp only [landBlock, hok, Bool.false_eq_true, if_false]
  rw [hland]
  generalize (extWrite s t .runner (coreBase + 0x100000 * p + landingOff s h bs.length) bs).2 = u at hframe hwfu ⊢
  have hword (off : Nat) : u.qdWord h off = s.qdWord h off :=
    qdWord_congr (fun a ha => hframe a (by simp only [coreBase, qdBase] at ha ⊢; omega)) h off
  have hfld (off hi lo : Nat) : u.qdFld h off hi lo = s.qdFld h off hi lo := congrArg (fieldOf · hi lo) (hword off)
  have hslot : qLslot u h = qLslot s h := hfld 0x18 31 31
  refine ⟨rfl, ?_, fun off hi lo hd => ?_⟩
  · rw [qLslot, qdFld_setQdFld_same hwfu h _ _ (by decide) (by decide), hslot]
    exact Nat.mod_eq_of_lt (by omega)
  · rw [qdFld_setQdFld_word hwfu h _ _ _ _ _ hd, hfld]

end

/-- The receive of a unit set of core p has ended, in state u, with value v and the oldest item of queue h, as it stood in state s. -/
structure Received (s : State) (p : Nat) (sup : Bool) (h : Nat) (v : W48) (u : State) : Prop where
  flag : (unitsFor (u.core (.eduno p)) sup).qioTo = false
  value : (unitsFor (u.core (.eduno p)) sup).qioR = v
  ended : rcvOf (u.core (.eduno p)) sup = none
  count : qCount u h = qCount s h - 1
  head : qHead u h = nextHead s h

/-- The core takes the value in a state in which the queue has dropped its item. -/
theorem Received.of_dropped {s d : State} {p h : Nat} (hd : Shaped d) (hp : p < 68) (sup : Bool) (v : W48)
    (hcount : qCount d h = qCount s h - 1) (hhead : qHead d h = nextHead s h) :
    Received s p sup h v (d.setCore (.eduno p) (received (d.core (.eduno p)) sup v)) := by
  have hset : (d.setCore (.eduno p) (received (d.core (.eduno p)) sup v)).core (.eduno p) = received (d.core (.eduno p)) sup v :=
    core_setCore_same d _ (hd.cores ▸ hp)
  have hmem := setCore_mem d (.eduno p) (received (d.core (.eduno p)) sup v)
  refine ⟨?_, ?_, ?_, (qCount_of_mem hmem h).trans hcount, (qdFld_of_mem hmem h 0x1C 15 0).trans hhead⟩
  · rw [hset, received_units]
  · rw [hset, received_units]
  · rw [hset, received_rcv]

section
variable {s : State} (hs : Shaped s) (hclean : s.memErr = []) {p : Nat} (hp : p < 68) (sup : Bool) (q : Rcv) (t : Nat)
include hs hclean hp

/-- Of a message queue the oldest item is the value (R284). -/
theorem rcvTake_message (hk : qKind s q.q = 0) : Received s p sup q.q
    (BitVec.ofNat 48 (ofBytesLE (memRead s.mem (qStore s q.q + 8 * qHead s q.q) 6))) (rcvTake s p sup q t) := by
  obtain ⟨hshape, -, -, hcount, hhead, hfields⟩ := dropItem_readSlot hs hclean t q.q (qHead s q.q)
  have hkind : qKind (dropItem (readSlot s t q.q (qHead s q.q)).2 q.q) q.q = 0 := (hfields 4 30 29 (by decide)).trans hk
  rw [rcvTake, if_pos hkind, readSlot_message hclean t hk]
  exact Received.of_dropped hshape hp sup _ hcount hhead

/-- Of a block queue the address of the landing half is, and the halves change places (R285). -/
theorem rcvTake_block (hk : qKind s q.q ≠ 0) :
    Received s p sup q.q (BitVec.ofNat 48 (landingOff s q.q (slotBytes s q.q))) (rcvTake s p sup q t) ∧
      qLslot (rcvTake s p sup q t) q.q = 1 - qLslot s q.q := by
  obtain ⟨hshape, hdclean, -, hcount, hhead, hfields⟩ := dropItem_readSlot hs hclean t q.q (qHead s q.q)
  have hlen := length_readSlot hclean t q.q (qHead s q.q)
  rw [rcvTake]
  generalize (readSlot s t q.q (qHead s q.q)).1 = bs at hlen ⊢
  generalize dropItem (readSlot s t q.q (qHead s q.q)).2 q.q = d at hshape hdclean hcount hhead hfields ⊢
  have hkind : qKind d q.q ≠ 0 := fun h0 => hk ((hfields 4 30 29 (by decide)).symm.trans h0)
  have hslot : qLslot d q.q = qLslot s q.q := hfields 0x18 31 31 (by decide)
  have hbase : qLanding d q.q = qLanding s q.q := hfields 0x18 18 0 (by decide)
  have hsize : bs.length < 0x2000 := hlen ▸ slotBytes_block_lt hk
  obtain ⟨haddr, hhalf, hothers⟩ := landBlock_fields hshape.mem hdclean t q.q hp hsize
  have hland : Shaped (landBlock d t q.q p bs).2 := (landBlock_kept _ t q.q p bs (.refl _)).shaped hshape
  rw [if_neg hkind]
  rw [landingOff, hbase, hslot, hlen] at haddr
  rw [hslot] at hhalf
  constructor
  · rw [landingOff, ← haddr]
    exact Received.of_dropped hland hp sup _ ((hothers 0x1C 31 16 (by decide)).trans hcount) ((hothers 0x1C 15 0 (by decide)).trans hhead)
  · exact (qdFld_of_mem (setCore_mem _ _ _) q.q 0x18 31 31).trans hhalf

end

/-! ### The commands -/

section
variable {s r : State} {t : Nat} (hr : runsAt s t r) {p : Nat} (hp : p < 68) (sup : Bool)
include hr hp

theorem exec_sendItemStored : exec (.sendItemStored t p) s = .next (sendStored r p t) :=
  congrArg Host.Outcome.next ((awake_runs hr _).trans (upTo_lt hp _ _))

theorem exec_receiveItemDelivered : exec (.receiveItemDelivered t p sup) s = .next (receiveDelivered r p sup t) :=
  congrArg Host.Outcome.next ((awake_runs hr _).trans (upTo_lt hp _ _))

theorem exec_receiveTimeout : exec (.receiveTimeout t p sup) s = .next (receiveTimeout r p sup t) :=
  congrArg Host.Outcome.next ((awake_runs hr _).trans (upTo_lt hp _ _))

end

section
variable {s : State} {p t : Nat} {sup : Bool} {q : Rcv} (hq : rcvOf (s.core (.eduno p)) sup = some q)
include hq

theorem receiveDelivered_due (hat : q.at' ≤ t) (hin : t ≤ q.expiry ∨ q.sure = true) (hitem : rcvHasItem s p q = true) :
    receiveDelivered s p sup t = rcvTake s p sup q t := by
  rw [receiveDelivered, hq]
  exact if_pos ⟨hat, hin, hitem⟩

theorem receiveTimeout_early (ht : t < max q.at' q.expiry) : receiveTimeout s p sup t = s := by
  rw [receiveTimeout, hq]
  exact if_pos ht

/-- In the expiry cycle an item that stands in the queue wins (R52; log entry 74). -/
theorem receiveTimeout_item (ht : max q.at' q.expiry ≤ t) (hwins : t = q.expiry ∨ q.sure = true) (hitem : rcvHasItem s p q = true) :
    receiveTimeout s p sup t = rcvTake s p sup q t := by
  rw [receiveTimeout, hq]
  exact (if_neg (Nat.not_lt.mpr ht)).trans (if_pos ⟨hwins, hitem⟩)

theorem receiveTimeout_expired (ht : max q.at' q.expiry ≤ t) (hnone : ¬ ((t = q.expiry ∨ q.sure = true) ∧ rcvHasItem s p q = true)) :
    receiveTimeout s p sup t = s.setCore (.eduno p) (setRcv (setUnits (s.core (.eduno p)) sup
      { unitsFor (s.core (.eduno p)) sup with qioR := 0, qioTo := true }) sup none) := by
  rw [receiveTimeout, hq]
  exact (if_neg (Nat.not_lt.mpr ht)).trans (if_neg hnone)

end

end Sys2Proof.Machine

namespace Sys2Proof.Proofs

open Sys2Proof.Machine

/-- Settles O18: a send is an item stored (`sendStored_stored`), a receive takes the oldest item by the kind of its queue
(`rcvTake_message`, `rcvTake_block`), and the end of its time is one of three cases. -/
theorem coreQueues : Obligations.CoreQueues := by
  unfold Obligations.CoreQueues
  refine ⟨fun s r t p e rest hr hs hp hclean hsends _ hcount hfit => ?_,
    fun s r t p sup q hr hs hp hq => ⟨fun hclean hat hexp hitem _ => ?_, fun ht => ?_, fun ht hwins hitem => ?_, fun ht hnone => ?_⟩⟩
  · obtain ⟨⟨hstored, hone, hframe⟩, hgone⟩ := sendStored_stored hs hclean hp hsends t hfit hcount
    rw [length_sentBytes hclean] at hstored hframe
    exact ⟨_, exec_sendItemStored hr hp, hstored, hone, hgone, hframe⟩
  · refine ⟨_, exec_receiveItemDelivered hr hp sup, ?_⟩
    rw [receiveDelivered_due hq hat (.inl hexp) hitem]
    by_cases hk : qKind r q.q = 0
    · obtain ⟨hflag, hvalue, hended, hone, hhead⟩ := rcvTake_message hs hclean hp sup q t hk
      exact ⟨hflag, hended, hone, hhead, fun _ => hvalue, fun hblock => absurd hk hblock⟩
    · obtain ⟨⟨hflag, hvalue, hended, hone, hhead⟩, hhalf⟩ := rcvTake_block hs hclean hp sup q t hk
      exact ⟨hflag, hended, hone, hhead, fun hmessage => absurd hmessage hk, fun _ => ⟨hvalue, hhalf⟩⟩
  · rw [exec_receiveTimeout hr hp, receiveTimeout_early hq ht]
  · have hat : q.at' ≤ t := (Nat.le_max_left _ _).trans ht
    rw [exec_receiveTimeout hr hp, exec_receiveItemDelivered hr hp, receiveTimeout_item hq ht hwins hitem,
      receiveDelivered_due hq hat (hwins.imp_left Nat.le_of_eq) hitem]
  · rw [exec_receiveTimeout hr hp, receiveTimeout_expired hq ht hnone]

end Sys2Proof.Proofs
end

section
/-! PROOF. DESCRIPTOR_WRITE and ITEM_AGE_TIMEOUT (R278, R279, R293, R296). -/

namespace Sys2Proof.Machine

/-! ### A descriptor write (R278, R279) -/

/-- A word of the descriptor table, named by its physical address, is a write of that descriptor (R273). -/
theorem tableWrite_descriptor (s : State) (ini : Ini) {h off : Nat} (hh : h < 65536) (hoff : off < 32) (v : W32) (t : Nat) :
    tableWrite s ini (qdBase + 32 * h + off) v t = descWrite s ini (decide (debugLevel s = 2)) h off v t := by
  have hin : qdBase + 32 * h + off < streamBase := by
    simp only [qdBase, streamBase]
    omega
  have hhandle : (qdBase + 32 * h + off) % 0x200000 / 32 = h := by
    simp only [qdBase]
    omega
  have hword : (qdBase + 32 * h + off) % 32 = off := by
    simp only [qdBase]
    omega
  rw [tableWrite, if_pos hin, hhandle, hword]

theorem exec_descriptorWrite {s r : State} {t : Nat} (hr : runsAt s t r) (ini : Ini) {h off : Nat} (hh : h < 65536) (hoff : off < 32)
    (h4 : off % 4 = 0) (v : W32) :
    exec (.descriptorWrite t ini h off v) s = .next (descWrite r ini (decide (debugLevel r = 2)) h off v t) :=
  congrArg Host.Outcome.next ((awake_runs hr _).trans ((upTo_lt hh _ _).trans
    ((if_pos ⟨hoff, h4⟩).trans (tableWrite_descriptor r ini hh hoff v t))))

section
variable {s : State} {ini : Ini} {full : Bool} {h off : Nat} (v : W32) (t : Nat)

theorem descWrite_refused (hok : descWriteOk s ini full h off = false) : descWrite s ini full h off v t = runErr s t h 6 :=
  if_neg (by simp [hok])

theorem descWrite_plain (hok : descWriteOk s ini full h off = true) (hen : ¬ (off = 4 ∧ bitOf v.toNat 31 = true)) :
    descWrite s ini full h off v t = s.setQdWord h off v := (if_pos hok).trans (if_neg hen)

theorem descWrite_enable (hok : descWriteOk s ini full h off = true) (hen : off = 4 ∧ bitOf v.toNat 31 = true) :
    descWrite s ini full h off v t = enableQueue (s.setQdWord h off v) t h := (if_pos hok).trans (if_pos hen)

end

/-- What enabling makes of a queue: nothing is taken yet, and one that is invalid is bad (R279). -/
theorem enableQueue_facts (s : State) (t h : Nat) : (enableQueue s t h).mem = s.mem ∧ ((enableQueue s t h).queue h).taken = 0 ∧
    ((enableQueue s t h).queue h).bad = qInvalid s h := by
  unfold enableQueue
  split
  · next hbad =>
    obtain ⟨hmem, hqueues, -, -⟩ := runErr_eventOnly (s.setQueue h { QueueSt.empty with bad := true, clearAt := some (t + 1) }) t h 1
    rw [queue_congr hqueues, queue_setQueue_same, hmem, hbad]
    exact ⟨rfl, rfl, rfl⟩
  · next hgood =>
    rw [queue_setQueue_same]
    exact ⟨rfl, rfl, (Bool.not_eq_true _ ▸ hgood : qInvalid s h = false).symm⟩

/-- A queue whose word sets en is enabled exactly when its descriptor is valid (R279). -/
theorem qEn_enableQueue {s : State} {h : Nat} (t : Nat) (hen : bitOf (s.qdWord h 4).toNat 31 = true) :
    qEn (enableQueue s t h) h = !qInvalid s h := by
  obtain ⟨hmem, -, hbad⟩ := enableQueue_facts s t h
  rw [qEn, qdWord_of_mem hmem, hen, hbad, Bool.true_and]

/-! ### The age of an item (R293) -/

theorem exec_itemAgeTimeout {s r : State} {t : Nat} (hr : runsAt s t r) {h : Nat} (hh : h < 65536) :
    exec (.itemAgeTimeout t h) s = .next (itemAge r h t) := congrArg Host.Outcome.next ((awake_runs hr _).trans (upTo_lt hh _ _))

/-- Queue h with its items' ages noted as given, and its aged flag set. -/
def agedQueue (s : State) (h : Nat) (born : List (Nat × Bool)) : State :=
  (s.setQueue h { s.queue h with born := born }).setQdFld h 0x18 29 29 1

section
variable {s : State} {h b : Nat} {l l' : List (Nat × Bool)} (hborn : (s.queue h).born = l ++ (b, false) :: l')
  (hl : ∀ x ∈ l, x.2 = true) (t : Nat)
include hborn hl

/-- The first item that has not been reported follows all that have. -/
theorem takeWhile_reported : (s.queue h).born.takeWhile (fun x => x.2) = l := by
  rw [hborn, List.takeWhile_append_of_pos hl, List.takeWhile_cons_of_neg Bool.false_ne_true, List.append_nil]

theorem firstUnreported : (s.queue h).born[((s.queue h).born.takeWhile fun x => x.2).length]? = some (b, false) := by
  rw [takeWhile_reported hborn hl, hborn, List.getElem?_append_right (Nat.le_refl _), Nat.sub_self, List.getElem?_cons_zero]

theorem itemAge_young (ht : t < b + 1536 * qTimeout s h) : itemAge s h t = s := by
  simp only [itemAge, firstUnreported hborn hl]
  exact if_neg fun hdue => Nat.not_le.mpr ht hdue.2.2

/-- An item that has reached the limit is reported: the flag, and the event that the descriptor may ask for. -/
theorem itemAge_aged (hen : qEn s h = true) (hlim : qTimeout s h ≠ 0) (ht : b + 1536 * qTimeout s h ≤ t) :
    EventOnly (agedQueue s h (l ++ (b, true) :: l')) (itemAge s h t) := by
  have hset : (s.queue h).born.set ((s.queue h).born.takeWhile fun x => x.2).length (b, true) = l ++ (b, true) :: l' := by
    rw [takeWhile_reported hborn hl, hborn, List.set_append_right _ _ (Nat.le_refl _), Nat.sub_self, List.set_cons_zero]
  have hdue : qEn s h = true ∧ 1536 * qTimeout s h ≠ 0 ∧ b + 1536 * qTimeout s h ≤ t := ⟨hen, by omega, ht⟩
  simp only [itemAge, firstUnreported hborn hl, hset]
  rw [if_pos hdue]
  exact .ite (pulseSrc_eventOnly _ t h) (.refl _)

end

/-- The flag is set, and the count stands. -/
theorem agedQueue_facts {s : State} (hwf : Memory.wf s.mem = true) (h : Nat) (born : List (Nat × Bool)) :
    ((agedQueue s h born).queue h).born = born ∧ (agedQueue s h born).qdFld h 0x18 29 29 = 1 ∧
      qCount (agedQueue s h born) h = qCount s h := by
  have hqueue := queue_setQueue_same s h { s.queue h with born := born }
  have hmem := setQueue_mem s h { s.queue h with born := born }
  rw [agedQueue]
  generalize s.setQueue h { s.queue h with born := born } = u at hqueue hmem ⊢
  have hwfu : Memory.wf u.mem = true := hmem ▸ hwf
  refine ⟨?_, qdFld_setQdFld_same hwfu h 0x18 1 (by decide) (by decide), ?_⟩
  · rw [queue_congr (setQdFld_queues u h 0x18 29 29 1), hqueue]
  · rw [qCount, qdFld_setQdFld_word hwfu h _ _ _ _ _ (by decide)]
    exact qCount_of_mem hmem h

end Sys2Proof.Machine

namespace Sys2Proof.Proofs

open Sys2Proof.Machine

/-- Settles O22: a descriptor write is one of three (`descWrite_plain`, `descWrite_enable`, `descWrite_refused`), and an item is
young or aged. -/
theorem descriptors : Obligations.Descriptors := by
  unfold Obligations.Descriptors
  refine ⟨fun s r t ini h off v hr hs hh hoff h4 => ⟨fun hok hplain => ?_, fun hok hword hen => ?_, fun hok => ?_⟩,
    fun s r t h b l l' hr hs hh hborn hl hen hlim => ⟨fun ht => ?_, fun ht => ?_⟩⟩
  · rw [exec_descriptorWrite hr ini hh hoff h4, descWrite_plain v t hok hplain]
  · subst hword
    have hset : bitOf ((r.setQdWord h 4 v).qdWord h 4).toNat 31 = true := by rwa [qdWord_setQdWord_same hs.mem]
    obtain ⟨hmem, htaken, -⟩ := enableQueue_facts (r.setQdWord h 4 v) t h
    refine ⟨_, exec_descriptorWrite hr ini hh hoff h4 v, ?_⟩
    rw [descWrite_enable v t hok ⟨rfl, hen⟩]
    refine ⟨qEn_enableQueue t hset, htaken, fun a ha => ?_⟩
    rw [hmem, memGet_setQdWord hs.mem h 4 v ha]
  · refine ⟨_, exec_descriptorWrite hr ini hh hoff h4 v, ?_⟩
    rw [descWrite_refused v t hok]
    exact ⟨(runErr_eventOnly r t h 6).mem, runErr_valid r t h 6, fun hfirst => runErr_first hfirst t hh (by decide)⟩
  · rw [exec_itemAgeTimeout hr hh, itemAge_young hborn hl t ht]
  · obtain ⟨hborns, hflag, hcount⟩ := agedQueue_facts hs.mem h (l ++ (b, true) :: l')
    have hevent := itemAge_aged hborn hl t hen hlim ht
    refine ⟨_, exec_itemAgeTimeout hr hh, ?_, (hevent.qdFld h 0x18 29 29).trans hflag, (qCount_of_mem hevent.mem h).trans hcount⟩
    rw [hevent.queue, hborns]

end Sys2Proof.Proofs
end

section
/-! PROOF. INITIATOR_SEND, INITIATOR_RECEIVE and INITIATOR_OP_END of a register set (R297). -/

namespace Sys2Proof.Machine

/-! ### The command word of RUN_IOP -/

/-- Bit 31 and the low half of RUN_IOPs are its fields. -/
theorem fieldBits_runIop {v : Nat} (hv : v % 2 ^ 31 < 65536) (hw : v < 2 ^ 32) : fieldBits .runIop v = v := by
  simp only [fieldBits, regRow, fd, List.foldl, bitsOf, Nat.shiftRight_eq_div_pow]
  omega

theorem reservedIn_runIop (i : Nat) {v : Nat} (hv : v % 2 ^ 31 < 65536) (hw : v < 2 ^ 32) : reservedIn .runIop i v = false := by
  rw [reservedIn, planWrite_unfixed rfl, fieldBits_runIop hv hw, Nat.mod_eq_of_lt hw]
  simp [regRow, planField, fieldLegal, wordLegal]

section
variable {s r : State} {t : Nat} (hr : runsAt s t r) {i h : Nat} (hi : i < 2) (hh : h < 65536)
include hr hi hh

theorem exec_initiatorSend : exec (.initiatorSend t i h) s = .next (initSend (noted r t .runIop i) i h t) := by
  have hword : (BitVec.ofNat 32 (h % 65536)).toNat = h := by
    rw [BitVec.toNat_ofNat]
    omega
  have hput := put_runIop (s := r) (ini := endIni i) (t := t) (v := BitVec.ofNat 32 (h % 65536)) hi
    (reservedIn_runIop i (by omega) (by omega))
  have hbit : bitOf h 31 = false := Nat.testBit_lt_two_pow (by omega)
  have hhandle : fieldOf (BitVec.ofNat 32 (h % 65536)) 15 0 = h := by
    simp only [fieldOf, hword, bitsOf, Nat.shiftRight_zero]
    omega
  rw [hword, hbit, hhandle, if_neg Bool.false_ne_true] at hput
  exact congrArg Host.Outcome.next ((awake_runs hr _).trans hput)

theorem exec_initiatorReceive : exec (.initiatorReceive t i h) s = .next (initReceive (noted r t .runIop i) i h) := by
  have hword : (BitVec.ofNat 32 (0x80000000 + h % 65536)).toNat = 2 ^ 31 + h := by
    rw [BitVec.toNat_ofNat]
    omega
  have hput := put_runIop (s := r) (ini := endIni i) (t := t) (v := BitVec.ofNat 32 (0x80000000 + h % 65536)) hi
    (reservedIn_runIop i (by omega) (by omega))
  have hbit : bitOf (2 ^ 31 + h) 31 = true := by
    rw [bitOf, Nat.testBit_two_pow_add_eq, Nat.testBit_lt_two_pow (by omega), Bool.not_false]
  have hhandle : fieldOf (BitVec.ofNat 32 (0x80000000 + h % 65536)) 15 0 = h := by
    simp only [fieldOf, hword, bitsOf, Nat.shiftRight_zero]
    omega
  rw [hword, hbit, hhandle, if_pos rfl] at hput
  exact congrArg Host.Outcome.next ((awake_runs hr _).trans hput)

end

/-! ### The start of an operation -/

/-- A noted write leaves the registers. -/
theorem noted_bit (s : State) (t : Nat) (n : RegName) (i : Nat) (m : RegName) (b j : Nat) :
    (noted s t n i).bit m b j = s.bit m b j := bit_congr rfl m b j 0

/-- The item that a register set holds for a send. -/
def setItem (s : State) (i : Nat) : W48 := BitVec.ofNat 48 ((s.reg .runIdl i).toNat + 2 ^ 32 * (s.reg .runIdh i).toNat)

/-- Register set i busy with an operation. -/
def opStarted (s : State) (i : Nat) (o : IOp) : State := { s.setBit .runIst 7 true i with iops := kput s.iops i o }

section
variable {s : State} {i : Nat} (h : Nat)

theorem initSend_busy (t : Nat) (hbusy : s.bit .runIst 7 i = true) : initSend s i h t = s := if_pos hbusy

theorem initReceive_busy (hbusy : s.bit .runIst 7 i = true) : initReceive s i h = s := if_pos hbusy

theorem initReceive_idle (hidle : s.bit .runIst 7 i = false) : initReceive s i h = opStarted s i ⟨h, true, 0, 0⟩ :=
  if_neg (by simp [hidle])

/-- A send of an idle set is judged at once: accepted it takes a credit, else it is refused. -/
theorem initSend_idle (t : Nat) (hidle : s.bit .runIst 7 i = false) : initSend s i h t =
    let u := opStarted s i ⟨h, false, setItem s i, initSendResult s i h⟩
    if initSendResult s i h = 0 then u.setQdFld h 0x14 15 0 (qCredLeft u h - 1) else refuse u t h (0x100 + i) :=
  if_neg (by simp [hidle])

theorem opStarted_busy (o : IOp) : (opStarted s i o).bit .runIst 7 i = true :=
  (bit_setBit_same s .runIst 7 true i 0 (by decide)).trans (if_pos rfl)

theorem opStarted_op (o : IOp) : kget (opStarted s i o).iops i = some o := kget_kput_same _ _ _

theorem opStarted_mem (o : IOp) : (opStarted s i o).mem = s.mem := rfl

end

theorem qCredLeft_of_mem {s u : State} (hm : u.mem = s.mem) (h : Nat) : qCredLeft u h = qCredLeft s h := qdFld_of_mem hm h 0x14 15 0

/-- A state in which set i is busy with operation o. -/
def Busy (s : State) (i : Nat) (o : IOp) : Prop := s.bit .runIst 7 i = true ∧ kget s.iops i = some o

section
variable {s : State} (hwf : Memory.wf s.mem = true) {i : Nat} (o : IOp) (h : Nat)
include hwf

/-- Taking a credit changes one field of the descriptor. -/
theorem takeCredit_facts : let u := opStarted s i o
    Busy (u.setQdFld h 0x14 15 0 (qCredLeft u h - 1)) i o ∧
      qCredLeft (u.setQdFld h 0x14 15 0 (qCredLeft u h - 1)) h = qCredLeft s h - 1 ∧
      qCount (u.setQdFld h 0x14 15 0 (qCredLeft u h - 1)) h = qCount s h := by
  have hlt := qCredLeft_lt s h
  have hmem := opStarted_mem (s := s) (i := i) o
  have hbusy := opStarted_busy (s := s) (i := i) o
  have hop := opStarted_op (s := s) (i := i) o
  dsimp only
  generalize opStarted s i o = u at hmem hbusy hop ⊢
  have hwfu : Memory.wf u.mem = true := hmem ▸ hwf
  refine ⟨⟨?_, ?_⟩, ?_, ?_⟩
  · rw [bit_congr (setQdFld_regs u h 0x14 15 0 _), hbusy]
  · rw [setQdFld_iops, hop]
  · rw [qCredLeft, qdFld_setQdFld_same hwfu h _ _ (by decide) (by decide), qCredLeft_of_mem hmem]
    exact Nat.mod_eq_of_lt (by omega)
  · rw [qCount, qdFld_setQdFld_word hwfu h _ _ _ _ _ (by decide)]
    exact qCount_of_mem hmem h

/-- A refusal sets the flag, and no register of the set. -/
theorem refuseStarted_facts (hi : i < 2) (t : Nat) : let u := opStarted s i o
    Busy (refuse u t h (0x100 + i)) i o ∧ (refuse u t h (0x100 + i)).qdFld h 0x18 30 30 = 1 ∧
      qCredLeft (refuse u t h (0x100 + i)) h = qCredLeft s h := by
  have hmem := opStarted_mem (s := s) (i := i) o
  have hbusy := opStarted_busy (s := s) (i := i) o
  have hop := opStarted_op (s := s) (i := i) o
  dsimp only
  generalize opStarted s i o = u at hmem hbusy hop ⊢
  have hwfu : Memory.wf u.mem = true := hmem ▸ hwf
  have hoff : kget (refuse u t h (0x100 + i)).regs (regOff .runIst i 0) = kget u.regs (regOff .runIst i 0) := by
    refine refuse_regs u t h (by omega) ?_ ?_ <;> simp only [regOff, regRow] <;> omega
  refine ⟨⟨?_, ?_⟩, refuse_flag hwfu t h _, (refuse_credit hwfu t h _).trans (qCredLeft_of_mem hmem h)⟩
  · rw [State.bit, State.reg, hoff]
    exact hbusy
  · rw [(refuse_eventOnly u t h (0x100 + i)).iops, setQdFld_iops, hop]

end

theorem initSendResult_noted (s : State) (t : Nat) (n : RegName) (i j h : Nat) :
    initSendResult (noted s t n i) j h = initSendResult s j h := rfl

/-! ### The end of an operation -/

/-- Register set i with result n and no operation. -/
def opDone (s : State) (i n : Nat) : State := (s.setBit .runIst 7 false i).setFld .runIst 6 4 n i

/-- The operations without the one of set i. -/
def opTaken (s : State) (i : Nat) : State := { s with iops := kdel s.iops i }

theorem opDone_idle (s : State) (i n : Nat) : (opDone s i n).bit .runIst 7 i = false := by
  rw [opDone, State.bit, reg_setFld_same, bitOf, testBit_withField (by decide) (by decide), if_neg (by decide)]
  exact (bit_setBit_same s .runIst 7 false i 0 (by decide)).trans (if_pos rfl)

theorem opDone_result (s : State) (i : Nat) {n : Nat} (hn : n < 8) : (opDone s i n).fld .runIst 6 4 i = n :=
  (fld_setFld_same _ .runIst n i 0 (by decide) (by decide)).trans (Nat.mod_eq_of_lt hn)

theorem opDone_mem (s : State) (i n : Nat) : (opDone s i n).mem = s.mem := rfl

theorem reg_opDone_ne (s : State) {i : Nat} (n : Nat) {m : RegName} (hm : regOff m i 0 ≠ regOff .runIst i 0) :
    (opDone s i n).reg m i = s.reg m i := (reg_setFld_ne _ _ _ _ hm).trans (reg_setBit_ne s _ _ hm)

/-- What the judgement of a receive by set i finds wrong, the want of an item apart (R297). -/
def recvCode (s : State) (i h : Nat) : Nat :=
  if qEn s h = false then 2 else if qConsumer s h ≠ initEndpoint i then 3 else if qKind s h ≠ 0 then 6 else 0

/-- The result of a receive by set i (R297). -/
def recvResult (s : State) (i h : Nat) : Nat :=
  if !qEn s h then 2 else if qConsumer s h ≠ initEndpoint i then 3 else if qKind s h ≠ 0 then 6 else if qCount s h = 0 then 1 else 0

theorem recvResult_eq (s : State) (i h : Nat) :
    recvResult s i h = if recvCode s i h = 0 then (if qCount s h = 0 then 1 else 0) else recvCode s i h := by
  unfold recvResult recvCode
  cases qEn s h with
  | false => rfl
  | true =>
    by_cases hcons : qConsumer s h = initEndpoint i
    · by_cases hkind : qKind s h = 0 <;> simp [hcons, hkind]
    · simp [hcons]

theorem recvCode_range {s : State} {i h : Nat} (hcode : recvCode s i h ≠ 0) : 1 < recvCode s i h ∧ recvCode s i h < 8 := by
  unfold recvCode at hcode ⊢
  split_ifs at hcode ⊢
  · decide
  · decide
  · decide
  · exact absurd rfl hcode

theorem recvCode_kind {s : State} {i h : Nat} (hcode : recvCode s i h = 0) : qKind s h = 0 := by
  unfold recvCode at hcode
  split_ifs at hcode with _ _ hkind
  exact not_not.mp hkind

/-- The halves of value v in the two registers of set i, where hardware wrote them in cycle t (R9). -/
def putHalves (s : State) (i t v : Nat) : State :=
  let u := (s.setReg .runIdl (BitVec.ofNat 32 v) i).setReg .runIdh (BitVec.ofNat 32 (v / 2 ^ 32)) i
  { u with hwSet := kput (kput u.hwSet (regOff .runIdl i 0) (t, 0xFFFFFFFF)) (regOff .runIdh i 0) (t, 0xFFFFFFFF) }

theorem putHalves_low (s : State) (i t v : Nat) : (putHalves s i t v).reg .runIdl i = BitVec.ofNat 32 v := by
  have hne : regOff .runIdl i 0 ≠ regOff .runIdh i 0 := by
    simp only [regOff, regRow]
    omega
  exact (reg_setReg_ne _ _ hne).trans (reg_setReg_same _ _ _ _ _)

theorem putHalves_high (s : State) (i t v : Nat) : (putHalves s i t v).reg .runIdh i = BitVec.ofNat 32 (v / 2 ^ 32) :=
  reg_setReg_same (s.setReg .runIdl (BitVec.ofNat 32 v) i) _ _ _ _

theorem putHalves_mem (s : State) (i t v : Nat) : (putHalves s i t v).mem = s.mem := rfl

theorem putHalves_iops (s : State) (i t v : Nat) : (putHalves s i t v).iops = s.iops := rfl

/-- The oldest item of queue h dropped, and brought to set i. -/
def opReceived (s : State) (i t h : Nat) : State :=
  putHalves (dropItem (readSlot s t h (qHead s h)).2 h) i t (ofBytesLE ((readSlot s t h (qHead s h)).1.take 6))

section
variable {s : State} {i : Nat} {o : IOp} (hop : kget s.iops i = some o) (t : Nat)
include hop

theorem initOpEnd_stored (hsend : o.recv = false) (hok : o.result = 0) :
    initOpEnd s i t = opDone (storeItem (opTaken s i) t o.q (toBytesLE 8 o.item.toNat)) i 0 := by
  rw [initOpEnd, hop]
  exact (if_neg (by simp [hsend])).trans (if_pos hok)

theorem initOpEnd_refused (hsend : o.recv = false) (hno : o.result ≠ 0) : initOpEnd s i t = opDone (opTaken s i) i o.result := by
  rw [initOpEnd, hop]
  exact (if_neg (by simp [hsend])).trans (if_neg hno)

theorem initOpEnd_recv (hrecv : o.recv = true) : initOpEnd s i t =
    let r := recvResult (opTaken s i) i o.q
    if r = 0 then opDone (opReceived (opTaken s i) i t o.q) i 0
    else if r = 1 then opDone (opTaken s i) i 1 else opDone (refuse (opTaken s i) t o.q (0x100 + i)) i r := by
  rw [initOpEnd, hop]
  exact if_pos hrecv

end

/-- Set i has ended with result n, from state s to state u. -/
structure OpEnded (s : State) (i n : Nat) (u : State) : Prop where
  iops : u.iops = kdel s.iops i
  idle : u.bit .runIst 7 i = false
  result : u.fld .runIst 6 4 i = n

theorem OpEnded.opDone {s x : State} {i n : Nat} (hx : x.iops = kdel s.iops i) (hn : n < 8) : OpEnded s i n (opDone x i n) :=
  ⟨hx, opDone_idle x i n, opDone_result x i hn⟩

theorem opTaken_shaped {s : State} (hs : Shaped s) (i : Nat) : Shaped (opTaken s i) := by
  obtain ⟨hcores, hbar, hmap, hports, hpairs, hchans, hruns, hpins, hflash, hmem⟩ := hs
  exact ⟨hcores, hbar, hmap, hports, hpairs, hchans, hruns, hpins, hflash, hmem⟩

section
variable {s : State} (hs : Shaped s) (hclean : s.memErr = []) {i : Nat} {o : IOp} (hop : kget s.iops i = some o) (t : Nat)
include hs hclean hop

/-- An accepted send puts its item at the tail slot. -/
theorem initOpEnd_send (hsend : o.recv = false) (hok : o.result = 0) (hk : qKind s o.q = 0)
    (hfit : qStore s o.q + slotBytes s o.q * max 1 (qCapacity s o.q) ≤ qdBase) (hcount : qCount s o.q < 65535) :
    OpEnded s i 0 (initOpEnd s i t) ∧ Stored s o.q (toBytesLE 8 o.item.toNat) (initOpEnd s i t) := by
  have hmem : (opTaken s i).mem = s.mem := rfl
  have hxclean : (opTaken s i).memErr = [] := hclean
  have hxs := opTaken_shaped hs i
  have htaken : (opTaken s i).iops = kdel s.iops i := rfl
  rw [initOpEnd_stored hop t hsend hok]
  generalize opTaken s i = x at hmem hxclean hxs htaken ⊢
  obtain ⟨hiops, -⟩ := storeItem_others hxclean t o.q (toBytesLE 8 o.item.toNat)
  have hst : Stored x o.q (toBytesLE 8 o.item.toNat) (storeItem x t o.q (toBytesLE 8 o.item.toNat)) := by
    refine storeItem_stored hxclean t o.q _ hxs.mem ?_ ?_ ?_
    · rw [slotBytes_of_mem hmem, slotBytes_message hk, length_toBytesLE]
    · rw [qStore_of_mem hmem, slotBytes_of_mem hmem, qCapacity_of_mem hmem]
      exact hfit
    · rw [qCount_of_mem hmem]
      exact hcount
  obtain ⟨hitem, hone, hframe⟩ := hst.of_mem hmem
  refine ⟨.opDone (hiops.trans htaken) (by decide), ?_, ?_, ?_⟩
  · rw [opDone_mem, hitem]
  · rw [qCount_of_mem (opDone_mem _ i 0), hone]
  · rw [opDone_mem]
    exact hframe

end

/-- What set i and the queue hold after a receive that found item v. -/
structure OpReceived (s : State) (i h v : Nat) (u : State) : Prop where
  low : u.reg .runIdl i = BitVec.ofNat 32 v
  high : u.reg .runIdh i = BitVec.ofNat 32 (v / 2 ^ 32)
  count : qCount u h = qCount s h - 1
  head : qHead u h = nextHead s h

/-- What the oldest item of a message queue spells. -/
def oldestItem (s : State) (h : Nat) : Nat := ofBytesLE (memRead s.mem (qStore s h + 8 * qHead s h) 6)

theorem opReceived_facts {s : State} (hs : Shaped s) (hclean : s.memErr = []) {i h : Nat} (hk : qKind s h = 0) (t : Nat) :
    OpReceived s i h (oldestItem s h) (opReceived s i t h) ∧ (opReceived s i t h).iops = s.iops := by
  obtain ⟨-, -, hiops, hcount, hhead, -⟩ := dropItem_readSlot hs hclean t h (qHead s h)
  rw [opReceived, readSlot_message hclean t hk, ← oldestItem]
  generalize dropItem (readSlot s t h (qHead s h)).2 h = d at hiops hcount hhead ⊢
  have hmem := putHalves_mem d i t (oldestItem s h)
  exact ⟨⟨putHalves_low .., putHalves_high .., (qCount_of_mem hmem h).trans hcount, (qdFld_of_mem hmem h 0x1C 15 0).trans hhead⟩,
    (putHalves_iops ..).trans hiops⟩

theorem OpReceived.opDone {s u : State} {i h v : Nat} (hu : OpReceived s i h v u) (n : Nat) : OpReceived s i h v (opDone u i n) := by
  obtain ⟨hlow, hhigh, hcount, hhead⟩ := hu
  have hmem := opDone_mem u i n
  have hl : regOff .runIdl i 0 ≠ regOff .runIst i 0 := by
    simp only [regOff, regRow]
    omega
  have hh : regOff .runIdh i 0 ≠ regOff .runIst i 0 := by
    simp only [regOff, regRow]
    omega
  exact ⟨(reg_opDone_ne u n hl).trans hlow, (reg_opDone_ne u n hh).trans hhigh, (qCount_of_mem hmem h).trans hcount,
    (qdFld_of_mem hmem h 0x1C 15 0).trans hhead⟩

theorem recvResult_opTaken (s : State) (i h : Nat) : recvResult (opTaken s i) i h = recvResult s i h := rfl

theorem oldestItem_of_mem {s u : State} (hm : u.mem = s.mem) (h : Nat) : oldestItem u h = oldestItem s h := by
  have hhead : qHead u h = qHead s h := qdFld_of_mem hm h 0x1C 15 0
  rw [oldestItem, oldestItem, qStore_of_mem hm, hhead, hm]

section
variable {s : State} {i : Nat} {o : IOp} (hop : kget s.iops i = some o) (t : Nat) (hrecv : o.recv = true)
include hop hrecv

/-- A receive that finds an item brings it and drops it. -/
theorem initOpEnd_item (hs : Shaped s) (hclean : s.memErr = []) (hcode : recvCode s i o.q = 0) (hcount : qCount s o.q ≠ 0) :
    OpEnded s i 0 (initOpEnd s i t) ∧ OpReceived s i o.q (oldestItem s o.q) (initOpEnd s i t) := by
  have hresult : recvResult s i o.q = 0 := by rw [recvResult_eq, if_pos hcode, if_neg hcount]
  have hmem : (opTaken s i).mem = s.mem := rfl
  obtain ⟨⟨hlow, hhigh, hone, hhead⟩, hiops⟩ := opReceived_facts (s := opTaken s i) (i := i) (opTaken_shaped hs i) hclean
    ((qKind_of_mem hmem o.q).trans (recvCode_kind hcode)) t
  rw [oldestItem_of_mem hmem] at hlow hhigh
  rw [qCount_of_mem hmem] at hone
  rw [nextHead_of_mem hmem] at hhead
  rw [initOpEnd_recv hop t hrecv, recvResult_opTaken, hresult]
  exact ⟨.opDone hiops (by decide), OpReceived.opDone ⟨hlow, hhigh, hone, hhead⟩ 0⟩

/-- One that finds none ends with result 1. -/
theorem initOpEnd_empty (hcode : recvCode s i o.q = 0) (hcount : qCount s o.q = 0) :
    OpEnded s i 1 (initOpEnd s i t) ∧ (initOpEnd s i t).mem = s.mem := by
  have hresult : recvResult s i o.q = 1 := by rw [recvResult_eq, if_pos hcode, if_pos hcount]
  rw [initOpEnd_recv hop t hrecv, recvResult_opTaken, hresult]
  exact ⟨.opDone rfl (by decide), rfl⟩

/-- A refused one sets the refused flag. -/
theorem initOpEnd_recvRefused (hwf : Memory.wf s.mem = true) (hcode : recvCode s i o.q ≠ 0) :
    OpEnded s i (recvCode s i o.q) (initOpEnd s i t) ∧ (initOpEnd s i t).qdFld o.q 0x18 30 30 = 1 := by
  obtain ⟨hlo, hhi⟩ := recvCode_range hcode
  have hresult : recvResult s i o.q = recvCode s i o.q := by rw [recvResult_eq, if_neg hcode]
  have hiops : (refuse (opTaken s i) t o.q (0x100 + i)).iops = kdel s.iops i :=
    (refuse_eventOnly (opTaken s i) t o.q (0x100 + i)).iops.trans (setQdFld_iops _ _ _ _ _ _)
  have hflag := refuse_flag (s := opTaken s i) hwf t o.q (0x100 + i)
  rw [initOpEnd_recv hop t hrecv, recvResult_opTaken, hresult]
  dsimp only
  rw [if_neg hcode, if_neg (Nat.ne_of_gt hlo)]
  exact ⟨.opDone hiops hhi, (qdFld_of_mem (opDone_mem _ i _) o.q 0x18 30 30).trans hflag⟩

end

/-- A refused send ends with its judgement. -/
theorem initOpEnd_sendRefused {s : State} {i : Nat} {o : IOp} (hop : kget s.iops i = some o) (t : Nat) (hsend : o.recv = false)
    (hno : o.result ≠ 0) (hlt : o.result < 8) : OpEnded s i o.result (initOpEnd s i t) ∧ (initOpEnd s i t).mem = s.mem := by
  rw [initOpEnd_refused hop t hsend hno]
  exact ⟨.opDone rfl hlt, rfl⟩

theorem exec_initiatorOpEnd {s r : State} {t : Nat} (hr : runsAt s t r) {i : Nat} (hi : i < 2) :
    exec (.initiatorOpEnd t i) s = .next (initOpEnd r i t) := congrArg Host.Outcome.next ((awake_runs hr _).trans (upTo_lt hi _ _))

end Sys2Proof.Machine

namespace Sys2Proof.Proofs

open Sys2Proof.Machine

/-- Settles O23: a set is busy or idle when a command comes, and an operation ends in one of five ways, by its judgement. -/
theorem initiatorOps : Obligations.InitiatorOps := by
  unfold Obligations.InitiatorOps
  refine ⟨fun s r t i h hr hs hi hh => ⟨fun hbusy => ⟨?_, ?_⟩, fun hidle => ⟨?_, ?_⟩⟩,
    fun s r t i o hr hs hi hclean hop _ hfit hcount => ⟨fun hsend hno hlt => ?_, fun hsend hok hk => ?_, fun hrecv hcode hitem => ?_,
      fun hrecv hcode hnone => ?_, fun hrecv hcode => ?_⟩⟩
  · rw [exec_initiatorSend hr hi hh, initSend_busy h t ((noted_bit ..).trans hbusy), noted]
  · rw [exec_initiatorReceive hr hi hh, initReceive_busy h ((noted_bit ..).trans hbusy), noted]
  · rw [exec_initiatorReceive hr hi hh, initReceive_idle h ((noted_bit ..).trans hidle)]
    rfl
  · refine ⟨_, exec_initiatorSend hr hi hh, ?_⟩
    rw [initSend_idle h t ((noted_bit ..).trans hidle), initSendResult_noted]
    split
    · obtain ⟨⟨hbusy, hstarted⟩, hcredit, hsame⟩ := takeCredit_facts (s := noted r t .runIop i) hs.mem (i := i)
        ⟨h, false, setItem r i, initSendResult r i h⟩ h
      exact ⟨hbusy, hstarted, hcredit, hsame⟩
    · obtain ⟨⟨hbusy, hstarted⟩, hflag, hcredit⟩ := refuseStarted_facts (s := noted r t .runIop i) hs.mem
        ⟨h, false, setItem r i, initSendResult r i h⟩ h hi t
      exact ⟨hbusy, hstarted, hflag, hcredit⟩
  · obtain ⟨⟨hiops, hidle, hresult⟩, hmem⟩ := initOpEnd_sendRefused hop t hsend hno hlt
    exact ⟨_, exec_initiatorOpEnd hr hi, hiops, hidle, hresult, hmem⟩
  · obtain ⟨⟨hiops, hidle, hresult⟩, hstored, hone, -⟩ := initOpEnd_send hs hclean hop t hsend hok hk
      ((slotBytes_message hk).symm ▸ hfit) hcount
    rw [length_toBytesLE, tailAddr, slotBytes_message hk] at hstored
    exact ⟨_, exec_initiatorOpEnd hr hi, hiops, hidle, hresult, hstored, hone⟩
  · obtain ⟨⟨hiops, hidle, hresult⟩, hlow, hhigh, hone, hhead⟩ := initOpEnd_item hop t hrecv hs hclean hcode hitem
    exact ⟨_, exec_initiatorOpEnd hr hi, hiops, hidle, hresult, hlow, hhigh, hone, hhead⟩
  · obtain ⟨⟨hiops, hidle, hresult⟩, hmem⟩ := initOpEnd_empty hop t hrecv hcode hnone
    exact ⟨_, exec_initiatorOpEnd hr hi, hiops, hidle, hresult, hmem⟩
  · obtain ⟨⟨hiops, hidle, hresult⟩, hflag⟩ := initOpEnd_recvRefused hop t hrecv hs.mem hcode
    exact ⟨_, exec_initiatorOpEnd hr hi, hiops, hidle, hresult, hflag⟩

end Sys2Proof.Proofs
end

section
/-! SUPPORT. What events of sources, health counters and timer pins leave of the state and of its registers (R237, R258, R271, R484). -/

namespace Sys2Proof.Machine

/-- The offsets that events write: pending words of the rail, the timers' registers and the health counters. -/
def noisy (off : Nat) : Bool :=
  decide (0x10200 ≤ off ∧ off < 0x10280 ∨ 0x12004 ≤ off ∧ off < 0x13200 ∨ 0x20000 ≤ off ∧ off < 0x30000 ∨ 0xC0000 ≤ off ∧ off < 0xD0000)

/-- From s to t only what events write changed: the rail, the timers, the health counters, and the entries of the cores. -/
structure Signals (s t : State) : Prop where
  eq : t = { s with
    srcs := t.srcs, regs := t.regs, hwSet := t.hwSet, regWas := t.regWas, cores := t.cores, baristas := t.baristas
    privSpan := t.privSpan, msixPend := t.msixPend, msixOut := t.msixOut, chans := t.chans, capts := t.capts, tpExt := t.tpExt
    tpForce := t.tpForce, tpHist := t.tpHist, pinActs := t.pinActs, service := t.service }
  regs : ∀ off, noisy off = false → kget t.regs off = kget s.regs off
  core : ∀ w, PresentOnly (s.core w) (t.core w)

namespace Signals

variable {s t u : State}

theorem refl (s : State) : Signals s s := ⟨rfl, fun _ _ => rfl, fun _ => rfl⟩

theorem trans (h : Signals s t) (k : Signals t u) : Signals s u where
  eq := by
    have hk := k.eq
    rw [h.eq] at hk
    exact hk
  regs off hoff := (k.regs off hoff).trans (h.regs off hoff)
  core w := (h.core w).trans (k.core w)

theorem ite {c : Prop} [Decidable c] (h : Signals s t) (k : Signals s u) : Signals s (if c then t else u) := by
  split <;> assumption

theorem foldl {α : Type} {f : State → α → State} {l : List α} (hf : ∀ u, ∀ x ∈ l, Signals u (f u x)) (s : State) :
    Signals s (l.foldl f s) :=
  List.foldlRecOn (motive := Signals s) l f (.refl s) fun u h x hx => h.trans (hf u x hx)

theorem of_pulse (h : PulseOnly s t) : Signals s t where
  eq := by rw [h.eq]
  regs off hoff := by
    simp only [noisy, decide_eq_false_iff_not, not_or] at hoff
    exact h.regs off (by omega) hoff.1 hoff.2.1
  core := h.core

theorem of_rail (h : RailOnly s t) : Signals s t := .of_pulse (.of_rail h)

/-- A change of timer state that no register shows. -/
theorem of_timers (h : t = { s with chans := t.chans, capts := t.capts, tpExt := t.tpExt, tpForce := t.tpForce }) : Signals s t := by
  rw [h]
  exact ⟨rfl, fun _ _ => rfl, fun w => by cases w <;> rfl⟩

/-- A write of registers that events write. -/
theorem of_regs (h : t = { s with regs := t.regs, hwSet := t.hwSet, regWas := t.regWas, service := t.service })
    (hregs : ∀ off, noisy off = false → kget t.regs off = kget s.regs off) : Signals s t where
  eq := by rw [h]
  regs := hregs
  core w := by
    rw [h]
    cases w <;> rfl

/-- Every other register reads as before. -/
theorem reg (h : Signals s t) (n : RegName) (i j : Nat) (hn : noisy (regOff n i j) = false) : t.reg n i j = s.reg n i j := by
  simp only [State.reg, h.regs _ hn]

theorem bit (h : Signals s t) (n : RegName) (b i j : Nat) (hn : noisy (regOff n i j) = false) : t.bit n b i j = s.bit n b i j := by
  simp only [State.bit, h.reg n i j hn]

theorem fld (h : Signals s t) (n : RegName) (hi lo i j : Nat) (hn : noisy (regOff n i j) = false) :
    t.fld n hi lo i j = s.fld n hi lo i j := by simp only [State.fld, h.reg n i j hn]

theorem mem (h : Signals s t) : t.mem = s.mem := (congrArg State.mem h.eq :)
theorem memErr (h : Signals s t) : t.memErr = s.memErr := (congrArg State.memErr h.eq :)
theorem queues (h : Signals s t) : t.queues = s.queues := (congrArg State.queues h.eq :)
theorem ring (h : Signals s t) : t.ring = s.ring := (congrArg State.ring h.eq :)
theorem crema (h : Signals s t) : t.crema = s.crema := (congrArg State.crema h.eq :)
theorem audio (h : Signals s t) : t.audio = s.audio := (congrArg State.audio h.eq :)
theorem keep (h : Signals s t) : t.keep = s.keep := (congrArg State.keep h.eq :)
theorem boot (h : Signals s t) : t.boot = s.boot := (congrArg State.boot h.eq :)
theorem pairs (h : Signals s t) : t.pairs = s.pairs := (congrArg State.pairs h.eq :)
theorem pcie (h : Signals s t) : t.pcie = s.pcie := (congrArg State.pcie h.eq :)
theorem power (h : Signals s t) : t.power = s.power := (congrArg State.power h.eq :)
theorem ntc (h : Signals s t) : t.ntc = s.ntc := (congrArg State.ntc h.eq :)
theorem map (h : Signals s t) : t.map = s.map := (congrArg State.map h.eq :)

end Signals

theorem pulse_signals (s : State) {n : Nat} (t : Nat) (hn : n < 1024) : Signals s (pulse s n t) := .of_rail (pulse_railOnly s t hn)

theorem privPulse_signals (s : State) {p : Nat} (n t : Nat) (hp : p < 68) : Signals s (privPulse s p n t) :=
  .of_pulse (privPulse_pulseOnly s n t hp)

theorem raise_signals (s : State) (t : Nat) {n : RegName} (bits i j : Nat) (hn : noisy (regOff n i j) = true) :
    Signals s (s.raise t n bits i j) :=
  .of_regs rfl fun off hoff => kget_raise_ne s t bits fun e => by rw [e, hn] at hoff; cases hoff

theorem setReg_signals (s : State) {n : RegName} (v : W32) (i j : Nat) (hn : noisy (regOff n i j) = true) :
    Signals s (s.setReg n v i j) :=
  .of_regs rfl fun off hoff => kget_setReg_ne s v fun e => by rw [e, hn] at hoff; cases hoff

theorem noteReg_signals (s : State) (t off : Nat) (v : W32) : Signals s (s.noteReg t off v) := .of_regs rfl fun _ _ => rfl

theorem noted_signals (s : State) (t : Nat) (n : RegName) (i : Nat) : Signals s (noted s t n i) := noteReg_signals s t _ _

/-- A field that hardware sets replaces its own bits and no other. -/
theorem bit_setFld_same (s : State) (n : RegName) {hi lo b : Nat} (v i j : Nat) (h : lo ≤ hi) (hb : b < 32) :
    (s.setFld n hi lo v i j).bit n b i j = if lo ≤ b ∧ b ≤ hi then v.testBit (b - lo) else s.bit n b i j := by
  rw [State.bit, reg_setFld_same, bitOf, testBit_withField h hb]
  rfl

/-! ### Health counters (R484) -/

theorem countOne_signals (s : State) (t code idx m : Nat) {n : Nat} (hn : n < 32) : Signals s (countOne s t code idx m n) := by
  have hcount (v : W32) (x : Service) : Signals s { s.setReg .hltCntVal v n with service := x } := by
    refine .of_regs rfl fun off hoff => kget_setReg_ne s v fun e => ?_
    simp only [noisy, e, regOff, regRow, decide_eq_false_iff_not] at hoff
    omega
  exact .ite (.ite (((hcount _ _).trans (raise_signals _ t _ _ _ (by decide))).trans (pulse_signals _ t (by decide))) (hcount _ _)) (.refl s)

theorem countEvents_signals (s : State) (t code idx m : Nat) : Signals s (countEvents s t code idx m) :=
  .ite (.refl s) (.foldl (fun u _ hn => countOne_signals u t code idx m (List.mem_range.mp hn)) s)

theorem countEvent_signals (s : State) (t code idx : Nat) : Signals s (countEvent s t code idx) := countEvents_signals s t code idx 1

/-! ### Timer pins (R258, R271) -/

theorem landLevel_signals (s : State) (i : Nat) (v : Bool) (t : Nat) : Signals s (landLevel s i v t) := .of_timers rfl

theorem setCapt_signals (s : State) {c : Nat} (hc : c < 32) (x : Capt) : Signals s (setCapt s c x) := by
  have hstat : noisy (regOff .tmrCapStat c 0) = true := by
    refine decide_eq_true (.inr (.inr (.inl ?_)))
    simp only [regOff, regRow]
    omega
  exact .trans (t := { s with capts := kput s.capts c x }) (.of_timers rfl) (setReg_signals _ _ _ _ hstat)

theorem captMarks_signals (s : State) {c : Nat} (t : Nat) (hc : c < 32) : Signals s (captMarks s c t) := by
  have hstat : noisy (regOff .tmrCapStat c 0) = true := by
    refine decide_eq_true (.inr (.inr (.inl ?_)))
    simp only [regOff, regRow]
    omega
  exact .ite ((setCapt_signals s hc _).trans (raise_signals _ t _ _ _ hstat)) (setCapt_signals s hc _)

theorem pinEdge_signals (s : State) (pin : Nat) (rising : Bool) (t : Nat) : Signals s (pinEdge s pin rising t) := by
  rw [pinEdge_eq]
  refine (landLevel_signals s pin rising t).trans (.foldl (fun u c hc => ?_) _)
  have hc := List.mem_range.mp hc
  exact .ite ((captMarks_signals u t hc).trans (.of_rail (captEvent_railOnly u t hc))) (.refl u)

theorem pinClock_eq (s : State) (pin t : Nat) :
    pinClock s pin t = (writtenChans s).foldl (edgeStep pin t) (landLevel s pin true t) := by
  unfold pinClock edgeStep
  rfl

theorem pinClock_signals (s : State) (pin t : Nat) : Signals s (pinClock s pin t) := by
  have h := (foldl_edgeStep_taken pin t (writtenChans s) (landLevel s pin true t)).eq
  rw [pinClock_eq]
  generalize (writtenChans s).foldl (edgeStep pin t) (landLevel s pin true t) = u at h
  exact (landLevel_signals s pin true t).trans (.of_timers (by rw [h]))

end Sys2Proof.Machine
end

section
/-! PROOF. The protection switches of the lands, land faults and the open-input test (R507 to R510). -/

namespace Sys2Proof.Machine

/-! ### A fault record (R9, R509) -/

/-- A later event of a first-event record leaves the first one's word. -/
theorem fld_record_again {s : State} {n : RegName} (h : s.bit n 0 = true) (t : Nat) (w : W32) {hi lo : Nat} (hh : hi < 32)
    (hlo : 2 ≤ lo) : (s.record t n w).fld n hi lo = s.fld n hi lo := by
  have hflag : bitsOf 3 lo (hi + 1 - lo) = 0 := by
    have h3 : 3 < 2 ^ lo := Nat.lt_of_lt_of_le (by decide) (Nat.pow_le_pow_right (n := 2) (by decide) hlo)
    rw [bitsOf, Nat.shiftRight_eq_div_pow, Nat.div_eq_of_lt h3, Nat.zero_mod]
  rw [State.record, if_pos h, fld_raise_same _ _ _ _ _ hh hflag]

/-- The word of a land fault. -/
def landWord (row col kind : Nat) : W32 := BitVec.ofNat 32 (row * 2 ^ 26 + col * 2 ^ 20 + kind * 2 ^ 16)

theorem landRecord_railOnly (s : State) (row col kind t : Nat) :
    RailOnly (s.record t .pwrLf (landWord row col kind)) (landRecord s row col kind t) := pulse_railOnly _ t (by decide)

theorem landRecord_reg (s : State) (row col kind t : Nat) :
    (landRecord s row col kind t).reg .pwrLf = (s.record t .pwrLf (landWord row col kind)).reg .pwrLf :=
  (landRecord_railOnly s row col kind t).reg .pwrLf 0 0 (by decide)

theorem landRecord_valid (s : State) (row col kind t : Nat) : (landRecord s row col kind t).bit .pwrLf 0 = true := by
  rw [State.bit, landRecord_reg]
  exact record_valid s t .pwrLf _ 0

/-- Apart from the record, a land fault is an event. -/
theorem record_keeps (s : State) (t : Nat) (n : RegName) (w : W32) :
    (s.record t n w).mem = s.mem ∧ (s.record t n w).power = s.power := by
  unfold State.record
  split <;> exact ⟨rfl, rfl⟩

theorem landRecord_keeps (s : State) (row col kind t : Nat) :
    (landRecord s row col kind t).mem = s.mem ∧ (landRecord s row col kind t).power = s.power := by
  have h := (landRecord_railOnly s row col kind t).eq
  obtain ⟨hmem, hpower⟩ := record_keeps s t .pwrLf (landWord row col kind)
  exact ⟨(congrArg State.mem h :).trans hmem, (congrArg State.power h :).trans hpower⟩

theorem landRecord_first {s : State} (h : s.bit .pwrLf 0 = false) {row col kind : Nat} (t : Nat) (hrow : row < 64) (hcol : col < 64)
    (hkind : kind < 16) : (landRecord s row col kind t).fld .pwrLf 31 26 = row ∧ (landRecord s row col kind t).fld .pwrLf 25 20 = col ∧
      (landRecord s row col kind t).fld .pwrLf 19 16 = kind := by
  have hword (hi lo : Nat) (hhi : hi < 32) (hlo : 2 ≤ lo) :
      (landRecord s row col kind t).fld .pwrLf hi lo = fieldOf (landWord row col kind) hi lo := by
    rw [State.fld, landRecord_reg]
    exact fld_record_first h t _ hhi hlo
  rw [hword 31 26 (by decide) (by decide), hword 25 20 (by decide) (by decide), hword 19 16 (by decide) (by decide)]
  simp only [landWord, fieldOf, bitsOf, BitVec.toNat_ofNat, Nat.shiftRight_eq_div_pow]
  omega

theorem landRecord_again {s : State} (h : s.bit .pwrLf 0 = true) (row col kind t : Nat) {hi lo : Nat} (hh : hi < 32) (hlo : 2 ≤ lo) :
    (landRecord s row col kind t).fld .pwrLf hi lo = s.fld .pwrLf hi lo := by
  rw [State.fld, landRecord_reg]
  exact fld_record_again h t _ hh hlo

/-! ### Lands of a class (R505, R507) -/

/-- A land of a class has a row of 1 to 42 and a column of 3 to 38. -/
theorem landClass_range {row col : Nat} (h : landClass row col ≠ .none) : row < 64 ∧ col < 64 := by
  refine ⟨Nat.lt_of_not_le fun hrow => h ?_, Nat.lt_of_not_le fun hcol => h ?_⟩
  · unfold landClass
    split <;> first | omega | rfl
  · have hcolIn {lo hi : Nat} (hhi : hi < 64) : colIn col lo hi = false := decide_eq_false (by omega)
    have hlane {n : Nat} (hn : n ≤ 8) : laneCol col n = false := decide_eq_false (by omega)
    have hne {k : Nat} (hk : k < 64) : (col == k) = false := beq_false_of_ne (by omega)
    unfold landClass
    split <;> simp [hcolIn, hlane, hne]

theorem landSwitched_range {row col : Nat} (h : landSwitched row col = true) : row < 64 ∧ col < 64 :=
  landClass_range fun hnone => by simp [landSwitched, hnone] at h

theorem faultFits_range {row col kind : Nat} (h : faultFits row col kind = true) : row < 64 ∧ col < 64 ∧ kind < 16 := by
  have hclass : landClass row col ≠ .none := fun hnone => by simp [faultFits, hnone] at h
  obtain ⟨hrow, hcol⟩ := landClass_range hclass
  refine ⟨hrow, hcol, ?_⟩
  unfold faultFits at h
  split at h <;> first | decide | cases h

/-! ### The switches (R508) -/

/-- A switch that opens, or closes, changes the list of open lands; the edge that a timer pin sees is an event. -/
theorem landShut_signals (s : State) (row col t : Nat) : landOpen s row col = true ∧ landShut s row col t = s ∨
    Signals (s.setPower { s.power with openLands := landKey row col :: s.power.openLands }) (landShut s row col t) := by
  unfold landShut
  split
  · next h => exact .inl ⟨h, rfl⟩
  · exact .inr (.ite (.refl _) (.ite (landLevel_signals _ _ _ _) (.ite (pinEdge_signals _ _ _ _) (.refl _))))

theorem landShut_open (s : State) (row col t : Nat) : landOpen (landShut s row col t) row col = true := by
  rcases landShut_signals s row col t with ⟨hopen, heq⟩ | h
  · rw [heq, hopen]
  · rw [landOpen, h.power]
    simp

theorem landShut_keeps (s : State) (row col t : Nat) : (landShut s row col t).mem = s.mem ∧
    (landShut s row col t).bit .pwrLf 0 = s.bit .pwrLf 0 := by
  rcases landShut_signals s row col t with ⟨-, heq⟩ | h
  · rw [heq]
    exact ⟨rfl, rfl⟩
  · exact ⟨h.mem, h.bit .pwrLf 0 0 0 (by decide)⟩

theorem landSwitchClose_signals {s : State} {row col : Nat} (h : landOpen s row col = true) (level : Bool) (t : Nat) :
    Signals (s.setPower { s.power with openLands := s.power.openLands.filter fun k => decide (k ≠ landKey row col) })
      (landSwitchClose s row col level t) := by
  unfold landSwitchClose
  rw [if_pos h]
  exact .ite (.refl _) (.ite (landLevel_signals _ _ _ _)
    (.ite ((pinEdge_signals _ _ _ _).trans (pinClock_signals _ _ _)) (.refl _)))

/-! ### The open-input test (R509) -/

/-- Which lands are inputs is a matter of the pins' directions. -/
theorem landIsInput_congr {s u : State} (h : u.reg .tmrPinDir = s.reg .tmrPinDir) (row col : Nat) :
    landIsInput u row col = landIsInput s row col := by
  have hbit : u.bit .tmrPinDir (col - 7) = s.bit .tmrPinDir (col - 7) := congrArg (fun w : W32 => bitOf w.toNat (col - 7)) h
  simp only [landIsInput, hbit]

/-- An input of class IO33 that the test finds open. -/
def openInput (s : State) (x : Nat × Nat) : Bool := decide (landClass x.1 x.2 = .io33) && landIsInput s x.1 x.2

theorem landRecord_openInput (s : State) (row col kind t : Nat) : openInput (landRecord s row col kind t) = openInput s := by
  have hdir : (landRecord s row col kind t).reg .tmrPinDir = s.reg .tmrPinDir := by
    rw [(landRecord_railOnly s row col kind t).reg .tmrPinDir 0 0 (by decide), State.record]
    split
    · exact reg_raise_ne _ _ _ (by decide)
    · rw [reg_raise_ne _ _ _ (by decide), reg_setReg_ne _ _ (by decide)]
  funext x
  rw [openInput, openInput, landIsInput_congr hdir]

/-- The test records the open inputs among the lands, in their order. -/
theorem openInputTest_eq (s : State) (lands : List (Nat × Nat)) (t : Nat) :
    openInputTest s lands t = (lands.filter (openInput s)).foldl (fun u x => landRecord u x.1 x.2 4 t) s := by
  unfold openInputTest
  induction lands generalizing s with
  | nil => rfl
  | cons x lands ih =>
    rw [List.foldl_cons, ih, List.filter_cons]
    by_cases hx : openInput s x = true
    · have hx' : landClass x.1 x.2 = .io33 ∧ landIsInput s x.1 x.2 = true := by simpa [openInput] using hx
      rw [if_pos hx', if_pos hx, landRecord_openInput, List.foldl_cons]
    · have hx' : ¬ (landClass x.1 x.2 = .io33 ∧ landIsInput s x.1 x.2 = true) := by simpa [openInput] using hx
      rw [if_neg hx', if_neg hx]

/-- Faults after the first leave its record. -/
theorem foldl_landRecord {s : State} (h : s.bit .pwrLf 0 = true) (l : List (Nat × Nat)) (t : Nat) :
    let u := l.foldl (fun u x => landRecord u x.1 x.2 4 t) s
    u.bit .pwrLf 0 = true ∧ u.mem = s.mem ∧ u.power = s.power ∧
      ∀ hi lo, hi < 32 → 2 ≤ lo → u.fld .pwrLf hi lo = s.fld .pwrLf hi lo := by
  refine List.foldlRecOn (motive := fun u : State => u.bit .pwrLf 0 = true ∧ u.mem = s.mem ∧ u.power = s.power ∧
    ∀ hi lo, hi < 32 → 2 ≤ lo → u.fld .pwrLf hi lo = s.fld .pwrLf hi lo) l _ ⟨h, rfl, rfl, fun _ _ _ _ => rfl⟩ fun u hu x _ => ?_
  obtain ⟨hvalid, hmem, hpower, hfld⟩ := hu
  obtain ⟨hmem', hpower'⟩ := landRecord_keeps u x.1 x.2 4 t
  exact ⟨landRecord_valid .., hmem'.trans hmem, hpower'.trans hpower,
    fun hi lo hh hlo => (landRecord_again hvalid _ _ _ t hh hlo).trans (hfld hi lo hh hlo)⟩

/-! ### What a fault leaves -/

/-- A fault is recorded; the switch opened before it stays open. -/
theorem landRecord_recorded (s : State) {row col kind : Nat} (t : Nat) (hrow : row < 64) (hcol : col < 64) (hkind : kind < 16) :
    let u := landRecord s row col kind t
    (u.bit .pwrLf 0 = true ∧ u.mem = s.mem ∧ (s.bit .pwrLf 0 = false → u.fld .pwrLf 31 26 = row ∧ u.fld .pwrLf 25 20 = col ∧
      u.fld .pwrLf 19 16 = kind)) ∧ u.power = s.power := by
  obtain ⟨hmem, hpower⟩ := landRecord_keeps s row col kind t
  exact ⟨⟨landRecord_valid .., hmem, fun h => landRecord_first h t hrow hcol hkind⟩, hpower⟩

theorem landRecord_landShut (s : State) {row col kind : Nat} (t : Nat) (hrow : row < 64) (hcol : col < 64) (hkind : kind < 16) :
    let u := landRecord (landShut s row col t) row col kind t
    (u.bit .pwrLf 0 = true ∧ u.mem = s.mem ∧ (s.bit .pwrLf 0 = false → u.fld .pwrLf 31 26 = row ∧ u.fld .pwrLf 25 20 = col ∧
      u.fld .pwrLf 19 16 = kind)) ∧ landOpen u row col = true := by
  obtain ⟨⟨hvalid, hmem, hfirst⟩, hpower⟩ := landRecord_recorded (landShut s row col t) t hrow hcol hkind
  obtain ⟨hmem', hbit⟩ := landShut_keeps s row col t
  refine ⟨⟨hvalid, hmem.trans hmem', fun h => hfirst (hbit.trans h)⟩, ?_⟩
  rw [landOpen, hpower]
  exact landShut_open s row col t

end Sys2Proof.Machine

namespace Sys2Proof.Proofs

open Sys2Proof.Machine

/-- Settles O57: a fault goes to the record, kinds 2 and 3 after the switch has opened. -/
theorem lands : Obligations.Lands := by
  unfold Obligations.Lands
  rintro s r t rfl
  refine ⟨fun row col low => ?_, fun row col level => ?_, fun row col kind => ?_, fun lands => ?_⟩
  · split
    · next h =>
      obtain ⟨hrow, hcol⟩ := landSwitched_range h
      exact ⟨_, congrArg Host.Outcome.next (if_pos h), landRecord_landShut _ t hrow hcol (by split <;> decide)⟩
    · next h => exact congrArg Host.Outcome.next (if_neg h)
  · split
    · next h =>
      have hclose := landSwitchClose_signals h level t
      refine ⟨landSwitchClose (reach s t) row col level t, rfl, ?_, hclose.mem, fun k hk => ?_⟩
      · rw [landOpen, hclose.power]
        simp
      · rw [hclose.power]
        simp [hk]
    · next h => exact congrArg Host.Outcome.next (if_neg h)
  · split
    · next h =>
      obtain ⟨hrow, hcol, hkind⟩ := faultFits_range h
      refine ⟨_, congrArg Host.Outcome.next (if_neg (by simp [h])), ?_⟩
      split
      · exact landRecord_landShut _ t hrow hcol hkind
      · obtain ⟨hrecorded, hpower⟩ := landRecord_recorded (reach s t) t hrow hcol hkind
        exact ⟨hrecorded, congrArg Power.openLands hpower⟩
    · next h => exact congrArg Host.Outcome.next (if_pos (by simp [h]))
  · have htest : exec (.openInputTest t lands) s =
        .next ((lands.filter (openInput (reach s t))).foldl (fun u x => landRecord u x.1 x.2 4 t) (reach s t)) :=
      congrArg Host.Outcome.next (openInputTest_eq _ _ _)
    change match lands.filter (openInput (reach s t)) with | [] => _ | x :: _ => _
    have hfits : ∀ x ∈ lands.filter (openInput (reach s t)), landClass x.1 x.2 = .io33 := fun x hx => by
      have := (List.mem_filter.mp hx).2
      simp only [openInput, Bool.and_eq_true, decide_eq_true_eq] at this
      exact this.1
    generalize lands.filter (openInput (reach s t)) = l at htest hfits
    match l with
    | [] => exact htest
    | x :: l =>
      obtain ⟨hrow, hcol⟩ := landClass_range (row := x.1) (col := x.2) (by rw [hfits x (by simp)]; decide)
      obtain ⟨⟨hvalid, hmem, hfirst⟩, hpower⟩ := landRecord_recorded (reach s t) (kind := 4) t hrow hcol (by decide)
      obtain ⟨hvalid', hmem', hpower', hfld⟩ := foldl_landRecord hvalid l t
      refine ⟨_, htest, ⟨hvalid', hmem'.trans hmem, fun h => ?_⟩, congrArg Power.openLands (hpower'.trans hpower)⟩
      obtain ⟨hr, hc, hk⟩ := hfirst h
      exact ⟨(hfld _ _ (by decide) (by decide)).trans hr, (hfld _ _ (by decide) (by decide)).trans hc,
        (hfld _ _ (by decide) (by decide)).trans hk⟩

end Sys2Proof.Proofs
end

section
/-! PROOF. MODULE_RESET, SLEEP_REQUEST and WAKE_EVENT (R516 to R520). -/

namespace Sys2Proof.Machine

/-! ### Module reset (R516) -/

/-- The flags of the inputs and VHOLD outlive a module reset. -/
theorem moduleReset_bit (s : State) (why : Nat) {b : Nat} (hb : b < 16) : (moduleReset s why).bit .pwrStat b = s.bit .pwrStat b := by
  have hword : bitsOf (s.reg .pwrStat).toNat 0 16 + bitsOf (s.reg .pwrStat).toNat 19 3 * 2 ^ 19 + why * 2 ^ 24 =
      2 ^ 16 * (bitsOf (s.reg .pwrStat).toNat 19 3 * 2 ^ 3 + why * 2 ^ 8) + bitsOf (s.reg .pwrStat).toNat 0 16 := by ring
  have hlow : bitsOf (s.reg .pwrStat).toNat 0 16 < 2 ^ 16 := Nat.mod_lt _ (by decide)
  rw [State.bit, moduleReset, reg_setReg_same, bitOf, testBit_ofNat_word (by omega), hword,
    Nat.testBit_two_pow_mul_add _ hlow, if_pos hb, testBit_bitsOf, decide_eq_true hb, Bool.true_and, Nat.zero_add]
  rfl

theorem moduleReset_inputs (s : State) (why : Nat) : (moduleReset s why).fld .pwrStat 7 0 = s.fld .pwrStat 7 0 :=
  fieldOf_congr fun _ _ hb => moduleReset_bit s why (by omega)

theorem moduleReset_rkpOtp (s : State) (why : Nat) : (moduleReset s why).reg .rkpOtp = s.reg .rkpOtp := by
  rw [moduleReset, reg_setReg_ne _ _ (by decide), reg_setReg_ne _ _ (by decide), reg_setReg_same]

/-! ### Sleep (R517) -/

theorem exec_sleepRequest {s r : State} {t : Nat} (hr : runsAt s t r) (ini : Ini) : exec (.sleepRequest t ini) s = .next (
    if ini = .barista ∧ r.pairWorks = true ∧ r.reg .pwrWake ≠ 0 ∧ r.power.sleepReq = none then
      { noted r t .pwrSleep 0 with power := { r.power with sleepReq := some t } } else noted r t .pwrSleep 0) := by
  refine congrArg Host.Outcome.next ((awake_runs hr _).trans ((put_pwrSleep (by decide)).trans ?_))
  have hword : fieldOf (0x5EE90001 : W32) 31 16 = 0x5EE9 ∧ bitOf (0x5EE90001 : W32).toNat 0 = true := by decide
  have hwake : (r.reg .pwrWake).toNat ≠ 0 ↔ r.reg .pwrWake ≠ 0 :=
    not_congr ⟨fun h => BitVec.eq_of_toNat_eq h, fun h => congrArg BitVec.toNat h⟩
  have hcond : (ini = .barista ∧ (noted r t .pwrSleep 0).pairWorks = true ∧ fieldOf (0x5EE90001 : W32) 31 16 = 0x5EE9 ∧
      bitOf (0x5EE90001 : W32).toNat 0 = true ∧ ((noted r t .pwrSleep 0).reg .pwrWake).toNat ≠ 0 ∧
      (noted r t .pwrSleep 0).power.sleepReq.isNone = true) ↔
      (ini = .barista ∧ r.pairWorks = true ∧ r.reg .pwrWake ≠ 0 ∧ r.power.sleepReq = none) := by
    simp only [hword, true_and, Option.isNone_iff_eq_none]
    exact and_congr_right fun _ => and_congr_right fun _ => and_congr_left fun _ => hwake
  unfold sleepWrite
  simp only [hcond]
  rfl

/-! ### Waking (R520) -/

/-- The supplies, the first tick to come, memory and the watchdog: what events of the restart leave. -/
def wakeParts (s : State) : Power × Option Nat × List Host.Cell × Option Nat := (s.power, s.tickMin, s.mem, s.pairs.wdogAt)

theorem Signals.wakeParts {s u : State} (h : Signals s u) : Machine.wakeParts u = Machine.wakeParts s := by
  rw [h.eq]
  rfl

theorem wakeParts_ite {s t u : State} {c : Prop} [Decidable c] (h : wakeParts t = wakeParts s) (k : wakeParts u = wakeParts s) :
    wakeParts (if c then t else u) = wakeParts s := by split <;> assumption

theorem wakeParts_foldl {α : Type} {f : State → α → State} {l : List α} (hf : ∀ u, ∀ x ∈ l, wakeParts (f u x) = wakeParts u)
    (s : State) : wakeParts (l.foldl f s) = wakeParts s :=
  List.foldlRecOn (motive := fun u => wakeParts u = wakeParts s) l f rfl fun u h x hx => (hf u x hx).trans h

theorem setPortState_wakeParts (s : State) {p : Nat} (st t : Nat) (hp : p < 4) : wakeParts (setPortState s p st t) = wakeParts s := by
  unfold setPortState
  exact wakeParts_ite rfl (pulse_signals _ t (by omega)).wakeParts

theorem mirror_wakeParts (s : State) (n : Nat) : wakeParts (mirror s n) = wakeParts s := (Signals.of_rail (mirror_railOnly s n)).wakeParts

theorem release_wakeParts (s : State) (n t : Nat) : wakeParts (release s n t) = wakeParts s := mirror_wakeParts _ _

theorem srcEvent_wakeParts (s : State) (n t : Nat) : wakeParts (srcEvent s n t) = wakeParts s := by
  have hwindow : wakeParts (windowEnd s n t) = wakeParts s := by
    unfold windowEnd
    split
    · exact wakeParts_ite (release_wakeParts _ _ _) rfl
    · rfl
  unfold srcEvent
  exact wakeParts_ite rfl (wakeParts_ite ((release_wakeParts _ _ _).trans hwindow) hwindow)

theorem latchesGive_wakeParts (s : State) (t : Nat) : wakeParts (latchesGive s t) = wakeParts s := by
  refine (Signals.of_rail (presentAll_railOnly _ t)).wakeParts.trans (wakeParts_foldl (fun u e _ => ?_) s)
  exact wakeParts_ite (wakeParts_ite (mirror_wakeParts _ _) rfl) (srcEvent_wakeParts _ _ t)

/-- The clocks restart: the first tick comes a pour later or more, and the watchdog goes on where it stood. -/
theorem wakeUp_wakeParts (s : State) (t e : Nat) : wakeParts (wakeUp s t e) = ({ s.power with asleep := none }, some (t + s.pourLen),
    s.mem, s.pairs.wdogAt.map fun w => w + (t - (e + 1))) := by
  have hchans : ∀ l : List Nat, l.foldl (fun s n => s.setChan n { s.chan n with base := t - 1 }) s =
      { s with chans := (l.foldl (fun s n => s.setChan n { s.chan n with base := t - 1 }) s).chans } := fun l =>
    List.foldlRecOn (motive := fun u : State => u = { s with chans := u.chans }) l _ rfl fun u hu n _ => by
      rw [hu]
      rfl
  unfold wakeUp
  rw [hchans]
  refine (pulse_signals _ t (by decide)).wakeParts.trans ((latchesGive_wakeParts _ t).trans (wakeParts_foldl (fun u p hp => ?_) _))
  have hp4 : p < 4 := by
    simp only [List.mem_cons, List.not_mem_nil, or_false] at hp
    omega
  exact wakeParts_ite rfl (setPortState_wakeParts u 2 t hp4)

/-- An enabled source ends Sleep, or drops a request that waits (R519, R520). -/
theorem wakeEvent_enabled {s : State} {b : Nat} (hb : b < 12) (hon : s.bit .pwrWake b = true) (t : Nat) :
    (s.power.asleep = none → wakeEvent s b t = s.setPower { s.power with sleepReq := none }) ∧
      ∀ e, s.power.asleep = some e → wakeEvent s b t = wakeUp s t e := by
  have hcond : ¬ (12 ≤ b ∨ (!s.bit .pwrWake b) = true) := by simp [hon, hb]
  unfold wakeEvent
  rw [if_neg hcond]
  exact ⟨fun ha => by rw [ha], fun e he => by rw [he]⟩

end Sys2Proof.Machine

namespace Sys2Proof.Proofs

open Sys2Proof.Machine

/-- Settles O55: a reset keeps what outlives it, and the restart is the lemma on its parts. -/
theorem resetAndSleep : Obligations.ResetAndSleep := by
  unfold Obligations.ResetAndSleep
  rintro s r t rfl
  refine ⟨fun why => ?_, fun ha ini => exec_sleepRequest ⟨rfl, ha⟩ ini, fun b => ⟨fun h => ?_, fun hb hon => ⟨fun ha => ?_, fun e he => ?_⟩⟩⟩
  · have hcause : why % 8 < 8 := Nat.mod_lt _ (by decide)
    exact ⟨moduleReset (reach s t) (why % 8), rfl, rfl, rfl, moduleReset_cause _ hcause, rfl, rfl, rfl, rfl, rfl, rfl, rfl,
      moduleReset_inputs _ _, moduleReset_rkpOtp _ _⟩
  · exact congrArg Host.Outcome.next (if_pos (by simpa using h))
  · exact congrArg Host.Outcome.next ((wakeEvent_enabled hb hon t).1 ha)
  · have hparts := wakeUp_wakeParts (reach s t) t e
    simp only [wakeParts, Prod.mk.injEq] at hparts
    obtain ⟨hpower, hmin, hmem, hwdog⟩ := hparts
    exact ⟨_, congrArg Host.Outcome.next ((wakeEvent_enabled hb hon t).2 e he), hpower, hmin, hmem, hwdog⟩

end Sys2Proof.Proofs
end

section
/-! PROOF. The supply inputs, the hold-up and PG (R511 to R516). -/

namespace Sys2Proof.Machine

/-! ### One input (R511, R514) -/

section
variable (s : State) {c : Nat} (hc : c < 32)
include hc

/-- The carry bits follow both inputs, and no other bit of PWR_STAT changes. -/
theorem inCarry_bit (va vb : Nat) : (inCarry s va vb).bit .pwrStat c =
    if c = 0 then s.bit .pwrStat 1 && (!s.bit .pwrStat 5 || decide (va ≤ vb + 100))
    else if c = 4 then s.bit .pwrStat 5 && (!s.bit .pwrStat 1 || decide (vb ≤ va + 100)) else s.bit .pwrStat c := by
  have hnear (x y : Nat) : (decide (va ≤ vb + 100 ∧ vb ≤ va + 100) || decide (x ≤ y)) = decide (x ≤ y + 100) ↔
      ((va ≤ vb + 100 ∧ vb ≤ va + 100 ∨ x ≤ y) ↔ x ≤ y + 100) := by rw [← Bool.decide_or, decide_eq_decide]
  have ha := (hnear vb va).mpr (by omega)
  have hb := (hnear va vb).mpr (by omega)
  unfold inCarry
  rw [bit_setBit_same _ _ _ _ _ _ hc, bit_setBit_same _ _ _ _ _ _ hc, Bool.or_assoc, Bool.or_assoc, ha, hb]

theorem inHoldup_bit (t : Nat) : (inHoldup s t).bit .pwrStat c =
    if c = 22 then !s.bit .pwrStat 5 && !s.bit .pwrStat 1 else s.bit .pwrStat c := by
  unfold inHoldup
  dsimp only
  split
  · next h =>
    split
    · next hc22 => rw [hc22, h]
    · rfl
  · rw [(pulse_signals _ t (by decide)).bit .pwrStat c 0 0 (by decide), bit_setBit_same _ _ _ _ _ _ hc]

end

/-- The three flags of an input as they are set. -/
def inFlags (s : State) (b ok ov rev : Bool) : State :=
  ((s.setBit .pwrStat (inBase b + 1) ok).setBit .pwrStat (inBase b + 2) ov).setBit .pwrStat (inBase b + 3) rev

theorem inFlags_bit (s : State) (b ok ov rev : Bool) {c : Nat} (hc : c < 32) : (inFlags s b ok ov rev).bit .pwrStat c =
    if c = inBase b + 3 then rev else if c = inBase b + 2 then ov else if c = inBase b + 1 then ok else s.bit .pwrStat c := by
  rw [inFlags, bit_setBit_same _ _ _ _ _ _ hc, bit_setBit_same _ _ _ _ _ _ hc, bit_setBit_same _ _ _ _ _ _ hc]

theorem inSet_signals (s : State) (b ok ov rev : Bool) (va vb t : Nat) :
    Signals (inHoldup (inCarry (inFlags s b ok ov rev) va vb) t) (inSet s b ok ov rev va vb t) := by
  have hsrc : inSource b < 1024 := by cases b <;> decide
  exact .ite (.refl _) (pulse_signals _ t hsrc)

/-- Of the rest of the state, setting an input's flags leaves memory and the supplies. -/
theorem inSet_keeps (s : State) (b ok ov rev : Bool) (va vb t : Nat) : (inSet s b ok ov rev va vb t).mem = s.mem ∧
    (inSet s b ok ov rev va vb t).power = s.power := by
  have hset := inSet_signals s b ok ov rev va vb t
  have hholdup (u : State) : (inHoldup u t).mem = u.mem ∧ (inHoldup u t).power = u.power := by
    have hpulse := pulse_signals (n := 706) (u.setBit .pwrStat 22 (!u.bit .pwrStat 5 && !u.bit .pwrStat 1)) t (by decide)
    unfold inHoldup
    dsimp only
    split
    · exact ⟨rfl, rfl⟩
    · exact ⟨hpulse.mem, hpulse.power⟩
  exact ⟨hset.mem.trans (hholdup _).1, hset.power.trans (hholdup _).2⟩

/-- What PWR_STAT shows once an input's flags are set: those flags, the other input's as before, hold-up and the carry bits. -/
theorem inSet_shows {r s : State} (hbits : ∀ c < 16, s.bit .pwrStat c = r.bit .pwrStat c) (hmem : s.mem = r.mem) (b ok ov rev : Bool)
    (va vb t : Nat) : let u := inSet s b ok ov rev va vb t
    u.bit .pwrStat (inBase b + 1) = ok ∧ u.bit .pwrStat (inBase b + 2) = ov ∧ u.bit .pwrStat (inBase b + 3) = rev ∧
    (∀ k, 1 ≤ k → k < 4 → u.bit .pwrStat (4 - inBase b + k) = r.bit .pwrStat (4 - inBase b + k)) ∧
    u.bit .pwrStat 22 = (!u.bit .pwrStat 5 && !u.bit .pwrStat 1) ∧ u.mem = r.mem ∧
    u.bit .pwrStat 4 = (u.bit .pwrStat 5 && (!u.bit .pwrStat 1 || decide (vb ≤ va + 100))) ∧
    u.bit .pwrStat 0 = (u.bit .pwrStat 1 && (!u.bit .pwrStat 5 || decide (va ≤ vb + 100))) := by
  intro u
  have hbit {c : Nat} (hc : c < 32) : u.bit .pwrStat c = (inHoldup (inCarry (inFlags s b ok ov rev) va vb) t).bit .pwrStat c :=
    (inSet_signals s b ok ov rev va vb t).bit .pwrStat c 0 0 (by decide)
  have hcarry {c : Nat} (hc : c < 8) : u.bit .pwrStat c = (inCarry (inFlags s b ok ov rev) va vb).bit .pwrStat c := by
    rw [hbit (by omega), inHoldup_bit _ (by omega), if_neg (by omega)]
  have hflag {c : Nat} (h0 : c ≠ 0) (h4 : c ≠ 4) (hc : c < 8) : u.bit .pwrStat c = (inFlags s b ok ov rev).bit .pwrStat c := by
    rw [hcarry hc, inCarry_bit _ (by omega), if_neg h0, if_neg h4]
  have hbase : inBase b = 0 ∨ inBase b = 4 := by cases b <;> simp [inBase]
  have h1 := hflag (c := 1) (by decide) (by decide) (by decide)
  have h5 := hflag (c := 5) (by decide) (by decide) (by decide)
  refine ⟨?_, ?_, ?_, fun k hk1 hk4 => ?_, ?_, (inSet_keeps s b ok ov rev va vb t).1.trans hmem, ?_, ?_⟩
  · rw [hflag (by omega) (by omega) (by omega), inFlags_bit _ _ _ _ _ (by omega), if_neg (by omega), if_neg (by omega), if_pos rfl]
  · rw [hflag (by omega) (by omega) (by omega), inFlags_bit _ _ _ _ _ (by omega), if_neg (by omega), if_pos rfl]
  · rw [hflag (by omega) (by omega) (by omega), inFlags_bit _ _ _ _ _ (by omega), if_pos rfl]
  · rw [hflag (by omega) (by omega) (by omega), inFlags_bit _ _ _ _ _ (by omega), if_neg (by omega), if_neg (by omega), if_neg (by omega),
      hbits _ (by omega)]
  · rw [hcarry (c := 5) (by decide), hcarry (c := 1) (by decide), hbit (by decide), inHoldup_bit _ (by decide), if_pos rfl]
  · rw [hcarry (by decide), inCarry_bit _ (by decide), h1, h5]
    rfl
  · rw [hcarry (by decide), inCarry_bit _ (by decide), h1, h5]
    rfl

/-- The state in which an input's flags are set when it becomes ok: in module reset where the module was without power (R511,
R516). -/
def okBase (s : State) (ok : Bool) : State := if ok && !s.power.pg && !s.power.shutdown then moduleReset s 0 else s

theorem okBase_bit (s : State) (ok : Bool) {c : Nat} (hc : c < 16) : (okBase s ok).bit .pwrStat c = s.bit .pwrStat c := by
  unfold okBase
  split
  · exact moduleReset_bit s 0 hc
  · rfl

theorem okBase_keeps (s : State) (ok : Bool) : (okBase s ok).mem = s.mem ∧
    (okBase s ok).power.resetOn = (s.power.resetOn || (ok && !s.power.pg && !s.power.shutdown)) := by
  unfold okBase
  split
  · next h => exact ⟨rfl, by rw [h, Bool.or_true]; rfl⟩
  · next h => exact ⟨rfl, by rw [Bool.eq_false_of_not_eq_true h, Bool.or_false]⟩

theorem inputOk_eq (s : State) (b ok : Bool) (va vb t : Nat) : inputOk s b ok va vb t =
    inSet (okBase s ok) b ok (s.bit .pwrStat (inBase b + 2) && !ok) (s.bit .pwrStat (inBase b + 3) && !ok) va vb t := by
  have hbase : inBase b ≤ 4 := by cases b <;> decide
  rw [← okBase_bit s ok (c := inBase b + 2) (by omega), ← okBase_bit s ok (c := inBase b + 3) (by omega)]
  rfl

/-! ### Hold-up (R514) -/

theorem vholdLow_facts (s : State) (v t : Nat) : (vholdLow s v t).fld .pwrStat 15 8 = v % 256 ∧
    (vholdLow s v t).fld .pwrStat 7 0 = s.fld .pwrStat 7 0 ∧ (vholdLow s v t).mem = s.mem := by
  have hpulse := pulse_signals (n := 707) (s.setFld .pwrStat 15 8 v) t (by decide)
  refine ⟨(hpulse.fld .pwrStat 15 8 0 0 (by decide)).trans ?_, (hpulse.fld .pwrStat 7 0 0 0 (by decide)).trans ?_, hpulse.mem⟩
  · exact fld_setFld_same _ _ _ _ _ (by decide) (by decide)
  · exact fld_setFld_ne _ _ _ _ _ (by decide) (by decide) (by decide)

theorem holdupExhausted_facts {s : State} (h : s.bit .pwrStat 22 = true) : (holdupExhausted s).mem = [] ∧
    (holdupExhausted s).power.pg = false ∧ (holdupExhausted s).power.resetOn = true ∧ (holdupExhausted s).fld .pwrStat 26 24 = 4 ∧
    (holdupExhausted s).boot.flash = s.boot.flash := by
  rw [holdupExhausted, if_pos h, railsOff_eq]
  exact ⟨rfl, rfl, rfl, (setPower_fld ..).trans (moduleReset_cause _ (by decide)), rfl⟩

/-- PG rises with an input that is ok (R515). -/
theorem pgRelease_eq (s : State) : pgRelease s = if s.power.shutdown = false ∧ (s.bit .pwrStat 5 = true ∨ s.bit .pwrStat 1 = true) then
    { s with power := { s.power with pg := true } } else s := by
  have hcond : ∀ a b c : Bool, ¬ (a = true ∨ (!(b || c)) = true) ↔ a = false ∧ (b = true ∨ c = true) := by decide
  rw [pgRelease, ← ite_not]
  exact ite_congr (propext (hcond _ _ _)) (fun _ => rfl) fun _ => rfl

end Sys2Proof.Machine

namespace Sys2Proof.Proofs

open Sys2Proof.Machine

/-- Settles O54: each event of an input sets its flags (`inSet_shows`). -/
theorem supplies : Obligations.Supplies := by
  unfold Obligations.Supplies
  rintro s r t rfl
  refine ⟨fun b va vb => ⟨fun ok => ?_, fun mv => ?_, ?_, ?_⟩, fun v => ⟨_, rfl, vholdLow_facts _ v t⟩, ?_,
    congrArg Host.Outcome.next (pgRelease_eq _)⟩
  · obtain ⟨hmem, hreset⟩ := okBase_keeps (reach s t) ok
    refine ⟨_, congrArg Host.Outcome.next (inputOk_eq _ b ok va vb t), inSet_shows (fun c hc => okBase_bit _ ok hc) hmem b ok _ _ va vb t, ?_⟩
    exact (congrArg Power.resetOn (inSet_keeps (okBase (reach s t) ok) b ok _ _ va vb t).2).trans hreset
  · refine iteInduction (motive := fun p : Prop => p) (fun h => if_pos h) fun h => ?_
    exact ⟨_, if_neg h, inSet_shows (fun _ _ => rfl) rfl b false _ true va vb t⟩
  · refine iteInduction (motive := fun p : Prop => p) (fun h => if_pos h) fun h => ?_
    exact ⟨_, if_neg h, inSet_shows (fun _ _ => rfl) rfl b false true _ va vb t⟩
  · refine iteInduction (motive := fun p : Prop => p) (fun h => ?_) fun h => congrArg Host.Outcome.next (if_neg h)
    exact ⟨_, congrArg Host.Outcome.next (if_pos h), inSet_shows (fun _ _ => rfl) rfl b _ false _ va vb t⟩
  · split
    · next h => exact ⟨_, rfl, holdupExhausted_facts h⟩
    · next h => exact congrArg Host.Outcome.next (if_neg h)

end Sys2Proof.Proofs
end

section
/-! PROOF. MSIX_FIRE and MSIX_UNMASK (R500, R501; log entries 31 and 105). -/

namespace Sys2Proof.Machine

/-! ### Vectors that are due (R501) -/

/-- A vector may be sent: MSI-X is on, and neither the function nor the vector is masked (R501; log entry 31). -/
def msixSends (s : State) (v : Nat) : Prop :=
  s.msixEn = true ∧ s.msixFm = false ∧ s.pcie.bme = true ∧ bitOf (msixWord s v 3) 0 = false

/-- The address and data of a vector. -/
def msixMsg (s : State) (v : Nat) : Nat × Nat := (msixWord s v 0 + 2 ^ 32 * msixWord s v 1, msixWord s v 2)

theorem msixDue_off {s : State} (h : s.msixEn = false) (v : Nat) : msixDue s v = s := if_pos (by simp [h])

theorem msixDue_held {s : State} {v : Nat} (hon : s.msixEn = true)
    (h : s.msixFm = true ∨ s.pcie.bme = false ∨ bitOf (msixWord s v 3) 0 = true) :
    v ∈ (msixDue s v).msixPend ∧ msixDue s v = { s with msixPend := (msixDue s v).msixPend } := by
  have hmask : (s.msixFm || !s.pcie.bme || bitOf (msixWord s v 3) 0) = true := by
    rcases h with h | h | h <;> simp [h]
  unfold msixDue
  rw [if_neg (by simp [hon]), if_pos hmask]
  split
  · next hv => exact ⟨by simpa using hv, rfl⟩
  · exact ⟨by simp, rfl⟩

theorem msixDue_sent {s : State} {v : Nat} (h : msixSends s v) : msixDue s v = { s with msixOut := msixMsg s v :: s.msixOut } := by
  obtain ⟨hon, hfm, hbme, hmask⟩ := h
  exact (if_neg (by simp [hon])).trans (if_neg (by simp [hfm, hbme, hmask]))

/-- A vector that is due is sent, held or discarded; nothing else changes. -/
theorem msixDue_only (s : State) (v : Nat) : msixDue s v = { s with msixPend := (msixDue s v).msixPend, msixOut := (msixDue s v).msixOut } := by
  unfold msixDue
  repeat' split
  all_goals rfl

/-- What is held or sent afterwards was so before, or is the vector or its message. -/
theorem msixDue_keeps (s : State) (x : Nat) :
    (∀ v, ¬ (v = x ∧ ¬ msixSends s v) → v ∉ s.msixPend → v ∉ (msixDue s x).msixPend) ∧ ∀ m ∈ s.msixOut, m ∈ (msixDue s x).msixOut := by
  by_cases hx : msixSends s x
  · rw [msixDue_sent hx]
    exact ⟨fun _ _ h => h, fun m hm => List.mem_cons_of_mem _ hm⟩
  · refine ⟨fun v hv h => ?_, ?_⟩
    · have hne : v ≠ x := fun e => hv ⟨e, e ▸ hx⟩
      unfold msixDue
      repeat' split
      all_goals simp [h, hne]
    · unfold msixDue
      repeat' split
      all_goals simp +contextual

theorem foldl_msixDue_only (l : List Nat) (s : State) :
    l.foldl msixDue s = { s with msixPend := (l.foldl msixDue s).msixPend, msixOut := (l.foldl msixDue s).msixOut } :=
  List.foldlRecOn (motive := fun u : State => u = { s with msixPend := u.msixPend, msixOut := u.msixOut }) l _ rfl fun u hu x _ => by
    rw [msixDue_only u x, hu]

/-- Of vectors that are due in turn, one that may be sent is, and is not held. -/
theorem foldl_msixDue_sends {v : Nat} (l : List Nat) {s : State} (h : msixSends s v) (hout : v ∉ s.msixPend) :
    v ∉ (l.foldl msixDue s).msixPend ∧ (v ∈ l ∨ msixMsg s v ∈ s.msixOut → msixMsg s v ∈ (l.foldl msixDue s).msixOut) := by
  induction l generalizing s with
  | nil => exact ⟨hout, fun hv => hv.resolve_left List.not_mem_nil⟩
  | cons x l ih =>
    obtain ⟨hpend, hkept⟩ := msixDue_keeps s x
    have hsame : msixSends (msixDue s x) v ∧ msixMsg (msixDue s x) v = msixMsg s v := by
      rw [msixDue_only s x]
      exact ⟨h, rfl⟩
    obtain ⟨hgone, hsent⟩ := ih hsame.1 (hpend v (fun hv => hv.2 h) hout)
    rw [hsame.2] at hsent
    refine ⟨hgone, fun hv => hsent ?_⟩
    rw [List.mem_cons] at hv
    rcases hv with (rfl | hv) | hv
    · exact .inr (by rw [msixDue_sent h]; exact List.mem_cons_self)
    · exact .inl hv
    · exact .inr (hkept _ hv)

/-! ### MSIX_FIRE (R500) -/

theorem msixFire_word {n : W32} (hn : n.toNat < 1024) : reservedIn .pcxMsixFire 0 n.toNat = false ∧ fieldOf n 9 0 = n.toNat := by
  have hmod : n.toNat % 1024 = n.toNat := Nat.mod_eq_of_lt hn
  constructor
  · have := n.isLt
    simp [reservedIn, planWrite, planField, regRow, fd, fieldBits, bitsOf, wordLegal, fieldLegal, fixedField, hmod]
    omega
  · simp [fieldOf, bitsOf, hmod]

theorem exec_msixFire {s r : State} {t : Nat} (hr : runsAt s t r) (ini : Ini) {n : W32} (hn : n.toNat < 1024) :
    exec (.msixFire t ini n) s = .next (if ini = .barista ∧ r.pairWorks = true then
      msixDue (noted r t .pcxMsixFire 0) (1024 + n.toNat) else noted r t .pcxMsixFire 0) := by
  obtain ⟨hlegal, hfield⟩ := msixFire_word hn
  refine congrArg Host.Outcome.next ((awake_runs hr _).trans ((put_pcxMsixFire hlegal).trans ?_))
  rw [msixFire, hfield]
  rfl

/-! ### MSIX_UNMASK (R501) -/

/-- The table with a vector unmasked. -/
def msixCleared (s : State) (v : Nat) : State := { s with msix := kput s.msix (4 * v + 3) (msixWord s v 3 / 2 * 2) }

theorem msixUnmask_eq (s : State) {v : Nat} (hv : v < 2048) :
    msixUnmask s v = s.msixPend.reverse.foldl msixDue { msixCleared s v with msixPend := [] } := by
  rw [msixUnmask, Nat.mod_eq_of_lt hv]
  rfl

/-- Unmasking clears bit 0 of the vector control word and leaves the words of the message. -/
theorem msixCleared_words (s : State) (v : Nat) : bitOf (msixWord (msixCleared s v) v 3) 0 = false ∧
    msixMsg (msixCleared s v) v = msixMsg s v := by
  have hword (w : Nat) (hw : w < 3) : msixWord (msixCleared s v) v w = msixWord s v w := by
    have hne : 4 * v + w ≠ 4 * v + 3 := by omega
    simp only [msixWord, msixCleared, kget_kput_ne _ _ hne]
  constructor
  · simp [msixWord, msixCleared, bitOf, Nat.testBit_zero, Nat.mul_mod_left]
  · rw [msixMsg, msixMsg, hword 0 (by decide), hword 1 (by decide), hword 2 (by decide)]

theorem msixUnmask_facts (s : State) {v : Nat} (hv : v < 2048) : bitOf (msixWord (msixUnmask s v) v 3) 0 = false ∧
    (msixUnmask s v).regs = s.regs ∧ (msixUnmask s v).mem = s.mem ∧
    (v ∈ s.msixPend → s.msixEn = true → s.msixFm = false → s.pcie.bme = true →
      v ∉ (msixUnmask s v).msixPend ∧ msixMsg s v ∈ (msixUnmask s v).msixOut) := by
  obtain ⟨hmask, hmsg⟩ := msixCleared_words s v
  have honly := foldl_msixDue_only s.msixPend.reverse { msixCleared s v with msixPend := [] }
  rw [← msixUnmask_eq s hv] at honly
  refine ⟨?_, (congrArg State.regs honly :), (congrArg State.mem honly :), fun hpend hon hfm hbme => ?_⟩
  · rw [msixWord, (congrArg State.msix honly :)]
    exact hmask
  · obtain ⟨hgone, hsent⟩ := foldl_msixDue_sends s.msixPend.reverse
      (s := { msixCleared s v with msixPend := [] }) (v := v) ⟨hon, hfm, hbme, hmask⟩ List.not_mem_nil
    rw [← msixUnmask_eq s hv] at hgone hsent
    exact ⟨hgone, hmsg ▸ hsent (.inl (List.mem_reverse.mpr hpend))⟩

end Sys2Proof.Machine

namespace Sys2Proof.Proofs

open Sys2Proof.Machine

/-- Settles O53: a vector that is due is discarded, held or sent (`msixDue_off`, `msixDue_held`, `msixDue_sent`), and an unmasked one
that was held is sent among the others (`foldl_msixDue_sends`). -/
theorem msixVectors : Obligations.MsixVectors := by
  unfold Obligations.MsixVectors
  intro s r t hr
  refine ⟨fun ini n hn => ?_, fun v hv => ?_⟩
  · have hexec := exec_msixFire hr ini hn
    by_cases hpair : ini = .barista ∧ r.pairWorks = true
    · rw [if_pos hpair] at hexec
      by_cases hon : r.msixEn = true
      · have hgo : ¬ (ini ≠ .barista ∨ r.pairWorks = false ∨ r.msixEn = false) := by simp [hpair, hon]
        rw [if_neg hgo]
        split
        · next hheld =>
          obtain ⟨hpend, honly⟩ := msixDue_held (s := noted r t .pcxMsixFire 0) hon hheld
          exact ⟨_, hexec, hpend, (congrArg State.msixOut honly :), (congrArg State.regs honly :), (congrArg State.mem honly :)⟩
        · next hsent =>
          simp only [not_or, Bool.not_eq_true, Bool.not_eq_false] at hsent
          exact hexec.trans (congrArg Host.Outcome.next (msixDue_sent ⟨hon, hsent⟩))
      · have hoff := Bool.eq_false_of_not_eq_true hon
        rw [if_pos (.inr (.inr hoff)), hexec, msixDue_off (s := noted r t .pcxMsixFire 0) hoff]
    · have hidle : ini ≠ .barista ∨ r.pairWorks = false ∨ r.msixEn = false := by
        rcases not_and_or.mp hpair with h | h
        · exact .inl h
        · exact .inr (.inl (Bool.eq_false_of_not_eq_true h))
      rw [if_pos hidle, hexec, if_neg hpair]
  · have hexec : exec (.msixUnmask t v) s = .next (if linkIsUp r && barServed r true then msixUnmask r v else r) :=
      congrArg Host.Outcome.next ((awake_runs hr _).trans (upTo_lt hv _ _))
    split
    · next h =>
      rw [if_pos (by rw [linkIsUp, h.1, h.2]; rfl)] at hexec
      exact ⟨_, hexec, msixUnmask_facts r hv⟩
    · next h => rw [hexec, if_neg (by simpa [linkIsUp] using h)]

end Sys2Proof.Proofs
end

section
/-! PROOF. The host link: PERST#, link up and down, function reset, power states and the IDE stream (R489, R490, R502, R503). -/

namespace Sys2Proof.Machine

/-! ### While MSI-X is off nothing is held (R501) -/

theorem mirror_off {s : State} (h : s.msixEn = false) (n : Nat) : mirror s n = s := by
  unfold mirror
  split
  · exact msixDue_off h _
  · rfl

/-- From s to u, while MSI-X is off, it stays off and what is held stays. -/
def MsixQuiet (s u : State) : Prop := s.msixEn = false → u.msixEn = false ∧ u.msixPend = s.msixPend

namespace MsixQuiet

variable {s t u : State}

theorem refl (s : State) : MsixQuiet s s := fun h => ⟨h, rfl⟩

theorem trans (h : MsixQuiet s t) (k : MsixQuiet t u) : MsixQuiet s u := fun hs => by
  obtain ⟨hoff, hpend⟩ := h hs
  obtain ⟨hoff', hpend'⟩ := k hoff
  exact ⟨hoff', hpend'.trans hpend⟩

theorem ite {c : Prop} [Decidable c] (h : MsixQuiet s t) (k : MsixQuiet s u) : MsixQuiet s (if c then t else u) := by
  split <;> assumption

theorem of_eq (hen : t.msixEn = s.msixEn) (hpend : t.msixPend = s.msixPend) : MsixQuiet s t := fun h => ⟨hen.trans h, hpend⟩

theorem mirror (s : State) (n : Nat) : MsixQuiet s (mirror s n) := fun h => by
  rw [mirror_off h]
  exact ⟨h, rfl⟩

theorem release (s : State) (n t : Nat) : MsixQuiet s (release s n t) :=
  (of_eq (t := s.raise t .orlPend (2 ^ (n % 32)) (n / 32)) rfl rfl).trans (mirror _ _)

theorem windowEnd (s : State) (n t : Nat) : MsixQuiet s (windowEnd s n t) := by
  unfold Machine.windowEnd
  split
  · exact ite (trans (t := s.setSrc n _) (of_eq rfl rfl) (release _ _ _)) (refl s)
  · exact refl s

theorem srcEvent (s : State) (n t : Nat) : MsixQuiet s (srcEvent s n t) := by
  unfold Machine.srcEvent
  exact ite (refl s) ((windowEnd s n t).trans (ite (trans (t := State.setSrc _ n _) (of_eq rfl rfl) (release _ _ _)) (of_eq rfl rfl)))

theorem presentCore (s : State) (w : CoreSel) (t : Nat) : MsixQuiet s (presentCore s w t) := by
  unfold Machine.presentCore
  dsimp only
  repeat' split
  all_goals first | exact refl s | cases w <;> exact of_eq rfl rfl

theorem presentTarget (s : State) (n t : Nat) : MsixQuiet s (presentTarget s n t) := by
  unfold Machine.presentTarget
  split
  · exact presentCore s _ t
  · split
    · exact presentCore s _ t
    · exact refl s

theorem pulse (s : State) (n t : Nat) : MsixQuiet s (pulse s n t) := by
  have hset (x : SrcSt) : MsixQuiet s (s.setSrc n x) := of_eq rfl rfl
  unfold Machine.pulse
  refine ite (ite (hset _) (refl s)) ?_
  dsimp only
  exact ite (((hset _).trans (ite (mirror _ _) (refl _))).trans (presentTarget _ _ _))
    (ite (hset _) (((hset _).trans (srcEvent _ _ _)).trans (presentTarget _ _ _)))

end MsixQuiet

/-! ### The rings of a function that is reset (R502) -/

/-- One ring at a reset of the host's side. -/
def ringOff (t : Nat) (s : State) (j : Nat) : State := hrShow (if hrEn s j then hrStop s j 5 t else s) j

theorem ringOff_only (t : Nat) (s : State) (j : Nat) :
    ringOff t s j = { s with regs := (ringOff t s j).regs, pcie := { s.pcie with stopped := (ringOff t s j).pcie.stopped } } := by
  unfold ringOff
  split <;> rfl

theorem hrStop_regs (s : State) (j err t : Nat) :
    (hrStop s j err t).regs = ((s.setBit .pcxHrCfg 31 false j).setFld .pcxHrStat 6 4 err j).regs := rfl

/-- Only the configuration and the status of the ring are written. -/
theorem ringOff_reg (t : Nat) (s : State) {j : Nat} {n : RegName} {i : Nat} (hcfg : regOff n i 0 ≠ regOff .pcxHrCfg j 0)
    (hstat : regOff n i 0 ≠ regOff .pcxHrStat j 0) : (ringOff t s j).reg n i = s.reg n i := by
  unfold ringOff hrShow
  rw [reg_setFld_ne _ _ _ _ hstat]
  split
  · rw [reg_congr (hrStop_regs s j 5 t), reg_setFld_ne _ _ _ _ hstat, reg_setBit_ne _ _ _ hcfg]
  · rfl

theorem ringOff_en (t : Nat) (s : State) (j : Nat) : hrEn (ringOff t s j) j = false := by
  have hne : regOff .pcxHrCfg j 0 ≠ regOff .pcxHrStat j 0 := by
    simp only [regOff, regRow]
    omega
  have hshow (u : State) (hi lo v : Nat) : hrEn (u.setFld .pcxHrStat hi lo v j) j = hrEn u j := by
    rw [hrEn, State.bit, reg_setFld_ne _ _ _ _ hne]
    rfl
  unfold ringOff
  rw [hrShow, hshow]
  split
  · rw [hrEn, bit_congr (hrStop_regs s j 5 t)]
    refine (hshow _ 6 4 5).trans ?_
    rw [hrEn, bit_setBit_same _ _ _ _ _ _ (by decide), if_pos rfl]
  · next h => exact Bool.eq_false_of_not_eq_true h

theorem ringOff_en_ne (t : Nat) (s : State) {j k : Nat} (hk : k ≠ j) : hrEn (ringOff t s j) k = hrEn s k := by
  have hcfg : regOff .pcxHrCfg k 0 ≠ regOff .pcxHrCfg j 0 := by
    simp only [regOff, regRow]
    omega
  have hstat : regOff .pcxHrCfg k 0 ≠ regOff .pcxHrStat j 0 := by
    simp only [regOff, regRow]
    omega
  rw [hrEn, State.bit, ringOff_reg t s hcfg hstat]
  rfl

theorem ringsReset_eq (s : State) (t : Nat) :
    ringsReset s t = (List.range 16).foldl (ringOff t) (s.setPcie { s.pcie with reads := [] }) := rfl

/-- Every ring is disabled. -/
theorem ringsReset_en (s : State) (t : Nat) {j : Nat} (hj : j < 16) : hrEn (ringsReset s t) j = false := by
  have hsteps : ∀ n, n ≤ 16 → ∀ k, k < n → hrEn ((List.range n).foldl (ringOff t) (s.setPcie { s.pcie with reads := [] })) k = false := by
    intro n
    induction n with
    | zero => exact fun _ k hk => absurd hk (Nat.not_lt_zero k)
    | succ n ih =>
      intro hn k hk
      rw [List.range_succ, List.foldl_append, List.foldl_cons, List.foldl_nil]
      by_cases he : k = n
      · rw [he]
        exact ringOff_en t _ n
      · rw [ringOff_en_ne t _ he]
        exact ih (by omega) k (by omega)
  exact hsteps 16 (Nat.le_refl _) j hj

theorem ringsReset_only (s : State) (t : Nat) : ringsReset s t =
    { s with regs := (ringsReset s t).regs, pcie := { s.pcie with reads := [], stopped := (ringsReset s t).pcie.stopped } } := by
  rw [ringsReset_eq]
  exact List.foldlRecOn (motive := fun u : State => u = { s with regs := u.regs, pcie := { s.pcie with
    reads := [], stopped := u.pcie.stopped } }) _ _ rfl fun u hu j _ => by rw [ringOff_only t u j, hu]

theorem ringsReset_reg (s : State) (t : Nat) {n : RegName} {i : Nat}
    (hn : ∀ j < 16, regOff n i 0 ≠ regOff .pcxHrCfg j 0 ∧ regOff n i 0 ≠ regOff .pcxHrStat j 0) :
    (ringsReset s t).reg n i = s.reg n i := by
  rw [ringsReset_eq]
  exact List.foldlRecOn (motive := fun u : State => u.reg n i = s.reg n i) _ _ rfl fun u hu j hj =>
    (ringOff_reg t u (hn j (List.mem_range.mp hj)).1 (hn j (List.mem_range.mp hj)).2).trans hu

/-! ### The function (R502) -/

/-- From r to u the function was reset: D0, MSI-X off, no bus mastering, no read outstanding and no ring enabled. -/
def functionOff (r u : State) : Prop := u.msixEn = false ∧ u.msixPend = [] ∧ u.pcie.bme = false ∧ u.pcie.reads = [] ∧
  u.fld .pcxLstat 1 0 = 0 ∧ (∀ j, j < 16 → hrEn u j = false) ∧ u.mem = r.mem

theorem hrEn_signals {s u : State} (h : Signals s u) {j : Nat} (hj : j < 16) : hrEn u j = hrEn s j := by
  have hn : noisy (regOff .pcxHrCfg j 0) = false := by
    refine decide_eq_false ?_
    simp only [regOff, regRow]
    omega
  exact h.bit .pcxHrCfg 31 j 0 hn

/-- An event leaves a function that was reset as it is. -/
theorem functionOff_pulse {r u : State} (h : functionOff r u) {n : Nat} (t : Nat) (hn : n < 1024) : functionOff r (pulse u n t) := by
  obtain ⟨hen, hpend, hbme, hreads, hd0, hrings, hmem⟩ := h
  have hsig := pulse_signals u t hn
  obtain ⟨hen', hpend'⟩ := MsixQuiet.pulse u n t hen
  refine ⟨hen', hpend'.trans hpend, ?_, ?_, ?_, fun j hj => (hrEn_signals hsig hj).trans (hrings j hj), hsig.mem.trans hmem⟩
  · rw [hsig.pcie, hbme]
  · rw [hsig.pcie, hreads]
  · rw [hsig.fld .pcxLstat 1 0 0 0 (by decide), hd0]

/-- The registers and the rest of the state before the rings are reset. -/
def functionBare (s : State) : State :=
  (({ s with msixEn := false, msixFm := false, msix := [], msixPend := [] } : State).setPcie
    { s.pcie with bme := false, cfg := [], aer := [] }).setFld .pcxLstat 1 0 0

theorem functionReset_eq (s : State) (t : Nat) :
    functionReset s t = ringsReset (if inD3 s then pulse (functionBare s) 583 t else functionBare s) t := rfl

theorem functionReset_facts (s : State) (t : Nat) : functionOff s (functionReset s t) ∧
    (functionReset s t).pcie.perst = s.pcie.perst ∧ (functionReset s t).reg .pcxLcfg = s.reg .pcxLcfg ∧
    ∀ b, 2 ≤ b → b < 32 → (functionReset s t).bit .pcxLstat b = s.bit .pcxLstat b := by
  have hsig : Signals (functionBare s) (if inD3 s then pulse (functionBare s) 583 t else functionBare s) :=
    .ite (pulse_signals _ t (by decide)) (.refl _)
  have hquiet : MsixQuiet (functionBare s) (if inD3 s then pulse (functionBare s) 583 t else functionBare s) :=
    .ite (.pulse _ _ _) (.refl _)
  rw [functionReset_eq]
  generalize (if inD3 s then pulse (functionBare s) 583 t else functionBare s) = u at hsig hquiet
  obtain ⟨hen, hpend⟩ := hquiet rfl
  have honly := ringsReset_only u t
  have hlstat : (ringsReset u t).reg .pcxLstat = (functionBare s).reg .pcxLstat := by
    rw [ringsReset_reg u t (by simp only [regOff, regRow]; omega)]
    exact hsig.reg .pcxLstat 0 0 (by decide)
  refine ⟨⟨(congrArg State.msixEn honly :).trans hen, (congrArg State.msixPend honly :).trans hpend, ?_,
    (congrArg (fun s : State => s.pcie.reads) honly :), ?_, fun j hj => ringsReset_en u t hj, (congrArg State.mem honly :).trans hsig.mem⟩,
    ?_, ?_, fun b hb2 hb => ?_⟩
  · exact (congrArg (fun s : State => s.pcie.bme) honly :).trans (congrArg Pcie.bme hsig.pcie :)
  · rw [State.fld, hlstat]
    exact fld_setFld_same _ _ _ _ _ (by decide) (by decide)
  · exact (congrArg (fun s : State => s.pcie.perst) honly :).trans (congrArg Pcie.perst hsig.pcie :)
  · rw [ringsReset_reg u t (by simp only [regOff, regRow]; omega)]
    exact (hsig.reg .pcxLcfg 0 0 (by decide)).trans (reg_setFld_ne _ _ _ _ (by decide))
  · rw [State.bit, hlstat]
    exact (bit_setFld_same _ _ _ _ _ (by decide) hb).trans (if_neg (by omega))

/-! ### Link up and down (R490, R502) -/

/-- The state of the IDE stream is bit 11 of PCX_LSTAT (R503). -/
theorem setIde_facts (s : State) (v : Bool) (t : Nat) :
    (∀ b < 32, (setIde s v t).bit .pcxLstat b = if b = 11 then v else s.bit .pcxLstat b) ∧
    (setIde s v t).mem = s.mem ∧ (setIde s v t).pcie = s.pcie ∧ (setIde s v t).keep = s.keep ∧
    (setIde s v t).reg .pcxLcfg = s.reg .pcxLcfg := by
  unfold setIde
  split
  · next h =>
    refine ⟨fun b _ => ?_, rfl, rfl, rfl, rfl⟩
    split
    · next hb => rw [hb, h]
    · rfl
  · have hsig := pulse_signals (n := 582) (s.setBit .pcxLstat 11 v) t (by decide)
    refine ⟨fun b hb => ?_, hsig.mem, hsig.pcie, hsig.keep, ?_⟩
    · rw [hsig.bit .pcxLstat b 0 0 (by decide), bit_setBit_same _ _ _ _ _ _ hb]
    · exact (hsig.reg .pcxLcfg 0 0 (by decide)).trans (reg_setFld_ne _ _ _ _ (by decide))

/-- The link after it went down, on the function that was reset, before its source is pulsed. -/
def linkLost (u : State) (kind : Nat) : State :=
  { u.setFld .pcxLstat 10 2 0 with
    keep := { u.keep with ideKeys := [], ideSet := none, doe := [] }
    pcie := { u.pcie with
      perst := u.pcie.perst || kind == 2
      training := !(u.pcie.perst || kind == 2) && (u.setFld .pcxLstat 10 2 0).bit .pcxLcfg 0 } }

theorem linkDown_eq (s : State) (kind t : Nat) : linkDown s kind t =
    if linkIsUp s then pulse (linkLost (functionReset (setIde s false t) t) kind) 576 t
    else linkLost (functionReset (setIde s false t) t) kind := rfl

theorem linkLost_regs (u : State) (kind : Nat) : (linkLost u kind).regs = (u.setFld .pcxLstat 10 2 0).regs := rfl

theorem functionOff_linkLost {r u : State} (h : functionOff r u) (kind : Nat) : functionOff r (linkLost u kind) := by
  obtain ⟨hen, hpend, hbme, hreads, hd0, hrings, hmem⟩ := h
  refine ⟨hen, hpend, hbme, hreads, ?_, fun j hj => ?_, hmem⟩
  · rw [fld_congr (linkLost_regs u kind), fld_setFld_ne _ _ _ _ _ (by decide) (by decide) (by decide), hd0]
  · have hne : regOff .pcxHrCfg j 0 ≠ regOff .pcxLstat 0 0 := by
      simp only [regOff, regRow]
      omega
    rw [← hrings j hj, hrEn, hrEn, State.bit, State.bit, reg_congr (linkLost_regs u kind), reg_setFld_ne _ _ _ _ hne]

theorem linkLost_lstat (u : State) (kind : Nat) {b : Nat} (h2 : 2 ≤ b) (h10 : b ≤ 10) : (linkLost u kind).bit .pcxLstat b = false := by
  rw [bit_congr (linkLost_regs u kind), bit_setFld_same _ _ _ _ _ (by decide) (by omega), if_pos ⟨h2, h10⟩, Nat.zero_testBit]

/-- What LINK_DOWN leaves, whether or not the link was up. -/
theorem linkDown_facts (s : State) (kind t : Nat) : let u := linkDown s kind t
    functionOff s u ∧ u.bit .pcxLstat 9 = false ∧ u.bit .pcxLstat 11 = false ∧ u.keep.ideKeys = [] ∧ u.keep.ideSet = none ∧
      u.pcie.perst = (s.pcie.perst || decide (kind = 2)) ∧ u.pcie.training = (!u.pcie.perst && s.bit .pcxLcfg 0) := by
  obtain ⟨hide, hmem, hpcie, -, hlcfg⟩ := setIde_facts s false t
  obtain ⟨hoff, hperst, hlcfg', hbits⟩ := functionReset_facts (setIde s false t) t
  have hoff' : functionOff s (functionReset (setIde s false t) t) := by
    obtain ⟨hen, hpend, hbme, hreads, hd0, hrings, hmem'⟩ := hoff
    exact ⟨hen, hpend, hbme, hreads, hd0, hrings, hmem'.trans hmem⟩
  have hide11 : (functionReset (setIde s false t) t).bit .pcxLstat 11 = false := by
    rw [hbits 11 (by decide) (by decide), hide 11 (by decide), if_pos rfl]
  rw [hpcie] at hperst
  rw [hlcfg] at hlcfg'
  rw [linkDown_eq]
  generalize functionReset (setIde s false t) t = v at hoff' hperst hlcfg' hide11
  have hlost : functionOff s (linkLost v kind) := functionOff_linkLost hoff' kind
  have h9 : (linkLost v kind).bit .pcxLstat 9 = false := linkLost_lstat v kind (by decide) (by decide)
  have h11 : (linkLost v kind).bit .pcxLstat 11 = false := by
    rw [bit_congr (linkLost_regs v kind), bit_setFld_same _ _ _ _ _ (by decide) (by decide), if_neg (by decide), hide11]
  have hp : (linkLost v kind).pcie.perst = (s.pcie.perst || decide (kind = 2)) := congrArg (· || kind == 2) hperst
  have htr : (linkLost v kind).pcie.training = (!(linkLost v kind).pcie.perst && s.bit .pcxLcfg 0) := by
    refine congrArg (fun x => !(v.pcie.perst || kind == 2) && x) ?_
    rw [State.bit, reg_setFld_ne _ _ _ _ (by decide), hlcfg']
    rfl
  split
  · have hsig := pulse_signals (n := 576) (linkLost v kind) t (by decide)
    refine ⟨functionOff_pulse hlost t (by decide), ?_, ?_, ?_, ?_, ?_, ?_⟩
    · rw [hsig.bit .pcxLstat 9 0 0 (by decide), h9]
    · rw [hsig.bit .pcxLstat 11 0 0 (by decide), h11]
    · rw [hsig.keep]
      rfl
    · rw [hsig.keep]
      rfl
    · rw [hsig.pcie, hp]
    · rw [hsig.pcie, htr]
  · exact ⟨hlost, h9, h11, rfl, rfl, hp, htr⟩

/-- The link is up at the lower of the two rates (R490). -/
def linkTrained (s : State) (rate width : Nat) (flit : Bool) : State :=
  ((((s.setFld .pcxLstat 8 6 (min rate (s.fld .pcxLcfg 3 1))).setFld .pcxLstat 5 2 width).setBit .pcxLstat 10
    (flit || min rate (s.fld .pcxLcfg 3 1) == 5)).setBit .pcxLstat 9 true).setPcie { s.pcie with training := false }

theorem linkUp_idle {s : State} {width : Nat} (h : ¬ (s.pcie.training = true ∧ s.bit .pcxLstat 9 = false ∧ s.pcie.perst = false ∧
    s.bit .pcxLcfg 0 = true ∧ width ∈ [1, 2, 4, 8])) (rate : Nat) (flit : Bool) (t : Nat) : linkUp s rate width flit t = s := by
  refine if_pos (Classical.byContradiction fun hc => h ?_)
  simpa only [not_or, Bool.not_eq_true, Bool.not_eq_false, Bool.not_eq_eq_eq_not, Bool.not_true, Bool.not_false, linkIsUp,
    List.contains_iff_mem] using hc

theorem linkUp_trained {s : State} {width : Nat} (htrain : s.pcie.training = true) (hdown : s.bit .pcxLstat 9 = false)
    (hperst : s.pcie.perst = false) (hon : s.bit .pcxLcfg 0 = true) (hwidth : width ∈ [1, 2, 4, 8]) (rate : Nat) (flit : Bool) (t : Nat) :
    linkUp s rate width flit t = pulse (linkTrained s rate width flit) 576 t := by
  refine if_neg ?_
  rw [linkIsUp, htrain, hdown, hperst, hon, List.contains_iff_mem.mpr hwidth]
  decide

theorem linkTrained_facts (s : State) {width : Nat} (hwidth : width ∈ [1, 2, 4, 8]) (rate : Nat) (flit : Bool) :
    let u := linkTrained s rate width flit
    let got := min rate (s.fld .pcxLcfg 3 1)
    u.bit .pcxLstat 9 = true ∧ u.fld .pcxLstat 8 6 = got ∧ u.fld .pcxLstat 5 2 = width ∧
      u.bit .pcxLstat 10 = (flit || decide (got = 5)) := by
  have hrate : s.fld .pcxLcfg 3 1 < 8 := Nat.mod_lt _ (by decide)
  have hw : width < 16 := by
    simp only [List.mem_cons, List.not_mem_nil, or_false] at hwidth
    omega
  have hfld (u : State) (b : Nat) (v : Bool) (hb : 8 < b) (hi lo : Nat) (hhi : hi ≤ 8) :
      (u.setBit .pcxLstat b v).fld .pcxLstat hi lo = u.fld .pcxLstat hi lo :=
    fld_setFld_ne _ _ _ _ _ (Nat.le_refl b) (by omega) (by omega)
  refine ⟨?_, ?_, ?_, ?_⟩
  · exact (bit_setBit_same _ .pcxLstat 9 true 0 0 (by decide)).trans (if_pos rfl)
  · refine (hfld _ 9 _ (by decide) _ _ (by decide)).trans ((hfld _ 10 _ (by decide) _ _ (by decide)).trans ?_)
    rw [fld_setFld_ne _ _ _ _ _ (by decide) (by decide) (by decide), fld_setFld_same _ _ _ _ _ (by decide) (by decide)]
    exact Nat.mod_eq_of_lt (by omega)
  · refine (hfld _ 9 _ (by decide) _ _ (by decide)).trans ((hfld _ 10 _ (by decide) _ _ (by decide)).trans ?_)
    rw [fld_setFld_same _ _ _ _ _ (by decide) (by decide)]
    exact Nat.mod_eq_of_lt hw
  · refine (bit_setBit_same _ .pcxLstat 9 true 0 0 (by decide)).trans ((if_neg (by decide)).trans ?_)
    exact (bit_setBit_same _ .pcxLstat 10 _ 0 0 (by decide)).trans (if_pos rfl)

/-! ### Power states (R502) -/

/-- Reads that a ring issues are listed, and its status shows how many; no other register of the link changes. -/
structure RingReads (s u : State) : Prop where
  eq : u = { s with regs := u.regs, pcie := { s.pcie with reads := u.pcie.reads } }
  regs : ∀ off, (∀ j < 16, off ≠ regOff .pcxHrStat j 0) → kget u.regs off = kget s.regs off

namespace RingReads

variable {s t u : State}

theorem refl (s : State) : RingReads s s := ⟨rfl, fun _ _ => rfl⟩

theorem trans (h : RingReads s t) (k : RingReads t u) : RingReads s u where
  eq := by
    have hk := k.eq
    rw [h.eq] at hk
    exact hk
  regs off hoff := (k.regs off hoff).trans (h.regs off hoff)

theorem reg (h : RingReads s u) (n : RegName) (i : Nat) (hn : ∀ j < 16, regOff n i 0 ≠ regOff .pcxHrStat j 0) : u.reg n i = s.reg n i := by
  simp only [State.reg, h.regs _ hn]

end RingReads

theorem hrShow_ringReads (s : State) {j : Nat} (hj : j < 16) (reads : List HRead) :
    RingReads s (hrShow (s.setPcie { s.pcie with reads := reads }) j) :=
  ⟨rfl, fun _ hoff => kget_setReg_ne (s.setPcie { s.pcie with reads := reads }) _ (hoff j hj)⟩

theorem hrIssue_ringReads {s u : State} {j t : Nat} (hj : j < 16) (h : hrIssue s j t = some u) : RingReads s u := by
  unfold hrIssue at h
  dsimp only at h
  split at h
  · cases h
  · cases h
    exact hrShow_ringReads s hj _

theorem hrIssueAll_ringReads {j : Nat} (hj : j < 16) (t fuel : Nat) (s : State) : RingReads s (hrIssueAll fuel s j t) := by
  induction fuel generalizing s with
  | zero => exact .refl s
  | succ fuel ih =>
    rw [hrIssueAll]
    split
    · next u hu => exact (hrIssue_ringReads hj hu).trans (ih u)
    · exact .refl s

theorem hrIssueRings_ringReads (s : State) (t : Nat) : RingReads s (hrIssueRings s t) :=
  List.foldlRecOn (motive := RingReads s) _ _ (.refl s) fun u h _ hj =>
    h.trans (hrIssueAll_ringReads (List.mem_range.mp (List.mem_of_mem_filter hj)) t 64 u)

/-- A change of the power state takes the state, and reads that it lets go are issued. -/
theorem dState_facts {s : State} {d3 : Bool} (hup : linkIsUp s = true) (hne : inD3 s ≠ d3) (t : Nat) :
    inD3 (dState s d3 t) = d3 ∧ (dState s d3 t).mem = s.mem := by
  have hsig := pulse_signals (n := 583) (s.setFld .pcxLstat 1 0 (if d3 then 3 else 0)) t (by decide)
  have hreads := hrIssueRings_ringReads (pulse (s.setFld .pcxLstat 1 0 (if d3 then 3 else 0)) 583 t) t
  have hcond : ¬ ((!linkIsUp s) = true ∨ inD3 s = d3) := by simp [hup, hne]
  rw [dState, if_neg hcond]
  constructor
  · rw [inD3, State.fld, hreads.reg .pcxLstat 0 (by simp only [regOff, regRow]; omega)]
    change decide (State.fld _ .pcxLstat 1 0 = 3) = d3
    rw [hsig.fld .pcxLstat 1 0 0 0 (by decide), fld_setFld_same _ _ _ _ _ (by decide) (by decide)]
    cases d3 <;> rfl
  · exact (congrArg State.mem hreads.eq :).trans hsig.mem

end Sys2Proof.Machine

namespace Sys2Proof.Proofs

open Sys2Proof.Machine

/-- Settles O50: link down and function reset share `functionReset_facts`; the other commands are one write of PCX_LSTAT or PCIe
state and an event. -/
theorem hostLink : Obligations.HostLink := by
  unfold Obligations.HostLink
  intro s r t hr
  have hrun (f : State → State) : (Host.Outcome.next (awake s t f) : Out) = .next (f r) := congrArg Host.Outcome.next (awake_runs hr f)
  refine ⟨fun ref => ⟨_, hrun _, rfl, rfl, rfl, rfl⟩, fun rate width flit => ?_, fun kind => ⟨_, hrun _, linkDown_facts r kind t⟩, ?_,
    fun d3 => ?_, ?_⟩
  · split
    · next h =>
      obtain ⟨htrain, hdown, hperst, hon, hwidth⟩ := h
      have hsig := pulse_signals (n := 576) (linkTrained r rate width flit) t (by decide)
      obtain ⟨h9, hr86, hw, h10⟩ := linkTrained_facts r hwidth rate flit
      refine ⟨_, (hrun _).trans (congrArg Host.Outcome.next (linkUp_trained htrain hdown hperst hon hwidth rate flit t)), ?_, ?_, ?_, ?_, ?_,
        hsig.mem⟩
      · exact (hsig.bit .pcxLstat 9 0 0 (by decide)).trans h9
      · exact (hsig.fld .pcxLstat 8 6 0 0 (by decide)).trans hr86
      · exact (hsig.fld .pcxLstat 5 2 0 0 (by decide)).trans hw
      · exact (hsig.bit .pcxLstat 10 0 0 (by decide)).trans h10
      · rw [hsig.pcie]
        rfl
    · next h => exact (hrun _).trans (congrArg Host.Outcome.next (linkUp_idle h rate flit t))
  · split
    · next h =>
      obtain ⟨hoff, -, -, hbits⟩ := functionReset_facts r t
      have hsig := pulse_signals (n := 577) (functionReset r t) t (by decide)
      refine ⟨_, (hrun _).trans (congrArg Host.Outcome.next (if_pos h)), functionOff_pulse hoff t (by decide), ?_, ?_⟩
      · rw [hsig.bit .pcxLstat 9 0 0 (by decide), hbits 9 (by decide) (by decide), h]
      · rw [hsig.bit .pcxLstat 11 0 0 (by decide), hbits 11 (by decide) (by decide)]
    · next h => exact (hrun _).trans (congrArg Host.Outcome.next (if_neg h))
  · split
    · next h => exact ⟨_, hrun _, dState_facts h.1 h.2 t⟩
    · next h =>
      refine (hrun _).trans (congrArg Host.Outcome.next (if_pos ?_))
      rcases not_and_or.mp h with hup | hsame
      · exact .inl (by simpa [linkIsUp] using hup)
      · exact .inr (not_not.mp hsame)
  · have hsig := pulse_signals (n := 582) ((r.setBit .pcxLstat 11 false).setKeep { r.keep with ideSet := none }) t (by decide)
    refine ⟨_, hrun _, ?_, ?_, hsig.mem⟩
    · exact (hsig.bit .pcxLstat 11 0 0 (by decide)).trans ((bit_setBit_same r .pcxLstat 11 false 0 0 (by decide)).trans (if_pos rfl))
    · exact congrArg Keep.ideSet hsig.keep

end Sys2Proof.Proofs
end

section
/-! PROOF. CONFIG_REQUEST and the reads and writes of the two BARs (R489, R491 to R494; log entry 33). -/

namespace Sys2Proof.Machine

/-! ### Configuration requests (R489) -/

theorem msixFlush_only (s : State) :
    msixFlush s = { s with msixPend := (msixFlush s).msixPend, msixOut := (msixFlush s).msixOut } :=
  foldl_msixDue_only s.msixPend.reverse { s with msixPend := [] }

theorem configRequest_open {s : State} (hup : linkIsUp s = true) (hopen : hostOpen s = true) (t : Nat) :
    (∀ i, configRequest s (.read i) t = complete s .success (toBytesLE 4 ((kget s.pcie.cfg i).getD (Config.cfgWord i)).toNat)) ∧
    (∀ i v, ∃ u, configRequest s (.write i v) t = hrIssueRings (msixFlush u) t ∧ u.pcie.cpl = .success ∧
      kget u.pcie.cfg i = some v ∧ u.mem = s.mem) ∧
    ∀ en fm, configRequest s (.msix en fm) t = complete
      (msixFlush { s with msixEn := en, msixFm := fm, msixPend := if en then s.msixPend else [] }) .success [] := by
  have hgo (op : CfgOp) : configRequest s op t = match op with
      | .read i => complete s .success (toBytesLE 4 ((kget s.pcie.cfg i).getD (Config.cfgWord i)).toNat)
      | .write i v => hrIssueRings (msixFlush (complete (s.setPcie { s.pcie with
          cfg := kput s.pcie.cfg i v, bme := if i = 1 then bitOf v.toNat 2 else s.pcie.bme }) .success [])) t
      | .msix en fm => complete
          (msixFlush { s with msixEn := en, msixFm := fm, msixPend := if en then s.msixPend else [] }) .success [] := by
    unfold configRequest
    rw [if_neg (by simp [hup]), if_neg (by simp [hopen])] <;> cases op <;> rfl
  exact ⟨fun i => hgo _, fun i v => ⟨_, hgo _, rfl, kget_kput_same _ _ _, rfl⟩, fun en fm => hgo _⟩

/-! ### A refused access (R492, R494) -/

theorem hostRefused_facts (s : State) (b2 : Bool) (off t : Nat) : let u := hostRefused s b2 off t
    u.bit .pcxGstat (if b2 then 1 else 0) = true ∧ u.mem = s.mem ∧ (s.reg .pcxGstat = 0 → u.reg .pcxGaddr = BitVec.ofNat 32 off) ∧
      ∀ o, o ≠ 0xA0010 → o ≠ 0xA0014 → ¬ (0x10200 ≤ o ∧ o < 0x10280) → kget u.regs o = kget s.regs o := by
  have hoff : regOff .pcxGstat 0 0 = 0xA0010 ∧ regOff .pcxGaddr 0 0 = 0xA0014 := by decide
  have hflag : bitOf (if b2 = true then 2 else 1) (if b2 = true then 1 else 0) = true := by cases b2 <;> decide
  have hrail (v : State) : RailOnly (v.raise t .pcxGstat (if b2 then 2 else 1)) (pulse (v.raise t .pcxGstat (if b2 then 2 else 1)) 581 t) :=
    pulse_railOnly _ t (by decide)
  unfold hostRefused
  refine ⟨?_, ?_, fun h => ?_, fun o h10 h14 hpend => ?_⟩
  · refine (congrArg (fun w : W32 => bitOf w.toNat (if b2 then 1 else 0)) ((hrail _).reg .pcxGstat 0 0 (by decide))).trans ?_
    refine (bit_raise_same _ t .pcxGstat _ 0 0 (by split <;> decide)).trans ?_
    rw [hflag, Bool.or_true]
  · refine (congrArg State.mem (hrail _).eq :).trans ?_
    rw [raise_mem]
    split <;> rfl
  · rw [if_pos h, (hrail _).reg .pcxGaddr 0 0 (by decide), reg_raise_ne _ _ _ (by decide), reg_setReg_same]
  · rw [(hrail _).regs o hpend, kget_raise_ne _ _ _ (by omega)]
    split
    · exact kget_setReg_ne _ _ (by omega)
    · rfl

theorem aerLog_signals (s : State) (code t : Nat) : Signals (s.setPcie { s.pcie with aer := code :: s.pcie.aer }) (aerLog s code t) :=
  pulse_signals _ t (by split <;> decide)

/-! ### BAR0 (R491 to R493) -/

section
variable {s : State} {ide : Bool} (hup : linkIsUp s = true)
include hup

theorem bar_unserved (hserved : barServed s ide = false) (off n t : Nat) (be : Bool) (bs : List Byte) :
    bar0Read s off n be ide t = complete s .unsupported [] ∧ bar0Write s off bs be ide t = s ∧
      bar2Read s off n ide t = complete s .unsupported [] ∧ bar2Write s off bs ide t = s := by
  have hdown : ¬ (!linkIsUp s) = true := by simp [hup]
  have hnot : (!barServed s ide) = true := by simp [hserved]
  exact ⟨(if_neg hdown).trans (if_pos (.inl hnot)), if_pos (.inr (.inl hnot)), (if_neg hdown).trans (if_pos (.inl hnot)),
    if_pos (.inr (.inl hnot))⟩

variable (hserved : barServed s ide = true) (hrun : s.boot.stage ≠ .recovery)
include hserved hrun

theorem bar0Read_reg {off : Nat} (hlow : off < 0x2000000) (hword : off % 4 = 0) (t : Nat) :
    bar0Read s off 4 true ide t = complete (busRead s (hostBlock s off) off t).2 .success
      (toBytesLE 4 (busRead s (hostBlock s off) off t).1.toNat) := by
  have hmsix : ¬ inMsix off = true := by
    rw [inMsix, decide_eq_true_eq]
    omega
  unfold bar0Read
  rw [if_neg (by simp [hup]), if_neg (by simp [hserved, hrun]), if_neg hmsix, if_neg (by simp [hword]), if_pos hlow]

theorem bar0Write_reg {off : Nat} (hlow : off < 0x2000000) (hword : off % 4 = 0) {bs : List Byte} (hlen : bs.length = 4) (t : Nat) :
    bar0Write s off bs true ide t = if hostBlock s off || hostAlways off then busWrite s .host off (BitVec.ofNat 32 (ofBytesLE bs)) t
      else hostRefused s false off t := by
  have hmsix : ¬ inMsix off = true := by
    rw [inMsix, decide_eq_true_eq]
    omega
  unfold bar0Write
  dsimp only
  rw [if_neg (by simp [hup, hserved, hrun]), if_neg hmsix, if_neg (by simp [hword, hlen]), if_pos hlow]

/-! ### BAR2 (R494) -/

theorem bar2Read_served (o n t : Nat) : bar2Read s o n ide t = match bar2Target s o n false with
    | none => complete (hostRefused s true o t) .unsupported []
    | some a => complete (physLoad s .host t a n).2.2 (if (physLoad s .host t a n).2.1 then .poisoned else .success)
        (physLoad s .host t a n).1 := by
  unfold bar2Read
  rw [if_neg (by simp [hup]), if_neg (by simp [hserved, hrun])] <;> rfl

theorem bar2Write_served (o : Nat) (bs : List Byte) (t : Nat) : bar2Write s o bs ide t = match bar2Target s o bs.length true with
    | none => aerLog (hostRefused s true o t) 3 t
    | some a => (physStore s .host t a bs).2 := by
  unfold bar2Write
  rw [if_neg (by simp [hup, hserved, hrun])] <;> rfl

end

/-- An aperture takes a request that lies in it, is enabled and lets it through. -/
theorem bar2Target_eq (s : State) (o n : Nat) (write : Bool) : bar2Target s o n write =
    if o / 0x20000000 < 16 ∧ s.bit .pcxApCtl 0 (o / 0x20000000) = true ∧
        o % 0x20000000 + n ≤ min 0x20000000 (0x100000 * s.fld .pcxApCtl 25 16 (o / 0x20000000)) ∧
        s.bit .pcxApCtl (if write then 1 else 2) (o / 0x20000000) = true then
      some (0x100000 * s.fld .pcxApBase 27 0 (o / 0x20000000) + o % 0x20000000) else none := by
  unfold bar2Target
  refine ite_congr (propext ?_) (fun _ => rfl) fun _ => rfl
  rw [Nat.le_min]
  tauto

theorem regionOf_dram {a : Nat} (h : a < 0x200000000) : regionOf a = .dram := if_pos h

/-- A host's read of DRAM with no unit in error gives the bytes. -/
theorem physLoad_dram {s : State} (hclean : s.memErr = []) (t : Nat) {a n : Nat} (ha : a < 0x200000000) :
    ∃ l, physLoad s .host t a n = (memRead s.mem a n, false, { s with carLast := l }) := by
  obtain ⟨l, hl⟩ := readPhys_clean hclean t .host a n
  refine ⟨l, ?_⟩
  rw [physLoad, regionOf_dram ha]
  exact hl

/-- A host's write of DRAM with no unit in error writes the bytes. -/
theorem physStore_dram {s : State} (hclean : s.memErr = []) (t : Nat) {a : Nat} {bs : List Byte} (ha : a + bs.length ≤ 0x200000000) :
    (physStore s .host t a bs).2.mem = memWrite s.mem a bs ∧ (physStore s .host t a bs).2.regs = s.regs := by
  cases bs with
  | nil =>
    have hregion : regionOf a = .dram ∨ regionOf a = .reserved := by
      rcases Nat.lt_or_ge a 0x200000000 with h | h
      · exact .inl (regionOf_dram h)
      · have ha' : a = 0x200000000 := Nat.le_antisymm ha h
        subst ha'
        exact .inr (by decide)
    rcases hregion with h | h
    · obtain ⟨l, hl⟩ := writePhys_clean hclean t .host a []
      rw [physStore, h]
      exact ⟨congrArg (fun x => x.2.mem) hl, congrArg (fun x => x.2.regs) hl⟩
    · rw [physStore, h]
      exact ⟨rfl, rfl⟩
  | cons b bs =>
    obtain ⟨l, hl⟩ := writePhys_clean hclean t .host a (b :: bs)
    rw [physStore, regionOf_dram (by simp at ha; omega)]
    exact ⟨congrArg (fun x => x.2.mem) hl, congrArg (fun x => x.2.regs) hl⟩

end Sys2Proof.Machine

namespace Sys2Proof.Proofs

open Sys2Proof.Machine

/-- Settles O51: a request is refused, or is the access that the lemmas on the two BARs name. -/
theorem hostRequests : Obligations.HostRequests := by
  unfold Obligations.HostRequests
  intro s r t hr hup
  have hrun (f : State → State) : (Host.Outcome.next (awake s t f) : Out) = .next (f r) := congrArg Host.Outcome.next (awake_runs hr f)
  have hup' : ¬ (!linkIsUp r) = true := by
    rw [linkIsUp, hup]
    decide
  refine ⟨fun op hclosed => ?_, fun hopen => ?_, fun off n be ide hserved => ?_, fun off ide hserved hrec hlow hword => ?_,
    fun o ide hserved hrec hs hclean => ?_⟩
  · exact (hrun _).trans (congrArg Host.Outcome.next ((if_neg hup').trans (if_pos (by rw [hclosed]; rfl))))
  · obtain ⟨hread, hwrite, hmsix⟩ := configRequest_open hup hopen t
    refine ⟨fun i => ⟨_, (hrun _).trans (congrArg Host.Outcome.next (hread i)), rfl, rfl, rfl⟩, fun i v => ?_, fun en fm => ?_⟩
    · obtain ⟨u, hu, hcpl, hcfg, hmem⟩ := hwrite i v
      have hrings := (hrIssueRings_ringReads (msixFlush u) t).eq
      have hflush := msixFlush_only u
      refine ⟨_, (hrun _).trans (congrArg Host.Outcome.next hu), ?_, ?_, ?_⟩
      · rw [(congrArg (fun s : State => s.pcie.cpl) hrings :), (congrArg (fun s : State => s.pcie.cpl) hflush :)]
        exact hcpl
      · rw [(congrArg (fun s : State => s.pcie.cfg) hrings :), (congrArg (fun s : State => s.pcie.cfg) hflush :)]
        exact hcfg
      · rw [(congrArg State.mem hrings :), (congrArg State.mem hflush :)]
        exact hmem
    · have hflush := msixFlush_only { r with msixEn := en, msixFm := fm, msixPend := if en then r.msixPend else [] }
      refine ⟨_, (hrun _).trans (congrArg Host.Outcome.next (hmsix en fm)), rfl, (congrArg State.msixEn hflush :),
        (congrArg State.msixFm hflush :), fun hoff => ?_, (congrArg State.regs hflush :)⟩
      subst hoff
      rfl
  · have h (bs : List Byte) := bar_unserved hup hserved off n t be bs
    exact ⟨(hrun _).trans (congrArg Host.Outcome.next (h []).1), fun bs => (hrun _).trans (congrArg Host.Outcome.next (h bs).2.1),
      (hrun _).trans (congrArg Host.Outcome.next (h []).2.2.1), fun bs => (hrun _).trans (congrArg Host.Outcome.next (h bs).2.2.2)⟩
  · refine ⟨(hrun _).trans (congrArg Host.Outcome.next (bar0Read_reg hup hserved hrec hlow hword t)), fun v hmay => ?_,
      fun bs hlen hblock halways => ?_⟩
    · have hw := bar0Write_reg hup hserved hrec hlow hword (length_toBytesLE 4 v.toNat) t
      rw [if_pos (by simpa using hmay), ofBytesLE_toBytesLE v.isLt, BitVec.ofNat_toNat, BitVec.setWidth_eq] at hw
      exact (hrun _).trans (congrArg Host.Outcome.next hw)
    · have hw := bar0Write_reg hup hserved hrec hlow hword hlen t
      rw [if_neg (by simp [hblock, halways])] at hw
      exact ⟨_, (hrun _).trans (congrArg Host.Outcome.next hw), hostRefused_facts r false off t⟩
  · obtain ⟨hflag, hmem, -, -⟩ := hostRefused_facts r true o t
    refine ⟨fun n => ⟨fun hno => ?_, fun hok hn hend => ?_⟩, fun bs => ⟨fun hno => ?_, fun hok hend => ?_⟩⟩
    · have hread := bar2Read_served hup hserved hrec o n t
      rw [bar2Target_eq, if_neg hno] at hread
      exact ⟨_, (hrun _).trans (congrArg Host.Outcome.next hread), rfl, rfl, hflag, hmem⟩
    · have hread := bar2Read_served hup hserved hrec o n t
      rw [bar2Target_eq, if_pos hok] at hread
      obtain ⟨l, hl⟩ := physLoad_dram hclean t (n := n) (Nat.lt_of_lt_of_le (Nat.lt_add_of_pos_right hn) hend)
      dsimp only at hread
      rw [hl] at hread
      exact ⟨_, (hrun _).trans (congrArg Host.Outcome.next hread), rfl, rfl, rfl, rfl⟩
    · have hwrite := bar2Write_served hup hserved hrec o bs t
      rw [bar2Target_eq, if_neg hno] at hwrite
      have hsig := aerLog_signals (hostRefused r true o t) 3 t
      exact ⟨_, (hrun _).trans (congrArg Host.Outcome.next hwrite), (hsig.bit .pcxGstat 1 0 0 (by decide)).trans hflag,
        hsig.mem.trans hmem⟩
    · have hwrite := bar2Write_served hup hserved hrec o bs t
      rw [bar2Target_eq, if_pos hok] at hwrite
      obtain ⟨hmem, hregs⟩ := physStore_dram hclean t hend
      obtain ⟨hback, hrest⟩ := memWrite_window hs.mem (bs := bs) rfl (a := 0x100000 * r.fld .pcxApBase 27 0 (o / 0x20000000) + o % 0x20000000)
      rw [← hmem] at hback hrest
      exact ⟨_, (hrun _).trans (congrArg Host.Outcome.next hwrite), hback, hregs, hrest⟩

end Sys2Proof.Proofs
end

section
/-! SUPPORT. What accesses to memory and the Runner's operations leave of the registers above those of the memories (R203 to R211,
R281, R293, R294). -/

namespace Sys2Proof.Machine

/-- From s to u those registers of the ring, Crema, the audio paths, Barista, the keep, the host and the supplies whose offsets meet P
keep their values. -/
def RegsKept (P : Nat → Prop) (s u : State) : Prop :=
  ∀ off, 0x50000 ≤ off → off < 0xC0000 → P off → kget u.regs off = kget s.regs off

/-- All but the offsets 4 modulo 0x40: those are of pending words of a core's own sources (ORL_PPENDp), whichever core the map names. -/
abbrev HighKept (s u : State) : Prop := RegsKept (fun off => off % 0x40 ≠ 4) s u

namespace RegsKept

variable {P : Nat → Prop} {s t u : State}

theorem refl (s : State) : RegsKept P s s := fun _ _ _ _ => rfl

theorem trans (h : RegsKept P s t) (k : RegsKept P t u) : RegsKept P s u := fun off h1 h2 h3 => (k off h1 h2 h3).trans (h off h1 h2 h3)

theorem ite {c : Prop} [Decidable c] (h : RegsKept P s t) (k : RegsKept P s u) : RegsKept P s (if c then t else u) := by
  split <;> assumption

theorem foldl {α : Type} {f : State → α → State} (hf : ∀ u x, RegsKept P u (f u x)) (l : List α) (s : State) : RegsKept P s (l.foldl f s) :=
  List.foldlRecOn (motive := RegsKept P s) l f (.refl s) fun u h x _ => h.trans (hf u x)

theorem of_regs (h : t.regs = s.regs) : RegsKept P s t := fun off _ _ _ => by rw [h]

theorem of_signals (h : Signals s t) : RegsKept P s t := fun off h1 h2 _ => h.regs off (decide_eq_false (by omega))

theorem of_setReg (s : State) {n : RegName} (v : W32) (i j : Nat) (hn : regOff n i j < 0x50000) : RegsKept P s (s.setReg n v i j) :=
  fun _ h1 _ _ => kget_setReg_ne s v (by omega)

theorem of_raise (s : State) (t : Nat) {n : RegName} (bits i j : Nat) (hn : regOff n i j < 0x50000) : RegsKept P s (s.raise t n bits i j) :=
  fun _ h1 _ _ => kget_raise_ne s t bits (by omega)

theorem of_pulse (s : State) {n : Nat} (t : Nat) (hn : n < 1024) : RegsKept P s (pulse s n t) := of_signals (pulse_signals s t hn)

theorem of_count (s : State) (t code idx : Nat) : RegsKept P s (countEvent s t code idx) := of_signals (countEvent_signals s t code idx)

/-- Every register of P reads as before. -/
theorem reg (h : RegsKept P s t) (n : RegName) (i : Nat) (hlo : 0x50000 ≤ regOff n i 0) (hhi : regOff n i 0 < 0xC0000)
    (hp : P (regOff n i 0)) : t.reg n i = s.reg n i := by simp only [State.reg, h _ hlo hhi hp]

end RegsKept

/-! ### Memory errors (R184, R203 to R211) -/

section
variable {P : Nat → Prop}

theorem corrected_high (s : State) (t u : Nat) : RegsKept P s (corrected s t u) := by
  have hnote (off : Nat) (v : W32) : RegsKept P s (({ s with memErr := kdel s.memErr u } : State).noteReg t off v) := .of_regs rfl
  unfold corrected
  dsimp only
  split
  · exact ((hnote _ _).trans (.of_setReg _ _ _ _ (by decide))).trans (.of_count _ _ _ _)
  · exact ((hnote _ _).trans (.of_setReg _ _ _ _ (by decide))).trans (.of_count _ _ _ _)
  · exact .trans (t := { s with memErr := kdel s.memErr u }) (.of_regs rfl) (.of_count _ _ _ _)
  · exact .of_regs rfl

theorem dramUe_high (s : State) (t : Nat) (w : MemWho) (u : Nat) : RegsKept P s (dramUe s t w u) := by
  refine .trans (.ite (.of_setReg _ _ _ _ (by decide)) (.ite (.of_raise _ _ _ _ _ (by decide)) ?_)) (.of_pulse _ _ (by decide))
  exact ((RegsKept.of_setReg _ _ _ _ (by decide)).trans (.of_setReg _ _ _ _ (by decide))).trans (.of_raise _ _ _ _ _ (by decide))

theorem carafeUe_high (s : State) (t : Nat) (w : MemWho) (u : Nat) (late : Bool) : RegsKept P s (carafeUe s t w u late) := by
  refine .trans (.ite (.of_raise _ _ _ _ _ (by decide)) ?_) (.of_pulse _ _ (by decide))
  exact (((RegsKept.of_setReg _ _ _ _ (by decide)).trans (.of_setReg _ _ _ _ (by decide))).trans (.of_setReg _ _ _ _ (by decide))).trans
    (.of_raise _ _ _ _ _ (by decide))

theorem uncorrectable_high (s : State) (t : Nat) (w : MemWho) (u : Nat) : RegsKept P s (uncorrectable s t w u) := by
  unfold uncorrectable
  split
  · exact dramUe_high s t w u
  · exact carafeUe_high s t w u false
  · exact (RegsKept.of_count _ _ _ _).trans (.of_pulse _ _ (by decide))
  · exact .refl s

theorem carRounds_high (s : State) (t : Nat) (w : MemWho) (us : List Nat) : RegsKept P s (carRounds s t w us) := by
  obtain ⟨l, hl⟩ := carRounds_eq s t w us
  rw [hl]
  exact .of_regs rfl

theorem correctUnits_high (s : State) (t : Nat) (us : List Nat) : RegsKept P s (correctUnits s t us) :=
  .foldl (fun u _ => .ite (corrected_high u t _) (.refl u)) us s

theorem repairUnits_high (s : State) (t a n : Nat) (us : List Nat) : RegsKept P s (repairUnits s t a n us) :=
  .foldl (fun v u => .ite (.of_regs (t := { v with memErr := kdel v.memErr u }) rfl) (.ite (corrected_high v t u) (.refl v))) us s

theorem readPhys_high (s : State) (t : Nat) (w : MemWho) (a n : Nat) : RegsKept P s (readPhys s t w a n).2.2 :=
  ((carRounds_high s t w _).trans (correctUnits_high _ t _)).trans (.foldl (fun u x => uncorrectable_high u t w x) _ _)

theorem writePhys_high (s : State) (t : Nat) (w : MemWho) (a : Nat) (bs : List Byte) : RegsKept P s (writePhys s t w a bs).2 := by
  refine RegsKept.trans ?_ (.foldl (fun u x => uncorrectable_high u t w x) _ _)
  exact ((carRounds_high s t w _).trans (repairUnits_high _ t a _ _)).trans (.of_regs rfl)

/-! ### The Runner (R281, R293, R294) -/

theorem record_high (s : State) (t : Nat) {n : RegName} (w : W32) (hn : regOff n 0 0 < 0x50000) : RegsKept P s (s.record t n w) :=
  .ite (.of_raise _ _ _ _ _ hn) ((RegsKept.of_setReg _ _ _ _ hn).trans (.of_raise _ _ _ _ _ hn))

theorem runErr_high (s : State) (t h kind : Nat) : RegsKept P s (runErr s t h kind) := by
  rw [runErr_eq]
  exact (record_high s t _ (by decide)).trans (.of_pulse _ _ (runErrSrc_lt kind))

theorem pulseSrc_high (s : State) (t h : Nat) : RegsKept P s (pulse s (192 + qSrc s h) t) := by
  have hsrc : qSrc s h < 64 := Nat.mod_lt _ (by decide)
  exact .of_pulse _ _ (by omega)

theorem queueErr_high (s : State) (t h kind : Nat) : RegsKept P s (queueErr s t h kind) := by
  have herr : RegsKept P s (runErr (s.setQdFld h 0x18 28 28 1) t h kind) :=
    .trans (t := s.setQdFld h 0x18 28 28 1) (.of_regs (setQdFld_regs ..)) (runErr_high _ t h kind)
  exact .ite (herr.trans (pulseSrc_high _ t h)) herr

end

theorem privPulse_high (s : State) (p n t : Nat) : HighKept s (privPulse s p n t) := by
  have hspan : HighKept s { s with privSpan := kput s.privSpan (32 * p + n) t } := .of_regs rfl
  refine .ite hspan ((hspan.trans fun off _ _ hmod => kget_raise_ne _ _ _ fun e => hmod ?_).trans
    (.of_signals (.of_rail (presentCore_railOnly _ _ _))))
  simp only [e, regOff, regRow]
  omega

theorem watermarkEvent_high (s : State) (t h : Nat) : HighKept s (watermarkEvent s t h) := by
  refine .ite (.ite ?_ (pulseSrc_high s t h)) (.refl s)
  split
  · exact privPulse_high _ _ _ _
  · exact .refl s

theorem readSlot_high (s : State) (t h slot : Nat) : HighKept s (readSlot s t h slot).2 := by
  have hread : HighKept s _ := readPhys_high s t .runner (qStore s h + slotBytes s h * slot) (slotBytes s h)
  unfold readSlot
  dsimp only
  split
  · exact hread.trans (queueErr_high _ _ _ _)
  · exact hread

theorem writeSlot_high (s : State) (t h slot : Nat) (bs : List Byte) : HighKept s (writeSlot s t h slot bs) := by
  have hwrite : HighKept s _ := writePhys_high s t .runner (qStore s h + slotBytes s h * slot) bs
  exact .ite (hwrite.trans (queueErr_high _ _ _ _)) hwrite

theorem appendItem_high (s : State) (t h : Nat) : HighKept s (appendItem s t h) := by
  have hgrown : (grown s t h).regs = s.regs := by rw [grown, setQueue_regs, setQdFld_regs]
  exact (RegsKept.of_regs hgrown).trans (watermarkEvent_high _ t h)

theorem dropItem_regs (s : State) (h : Nat) : (dropItem s h).regs = s.regs := by
  rw [dropItem, setQueue_regs, setQdFld_regs, setQdFld_regs]

theorem portSend_high (s : State) (t h : Nat) (item : W48) : HighKept s (portSend s t h item) :=
  .trans (t := s.setQdFld h 0x14 15 0 (qCredLeft s h - 1)) (.of_regs (setQdFld_regs ..))
    ((writeSlot_high _ t h _ _).trans (appendItem_high _ t h))

end Sys2Proof.Machine
end

section
/-! PROOF. The host rings: enable, entries, indices and reads (R497 to R499, R504; log entry 32). -/

namespace Sys2Proof.Machine

/-! ### A ring's configuration (R497) -/

/-- A free field leaves the bits outside it. -/
theorem testBit_planField_out {old v hw : Nat} {o tamp : Bool} (p : Plan) {f : Field} (ha : f.acc = .rw) (hf : f.lo ≤ f.hi) {b : Nat}
    (hb : ¬ (f.lo ≤ b ∧ b ≤ f.hi)) : (planField old v hw o tamp p f).word.testBit b = p.word.testBit b := by
  simp only [planField, ha, testBit_putField hf, if_neg hb]

/-- The word that PCX_HRj_CFG takes, apart from the size of the ring. -/
theorem testBit_plan_pcxHrCfg (j old v hw : Nat) (o : Bool) {b : Nat} (hb : b < 16 ∨ b = 30 ∨ b = 31) :
    (planWrite .pcxHrCfg j old v hw o).word.testBit b = v.testBit b := by
  rw [planWrite_unfixed rfl]
  simp only [regRow, List.foldl_cons, List.foldl_nil]
  rw [testBit_planField_rw _ rfl rfl (by decide)]
  split
  · rfl
  · next h15 =>
    have hhigh : b = 30 ∨ b = 31 := by
      simp only at h15
      omega
    rw [testBit_planField_out _ rfl (by decide) (by simp only; omega), testBit_planField_rw _ rfl rfl (by decide),
      testBit_planField_rw _ rfl rfl (by decide)]
    simp only
    rcases hhigh with rfl | rfl <;> rfl

/-- HOST_RING_ENABLE writes the configuration, with en set. -/
theorem put_pcxHrCfg {s : State} {ini : Ini} {j : Nat} {v : W32} {t : Nat} (hj : j < 16) (hr : reservedIn .pcxHrCfg j v.toNat = false) :
    ∃ w : W32, regPut s ini .pcxHrCfg j v t = hrConfig (noted s t .pcxHrCfg j) j w t ∧
      ∀ b, b < 16 ∨ b = 30 ∨ b = 31 → w.toNat.testBit b = v.toNat.testBit b := by
  have hl : ∀ k < 16, lookupReg (regOff .pcxHrCfg k 0) = some (.pcxHrCfg, k, 0) := by decide
  have hlow : regOff .pcxHrCfg j 0 < 0x400000 := by
    simp only [regOff, regRow]
    omega
  refine ⟨_, regPut_plain hj (hl j hj) (blockHeld_low s hlow) rfl rfl hr, fun b hb => ?_⟩
  rw [testBit_ofNat_word (by omega), testBit_plan_pcxHrCfg _ _ _ _ _ hb]

/-- The ring's words do not overlap. -/
theorem regOff_ring_ne (j : Nat) : regOff .pcxHrCfg j 0 ≠ regOff .pcxHrPi j 0 ∧ regOff .pcxHrCfg j 0 ≠ regOff .pcxHrCi j 0 ∧
    regOff .pcxHrCfg j 0 ≠ regOff .pcxHrStat j 0 ∧ regOff .pcxHrPi j 0 ≠ regOff .pcxHrCfg j 0 ∧
    regOff .pcxHrPi j 0 ≠ regOff .pcxHrCi j 0 ∧ regOff .pcxHrPi j 0 ≠ regOff .pcxHrStat j 0 ∧
    regOff .pcxHrCi j 0 ≠ regOff .pcxHrCfg j 0 ∧ regOff .pcxHrCi j 0 ≠ regOff .pcxHrStat j 0 ∧
    regOff .pcxHrStat j 0 ≠ regOff .pcxHrCfg j 0 := by
  simp only [regOff, regRow]
  omega

/-- Whether a ring can be bound is a matter of its configuration and its queue. -/
theorem hrBinds_congr {s u : State} {j : Nat} (hq : hrQueue u j = hrQueue s j) (hd : hrDir u j = hrDir s j) (hm : u.mem = s.mem)
    (hqs : u.queues = s.queues) : hrBinds u j = hrBinds s j := by
  have hfld (h off hi lo : Nat) : u.qdFld h off hi lo = s.qdFld h off hi lo := qdFld_of_mem hm h off hi lo
  have hword (h off : Nat) : u.qdWord h off = s.qdWord h off := by rw [State.qdWord, hm, State.qdWord]
  have hen (h : Nat) : qEn u h = qEn s h := by rw [qEn, qEn, hword, queue_congr hqs]
  have hhost (h : Nat) : qOwnerHost u h = qOwnerHost s h := by rw [qOwnerHost, qOwnerHost, hword]
  simp only [hrBinds, hq, hd, hen, hhost, qKind, qProducer, qConsumer, hfld]
  rfl

theorem hrReads_congr {s u : State} (h : u.pcie = s.pcie) (j : Nat) : hrReads u j = hrReads s j := by
  rw [hrReads, h, hrReads]

/-- The ring whose configuration is written with en set, before it is bound. -/
def hrFresh (s : State) (j : Nat) (w : W32) : State :=
  let s := ((s.setReg .pcxHrCfg (withField w 31 31 1) j).setReg .pcxHrPi 0 j).setReg .pcxHrCi 0 j
  s.setPcie { s.pcie with reads := s.pcie.reads.map fun r => if r.ring = j then { r with dead := true } else r }

theorem hrFresh_regs (s : State) (j : Nat) (w : W32) : (hrFresh s j w).regs =
    (((s.setReg .pcxHrCfg (withField w 31 31 1) j).setReg .pcxHrPi 0 j).setReg .pcxHrCi 0 j).regs := rfl

theorem hrFresh_facts (s : State) (j : Nat) (w : W32) : (hrFresh s j w).reg .pcxHrCfg j = withField w 31 31 1 ∧
    (hrFresh s j w).reg .pcxHrPi j = 0 ∧ (hrFresh s j w).reg .pcxHrCi j = 0 ∧ hrReads (hrFresh s j w) j = [] := by
  obtain ⟨hcp, hcc, -, -, hpc, -⟩ := regOff_ring_ne j
  refine ⟨?_, ?_, ?_, ?_⟩
  · rw [reg_congr (hrFresh_regs s j w), reg_setReg_ne _ _ hcc, reg_setReg_ne _ _ hcp, reg_setReg_same]
  · rw [reg_congr (hrFresh_regs s j w), reg_setReg_ne _ _ hpc, reg_setReg_same]
  · rw [reg_congr (hrFresh_regs s j w), reg_setReg_same]
  · refine List.filter_eq_nil_iff.mpr fun q hq => ?_
    obtain ⟨x, -, rfl⟩ := List.mem_map.mp hq
    by_cases hx : x.ring = j <;> simp [hx]

theorem hrFresh_en (s : State) (j : Nat) (w : W32) : hrEn (hrFresh s j w) j = true := by
  rw [hrEn, State.bit, (hrFresh_facts s j w).1, bitOf, testBit_withField (Nat.le_refl 31) (by decide), if_pos (by decide)]
  rfl

theorem setFld_only (s : State) (n : RegName) (hi lo v i : Nat) : ∃ rs, s.setFld n hi lo v i = { s with regs := rs } := ⟨_, rfl⟩

theorem hrShow_only (s : State) (j : Nat) : ∃ rs, hrShow s j = { s with regs := rs } := ⟨_, rfl⟩

theorem hrConfig_enable {s : State} {j t : Nat} {w : W32} (hw : w.toNat.testBit 31 = true) (hs : kget s.pcie.stopped j ≠ some t) :
    hrConfig s j w t = if hrBinds (hrFresh s j w) j then hrShow (hrFresh s j w) j
      else ((hrFresh s j w).setBit .pcxHrCfg 31 false j).setFld .pcxHrStat 6 4 1 j := by
  have hen := hrFresh_en s j w
  have hval : ofBool (bitOf w.toNat 31 && !decide (kget s.pcie.stopped j = some t)) = 1 := by simp [bitOf, hw, hs, ofBool]
  have hset : bitOf w.toNat 31 = true := hw
  rw [hrFresh] at hen
  rw [hrConfig, hval, if_pos hset, if_neg (by rw [hen]; decide), hrFresh]

/-- An enabled ring starts empty, and stays enabled where it is bound. -/
theorem hrConfig_facts {s : State} {j t : Nat} {w : W32} (hw : w.toNat.testBit 31 = true) (hs : kget s.pcie.stopped j ≠ some t) :
    let u := hrConfig s j w t
    u.reg .pcxHrPi j = 0 ∧ u.reg .pcxHrCi j = 0 ∧ hrQueue u j = fieldOf w 15 0 ∧ hrDir u j = bitOf w.toNat 30 ∧ hrReads u j = [] ∧
      hrEn u j = hrBinds u j ∧ (hrBinds u j = false → u.fld .pcxHrStat 6 4 j = 1) ∧ u.mem = s.mem := by
  obtain ⟨hcfg, hpi, hci, hreads⟩ := hrFresh_facts s j w
  obtain ⟨-, -, hcs, hpc, -, hps, hcc, hcis, -⟩ := regOff_ring_ne j
  have hmem : (hrFresh s j w).mem = s.mem := rfl
  have hcfgBit {b : Nat} (hb : b < 32) : (hrFresh s j w).bit .pcxHrCfg b j = if b = 31 then true else bitOf w.toNat b := by
    rw [State.bit, hcfg, bitOf, testBit_withField (Nat.le_refl 31) hb]
    split
    · next h =>
      rw [if_pos (by omega), show b = 31 by omega]
      rfl
    · next h =>
      rw [if_neg (by omega)]
      rfl
  have hqueue : hrQueue (hrFresh s j w) j = fieldOf w 15 0 := by
    rw [hrQueue, State.fld, hcfg, fieldOf_withField_ne (Nat.le_refl 31) (by decide) (.inl (by decide))]
  have hdir : hrDir (hrFresh s j w) j = bitOf w.toNat 30 := hcfgBit (by decide)
  have hen : hrEn (hrFresh s j w) j = true := hcfgBit (by decide)
  dsimp only
  rw [hrConfig_enable hw hs]
  generalize hrFresh s j w = v at hpi hci hreads hmem hqueue hdir hen
  split
  · next hbind =>
    have hshow (n : RegName) (hn : regOff n j 0 ≠ regOff .pcxHrStat j 0) : (hrShow v j).reg n j = v.reg n j := by
      rw [hrShow, reg_setFld_ne _ _ _ _ hn]
    have hq : hrQueue (hrShow v j) j = hrQueue v j := by simp only [hrQueue, State.fld, hshow .pcxHrCfg hcs]
    have hd : hrDir (hrShow v j) j = hrDir v j := by simp only [hrDir, State.bit, hshow .pcxHrCfg hcs]
    have he : hrEn (hrShow v j) j = hrEn v j := by simp only [hrEn, State.bit, hshow .pcxHrCfg hcs]
    obtain ⟨rs, hrs⟩ := hrShow_only v j
    have hb : hrBinds (hrShow v j) j = true := (hrBinds_congr hq hd (by rw [hrs]) (by rw [hrs])).trans hbind
    exact ⟨(hshow .pcxHrPi hps).trans hpi, (hshow .pcxHrCi hcis).trans hci, hq.trans hqueue, hd.trans hdir,
      (hrReads_congr (by rw [hrs]) j).trans hreads, (he.trans hen).trans hb.symm, fun hno => absurd (hb.symm.trans hno) (by decide), by rw [hrs, hmem]⟩
  · next hbind =>
    obtain ⟨rs, hrs⟩ : ∃ rs, (v.setBit .pcxHrCfg 31 false j).setFld .pcxHrStat 6 4 1 j = { v with regs := rs } := by
      obtain ⟨rs, hoff⟩ := setFld_only v .pcxHrCfg 31 31 (ofBool false) j
      rw [State.setBit, hoff]
      exact setFld_only _ _ _ _ _ _
    generalize hx : (v.setBit .pcxHrCfg 31 false j).setFld .pcxHrStat 6 4 1 j = x at hrs ⊢
    have hreg (n : RegName) (hn : regOff n j 0 ≠ regOff .pcxHrStat j 0) (hc : regOff n j 0 ≠ regOff .pcxHrCfg j 0) :
        x.reg n j = v.reg n j := by rw [← hx, reg_setFld_ne _ _ _ _ hn, reg_setBit_ne _ _ _ hc]
    have hword : x.reg .pcxHrCfg j = withField (v.reg .pcxHrCfg j) 31 31 0 := by
      rw [← hx, reg_setFld_ne _ _ _ _ hcs, State.setBit, reg_setFld_same]
      rfl
    have hq : hrQueue x j = hrQueue v j := by
      rw [hrQueue, State.fld, hword, fieldOf_withField_ne (Nat.le_refl 31) (by decide) (.inl (by decide))]
      rfl
    have hd : hrDir x j = hrDir v j := by
      rw [hrDir, State.bit, hword, bitOf, testBit_withField (Nat.le_refl 31) (by decide), if_neg (by decide)]
      rfl
    have he : hrEn x j = false := by
      rw [hrEn, State.bit, hword, bitOf, testBit_withField (Nat.le_refl 31) (by decide), if_pos (by decide)]
      rfl
    have hb : hrBinds x j = false :=
      (hrBinds_congr hq hd (by rw [hrs]) (by rw [hrs])).trans (Bool.eq_false_of_not_eq_true hbind)
    refine ⟨(hreg .pcxHrPi hps hpc).trans hpi, (hreg .pcxHrCi hcis hcc).trans hci, hq.trans hqueue, hd.trans hdir, ?_, he.trans hb.symm,
      fun _ => ?_, by rw [hrs, hmem]⟩
    · exact (hrReads_congr (by rw [hrs]) j).trans hreads
    · rw [← hx]
      exact fld_setFld_same _ _ _ _ _ (by decide) (by decide)

end Sys2Proof.Machine
end

section
/-! PROOF. The host rings, continued: HOST_RING_ENABLE to HOST_READ_TIMEOUT (R497 to R499, R504; log entry 32). -/

namespace Sys2Proof.Machine

/-! ### An entry for the host (R498) -/

theorem dropItem_pcie (s : State) (h : Nat) : (dropItem s h).pcie = s.pcie := by
  rw [dropItem, setQueue_pcie, setQdFld_pcie, setQdFld_pcie]

/-- The oldest item of a ring's queue goes to the entry of the producer index. -/
theorem hrEntryWrite_facts {s : State} {j t : Nat} (hs : Shaped s) (hclean : s.memErr = []) (hj : j < 16) (hen : hrEn s j = true)
    (hdir : hrDir s j = false) (hcan : canMaster s = true) (hq : qEn s (hrQueue s j) = true) (hcount : qCount s (hrQueue s j) ≠ 0)
    (hroom : (hrPi s j + 2 ^ 32 - hrCi s j) % 2 ^ 32 < hrSize s j) (hk : qKind s (hrQueue s j) = 0) :
    let u := hrEntryWrite s j t
    u.pcie.posted = (hrAddr s j + 8 * (hrPi s j % hrSize s j), BitVec.ofNat 48 (ofBytesLE
      (memRead s.mem (qStore s (hrQueue s j) + 8 * qHead s (hrQueue s j)) 6))) :: s.pcie.posted ∧
    u.reg .pcxHrPi j = s.reg .pcxHrPi j + 1 ∧ qCount u (hrQueue s j) = qCount s (hrQueue s j) - 1 ∧
    qHead u (hrQueue s j) = nextHead s (hrQueue s j) := by
  have hready : ¬ (16 ≤ j ∨ (!hrEn s j) = true ∨ hrDir s j = true ∨ (!canMaster s) = true ∨ (!qEn s (hrQueue s j)) = true ∨
      qCount s (hrQueue s j) = 0 ∨ hrSize s j ≤ (hrPi s j + 2 ^ 32 - hrCi s j) % 2 ^ 32) := by
    simp [hen, hdir, hcan, hq, hcount]
    omega
  have hdrop := dropItem_readSlot hs hclean t (hrQueue s j) (qHead s (hrQueue s j))
  have hitem := readSlot_message hclean t hk (qHead s (hrQueue s j))
  have hregs : (dropItem (readSlot s t (hrQueue s j) (qHead s (hrQueue s j))).2 (hrQueue s j)).regs = s.regs ∧
      (dropItem (readSlot s t (hrQueue s j) (qHead s (hrQueue s j))).2 (hrQueue s j)).pcie = s.pcie := by
    obtain ⟨l, hl⟩ := readSlot_clean hclean t (hrQueue s j) (qHead s (hrQueue s j))
    rw [hl, dropItem_regs, dropItem_pcie]
    exact ⟨rfl, rfl⟩
  obtain ⟨hregs, hpcie⟩ := hregs
  dsimp only
  unfold hrEntryWrite
  dsimp only
  rw [if_neg hready, hitem]
  generalize dropItem (readSlot s t (hrQueue s j) (qHead s (hrQueue s j))).2 (hrQueue s j) = d at hdrop hregs hpcie
  have hsize : hrAddr d j + 8 * (hrPi d j % hrSize d j) = hrAddr s j + 8 * (hrPi s j % hrSize s j) := by
    simp only [hrAddr, hrPi, hrSize, reg_congr hregs, fld_congr hregs]
  rw [hsize, hpcie]
  generalize hx : d.setPcie { s.pcie with posted := _ } = x
  have hxregs : x.regs = s.regs := by
    rw [← hx]
    exact hregs
  have hxmem : x.mem = d.mem := by rw [← hx, State.setPcie]
  have hsig := pulse_signals (x.setReg .pcxHrPi (x.reg .pcxHrPi j + 1) j) t (n := 584 + j) (by omega)
  generalize pulse (x.setReg .pcxHrPi (x.reg .pcxHrPi j + 1) j) (584 + j) t = u at hsig
  have hmem : u.mem = d.mem := by rw [hsig.mem, setReg_mem, hxmem]
  refine ⟨?_, ?_, (qCount_of_mem hmem _).trans hdrop.count, ?_⟩
  · rw [hsig.pcie, setReg_pcie, ← hx, State.setPcie]
  · rw [hsig.reg .pcxHrPi j 0 (decide_eq_false (by simp only [regOff, regRow]; omega)), reg_setReg_same, reg_congr hxregs]
  · exact (qdFld_of_mem hmem (hrQueue s j) 0x1C 15 0).trans hdrop.head

/-! ### The host's producer index (R498) -/

theorem regOff_pcxHrPi_low {j : Nat} (hj : j < 16) : 0xA0400 ≤ regOff .pcxHrPi j 0 ∧ regOff .pcxHrPi j 0 < 0xA0600 ∧ regOff .pcxHrPi j 0 % 4 = 0 := by
  simp only [regOff, regRow]
  omega

/-- The host's write of the producer index reaches the ring. -/
theorem bar0Write_pcxHrPi {s : State} {ide : Bool} {j : Nat} (hup : linkIsUp s = true) (hserved : barServed s ide = true)
    (hrun : s.boot.stage ≠ .recovery) (hj : j < 16) (v : W32) (t : Nat) :
    bar0Write s (regOff .pcxHrPi j 0) (toBytesLE 4 v.toNat) true ide t = hrIndex (noted s t .pcxHrPi j) j true v t := by
  obtain ⟨hlo, hhi, hword⟩ := regOff_pcxHrPi_low hj
  have hl : ∀ k < 16, lookupReg (regOff .pcxHrPi k 0) = some (.pcxHrPi, k, 0) := by decide
  have halways : hostAlways (regOff .pcxHrPi j 0) = true := by
    rw [hostAlways, decide_eq_true (⟨hlo, hhi⟩ : 0xA0400 ≤ regOff .pcxHrPi j 0 ∧ regOff .pcxHrPi j 0 < 0xA0600), Bool.or_true]
  have hr : reservedIn .pcxHrPi j v.toNat = false := by
    have := v.isLt
    simp [reservedIn, planWrite, planField, regRow, fd, fieldBits, bitsOf, Nat.shiftRight_eq_div_pow, wordLegal, fieldLegal, fixedField]
  obtain ⟨w, hput⟩ := regPut_legal (s := s) (ini := .host) (t := t) hj (hl j hj) (by omega) rfl rfl hr
  rw [regPut, if_pos (show j < (regRow .pcxHrPi).n1 from hj)] at hput
  rw [bar0Write_reg hup hserved hrun (by omega) hword (length_toBytesLE 4 v.toNat), if_pos (by rw [halways, Bool.or_true]),
    ofBytesLE_toBytesLE v.isLt, BitVec.ofNat_toNat, BitVec.setWidth_eq, hput]
  rfl

/-! ### Reads of the host's memory (R498, R499, R504) -/

/-- A failed read stops its ring with the error; the consumer index stays. -/
def readFailed (s u : State) (j err : Nat) : Prop :=
  hrEn u j = false ∧ u.fld .pcxHrStat 6 4 j = err ∧ u.reg .pcxHrCi j = s.reg .pcxHrCi j ∧ hrReads u j = [] ∧ u.mem = s.mem ∧
    u.pcie.aer = s.pcie.aer

theorem noisy_ring {n : RegName} {j : Nat} (h : regOff n j 0 = 0xA0400 + 0x20 * j ∨ regOff n j 0 = 0xA0410 + 0x20 * j ∨
    regOff n j 0 = 0xA0414 + 0x20 * j) (hj : j < 16) : noisy (regOff n j 0) = false := by
  rw [noisy, decide_eq_false_iff_not]
  omega

theorem regOff_ring (j : Nat) : regOff .pcxHrCfg j 0 = 0xA0400 + 0x20 * j ∧ regOff .pcxHrCi j 0 = 0xA0410 + 0x20 * j ∧
    regOff .pcxHrStat j 0 = 0xA0414 + 0x20 * j := by
  simp only [regOff, regRow]
  omega

theorem hrStop_only (s : State) (j err t : Nat) : (hrStop s j err t).pcie.reads = s.pcie.reads ∧ (hrStop s j err t).pcie.aer = s.pcie.aer ∧
    (hrStop s j err t).mem = s.mem := by
  simp only [hrStop, State.setPcie, State.setBit, State.setFld, setReg_pcie, setReg_mem, and_self]

/-- A stopped ring stays so over events and changes of its count of reads. -/
theorem readFailed_after {s u v : State} {j err : Nat} (h : readFailed s u j err)
    (hreg : ∀ n, regOff n j 0 = 0xA0400 + 0x20 * j ∨ regOff n j 0 = 0xA0410 + 0x20 * j → v.reg n j = u.reg n j)
    (hstat : v.fld .pcxHrStat 6 4 j = u.fld .pcxHrStat 6 4 j) (hpcie : v.pcie = u.pcie) (hmem : v.mem = u.mem) : readFailed s v j err := by
  obtain ⟨hen, herr, hci, hreads, hm, haer⟩ := h
  obtain ⟨hcfg, hci', -⟩ := regOff_ring j
  refine ⟨?_, hstat.trans herr, (hreg _ (.inr hci')).trans hci, (hrReads_congr hpcie j).trans hreads, hmem.trans hm, by rw [hpcie, haer]⟩
  rw [← hen, hrEn, State.bit, hreg _ (.inl hcfg), hrEn, State.bit]

theorem readFailed_signals {s u v : State} {j err : Nat} (h : readFailed s u j err) (hj : j < 16) (hsig : Signals u v) : readFailed s v j err :=
  readFailed_after h (fun n hn => hsig.reg n j 0 (noisy_ring (by omega) hj))
    (hsig.fld _ _ _ _ _ (noisy_ring (.inr (.inr (regOff_ring j).2.2)) hj)) hsig.pcie hsig.mem

theorem readFailed_show {s u : State} {j err : Nat} (h : readFailed s u j err) : readFailed s (hrShow u j) j err := by
  obtain ⟨hcfg, hci, hstat⟩ := regOff_ring j
  refine readFailed_after h (fun n hn => ?_) ?_ ?_ ?_
  · rw [hrShow, reg_setFld_ne _ _ _ _ (by omega)]
  · rw [hrShow, fld_setFld_ne _ _ _ _ _ (by decide) (by decide) (.inr (by decide))]
  · rw [hrShow, State.setFld, setReg_pcie]
  · rw [hrShow, State.setFld, setReg_mem]

theorem hrFail_readFailed (s : State) {j err : Nat} (t : Nat) (hj : j < 16) (herr : err < 8) : readFailed s (hrFail s j err t) j err := by
  refine readFailed_show (readFailed_signals ?_ hj (pulse_signals _ t (by decide)))
  obtain ⟨-, -, hcs, -, -, -, hcc, hcis, -⟩ := regOff_ring_ne j
  generalize hv : s.setPcie { s.pcie with reads := s.pcie.reads.map fun r => if r.ring = j then { r with dead := true } else r } = v
  have hregs := hrStop_regs v j err t
  have hvregs : v.regs = s.regs := by rw [← hv, State.setPcie]
  obtain ⟨hreads, haer, hmem⟩ := hrStop_only v j err t
  refine ⟨?_, ?_, ?_, ?_, ?_, ?_⟩
  · rw [hrEn, bit_congr hregs, State.bit, reg_setFld_ne _ _ _ _ hcs]
    exact bit_setBit_same _ _ _ _ _ _ (by decide)
  · rw [fld_congr hregs, fld_setFld_same _ _ _ _ _ (by decide) (by decide)]
    omega
  · rw [reg_congr hregs, reg_setFld_ne _ _ _ _ hcis, reg_setBit_ne _ _ _ hcc, reg_congr hvregs]
  · refine List.filter_eq_nil_iff.mpr fun q hq => ?_
    rw [hreads, ← hv, State.setPcie] at hq
    obtain ⟨x, -, rfl⟩ := List.mem_map.mp hq
    by_cases hx : x.ring = j <;> simp [hx]
  · rw [hmem, ← hv, State.setPcie]
  · rw [haer, ← hv, State.setPcie]

/-- An error is logged while the ring stays stopped. -/
theorem readFailed_aerLog {s u : State} {j err : Nat} (h : readFailed s u j err) (hj : j < 16) (code t : Nat) :
    readFailed (s.setPcie { s.pcie with aer := code :: s.pcie.aer }) (aerLog u code t) j err := by
  refine readFailed_signals ?_ hj (aerLog_signals u code t)
  obtain ⟨hen, herr, hci, hreads, hmem, haer⟩ := h
  exact ⟨hen, herr, hci, hreads, hmem, congrArg (code :: ·) haer⟩

/-- The oldest read of a ring leaves the list, and the ring shows it. -/
def hrTaken (s : State) (j : Nat) (q : HRead) : State := hrShow (s.setPcie { s.pcie with reads := s.pcie.reads.erase q }) j

theorem hrTaken_facts (s : State) {j : Nat} (q : HRead) (hj : j < 16) : (hrTaken s j q).mem = s.mem ∧ (hrTaken s j q).pcie.aer = s.pcie.aer ∧
    (hrTaken s j q).reg .pcxHrCi j = s.reg .pcxHrCi j ∧ hrEn (hrTaken s j q) j = hrEn s j := by
  have hring := hrShow_ringReads s hj (s.pcie.reads.erase q)
  have hne (k : Nat) : regOff .pcxHrCi j 0 ≠ regOff .pcxHrStat k 0 ∧ regOff .pcxHrCfg j 0 ≠ regOff .pcxHrStat k 0 := by
    simp only [regOff, regRow]
    omega
  have haer : (hrTaken s j q).pcie.aer = s.pcie.aer := by
    rw [hrTaken, hrShow, State.setFld, setReg_pcie, State.setPcie]
  refine ⟨(congrArg State.mem hring.eq :), haer, hring.reg .pcxHrCi j fun k _ => (hne k).1, ?_⟩
  rw [hrEn, State.bit, hrTaken, hring.reg .pcxHrCfg j fun k _ => (hne k).2, hrEn, State.bit]

section
variable {s : State} {j : Nat} {q : HRead} (hq : s.pcie.reads.find? (fun q => decide (q.ring = j)) = some q)
include hq

theorem hrTake_some : hrTake s j = some (q, hrTaken s j q) := by rw [hrTake, hq, hrTaken]

variable (hlive : q.dead = false) (t : Nat)
include hlive

theorem hrCompletion_failed (ep : Bool) (items : List W48) : hrCompletion s j false ep items t = hrFail (hrTaken s j q) j 3 t := by
  rw [hrCompletion, hrTake_some hq]
  simp [hlive]

theorem hrCompletion_poisoned (items : List W48) :
    hrCompletion s j true true items t = hrFail (aerLog (hrTaken s j q) 7 t) j 4 t := by
  rw [hrCompletion, hrTake_some hq]
  simp [hlive]

/-- The entries of a good read go to the queue. -/
def hrFilled (s : State) (j : Nat) (q : HRead) (items : List W48) (t : Nat) : State :=
  (List.range q.count).foldl (fun s i => portSend s t (hrQueue s j) (nth items i 0)) (hrTaken s j q)

theorem hrCompletion_good (items : List W48) : hrCompletion s j true false items t = hrIssueAll 64 (pulse
    ((hrFilled s j q items t).setReg .pcxHrCi (BitVec.ofNat 32 (hrCi (hrFilled s j q items t) j + q.count)) j) (584 + j) t) j t := by
  rw [hrCompletion, hrTake_some hq]
  simp [hlive, hrFilled]

theorem hrTimeout_some : hrTimeout s j t = if t < q.at' + 76800000 then s else
    runErr (aerLog (hrFail (hrTaken s j q) j 2 t) 5 t) t (hrQueue s j) 4 := by
  rw [hrTimeout, hrTake_some hq]
  simp [hlive]

end

theorem hrCompletion_good_facts (s : State) {j : Nat} (q : HRead) (hj : j < 16) (items : List W48) (t : Nat) :
    let u := hrIssueAll 64 (pulse ((hrFilled s j q items t).setReg .pcxHrCi
      (BitVec.ofNat 32 (hrCi (hrFilled s j q items t) j + q.count)) j) (584 + j) t) j t
    u.reg .pcxHrCi j = BitVec.ofNat 32 (hrCi s j + q.count) ∧ hrEn u j = hrEn s j := by
  obtain ⟨hcfg, hci, -⟩ := regOff_ring j
  obtain ⟨-, -, -, -, -, -, hcc, -, -⟩ := regOff_ring_ne j
  obtain ⟨-, -, htci, hten⟩ := hrTaken_facts s q hj
  have hhigh : HighKept (hrTaken s j q) (hrFilled s j q items t) := .foldl (fun u i => portSend_high u t (hrQueue u j) (nth items i 0)) _ _
  have hfci : hrCi (hrFilled s j q items t) j = hrCi s j := by
    rw [hrCi, hhigh.reg .pcxHrCi j (by omega) (by omega) (by omega), htci, hrCi]
  have hfcfg : (hrFilled s j q items t).reg .pcxHrCfg j = (hrTaken s j q).reg .pcxHrCfg j :=
    hhigh.reg .pcxHrCfg j (by omega) (by omega) (by omega)
  rw [hrEn, State.bit] at hten
  dsimp only
  rw [hfci]
  generalize hrFilled s j q items t = v at hfcfg
  have hsig := pulse_signals (v.setReg .pcxHrCi (BitVec.ofNat 32 (hrCi s j + q.count)) j) t (n := 584 + j) (by omega)
  generalize pulse (v.setReg .pcxHrCi (BitVec.ofNat 32 (hrCi s j + q.count)) j) (584 + j) t = x at hsig
  have hring := hrIssueAll_ringReads hj t 64 x
  have hne (k : Nat) : regOff .pcxHrCi j 0 ≠ regOff .pcxHrStat k 0 ∧ regOff .pcxHrCfg j 0 ≠ regOff .pcxHrStat k 0 := by
    simp only [regOff, regRow]
    omega
  constructor
  · rw [hring.reg .pcxHrCi j fun k _ => (hne k).1, hsig.reg _ _ _ (noisy_ring (.inr (.inl hci)) hj), reg_setReg_same]
  · rw [hrEn, State.bit, hring.reg .pcxHrCfg j fun k _ => (hne k).2, hsig.reg _ _ _ (noisy_ring (.inl hcfg) hj),
      reg_setReg_ne _ _ hcc.symm, hfcfg, hten]

theorem runErr_pcie (s : State) (t h kind : Nat) : (runErr s t h kind).pcie = s.pcie := by
  rw [runErr_eq, (pulse_signals _ t (runErrSrc_lt kind)).pcie]
  unfold State.record
  split <;> rfl

theorem readFailed_runErr {s u : State} {j err : Nat} (h : readFailed s u j err) (hj : j < 16) (t q kind : Nat) :
    readFailed s (runErr u t q kind) j err := by
  obtain ⟨hcfg, hci, hstat⟩ := regOff_ring j
  have hhigh : HighKept u _ := runErr_high u t q kind
  refine readFailed_after h (fun n hn => hhigh.reg n j (by omega) (by omega) (by omega)) ?_ (runErr_pcie u t q kind)
    (runErr_eventOnly u t q kind).mem
  rw [State.fld, hhigh.reg .pcxHrStat j (by omega) (by omega) (by omega), State.fld]

end Sys2Proof.Machine

namespace Sys2Proof.Proofs

open Sys2Proof.Machine

theorem hostRingEnable_facts {r : State} {ini : Ini} {j t : Nat} {v : W32} (hj : j < 16)
    (hres : reservedIn .pcxHrCfg j (v ||| 0x80000000).toNat = false) (hstop : kget r.pcie.stopped j ≠ some t) :
    let u := regPut r ini .pcxHrCfg j (v ||| 0x80000000) t
    u.reg .pcxHrPi j = 0 ∧ u.reg .pcxHrCi j = 0 ∧ hrQueue u j = fieldOf v 15 0 ∧ hrDir u j = bitOf v.toNat 30 ∧ hrReads u j = [] ∧
      hrEn u j = hrBinds u j ∧ (hrBinds u j = false → u.fld .pcxHrStat 6 4 j = 1) ∧ u.mem = r.mem := by
  obtain ⟨w, hput, hw⟩ := put_pcxHrCfg (s := r) (ini := ini) (t := t) hj hres
  have hbit {b : Nat} (hb : b < 16 ∨ b = 30 ∨ b = 31) : w.toNat.testBit b = (v.toNat.testBit b || decide (b = 31)) := by
    have hone : (0x80000000 : W32).toNat = 2 ^ 31 := rfl
    rw [hw b hb, BitVec.toNat_or, Nat.testBit_or, hone, Nat.testBit_two_pow, decide_eq_decide.mpr eq_comm]
  have hen : w.toNat.testBit 31 = true := by rw [hbit (.inr (.inr rfl)), decide_eq_true rfl, Bool.or_true]
  have hlow {b : Nat} (hb : b < 16 ∨ b = 30) : w.toNat.testBit b = v.toNat.testBit b := by
    rw [hbit (by omega), decide_eq_false (by omega), Bool.or_false]
  have hqueue : fieldOf w 15 0 = fieldOf v 15 0 := fieldOf_congr fun b _ hb => hlow (by omega)
  have hfacts := hrConfig_facts (s := noted r t .pcxHrCfg j) (j := j) hen hstop
  dsimp only at hfacts ⊢
  rw [hput, ← hqueue, bitOf, ← hlow (.inr rfl)]
  exact hfacts

/-- Settles O52: a ring's indices follow R498, and a read that fails stops it (R499). -/
theorem hostRings : Obligations.HostRings := by
  unfold Obligations.HostRings
  refine ⟨fun s r t j hr hj => ?_, fun s r t j hr hj => ?_⟩
  all_goals
    have hrun (f : State → State) : (Host.Outcome.next (awake s t fun s => upTo 16 j s f) : Out) = .next (f r) :=
      congrArg Host.Outcome.next ((awake_runs hr _).trans (upTo_lt hj r f))
  · refine ⟨fun ini v hres hstop => ?_, ⟨fun hno => ?_, fun hready hs hclean hk => ?_⟩, fun v ide hup hserved hrec => ?_,
      fun v ide hno => ?_⟩
    · exact ⟨_, congrArg Host.Outcome.next (awake_runs hr _), hostRingEnable_facts hj hres hstop⟩
    · refine (hrun _).trans (congrArg Host.Outcome.next ?_)
      unfold hrEntryWrite
      refine if_pos (Classical.byContradiction fun hall => hno ?_)
      simp only [not_or, Bool.not_eq_true, Bool.not_eq_false'] at hall
      obtain ⟨-, hen, hdir, hcan, hq, hcount, hroom⟩ := hall
      exact ⟨hen, hdir, hcan, hq, hcount, Nat.lt_of_not_le hroom⟩
    · obtain ⟨hen, hdir, hcan, hq, hcount, hroom⟩ := hready
      exact ⟨_, hrun _, hrEntryWrite_facts hs hclean hj hen hdir hcan hq hcount hroom hk⟩
    · have hwrite := bar0Write_pcxHrPi (ide := ide) hup hserved hrec hj v t
      have hdirEq : hrDir (noted r t .pcxHrPi j) j = hrDir r j := rfl
      split
      · next hdir =>
        have hring := hrIssueAll_ringReads hj t 64 ((noted r t .pcxHrPi j).setReg .pcxHrPi v j)
        have hne (k : Nat) : regOff .pcxHrPi j 0 ≠ regOff .pcxHrStat k 0 := by
          simp only [regOff, regRow]
          omega
        refine ⟨_, (hrun _).trans (congrArg Host.Outcome.next (hwrite.trans ((if_pos rfl).trans (if_pos (hdirEq.trans hdir))))), ?_,
          (congrArg State.mem hring.eq :)⟩
        rw [hring.reg .pcxHrPi j fun k _ => hne k, reg_setReg_same]
      · next hdir =>
        exact (hrun _).trans (congrArg Host.Outcome.next (hwrite.trans ((if_pos rfl).trans (if_neg (hdirEq ▸ hdir)))))
    · refine (hrun _).trans (congrArg Host.Outcome.next (if_pos ?_))
      rcases hno with hup | hserved
      · exact .inl (by simp [linkIsUp, hup])
      · exact .inr (.inl (by simp [hserved]))
  · refine ⟨fun hnone => ?_, fun q hq hlive => ?_⟩
    · have htake : hrTake r j = none := by rw [hrTake, hnone]
      refine ⟨(hrun _).trans (by rw [hrTimeout, htake]), fun ok ep items => ?_⟩
      have hcompl : hrCompletion r j ok ep items t = if linkIsUp r then aerLog r 4 t else r := by rw [hrCompletion, htake]
      split
      · next hup =>
        have hsig := aerLog_signals r 4 t
        refine ⟨_, (hrun _).trans (congrArg Host.Outcome.next (hcompl.trans (if_pos hup))), ?_, hsig.mem⟩
        rw [hsig.pcie, State.setPcie]
      · next hdown => exact (hrun _).trans (congrArg Host.Outcome.next (hcompl.trans (if_neg hdown)))
    · obtain ⟨hmem, haer, hci, -⟩ := hrTaken_facts r q hj
      have hstopped {u v : State} {err : Nat} (hv : v.mem = r.mem) (hvci : v.reg .pcxHrCi j = r.reg .pcxHrCi j)
          (h : readFailed v u j err) : (hrEn u j = false ∧ u.fld .pcxHrStat 6 4 j = err ∧ u.reg .pcxHrCi j = r.reg .pcxHrCi j ∧
            hrReads u j = [] ∧ u.mem = r.mem) ∧ u.pcie.aer = v.pcie.aer := by
        obtain ⟨hen, herr, huci, hreads, hum, huaer⟩ := h
        exact ⟨⟨hen, herr, huci.trans hvci, hreads, hum.trans hv⟩, huaer⟩
      refine ⟨fun ep items => ?_, fun items => ?_, fun items => ?_, ?_⟩
      · exact ⟨_, (hrun _).trans (congrArg Host.Outcome.next (hrCompletion_failed hq hlive t ep items)),
          (hstopped hmem hci (hrFail_readFailed _ t hj (by decide))).1⟩
      · have hsig := aerLog_signals (hrTaken r j q) 7 t
        have hlog : (aerLog (hrTaken r j q) 7 t).pcie.aer = 7 :: r.pcie.aer := by rw [hsig.pcie, State.setPcie, haer]
        obtain ⟨hstop, haer'⟩ := hstopped (hsig.mem.trans hmem)
          ((hsig.reg .pcxHrCi j 0 (noisy_ring (.inr (.inl (regOff_ring j).2.1)) hj)).trans hci)
          (hrFail_readFailed (aerLog (hrTaken r j q) 7 t) (err := 4) t hj (by decide))
        exact ⟨_, (hrun _).trans (congrArg Host.Outcome.next (hrCompletion_poisoned hq hlive t items)), hstop, haer'.trans hlog⟩
      · exact ⟨_, (hrun _).trans (congrArg Host.Outcome.next (hrCompletion_good hq hlive t items)), hrCompletion_good_facts r q hj items t⟩
      · have htime := hrTimeout_some hq hlive t
        split
        · next hearly => exact (hrun _).trans (congrArg Host.Outcome.next (htime.trans (if_pos hearly)))
        · next hlate =>
          have hfail := hrFail_readFailed (hrTaken r j q) (err := 2) t hj (by decide)
          obtain ⟨hstop, haer'⟩ := hstopped (v := (hrTaken r j q).setPcie { (hrTaken r j q).pcie with aer := 5 :: (hrTaken r j q).pcie.aer })
            hmem hci (readFailed_runErr (readFailed_aerLog hfail hj 5 t) hj t (hrQueue r j) 4)
          exact ⟨_, (hrun _).trans (congrArg Host.Outcome.next (htime.trans (if_neg hlate))), hstop,
            haer'.trans (congrArg (5 :: ·) haer), runErr_valid _ t _ _⟩

end Sys2Proof.Proofs
end

section
/-! PROOF. The thirteen commands of the keep are taken by an idle set (R465, R467). -/

namespace Sys2Proof.Machine

/-- The ops of the keep (R467). -/
def keepOps : List Nat := [1, 2, 3, 16, 17, 18, 32, 33, 34, 48, 49, 64, 65]

theorem keepOps_lt : ∀ op ∈ keepOps, op < 256 := by decide

/-- An op of the keep and a parameter make a word that RKP_CMDs takes. -/
theorem rkpCmd_unreserved {op param : Nat} (hop : op ∈ keepOps) (set : Nat) :
    reservedIn .rkpCmd set (BitVec.ofNat 32 (op * 2 ^ 24 + param % 65536) : W32).toNat = false := by
  have hbound := keepOps_lt op hop
  have hlegal : fieldLegal ⟨31, 24, .wo, 0, [(1, 3), (16, 18), (32, 34), (48, 49), (64, 65)]⟩ op = true := by
    revert op
    decide
  have hlow : param % 65536 < 65536 := Nat.mod_lt _ (by decide)
  generalize param % 65536 = x at hlow
  have hval : (BitVec.ofNat 32 (op * 2 ^ 24 + x) : W32).toNat = op * 2 ^ 24 + x := by
    rw [BitVec.toNat_ofNat]
    omega
  have hop : bitsOf (op * 2 ^ 24 + x) 24 8 = op := by
    simp only [bitsOf, Nat.shiftRight_eq_div_pow]
    omega
  have hx : bitsOf (op * 2 ^ 24 + x) 0 16 = x := by
    simp only [bitsOf, Nat.shiftRight_eq_div_pow]
    omega
  have hbits : fieldBits .rkpCmd (op * 2 ^ 24 + x) = (op * 2 ^ 24 + x) % 2 ^ 32 := by
    simp only [fieldBits, regRow, fd, List.foldl_cons, List.foldl_nil, hop, hx]
    omega
  rw [hval, reservedIn, planWrite_unfixed rfl, hbits]
  simp only [regRow, fd, List.foldl_cons, List.foldl_nil]
  rw [planField_legal (.inr rfl), planField_legal (.inr rfl)]
  have hfree (v : Nat) : fieldLegal ⟨15, 0, .wo, 0, []⟩ v = true := rfl
  have hword (v : Nat) : wordLegal .rkpCmd v = true := rfl
  simp only [hop, hlegal, hfree, hword, ne_eq, not_true_eq_false, decide_false, Bool.not_true, Bool.or_false]
  rfl

/-- What a command that an idle set takes leaves. -/
theorem keepStart_idle {s : State} {set : Nat} (hidle : s.bit .rkpCst 7 set = false) (op param t : Nat) :
    let u := keepStart s set op param t
    u.bit .rkpCst 7 set = true ∧ u.mem = s.mem ∧
    kget u.keep.cmds set = some
      { op := op, param := param, at' := t, inp := keepAddr s .rkpInLo .rkpInHi set, out := keepAddr s .rkpOutLo .rkpOutHi set } ∧
    u.keep.restoreAt = if op = 0x30 ∧ set = 0 then some (s.keep.restoreAt.getD (s.pourAt t + 1)) else s.keep.restoreAt := by
  dsimp only
  rw [keepStart, if_neg (by simp [hidle])]
  exact ⟨bit_setBit_same _ _ _ _ _ _ (by decide), rfl, kget_kput_same _ _ _, rfl⟩

end Sys2Proof.Machine

namespace Sys2Proof.Proofs

open Sys2Proof.Machine

/-- Settles O43: a write of RKP_CMDs starts the command of an idle set. -/
theorem keepCommands : Obligations.KeepCommands := by
  unfold Obligations.KeepCommands
  intro s r t set param hr hset
  have hstarted (op : Nat) (hop : op ∈ keepOps) (c : Instr)
      (hc : ∀ s, exec c s = .next (awake s t fun s => regPut s (setIni set) .rkpCmd set (BitVec.ofNat 32 (op * 2 ^ 24 + param % 65536)) t)) :
      if r.bit .rkpCst 7 set = true then exec c s = .next (noted r t .rkpCmd set)
      else completes c s fun u =>
        u.bit .rkpCst 7 set = true ∧ u.mem = r.mem ∧
        kget u.keep.cmds set = some
          { op := op, param := param % 65536, at' := t, inp := keepAddr r .rkpInLo .rkpInHi set, out := keepAddr r .rkpOutLo .rkpOutHi set } ∧
        u.keep.restoreAt = if op = 0x30 ∧ set = 0 then some (r.keep.restoreAt.getD (r.pourAt t + 1)) else r.keep.restoreAt := by
    have hrun := (hc s).trans (congrArg Host.Outcome.next ((awake_runs hr _).trans (put_rkpCmd (t := t) hset (rkpCmd_unreserved hop set))))
    have hbound := keepOps_lt op hop
    have hop' : fieldOf (BitVec.ofNat 32 (op * 2 ^ 24 + param % 65536)) 31 24 = op ∧
        fieldOf (BitVec.ofNat 32 (op * 2 ^ 24 + param % 65536)) 15 0 = param % 65536 := by
      simp only [fieldOf, bitsOf, BitVec.toNat_ofNat, Nat.shiftRight_eq_div_pow]
      omega
    rw [hop'.1, hop'.2] at hrun
    split
    · next hbusy => exact hrun.trans (congrArg Host.Outcome.next (if_pos hbusy))
    · next hidle => exact ⟨_, hrun, keepStart_idle (s := noted r t .rkpCmd set) (Bool.eq_false_of_not_eq_true hidle) op _ t⟩
  exact ⟨hstarted 0x01 (by decide) _ fun _ => rfl, hstarted 0x02 (by decide) _ fun _ => rfl, hstarted 0x03 (by decide) _ fun _ => rfl,
    hstarted 0x10 (by decide) _ fun _ => rfl, hstarted 0x11 (by decide) _ fun _ => rfl, hstarted 0x12 (by decide) _ fun _ => rfl,
    hstarted 0x20 (by decide) _ fun _ => rfl, hstarted 0x21 (by decide) _ fun _ => rfl, hstarted 0x22 (by decide) _ fun _ => rfl,
    hstarted 0x30 (by decide) _ fun _ => rfl, hstarted 0x31 (by decide) _ fun _ => rfl, hstarted 0x40 (by decide) _ fun _ => rfl,
    hstarted 0x41 (by decide) _ fun _ => rfl⟩

end Sys2Proof.Proofs
end

section
/-! PROOF. Events of the keep: restore count, generator, requests and link keys (R456, R457, R465, R503; log entries 5 and 33). -/

namespace Sys2Proof.Machine

/-- A burn that is due raises the restore count. -/
theorem fuseBurn_facts {s : State} (hdue : s.keep.fuseDue = true) (t : Nat) :
    (fuseBurn s t).fld .rkpOtp 31 23 = min (s.fld .rkpOtp 31 23 + 1) 256 ∧ (fuseBurn s t).keep.fuseDue = false ∧ (fuseBurn s t).mem = s.mem := by
  have hburn : fuseBurn s t = keepLog ((s.setKeep { s.keep with fuseDue := false }).setFld .rkpOtp 31 23 (min (otpRestores s + 1) 256)) 2 t := by
    rw [fuseBurn, if_neg (by simp [hdue])]
    rfl
  rw [hburn]
  refine ⟨?_, rfl, rfl⟩
  refine (fld_setFld_same (s.setKeep { s.keep with fuseDue := false }) .rkpOtp _ 0 0 (by decide) (by decide)).trans ?_
  rw [otpRestores]
  omega

theorem drbgReseed_facts {s : State} (h : ¬ (s.keep.calls < 65536 ∧ s.bit .rkpStat 2 = true)) (ok : Bool) (t : Nat) :
    (drbgReseed s ok t).keep.calls = 0 ∧ (drbgReseed s ok t).bit .rkpStat 2 = ok ∧ (drbgReseed s ok t).mem = s.mem := by
  have hseed : drbgReseed s ok t = if ok then (s.setKeep { s.keep with calls := 0 }).setBit .rkpStat 2 ok
      else pulse ((s.setKeep { s.keep with calls := 0 }).setBit .rkpStat 2 ok) 648 t := if_neg h
  have hbit : ((s.setKeep { s.keep with calls := 0 }).setBit .rkpStat 2 ok).bit .rkpStat 2 = ok := bit_setBit_same _ _ _ _ _ _ (by decide)
  rw [hseed]
  generalize hx : (s.setKeep { s.keep with calls := 0 }).setBit .rkpStat 2 ok = x at hbit
  have hkeep : x.keep.calls = 0 := hx ▸ rfl
  have hmem : x.mem = s.mem := hx ▸ rfl
  split
  · exact ⟨hkeep, hbit, hmem⟩
  · have hsig := pulse_signals (n := 648) x t (by decide)
    exact ⟨by rw [hsig.keep, hkeep], (hsig.bit .rkpStat 2 0 0 (by decide)).trans hbit, hsig.mem.trans hmem⟩

theorem freeNat_lt (kind n : Nat) : Config.freeNat kind n % 2 ^ 32 < 2 ^ 32 := Nat.mod_lt _ (Nat.two_pow_pos 32)

end Sys2Proof.Machine

namespace Sys2Proof.Proofs

open Sys2Proof.Machine

/-- Settles O45: the registers and the key store of the keep after each event. -/
theorem keepEvents : Obligations.KeepEvents := by
  unfold Obligations.KeepEvents
  intro s r t hr
  have hrun (f : State → State) : (Host.Outcome.next (awake s t f) : Out) = .next (f r) := congrArg Host.Outcome.next (awake_runs hr f)
  have hset {set : Nat} (h : set < 2) : set % 2 = set := Nat.mod_eq_of_lt h
  refine ⟨?_, fun ok => ?_, fun msg => ?_, ?_, fun set dir key hs hd => ?_, fun set hs => ?_, fun set hs => ?_⟩
  · split
    · next hdue => exact (hrun _).trans (congrArg Host.Outcome.next (if_pos (by simp [hdue])))
    · next hdue => exact ⟨_, hrun _, fuseBurn_facts (Bool.eq_true_of_not_eq_false hdue) t⟩
  · split
    · next hfresh => exact (hrun _).trans (congrArg Host.Outcome.next (if_pos hfresh))
    · next hstale => exact ⟨_, hrun _, drbgReseed_facts hstale ok t⟩
  · exact ⟨_, hrun _, rfl, rfl, rfl, _, freeNat_lt 5 r.freeSeq, rfl⟩
  · exact ⟨_, hrun _, rfl, rfl, rfl, _, freeNat_lt 5 r.freeSeq, rfl⟩
  · refine ⟨r.setKeep { r.keep with ideKeys := kput r.keep.ideKeys (2 * set + dir) key }, (hrun _).trans ?_, kget_kput_same _ _ _, rfl, rfl,
      fun k hk => kget_kput_ne _ _ hk⟩
    rw [ideKeyProg, hset hs, hset hd]
  · have hgo : kSetGo r set t = if (kget r.keep.ideKeys (2 * set)).isSome ∧ (kget r.keep.ideKeys (2 * set + 1)).isSome then
        setIde (r.setKeep { r.keep with ideSet := some set }) true t else r := by
      rw [kSetGo, hset hs]
    split
    · next hkeys =>
      obtain ⟨hbit, hmem, -, hkeep, -⟩ := setIde_facts (r.setKeep { r.keep with ideSet := some set }) true t
      exact ⟨_, (hrun _).trans (congrArg Host.Outcome.next (hgo.trans (if_pos hkeys))), hbit 11 (by decide), hkeep, hmem⟩
    · next hkeys => exact (hrun _).trans (congrArg Host.Outcome.next (hgo.trans (if_neg hkeys)))
  · have hstop : kSetStop r set t =
        if r.keep.ideSet = some set then setIde (r.setKeep { r.keep with
          ideKeys := kdel (kdel r.keep.ideKeys (2 * set)) (2 * set + 1), ideSet := none }) false t
        else r.setKeep { r.keep with ideKeys := kdel (kdel r.keep.ideKeys (2 * set)) (2 * set + 1) } := by
      rw [kSetStop, hset hs]
      rfl
    refine ⟨_, (hrun _).trans (congrArg Host.Outcome.next hstop), ?_⟩
    by_cases hmine : r.keep.ideSet = some set
    · beta_reduce
      rw [if_pos hmine, if_pos hmine]
      obtain ⟨hbit, hmem, -, hkeep, -⟩ := setIde_facts (r.setKeep { r.keep with
        ideKeys := kdel (kdel r.keep.ideKeys (2 * set)) (2 * set + 1), ideSet := none }) false t
      exact ⟨(congrArg Keep.ideKeys hkeep :), hmem, hbit 11 (by decide), (congrArg Keep.ideSet hkeep :)⟩
    · beta_reduce
      rw [if_neg hmine, if_neg hmine]
      exact ⟨rfl, rfl, rfl, rfl⟩

end Sys2Proof.Proofs
end

section
/-! PROOF. What the keep's commands end with: results, the floor and the revocation of slots (R446 to R448, R457, R458, R467; log
entry 53). -/

namespace Sys2Proof.Machine

/-- The end of a command that leaves state v with result n. -/
structure KeepEnded (set : Nat) (v : State) (n : Nat) (u : State) : Prop where
  idle : u.bit .rkpCst 7 set = false
  result : u.fld .rkpCst 3 0 set = n
  cmds : u.keep.cmds = kdel v.keep.cmds set
  mem : u.mem = v.mem
  otp : u.reg .rkpOtp = v.reg .rkpOtp

theorem keepComplete_ended {s v : State} {set t n : Nat} {c : KeepCmd} (hset : set < 3) (hc : kget s.keep.cmds set = some c)
    (hrun : s.keep.running = some set) (hop : ¬ (c.op = 0x30 ∧ set = 0 ∧ s.keep.restoreAt.isSome)) (hv : keepRun s t set c = (n, v))
    (hn : n < 16) : KeepEnded set v n (keepComplete s set t) := by
  have hstat : regOff .rkpCst set 0 = 0x90114 + 0x20 * set := by
    simp only [regOff, regRow]
    omega
  have hne : regOff .rkpOtp 0 0 ≠ regOff .rkpCst set 0 := by
    rw [hstat]
    simp only [regOff, regRow]
    omega
  have hquiet : noisy (regOff .rkpCst set 0) = false := by
    rw [noisy, decide_eq_false_iff_not]
    omega
  have hguard : ¬ (s.keep.running ≠ some set ∨ (c.op = 0x30 ∧ set = 0 ∧ s.keep.restoreAt.isSome)) := by
    rw [hrun]
    simpa using hop
  unfold keepComplete
  simp only [hc]
  rw [if_neg hguard, hv]
  generalize hx : v.setKeep _ = x
  have hxregs : x.regs = v.regs := hx ▸ rfl
  have hxcmds : x.keep.cmds = kdel v.keep.cmds set := hx ▸ rfl
  have hxmem : x.mem = v.mem := hx ▸ rfl
  have hsig := pulse_signals (n := 640 + set) ((x.setFld .rkpCst 3 0 n set).setBit .rkpCst 7 false set) t (by omega)
  refine ⟨?_, ?_, ?_, ?_, ?_⟩
  · rw [hsig.bit _ _ _ _ hquiet]
    exact bit_setBit_same _ _ _ _ _ _ (by decide)
  · rw [hsig.fld _ _ _ _ _ hquiet, State.setBit, fld_setFld_ne _ _ _ _ _ (by decide) (by decide) (.inl (by decide)),
      fld_setFld_same _ _ _ _ _ (by decide) (by decide)]
    omega
  · rw [hsig.keep, State.setBit, State.setFld, setReg_keep, State.setFld, setReg_keep, hxcmds]
  · rw [hsig.mem, State.setBit, State.setFld, setReg_mem, State.setFld, setReg_mem, hxmem]
  · rw [hsig.reg _ _ _ (by decide), reg_setBit_ne _ _ _ hne, reg_setFld_ne _ _ _ _ hne, reg_congr hxregs]

section
variable {s : State} {t set : Nat} {c : KeepCmd}

theorem keepRun_refused (h : keepAllowed s set c.op = false) : keepRun s t set c = (1, s) := if_pos (by simp [h])

theorem keepRun_quote (hop : c.op = 0x01) (hrec : ¬ (s.boot.stage = .recovery ∧ set = 0)) (hkey : s.bit .rkpStat 0 = false) :
    keepRun s t set c = (6, s) := by
  rw [keepRun, if_neg (by simp [keepAllowed, hop]), if_neg hrec, hop]
  exact if_pos (by simp [dkOk, hkey])

theorem keepRun_random (hop : c.op = 0x03) (hgen : s.bit .rkpStat 2 = false) : keepRun s t 1 c = (6, s) := by
  rw [keepRun, if_neg (by simp [keepAllowed, hop]), if_neg (by simp), hop]
  exact if_pos (by simp [drbgOk, hgen])

theorem keepRun_floor (hop : c.op = 0x20) (hrec : s.boot.stage ≠ .recovery) : keepRun s t 0 c = keepFloor s c := by
  rw [keepRun, if_neg (by simp [keepAllowed, hop]), if_neg (by simp [hrec])]
  simp only [hop]

theorem keepRun_revoke (hop : c.op = 0x22) (hrec : s.boot.stage ≠ .recovery) : keepRun s t 0 c = keepRevoke s c := by
  rw [keepRun, if_neg (by simp [keepAllowed, hop]), if_neg (by simp [hrec])]
  simp only [hop]

end

/-- A slot is revoked when it is valid, not the slot of the image, and not the last (R448). -/
theorem keepRevoke_eq (s : State) (c : KeepCmd) :
    let valid := (List.range 4).filter fun k => s.bit .rkpOtp (8 + k) && !s.bit .rkpOtp (12 + k)
    keepRevoke s c = if c.param ∈ valid ∧ s.fld .rkpOtp 7 6 ≠ c.param ∧ 2 ≤ valid.length then
      (0, s.setBit .rkpOtp (12 + c.param) true) else (3, s) := by
  intro valid
  have hmem : c.param ∈ valid ↔ c.param < 4 ∧ slotOk s c.param = true := by
    rw [List.mem_filter, List.mem_range, slotOk]
  have hlen : valid = (List.range 4).filter (slotOk s) := rfl
  rw [keepRevoke, ← ite_not, ← hlen]
  refine ite_congr (propext ?_) (fun _ => rfl) fun _ => rfl
  rw [hmem]
  simp only [not_or, Bool.not_eq_true', Bool.not_eq_false, Nat.not_le]
  tauto

end Sys2Proof.Machine

namespace Sys2Proof.Proofs

open Sys2Proof.Machine

/-- Settles O44: the running command of a set ends with its result. -/
theorem keepResults : Obligations.KeepResults := by
  unfold Obligations.KeepResults
  intro s r t set c hr hset hc
  have hrun (f : State → State) : (Host.Outcome.next (awake s t fun s => upTo 3 set s f) : Out) = .next (f r) :=
    congrArg Host.Outcome.next ((awake_runs hr _).trans (upTo_lt hset r f))
  refine ⟨fun hidle => (hrun _).trans (congrArg Host.Outcome.next ?_), fun hrunning hop => ?_⟩
  · unfold keepComplete
    simp only [hc]
    exact if_pos (.inl hidle)
  · have hends {n : Nat} {v : State} (hv : keepRun r t set c = (n, v)) (hn : n < 16) (hcmds : v.keep.cmds = r.keep.cmds) :
        ∃ u, exec (.keepCommandComplete t set) s = .next u ∧ u.bit .rkpCst 7 set = false ∧ u.keep.cmds = kdel r.keep.cmds set ∧
          u.fld .rkpCst 3 0 set = n ∧ u.mem = v.mem ∧ u.reg .rkpOtp = v.reg .rkpOtp := by
      have hend := keepComplete_ended hset hc hrunning hop hv hn
      exact ⟨_, hrun _, hend.idle, hcmds ▸ hend.cmds, hend.result, hend.mem, hend.otp⟩
    refine ⟨fun hno => ?_, fun hquote hrec hkey => ?_, fun hrandom h1 hgen => ?_, fun hfloor h0 hrec => ?_, fun hrevoke h0 hrec => ?_⟩
    · obtain ⟨u, hu, hidle, hcmds, hres, hmem, -⟩ := hends (keepRun_refused hno) (by decide) rfl
      exact ⟨u, hu, hidle, hcmds, hres, hmem⟩
    · obtain ⟨u, hu, hidle, hcmds, hres, hmem, -⟩ := hends (keepRun_quote hquote hrec hkey) (by decide) rfl
      exact ⟨u, hu, hidle, hcmds, hres, hmem⟩
    · subst h1
      obtain ⟨u, hu, hidle, hcmds, hres, hmem, -⟩ := hends (keepRun_random hrandom hgen) (by decide) rfl
      exact ⟨u, hu, hidle, hcmds, hres, hmem⟩
    · subst h0
      have hv := keepRun_floor (t := t) hfloor hrec
      by_cases hbad : c.param < otpFloor r ∨ 64 < c.param ∨ r.keep.secVer < c.param ∨ r.bit .barStat 5 = true
      · obtain ⟨u, hu, hidle, hcmds, hres, hmem, hotp⟩ := hends (hv.trans (if_pos hbad)) (by decide) rfl
        exact ⟨u, hu, hidle, hcmds, hmem, (if_pos hbad).mpr ⟨hres, hotp⟩⟩
      · obtain ⟨u, hu, hidle, hcmds, hres, hmem, hotp⟩ := hends (hv.trans (if_neg hbad)) (by decide) rfl
        refine ⟨u, hu, hidle, hcmds, hmem, (if_neg hbad).mpr ⟨hres, ?_, ?_⟩⟩
        · rw [State.fld, hotp]
          refine (fld_setFld_same r .rkpOtp c.param 0 0 (by decide) (by decide)).trans ?_
          omega
        · rw [State.fld, hotp]
          exact fld_setFld_ne r .rkpOtp c.param 0 0 (by decide) (by decide) (.inl (by decide))
    · subst h0
      have hv := (keepRun_revoke (t := t) hrevoke hrec).trans (keepRevoke_eq r c)
      by_cases hok : c.param ∈ (List.range 4).filter (fun k => r.bit .rkpOtp (8 + k) && !r.bit .rkpOtp (12 + k)) ∧
          r.fld .rkpOtp 7 6 ≠ c.param ∧ 2 ≤ ((List.range 4).filter fun k => r.bit .rkpOtp (8 + k) && !r.bit .rkpOtp (12 + k)).length
      · obtain ⟨u, hu, hidle, hcmds, hres, hmem, hotp⟩ := hends (hv.trans (if_pos hok)) (by decide) rfl
        have hparam : c.param < 4 := List.mem_range.mp (List.mem_of_mem_filter hok.1)
        have hbit {b : Nat} (hb : b < 32) : u.bit .rkpOtp b = if b = 12 + c.param then true else r.bit .rkpOtp b := by
          rw [State.bit, hotp]
          exact bit_setBit_same _ _ _ _ _ _ hb
        refine ⟨u, hu, hidle, hcmds, hmem, (if_pos hok).mpr ⟨hres, ?_, fun b hb hne => ?_⟩⟩
        · rw [hbit (by omega), if_pos rfl]
        · rw [hbit hb, if_neg hne]
      · obtain ⟨u, hu, hidle, hcmds, hres, hmem, hotp⟩ := hends (hv.trans (if_neg hok)) (by decide) rfl
        exact ⟨u, hu, hidle, hcmds, hmem, (if_neg hok).mpr ⟨hres, hotp⟩⟩

end Sys2Proof.Proofs
end

section
/-! PROOF. EVAC messages: the debounced state, the start and the end (R401 to R404). -/

namespace Sys2Proof.Machine

theorem drop_memRead (m : List Host.Cell) (a k n : Nat) : (memRead m a (k + n)).drop k = memRead m (a + k) n := by
  induction k generalizing a with
  | zero => rw [Nat.zero_add, Nat.add_zero, List.drop_zero]
  | succ k ih =>
    rw [Nat.succ_add, memRead, List.drop_succ_cons, ih, Nat.succ_add, Nat.add_succ]

/-- A word of bytes that were read is the word of memory. -/
theorem word_memRead (m : List Host.Cell) (a : Nat) {k n : Nat} (h : k + 4 ≤ n) :
    ofBytesLE (((memRead m a n).drop k).take 4) = memNat m (a + k) 4 := by
  obtain ⟨d, rfl⟩ := Nat.exists_eq_add_of_le (Nat.le_trans (Nat.le_add_right k 4) h)
  rw [drop_memRead, take_memRead _ _ (by omega), memNat]

/-- The message of pin e is used up and plays when its entry is valid (R401, R403). -/
def evacTaken (s : State) (e t : Nat) (x : EvPin) (entry : List Byte) : State :=
  let w (i : Nat) : Nat := ofBytesLE ((entry.drop (4 * i)).take 4)
  let off := w 0 % 2 ^ 28
  let len := w 1 % 2 ^ 28
  if len = 0 ∨ s.fld .aptFms 8 0 * 2 ^ 20 < off + 3 * len then pulse (s.setEvPin e { x with used := true }) 536 t
  else (s.setEvPin e { x with
    used := true, phase := 1, pos := 0, off := off, len := len, gain := (BitVec.ofNat 24 (w 2)).toInt, loop := bitOf (w 3) 0 }).setFld
    .aptEvacStat (8 + e) (8 + e) 1

section
variable {s : State} (hs : s.audio.pins.length = 8) {e : Nat} (he : e < 8)
include hs he

theorem evPin_setEvPin (x : EvPin) : (s.setEvPin e x).evPin e = x := nth_setNth_same _ _ (hs.symm ▸ he)

/-- A debounced change turns the pin's state, and its message may start again. -/
theorem evacChange_facts (hcount : ¬ (s.evPin e).count < max 1 (s.fld .aptEvacCfg 15 8 e)) (t : Nat) :
    let u := evacChange s e t
    evActive u e = !evActive s e ∧ (u.evPin e).count = 0 ∧ (u.evPin e).used = false ∧ u.mem = s.mem := by
  dsimp only
  unfold evacChange
  dsimp only
  rw [if_neg hcount]
  generalize hv : s.setFld .aptEvacStat e e (ofBool (!evActive s e)) = v
  have hpins : v.audio.pins.length = 8 := by rw [← hv]; exact hs
  have hmem : v.mem = s.mem := by rw [← hv]; rfl
  have hactive : evActive v e = !evActive s e := by
    rw [← hv]
    exact (bit_setBit_same s .aptEvacStat e _ 0 0 (by omega)).trans (if_pos rfl)
  generalize hx : ({ s.evPin e with
    count := 0, used := false, phase := if evActive s e && (s.evPin e).phase == 1 then 2 else (s.evPin e).phase } : EvPin) = x
  have hpin := evPin_setEvPin hpins he x
  have hsig := pulse_signals (n := 528 + e) (v.setEvPin e x) t (by omega)
  generalize pulse (v.setEvPin e x) (528 + e) t = u at hsig
  have hu : u.evPin e = x := by
    rw [State.evPin, hsig.audio]
    exact hpin
  refine ⟨?_, by rw [hu, ← hx], by rw [hu, ← hx], hsig.mem.trans hmem⟩
  rw [evActive, hsig.bit _ _ _ _ (by decide)]
  exact hactive

theorem evacTaken_facts (x : EvPin) (m : List Host.Cell) (a t : Nat) :
    let off := memNat m a 4 % 2 ^ 28
    let len := memNat m (a + 4) 4 % 2 ^ 28
    let u := evacTaken s e t x (memRead m a 16)
    (u.evPin e).used = true ∧ u.mem = s.mem ∧
    if len = 0 ∨ s.fld .aptFms 8 0 * 2 ^ 20 < off + 3 * len then (u.evPin e).phase = x.phase
    else (u.evPin e).phase = 1 ∧ (u.evPin e).pos = 0 ∧ (u.evPin e).off = off ∧ (u.evPin e).len = len ∧
      (u.evPin e).loop = bitOf (memNat m (a + 12) 4) 0 ∧ u.bit .aptEvacStat (8 + e) = true := by
  have hword (i : Nat) (hi : 4 * i + 4 ≤ 16) : ofBytesLE (((memRead m a 16).drop (4 * i)).take 4) = memNat m (a + 4 * i) 4 :=
    word_memRead m a hi
  intro off len u
  have hu : u = evacTaken s e t x (memRead m a 16) := rfl
  clear_value u
  rw [evacTaken] at hu
  simp only [hword 0 (by decide), hword 1 (by decide), hword 2 (by decide), hword 3 (by decide)] at hu
  have hoff : memNat m (a + 4 * 0) 4 % 2 ^ 28 = off := rfl
  have hlen : memNat m (a + 4 * 1) 4 % 2 ^ 28 = len := rfl
  rw [hoff, hlen] at hu
  clear_value off len
  by_cases hbad : len = 0 ∨ s.fld .aptFms 8 0 * 2 ^ 20 < off + 3 * len
  · rw [if_pos hbad] at hu ⊢
    have hsig := pulse_signals (n := 536) (s.setEvPin e { x with used := true }) t (by decide)
    rw [← hu] at hsig
    have hpin : u.evPin e = { x with used := true } := by
      rw [State.evPin, hsig.audio]
      exact evPin_setEvPin hs he _
    rw [hpin]
    exact ⟨rfl, hsig.mem, rfl⟩
  · rw [if_neg hbad] at hu ⊢
    have hplay : u.bit .aptEvacStat (8 + e) = true := by
      rw [hu]
      exact (bit_setBit_same (s.setEvPin e _) .aptEvacStat (8 + e) true 0 0 (by omega)).trans (if_pos rfl)
    have hpin := (congrArg (fun u : State => u.evPin e) hu).trans (evPin_setEvPin hs he _)
    rw [hpin]
    refine ⟨rfl, ?_, rfl, rfl, rfl, rfl, rfl, hplay⟩
    rw [hu, State.setFld, setReg_mem]
    rfl

omit hs he in
theorem evacStart_ready (hactive : evActive s e = true) (hcfg : s.bit .aptEvacCfg 31 e = true) (hunused : (s.evPin e).used = false)
    (t : Nat) : evacStart s e t = evacTaken (readPhys s t .runner (s.fld .aptFms 28 16 * 2 ^ 20 + 16 * s.fld .aptEvacCfg 5 0 e) 16).2.2 e t
      (s.evPin e) (readPhys s t .runner (s.fld .aptFms 28 16 * 2 ^ 20 + 16 * s.fld .aptEvacCfg 5 0 e) 16).1 :=
  if_neg (by simp [hactive, hcfg, hunused])

/-- A start with an entry read without an error uses the message up, and plays it when the entry is valid. -/
theorem evacStart_facts (hclean : s.memErr = []) (hactive : evActive s e = true) (hcfg : s.bit .aptEvacCfg 31 e = true)
    (hunused : (s.evPin e).used = false) (t : Nat) :
    let a := s.fld .aptFms 28 16 * 2 ^ 20 + 16 * s.fld .aptEvacCfg 5 0 e
    let off := memNat s.mem a 4 % 2 ^ 28
    let len := memNat s.mem (a + 4) 4 % 2 ^ 28
    let u := evacStart s e t
    (u.evPin e).used = true ∧ u.mem = s.mem ∧
    if len = 0 ∨ s.fld .aptFms 8 0 * 2 ^ 20 < off + 3 * len then (u.evPin e).phase = (s.evPin e).phase
    else (u.evPin e).phase = 1 ∧ (u.evPin e).pos = 0 ∧ (u.evPin e).off = off ∧ (u.evPin e).len = len ∧
      (u.evPin e).loop = bitOf (memNat s.mem (a + 12) 4) 0 ∧ u.bit .aptEvacStat (8 + e) = true := by
  dsimp only
  rw [evacStart_ready hactive hcfg hunused t]
  obtain ⟨l, hl⟩ := readPhys_clean hclean t .runner (s.fld .aptFms 28 16 * 2 ^ 20 + 16 * s.fld .aptEvacCfg 5 0 e) 16
  rw [hl]
  exact evacTaken_facts (s := { s with carLast := l }) hs he (s.evPin e) s.mem _ t

end

end Sys2Proof.Machine

namespace Sys2Proof.Proofs

open Sys2Proof.Machine

/-- Settles O35: a pin's change, and the start and the end of its message. -/
theorem evacMessages : Obligations.EvacMessages := by
  unfold Obligations.EvacMessages
  intro s r t e hr he hs hclean x
  have hrun (f : State → State) : (Host.Outcome.next (awake s t fun s => upTo 8 e s f) : Out) = .next (f r) :=
    congrArg Host.Outcome.next ((awake_runs hr _).trans (upTo_lt he r f))
  refine ⟨?_, fun hno => ?_, fun hactive hcfg hunused => ?_, ?_⟩
  · split
    · next hshort => exact (hrun _).trans (congrArg Host.Outcome.next (if_pos hshort))
    · next hlong => exact ⟨_, hrun _, evacChange_facts hs.pins he hlong t⟩
  · refine (hrun _).trans (congrArg Host.Outcome.next (if_pos ?_))
    simpa using hno
  · exact ⟨_, hrun _, evacStart_facts hs.pins he hclean hactive hcfg hunused t⟩
  · refine (hrun _).trans (congrArg Host.Outcome.next (ite_congr (propext ?_) (fun _ => rfl) fun _ => rfl))
    simp only [Bool.not_eq_true', x]

end Sys2Proof.Proofs
end

section
/-! PROOF. Flips of coefficient banks, and placements (R407, R409, R410). -/

namespace Sys2Proof.Machine

/-- The pour of 16 given bits lies within 2^16 pours of the first that may be (R407, R409). -/
theorem nextPour_facts (n lo : Nat) {field : Nat} (h : field < 65536) :
    nextPour n lo field % 65536 = field ∧ n + lo ≤ nextPour n lo field ∧ nextPour n lo field < n + lo + 65536 := by
  unfold nextPour
  omega

theorem fieldOf_lt (w : W32) (hi lo : Nat) : fieldOf w hi lo < 2 ^ (hi + 1 - lo) := Nat.mod_lt _ (Nat.two_pow_pos _)

/-! ### Requests (R407, R409) -/

/-- The pour of a cycle is a matter of the pour's length, the stretch and the last tick. -/
theorem pourAt_congr {s u : State} (hcfg : u.reg .tmrPourCfg = s.reg .tmrPourCfg) (hst : u.stretch = s.stretch) (hl : u.lastTick = s.lastTick)
    (t : Nat) : u.pourAt t = s.pourAt t := by
  simp only [State.pourAt, State.pourLen, State.fld, hcfg, hst, hl]

/-- A flip waits, and its bank shows it. -/
theorem flipRequest_facts (s : State) (v : W32) (t : Nat) :
    let u := flipRequest s v t
    u.bit .carBankLen 17 (fieldOf v 5 0) = true ∧ u.mem = s.mem ∧
      ∃ n, kget u.audio.flips (fieldOf v 5 0) = some (n, bitOf v.toNat 15) ∧ n % 2 ^ 16 = fieldOf v 31 16 ∧
        s.pourAt t < n ∧ n ≤ s.pourAt t + 2 ^ 16 := by
  have hpour : (s.setBit .carBankLen 17 true (fieldOf v 5 0)).pourAt t = s.pourAt t := by
    refine pourAt_congr (reg_setBit_ne _ _ _ ?_) rfl rfl t
    simp only [regOff, regRow]
    omega
  obtain ⟨hfield, hlo, hhi⟩ := nextPour_facts (s.pourAt t) 1 (fieldOf_lt v 31 16)
  rw [← hpour] at hfield hlo hhi ⊢
  exact ⟨bit_setBit_same s .carBankLen 17 true (fieldOf v 5 0) 0 (by decide), rfl, _, kget_kput_same _ _ _, hfield, by omega, by omega⟩

theorem carPlaceCmd_unreserved (v : W32) : reservedIn .carPlaceCmd 0 v.toNat = false := by
  have := v.isLt
  have hbits : fieldBits .carPlaceCmd v.toNat = v.toNat % 2 ^ 32 := by
    simp only [fieldBits, regRow, fd, List.foldl_cons, List.foldl_nil, bitsOf, Nat.shiftRight_eq_div_pow]
    omega
  rw [reservedIn, planWrite_unfixed rfl, hbits]
  simp only [regRow, fd, List.foldl_cons, List.foldl_nil]
  rw [planField_legal (.inr rfl), planField_legal (.inr rfl)]
  simp only [ne_eq, not_true_eq_false, decide_false]
  rfl

/-- A request joins the placements that wait, or is reported. -/
theorem placeRequest_facts (s : State) (v : W32) (t : Nat) :
    let u := placeRequest s v t
    let rows := fieldOf v 15 0
    let addr := s.fld .carPlaceDst 18 0
    let waiting := (s.audio.places.filter fun p => p.run.isNone).length
    u.mem = s.mem ∧
      if rows = 0 ∨ 524286 < addr + 24 * rows then u.bit .carPlaceStat 9 = true ∧ u.audio = s.audio
      else if 64 ≤ waiting then u.bit .carPlaceStat 8 = true ∧ u.audio = s.audio
      else ∃ n, u.audio.places = s.audio.places ++ [{
          bank := s.fld .carPlaceSrc 31 26, side := s.bit .carPlaceSrc 25, off := s.fld .carPlaceSrc 24 0
          l := s.fld .carPlaceDst 31 26, addr := addr, rows := rows, pour := n, run := none }] ∧
        n % 2 ^ 16 = fieldOf v 31 16 ∧ s.pourAt t + 2 ≤ n ∧ n < s.pourAt t + 2 + 2 ^ 16 ∧
        u.fld .carPlaceStat 6 0 = (waiting + 1) % 128 := by
  intro u rows addr waiting
  have hu : u = if rows = 0 ∨ 524286 < addr + 24 * rows then s.raise t .carPlaceStat 0x200
      else if 64 ≤ waiting then s.raise t .carPlaceStat 0x100
      else placeQueued { s with audio := { s.audio with places := s.audio.places ++
        [{ bank := s.fld .carPlaceSrc 31 26, side := s.bit .carPlaceSrc 25, off := s.fld .carPlaceSrc 24 0
           l := s.fld .carPlaceDst 31 26, addr := addr, rows := rows, pour := nextPour (s.pourAt t) 2 (fieldOf v 31 16), run := none }] } } := rfl
  clear_value u
  subst hu
  have hraised (b : Nat) (hb : b < 32) : (s.raise t .carPlaceStat (2 ^ b)).bit .carPlaceStat b = true := by
    rw [bit_raise_same _ _ _ _ _ _ hb, bitOf, Nat.testBit_two_pow_self, Bool.or_true]
  split
  · exact ⟨rfl, hraised 9 (by decide), rfl⟩
  · split
    · exact ⟨rfl, hraised 8 (by decide), rfl⟩
    · obtain ⟨hfield, hlo, hhi⟩ := nextPour_facts (s.pourAt t) 2 (fieldOf_lt v 31 16)
      refine ⟨rfl, _, rfl, hfield, hlo, hhi, ?_⟩
      rw [placeQueued, fld_setFld_same _ _ _ _ _ (by decide) (by decide)]
      simp [waiting]

/-! ### The end of a copy (R410) -/

/-- A write of a core memory with no unit in error leaves the audio paths. -/
theorem extWrite_audio {s : State} (hclean : s.memErr = []) (t : Nat) (w : MemWho) (a : Nat) (bs : List Byte) :
    (extWrite s t w a bs).2.audio = s.audio := by
  unfold extWrite
  dsimp only
  split
  · rfl
  · obtain ⟨l, hl⟩ := writePhys_clean (s := { s with extOld := noteOld s.extOld s.mem t a bs.length }) hclean t w a
      (coreWins { s with extOld := noteOld s.extOld s.mem t a bs.length } t a (coreMask a bs))
    rw [hl, setCore_audio]

/-- The copy of the placement that runs, once its time is over. -/
def placeDone (s : State) (t : Nat) (p : Place) (q : Nat) : State :=
  let s := { s with audio := { s.audio with places := (s.audio.places.erase p).map fun x =>
    { x with run := x.run.map fun r => (r.1, max r.2 t) } } }
  let rd := readPhys s t .runner (carBase + bankBase s p.bank p.side + p.off) (24 * p.rows)
  let w := extWrite rd.2.2 t .runner (coreBase + 0x100000 * q + p.addr) rd.1
  let w := (w.1, if w.1 ∨ rd.2.1 then runnerWriteErr w.2 t none else w.2)
  if p.pour * s.pourLen ≤ t then pulse (w.2.raise t .carPlaceStat 0x80) 538 t else w.2

section
variable {s : State} {p : Place} {q start : Nat} (hfind : s.audio.places.find? (fun p => p.run.isSome) = some p)
  (hrunning : p.run = some (q, start)) (t : Nat)
include hfind hrunning

theorem placeComplete_running : placeComplete s t = if t < start + (8 * p.rows + 40) then s else placeDone s t p q := by
  have hceil : ceilDiv (24 * p.rows) 3 = 8 * p.rows := by
    rw [ceilDiv]
    omega
  have htime : start + ceilDiv (24 * p.rows) 3 + 40 = start + (8 * p.rows + 40) := by rw [hceil, Nat.add_assoc]
  have hdone : placeComplete s t = if t < start + ceilDiv (24 * p.rows) 3 + 40 then s else placeDone s t p q := by
    unfold placeComplete
    simp only [hfind, hrunning]
    rfl
  rw [hdone, htime]

omit hfind hrunning in
/-- The rows of a copy with no memory error reach the data memory of the core. -/
theorem placeDone_facts (hclean : s.memErr = []) (hold : s.coreOld.1 ≠ t) (hq : q < 68)
    (hheld : writeHeld s .runner q = false) (hfit : p.addr + 24 * p.rows ≤ 524286) :
    let u := placeDone s t p q
    u.mem = memWrite s.mem (coreBase + 0x100000 * q + p.addr) (memRead s.mem (carBase + bankBase s p.bank p.side + p.off) (24 * p.rows)) ∧
    u.audio.places.length = (s.audio.places.erase p).length ∧
    (p.pour * s.pourLen ≤ t → u.bit .carPlaceStat 7 = true) := by
  dsimp only
  unfold placeDone
  dsimp only
  generalize hv : ({ s with audio := { s.audio with places := (s.audio.places.erase p).map fun x =>
    { x with run := x.run.map fun r => (r.1, max r.2 t) } } } : State) = v
  have hplaces : v.audio.places.length = (s.audio.places.erase p).length := by rw [← hv, List.length_map]
  have hbase : bankBase v p.bank p.side = bankBase s p.bank p.side := by rw [← hv]; rfl
  have hpour : v.pourLen = s.pourLen := by rw [← hv]; rfl
  have hvmem : v.mem = s.mem := by rw [← hv]
  have hvclean : v.memErr = [] := by rw [← hv]; exact hclean
  obtain ⟨l, hread⟩ := readPhys_clean hvclean t .runner (carBase + bankBase v p.bank p.side + p.off) (24 * p.rows)
  generalize hx : ({ v with carLast := l } : State) = x at hread
  rw [hread, hbase, hvmem, hpour]
  dsimp only
  have hlen := length_memRead s.mem (carBase + bankBase s p.bank p.side + p.off) (24 * p.rows)
  generalize memRead s.mem (carBase + bankBase s p.bank p.side + p.off) (24 * p.rows) = rows at hlen ⊢
  have hcore : coreOf (coreBase + 0x100000 * q + p.addr) = q := coreOf_data hq (by omega)
  have hbytes (i : Nat) (hi : i < rows.length) : coreByte (coreOff (coreBase + 0x100000 * q + p.addr + i)) = true := by
    rw [Nat.add_assoc]
    exact coreByte_data (by omega)
  have hxmem : x.mem = s.mem := by rw [← hx]; exact hvmem
  have hxclean : x.memErr = [] := by rw [← hx]; exact hvclean
  have hxold : x.coreOld.1 ≠ t := by rw [← hx, ← hv]; exact hold
  have hxheld : writeHeld x .runner (coreOf (coreBase + 0x100000 * q + p.addr)) = false := by rw [hcore, ← hx, ← hv]; exact hheld
  have hxplaces : x.audio.places.length = (s.audio.places.erase p).length := by rw [← hx]; exact hplaces
  obtain ⟨hok, hmem, -⟩ := extWrite_clean hxclean hxold hxheld hbytes
  have haudio := extWrite_audio hxclean t .runner (coreBase + 0x100000 * q + p.addr) rows
  rw [hok, if_neg (by decide : ¬ (false = true ∨ false = true))]
  generalize (extWrite x t .runner (coreBase + 0x100000 * q + p.addr) rows).2 = y at hmem haudio
  rw [hxmem] at hmem
  rw [← haudio] at hxplaces
  split
  · have hsig := pulse_signals (n := 538) (y.raise t .carPlaceStat 0x80) t (by decide)
    refine ⟨hsig.mem.trans hmem, by rw [hsig.audio]; exact hxplaces, fun _ => ?_⟩
    rw [hsig.bit _ _ _ _ (by decide), bit_raise_same _ _ _ _ _ _ (by decide)]
    exact Bool.or_true _
  · next hearly => exact ⟨hmem, hxplaces, fun hlate => absurd hlate hearly⟩

end

end Sys2Proof.Machine

namespace Sys2Proof.Proofs

open Sys2Proof.Machine

/-- Settles O36: flips and placements are taken, and a copy ends with its rows in the core. -/
theorem banksAndPlacements : Obligations.BanksAndPlacements := by
  unfold Obligations.BanksAndPlacements
  refine ⟨fun s r t ini v hr => ⟨fun hres => ?_, ?_⟩, fun s r t hr => ⟨fun hnone => ?_, fun p q start hfind hrunning hearly => ?_⟩,
    fun s r t p q start hr hs hclean hold hfind hrunning hq htime hheld hfit => ?_⟩
  · exact ⟨_, congrArg Host.Outcome.next ((awake_runs hr _).trans (put_carFlipCmd hres)), flipRequest_facts (noted r t .carFlipCmd 0) v t⟩
  · exact ⟨_, congrArg Host.Outcome.next ((awake_runs hr _).trans (put_carPlaceCmd (carPlaceCmd_unreserved v))),
      placeRequest_facts (noted r t .carPlaceCmd 0) v t⟩
  · refine congrArg Host.Outcome.next ((awake_runs hr _).trans ?_)
    rw [placeComplete, hnone]
  · exact congrArg Host.Outcome.next ((awake_runs hr _).trans ((placeComplete_running hfind hrunning t).trans (if_pos hearly)))
  · obtain ⟨hmem, hlen, hlate⟩ := placeDone_facts (p := p) t hclean hold hq hheld hfit
    obtain ⟨hback, hrest⟩ := memWrite_window hs.mem (a := coreBase + 0x100000 * q + p.addr)
      (length_memRead r.mem (carBase + bankBase r p.bank p.side + p.off) (24 * p.rows))
    rw [← hmem] at hback hrest
    refine ⟨_, congrArg Host.Outcome.next ((awake_runs hr _).trans ((placeComplete_running hfind hrunning t).trans
      (if_neg (Nat.not_lt.mpr htime)))), hback, hrest, ?_, hlate⟩
    rw [hlen, List.length_erase_of_mem (List.mem_of_find?_eq_some hfind)]
    exact Nat.sub_add_cancel (List.length_pos_of_mem (List.mem_of_find?_eq_some hfind))

end Sys2Proof.Proofs
end

section
/-! PROOF. Crema's commands and reflectometry runs (R373, R375, R382; log entry 59). -/

namespace Sys2Proof.Machine

/-! ### Commands (R382) -/

theorem crmResult_lt (s : State) (op wb ch : Nat) : crmResult s op wb ch < 8 := by
  unfold crmResult
  dsimp only
  split_ifs <;> decide

/-- CRM_CMDST takes the result, and a command that is not taken does no more. -/
theorem crmCommand_result (s : State) {op : Nat} (hop : op ≠ 0) (wb ch t : Nat) :
    crmCommand s op wb ch t =
      let v := s.setFld .crmCmdst 2 0 (crmResult s op wb ch)
      if crmResult s op wb ch ≠ 0 then v
      else if op ≤ 3 then v.setCrm ch { s.crm ch with cmd := some (op, t) }
      else if op = 6 then crmCutRun v wb t
      else (v.setBit .crmWbStat 0 true wb).setCrmRun wb
        (some { line := v.fld .crmWbCfg 31 27 wb, e := v.fld .crmWbCfg 26 22 wb, w := v.fld .crmWbCfg 21 16 wb
                rho := v.fld .crmWbCfg 15 8 wb, cal := decide (op = 5), next := (t / 256000 + 1) * 256000, count := 0
                sums := List.replicate 1024 0 }) := if_neg hop

theorem crmCmdst_shown (s : State) (op wb ch : Nat) :
    (s.setFld .crmCmdst 2 0 (crmResult s op wb ch)).fld .crmCmdst 2 0 = crmResult s op wb ch :=
  (fld_setFld_same s .crmCmdst _ 0 0 (by decide) (by decide)).trans (Nat.mod_eq_of_lt (crmResult_lt s op wb ch))

/-- A mode command that is taken waits with its stamp. -/
theorem crmCommand_mode (s : State) {op : Nat} (hop : op ∈ [1, 2, 3]) (c t : Nat) :
    let u := crmCommand s op 0 c t
    u.fld .crmCmdst 2 0 = crmResult s op 0 c ∧ u.mem = s.mem ∧
      u.crema = if crmResult s op 0 c = 0 then (s.setCrm c { s.crm c with cmd := some (op, t) }).crema else s.crema := by
  have hne : op ≠ 0 := by
    rintro rfl
    revert hop
    decide
  have hle : op ≤ 3 := by
    revert op
    decide
  have hshown := crmCmdst_shown s op 0 c
  dsimp only
  rw [crmCommand_result s hne]
  dsimp only
  by_cases htaken : crmResult s op 0 c = 0
  · rw [if_neg (not_not_intro htaken), if_pos hle, if_pos htaken]
    exact ⟨hshown, rfl, rfl⟩
  · rw [if_pos htaken, if_neg htaken]
    exact ⟨hshown, rfl, rfl⟩

end Sys2Proof.Machine

namespace Sys2Proof.Proofs

open Sys2Proof.Machine

/-- Settles O31: a mode command is taken with its stamp or refused with its result. -/
theorem cremaModes : Obligations.CremaModes := by
  unfold Obligations.CremaModes
  intro s r t ini c hr hc _
  have hrun (f : State → State) : (Host.Outcome.next (awake s t fun s => upTo 32 c s f) : Out) = .next (f r) :=
    congrArg Host.Outcome.next ((awake_runs hr _).trans (upTo_lt hc r f))
  have hword : ∀ op ∈ [1, 2, 3], ∀ c < 32, reservedIn .crmCmd 0 (BitVec.ofNat 32 (op * 0x10000000 + c)).toNat = false ∧
      fieldOf (BitVec.ofNat 32 (op * 0x10000000 + c)) 31 28 = op ∧ fieldOf (BitVec.ofNat 32 (op * 0x10000000 + c)) 10 8 = 0 ∧
      fieldOf (BitVec.ofNat 32 (op * 0x10000000 + c)) 4 0 = c := by decide
  have htook (op : Nat) (hop : op ∈ [1, 2, 3]) :
      regPut r ini .crmCmd 0 (BitVec.ofNat 32 (op * 0x10000000 + c)) t = crmCommand (noted r t .crmCmd 0) op 0 c t := by
    obtain ⟨hres, hopf, hwb, hch⟩ := hword op hop c hc
    rw [put_crmCmd hres, hopf, hwb, hch]
  have hmode {op : Nat} (hop : op ∈ [1, 2, 3]) := crmCommand_mode (noted r t .crmCmd 0) hop c t
  exact ⟨⟨_, (hrun _).trans (congrArg Host.Outcome.next (htook 1 (by decide))), hmode (by decide)⟩,
    ⟨_, (hrun _).trans (congrArg Host.Outcome.next (htook 2 (by decide))), hmode (by decide)⟩,
    ⟨_, (hrun _).trans (congrArg Host.Outcome.next (htook 3 (by decide))), hmode (by decide)⟩⟩

end Sys2Proof.Proofs
end

section
/-! PROOF. Reflectometry runs: start, calibration, abort, pulse and end (R373, R375, R382). -/

namespace Sys2Proof.Machine

theorem crmRun_setCrmRun {s : State} {b : Nat} (hs : s.crema.runs.length = 8) (hb : b < 8) (x : Option CrmRun) :
    (s.setCrmRun b x).crmRun b = x := nth_setNth_same _ _ (hs.symm ▸ hb)

/-- A run that is removed is none, whatever the runs. -/
theorem crmRun_setCrmRun_none (s : State) (b : Nat) : (s.setCrmRun b none).crmRun b = none := by
  by_cases hb : b < s.crema.runs.length
  · exact nth_setNth_same _ _ hb
  · simp only [State.crmRun, State.setCrmRun, nth, setNth, List.getD]
    rw [List.getElem?_eq_none (by simpa using hb)]
    rfl

theorem crmRunRecord_eq (s : State) (w : Nat) (r : CrmRun) (vf : Nat) (events : List (Nat × Nat × Nat)) (upd cut : Bool) (t : Nat) :
    ∃ bs, crmRunRecord s w r vf events upd cut t =
      pulse (((((writePhys s t .runner (crmBase s + 0x3000 + 192 * w) bs).2.setBit .crmWbStat 0 false w).raise t .crmWbStat
        (if cut then 6 else 2) w)).setCrmRun w none) (448 + w) t := ⟨_, rfl⟩

/-- The end of a run: the wideband channel is idle and its record is told. -/
theorem crmRunRecord_facts (s : State) {w : Nat} (hw : w < 8) (r : CrmRun) (vf : Nat) (events : List (Nat × Nat × Nat)) (upd cut : Bool)
    (t : Nat) :
    let u := crmRunRecord s w r vf events upd cut t
    u.crmRun w = none ∧ u.bit .crmWbStat 0 w = false ∧ u.bit .crmWbStat 1 w = true ∧ (cut = true → u.bit .crmWbStat 2 w = true) ∧
      u.reg .crmCmdst = s.reg .crmCmdst := by
  have hstat : regOff .crmWbStat w 0 = 0x60810 + 0x20 * w := by
    simp only [regOff, regRow]
    omega
  have hcmd : regOff .crmCmdst 0 0 = 0x60014 := rfl
  have hquiet : noisy (regOff .crmWbStat w 0) = false := by
    rw [noisy, decide_eq_false_iff_not]
    omega
  obtain ⟨bs, hend⟩ := crmRunRecord_eq s w r vf events upd cut t
  dsimp only
  rw [hend]
  have hhigh : HighKept s _ := writePhys_high s t .runner (crmBase s + 0x3000 + 192 * w) bs
  generalize (writePhys s t .runner (crmBase s + 0x3000 + 192 * w) bs).2 = v at hhigh ⊢
  have hvcmd : v.reg .crmCmdst = s.reg .crmCmdst := hhigh.reg .crmCmdst 0 (by decide) (by decide) (by decide)
  generalize hx : (v.setBit .crmWbStat 0 false w).raise t .crmWbStat (if cut = true then 6 else 2) w = x
  have hbit {b : Nat} (hb : b < 32) : x.bit .crmWbStat b w = ((if b = 0 then false else v.bit .crmWbStat b w) ||
      bitOf (if cut = true then 6 else 2) b) := by
    rw [← hx, bit_raise_same _ _ _ _ _ _ hb, bit_setBit_same _ _ _ _ _ _ hb]
  have hxcmd : x.reg .crmCmdst = s.reg .crmCmdst := by
    rw [← hx, reg_raise_ne _ _ _ (by omega), reg_setBit_ne _ _ _ (by omega), hvcmd]
  have hsig := pulse_signals (n := 448 + w) (x.setCrmRun w none) t (by omega)
  generalize pulse (x.setCrmRun w none) (448 + w) t = u at hsig
  have hubit {b : Nat} (hb : b < 32) : u.bit .crmWbStat b w = x.bit .crmWbStat b w := hsig.bit _ _ _ _ hquiet
  refine ⟨?_, ?_, ?_, fun hcut => ?_, ?_⟩
  · rw [State.crmRun, hsig.crema]
    exact crmRun_setCrmRun_none x w
  · rw [hubit (by decide), hbit (by decide)]
    cases cut <;> rfl
  · rw [hubit (by decide), hbit (by decide)]
    cases cut <;> exact Bool.or_true _
  · rw [hubit (by decide), hbit (by decide), hcut]
    exact Bool.or_true _
  · exact (hsig.reg .crmCmdst 0 0 (by decide)).trans hxcmd

/-! ### The commands of a run (R373, R375, R382) -/

/-- A run that is taken begins with the next multiple of 256,000 cycles. -/
theorem crmCommand_start {s : State} (hs : s.crema.runs.length = 8) {b op : Nat} (hb : b < 8) (hop : op = 4 ∨ op = 5) (t : Nat) :
    let u := crmCommand s op b 0 t
    u.fld .crmCmdst 2 0 = crmResult s op b 0 ∧ u.mem = s.mem ∧
      if crmResult s op b 0 = 0 then
        u.bit .crmWbStat 0 b = true ∧ u.crmRun b = some
          { line := s.fld .crmWbCfg 31 27 b, e := s.fld .crmWbCfg 26 22 b, w := s.fld .crmWbCfg 21 16 b
            rho := s.fld .crmWbCfg 15 8 b, cal := decide (op = 5), next := (t / 256000 + 1) * 256000, count := 0
            sums := List.replicate 1024 0 }
      else u.crema = s.crema := by
  have hshown := crmCmdst_shown s op b 0
  have hstat : regOff .crmCmdst 0 0 ≠ regOff .crmWbStat b 0 := by
    simp only [regOff, regRow]
    omega
  have hcfg : regOff .crmWbCfg b 0 ≠ regOff .crmCmdst 0 0 := by
    simp only [regOff, regRow]
    omega
  dsimp only
  rw [crmCommand_result s (by omega)]
  dsimp only
  by_cases htaken : crmResult s op b 0 = 0
  · rw [if_neg (not_not_intro htaken), if_neg (by omega), if_neg (by omega), if_pos htaken]
    generalize hv : s.setFld .crmCmdst 2 0 (crmResult s op b 0) = v at hshown
    have hvcfg (hi lo : Nat) : v.fld .crmWbCfg hi lo b = s.fld .crmWbCfg hi lo b := by
      rw [State.fld, ← hv, reg_setFld_ne _ _ _ _ hcfg, State.fld]
    have hvmem : v.mem = s.mem := by rw [← hv, State.setFld, setReg_mem]
    have hvruns : v.crema = s.crema := by rw [← hv, State.setFld, setReg_crema]
    rw [hvcfg, hvcfg, hvcfg, hvcfg]
    generalize hx : v.setBit .crmWbStat 0 true b = x
    have hxruns : x.crema.runs.length = 8 := by rw [← hx, State.setBit, State.setFld, setReg_crema, hvruns, hs]
    have hxmem : x.mem = s.mem := by rw [← hx, State.setBit, State.setFld, setReg_mem, hvmem]
    have hxcmd : x.fld .crmCmdst 2 0 = v.fld .crmCmdst 2 0 := by
      rw [State.fld, ← hx, reg_setBit_ne _ _ _ hstat, State.fld]
    have hbusy : x.bit .crmWbStat 0 b = true := by
      rw [← hx]
      exact bit_setBit_same _ _ _ _ _ _ (by decide)
    exact ⟨hxcmd.trans hshown, hxmem, hbusy, crmRun_setCrmRun hxruns hb _⟩
  · rw [if_pos htaken, if_neg htaken]
    exact ⟨hshown, rfl, rfl⟩

/-- An abort while Crema is enabled cuts the run, and changes nothing else. -/
theorem crmCommand_abort (s : State) {b : Nat} (hb : b < 8) (t : Nat) :
    let u := crmCommand s 6 b 0 t
    u.fld .crmCmdst 2 0 = crmResult s 6 b 0 ∧
      if (s.crmRun b).isSome ∧ s.bit .crmCtl 0 = true then
        u.crmRun b = none ∧ u.bit .crmWbStat 0 b = false ∧ u.bit .crmWbStat 1 b = true ∧ u.bit .crmWbStat 2 b = true
      else u.crema = s.crema ∧ u.mem = s.mem := by
  have hshown := crmCmdst_shown s 6 b 0
  have hres : crmResult s 6 b 0 = if s.bit .crmCtl 0 = true then 0 else 4 := by
    unfold crmResult
    cases s.bit .crmCtl 0 <;> rfl
  dsimp only
  rw [crmCommand_result s (by decide)]
  dsimp only
  generalize hv : s.setFld .crmCmdst 2 0 (crmResult s 6 b 0) = v at hshown
  have hvcrema : v.crema = s.crema := by rw [← hv, State.setFld, setReg_crema]
  have hvmem : v.mem = s.mem := by rw [← hv, State.setFld, setReg_mem]
  have hvrun : v.crmRun b = s.crmRun b := by rw [State.crmRun, hvcrema, State.crmRun]
  by_cases hen : s.bit .crmCtl 0 = true
  · rw [hres, if_pos hen] at hshown ⊢
    rw [if_neg (by decide), if_neg (by decide), if_pos rfl, crmCutRun, hvrun]
    cases hrun : s.crmRun b with
    | none =>
      rw [if_neg (by simp)]
      exact ⟨hshown, hvcrema, hvmem⟩
    | some x =>
      obtain ⟨hnone, hbusy, hdone, hcut, hcmd⟩ := crmRunRecord_facts v hb x (v.fld .crmWbVf 15 0 b) [] false true t
      rw [if_pos ⟨rfl, hen⟩]
      refine ⟨?_, hnone, hbusy, hdone, hcut rfl⟩
      rw [State.fld, hcmd]
      exact hshown
  · rw [hres, if_neg hen] at hshown ⊢
    rw [if_pos (by decide), if_neg (fun h => hen h.2)]
    exact ⟨hshown, hvcrema, hvmem⟩

/-! ### Pulses and the end (R373) -/

section
variable {s : State} {b t : Nat} {x : CrmRun} (hx : s.crmRun b = some x)
include hx

theorem reflectPulse_some (samples : List (BitVec 16)) : reflectPulse s b samples t = if t < x.next ∨ 2 ^ x.e ≤ x.count then s else
    s.setCrmRun b (some { x with count := x.count + 1, next := x.next + 256000
                                 sums := x.sums.mapIdx fun i y => y + (samples.getD i 0).toInt }) := by
  rw [reflectPulse, hx]

theorem reflectRunEnd_early (h : x.count < 2 ^ x.e ∨ t < x.next) : reflectRunEnd s b t = s := by
  unfold reflectRunEnd
  simp only [hx]
  exact if_pos h

theorem reflectRunEnd_due (h : ¬ (x.count < 2 ^ x.e ∨ t < x.next)) :
    ∃ v vf events upd, reflectRunEnd s b t = crmRunRecord v b x vf events upd false t := by
  unfold reflectRunEnd
  simp only [hx]
  exact ⟨_, _, _, _, if_neg h⟩

end

end Sys2Proof.Machine

namespace Sys2Proof.Proofs

open Sys2Proof.Machine

/-- Settles O32: a run is taken or refused, gathers its pulses, and ends with its record. -/
theorem cremaRuns : Obligations.CremaRuns := by
  unfold Obligations.CremaRuns
  refine ⟨fun s r t ini b hr hb hs => ?_, fun s r t b x hr hb hs hx => ?_⟩
  all_goals
    have hrun (f : State → State) : (Host.Outcome.next (awake s t fun s => upTo 8 b s f) : Out) = .next (f r) :=
      congrArg Host.Outcome.next ((awake_runs hr _).trans (upTo_lt hb r f))
  · have hword : ∀ op ∈ [4, 5, 6], ∀ b < 8, reservedIn .crmCmd 0 (BitVec.ofNat 32 (op * 0x10000000 + 256 * b)).toNat = false ∧
        fieldOf (BitVec.ofNat 32 (op * 0x10000000 + 256 * b)) 31 28 = op ∧
        fieldOf (BitVec.ofNat 32 (op * 0x10000000 + 256 * b)) 10 8 = b ∧
        fieldOf (BitVec.ofNat 32 (op * 0x10000000 + 256 * b)) 4 0 = 0 := by decide
    have htook (op : Nat) (hop : op ∈ [4, 5, 6]) :
        regPut r ini .crmCmd 0 (BitVec.ofNat 32 (op * 0x10000000 + 256 * b)) t = crmCommand (noted r t .crmCmd 0) op b 0 t := by
      obtain ⟨hres, hopf, hwb, hch⟩ := hword op hop b hb
      rw [put_crmCmd hres, hopf, hwb, hch]
    have hstart {op : Nat} (hop : op = 4 ∨ op = 5) := crmCommand_start (s := noted r t .crmCmd 0) hs.runs hb hop t
    exact ⟨⟨_, (hrun _).trans (congrArg Host.Outcome.next (htook 4 (by decide))), hstart (.inl rfl)⟩,
      ⟨_, (hrun _).trans (congrArg Host.Outcome.next (htook 5 (by decide))), hstart (.inr rfl)⟩,
      ⟨_, (hrun _).trans (congrArg Host.Outcome.next (htook 6 (by decide))), crmCommand_abort (noted r t .crmCmd 0) hb t⟩⟩
  · refine ⟨fun hearly => ⟨?_, fun samples => ?_⟩, fun hdue hmore => ⟨?_, fun samples => ?_⟩, fun hdue hmade => ⟨fun samples => ?_, ?_⟩⟩
    · exact (hrun _).trans (congrArg Host.Outcome.next (reflectRunEnd_early hx (.inr hearly)))
    · exact (hrun _).trans (congrArg Host.Outcome.next ((reflectPulse_some hx samples).trans (if_pos (.inl hearly))))
    · exact (hrun _).trans (congrArg Host.Outcome.next (reflectRunEnd_early hx (.inl hmore)))
    · exact (hrun _).trans (congrArg Host.Outcome.next ((reflectPulse_some hx samples).trans (if_neg (by omega))))
    · exact (hrun _).trans (congrArg Host.Outcome.next ((reflectPulse_some hx samples).trans (if_pos (.inr hmade))))
    · obtain ⟨v, vf, events, upd, hend⟩ := reflectRunEnd_due (s := r) (t := t) hx (by omega)
      obtain ⟨hnone, hbusy, hdone, -, -⟩ := crmRunRecord_facts v hb x vf events upd false t
      exact ⟨_, (hrun _).trans (congrArg Host.Outcome.next hend), hnone, hbusy, hdone⟩

end Sys2Proof.Proofs
end

section
/-! PROOF. The frames of Crema's channels and the fast checks (R360, R361, R371). -/

namespace Sys2Proof.Machine

theorem crm_setCrm {s : State} {c : Nat} (hs : s.crema.chans.length = 32) (hc : c < 32) (x : CrmChan) : (s.setCrm c x).crm c = x :=
  nth_setNth_same _ _ (hs.symm ▸ hc)

theorem crmFaults_lt (s : State) (c : Nat) : crmFaults s c < 4096 := fieldOf_lt _ 29 18

theorem noisy_crmChan {n : RegName} {c : Nat} (hlo : 0x60000 ≤ regOff n c 0) (hhi : regOff n c 0 < 0x70000) : noisy (regOff n c 0) = false := by
  rw [noisy, decide_eq_false_iff_not]
  omega

theorem regOff_crmChStat (c : Nat) : regOff .crmChStat c 0 = 0x61028 + 0x40 * c := by
  simp only [regOff, regRow]
  omega

/-- The faults in force take the value. -/
theorem crmSetFaults_facts (s : State) {c new : Nat} (hc : c < 32) (hnew : new < 4096) (t : Nat) :
    crmFaults (crmSetFaults s c new t) c = new ∧ (crmSetFaults s c new t).mem = s.mem ∧ (crmSetFaults s c new t).crema = s.crema := by
  unfold crmSetFaults
  split
  · next h => exact ⟨h, rfl, rfl⟩
  · generalize hx : (s.setFld .crmChStat 29 18 new c).raise t .crmChStat 1 c = x
    have hmem : x.mem = s.mem := by rw [← hx]; rfl
    have hcrema : x.crema = s.crema := by rw [← hx]; rfl
    have hfld : x.fld .crmChStat 29 18 c = new := by
      rw [← hx, fld_raise_same _ _ _ _ _ (by decide) (by decide), fld_setFld_same _ _ _ _ _ (by decide) (by decide)]
      omega
    have hsig := pulse_signals (n := 416 + c) x t (by omega)
    refine ⟨?_, hsig.mem.trans hmem, hsig.crema.trans hcrema⟩
    rw [crmFaults, hsig.fld _ _ _ _ _ (noisy_crmChan (by rw [regOff_crmChStat]; omega) (by rw [regOff_crmChStat]; omega)), hfld]

/-! ### FAST_FAULT (R371) -/

theorem fastBits (short open' : Bool) : ∀ b < 12, bitOf (32 * ofBool short + 64 * ofBool open') b = (b == 5 && short || b == 6 && open') := by
  cases short <;> cases open' <;> decide

/-- Sixteen frames in a row put a fast fault in force; the other faults stay. -/
theorem fastFault_facts {s : State} {c : Nat} (hc : c < 32) (t : Nat) :
    let u := fastFault s c t
    (∀ b < 12, bitOf (crmFaults u c) b = (bitOf (crmFaults s c) b ||
      (b == 5 && decide (16 ≤ (s.crm c).shortN) || b == 6 && decide (16 ≤ (s.crm c).openN)))) ∧ u.mem = s.mem := by
  dsimp only
  unfold fastFault
  dsimp only
  generalize decide (16 ≤ (s.crm c).shortN) = short
  generalize decide (16 ≤ (s.crm c).openN) = open'
  generalize hv : s.setCrm c _ = v
  have hmem : v.mem = s.mem := by rw [← hv]; rfl
  have hf : crmFaults v c = crmFaults s c := by rw [← hv]; rfl
  rw [hf]
  have hsmall : crmFaults s c ||| (32 * ofBool short + 64 * ofBool open') < 2 ^ 12 :=
    Nat.or_lt_two_pow (crmFaults_lt s c) (by cases short <;> cases open' <;> decide)
  obtain ⟨hset, hsmem, -⟩ := crmSetFaults_facts v hc hsmall t
  refine ⟨fun b hb => ?_, hsmem.trans hmem⟩
  rw [hset, ← fastBits short open' b hb, bitOf, bitOf, bitOf, Nat.testBit_or]

/-! ### CREMA_FRAME_END (R360, R361, R371) -/

/-- What a frame is judged by, is kept by events. -/
theorem crmFrame_signals {s u : State} (h : Signals s u) {c : Nat} (hc : c < 32) (m : CrmFrame) : crmMode u c = crmMode s c ∧
    crmThresholds u c m = crmThresholds s c m ∧ crmFast u c m = crmFast s c m := by
  have hreg {n : RegName} (hlo : 0x60000 ≤ regOff n c 0) (hhi : regOff n c 0 < 0x70000) : u.reg n c = s.reg n c :=
    h.reg n c 0 (noisy_crmChan hlo hhi)
  have hstat := hreg (n := .crmChStat) (by simp only [regOff, regRow]; omega) (by simp only [regOff, regRow]; omega)
  have hamb := hreg (n := .crmChAmb) (by simp only [regOff, regRow]; omega) (by simp only [regOff, regRow]; omega)
  have hscale := hreg (n := .crmChScale) (by simp only [regOff, regRow]; omega) (by simp only [regOff, regRow]; omega)
  have href := hreg (n := .crmChRef) (by simp only [regOff, regRow]; omega) (by simp only [regOff, regRow]; omega)
  have hthr := hreg (n := .crmChThr) (by simp only [regOff, regRow]; omega) (by simp only [regOff, regRow]; omega)
  have hmasker : crmMasker u c = crmMasker s c := by
    have hgain : u.fld .crmChAmb 7 0 c = s.fld .crmChAmb 7 0 c := by rw [State.fld, hamb, State.fld]
    have hmic : u.bit .crmChAmb 31 c = s.bit .crmChAmb 31 c := by rw [State.bit, hamb, State.bit]
    funext b m
    rw [crmMasker, hgain, hmic, crmMasker]
  refine ⟨?_, ?_, ?_⟩
  · simp only [crmMode, State.fld, hstat]
  · simp only [crmThresholds, hmasker]
  · have hscaleF (hi lo : Nat) : u.fld .crmChScale hi lo c = s.fld .crmChScale hi lo c := by rw [State.fld, hscale, State.fld]
    have hthrF (hi lo : Nat) : u.fld .crmChThr hi lo c = s.fld .crmChThr hi lo c := by rw [State.fld, hthr, State.fld]
    rw [crmFast, hscaleF, hscaleF, hthrF, hthrF, href, crmFast]

/-- The state that a frame is judged in: an overload is noted and told. -/
def crmNoted (s : State) (c : Nat) (m : CrmFrame) (t : Nat) : State :=
  if m.overload then pulse (countEvent (s.setCrm c { s.crm c with ovl := true }) t 0x12 c) 456 t else s

theorem crmNoted_facts {s : State} {c : Nat} (hs : s.crema.chans.length = 32) (hc : c < 32) (m : CrmFrame) (t : Nat) :
    let v := crmNoted s c m t
    v.crema.chans.length = 32 ∧ v.mem = s.mem ∧ crmMode v c = crmMode s c ∧ crmThresholds v c m = crmThresholds s c m ∧
    crmFast v c m = crmFast s c m ∧ v.crm c = { s.crm c with ovl := (s.crm c).ovl || m.overload } := by
  dsimp only
  unfold crmNoted
  split
  · next h =>
    generalize hv : s.setCrm c { s.crm c with ovl := true } = v
    have hchans : v.crema.chans.length = 32 := by
      rw [← hv]
      exact (List.length_set ..).trans hs
    have hcrm : v.crm c = { s.crm c with ovl := true } := by
      rw [← hv]
      exact crm_setCrm hs hc _
    have hsig := (countEvent_signals v t 0x12 c).trans (pulse_signals (n := 456) (countEvent v t 0x12 c) t (by decide))
    have hbase : crmMode v c = crmMode s c ∧ crmThresholds v c m = crmThresholds s c m ∧ crmFast v c m = crmFast s c m := by
      rw [← hv]
      exact ⟨rfl, rfl, rfl⟩
    obtain ⟨hmode, hthr, hfast⟩ := crmFrame_signals hsig hc m
    refine ⟨by rw [hsig.crema]; exact hchans, ?_, hmode.trans hbase.1, hthr.trans hbase.2.1, hfast.trans hbase.2.2, ?_⟩
    · rw [hsig.mem, ← hv]
      rfl
    · rw [h, Bool.or_true, State.crm, hsig.crema]
      exact hcrm
  · next h =>
    refine ⟨hs, rfl, rfl, rfl, rfl, ?_⟩
    rw [Bool.eq_false_of_not_eq_true h, Bool.or_false]

/-- After a Live frame its thresholds stand, and the counts go on or start again. -/
theorem crmFrameEnd_facts {s : State} {c : Nat} (hs : s.crema.chans.length = 32) (hc : c < 32) (m : CrmFrame) (t : Nat)
    (hmode : crmMode s c ≠ 0) (hlive : crmWasLive s c (t / 8192000 * 8192000) = true) :
    let u := crmFrameEnd s c m t
    (u.crm c).prev = crmThresholds s c m ∧
    (u.crm c).openN = (if (crmFast s c m).1 = true ∧ m.overload = false then (s.crm c).openN + 1 else 0) ∧
    (u.crm c).shortN = (if (crmFast s c m).2 = true ∧ m.overload = false then (s.crm c).shortN + 1 else 0) ∧
    ((u.crm c).ovl = true ↔ (s.crm c).ovl = true ∨ m.overload = true) ∧ u.mem = s.mem := by
  obtain ⟨hchans, hmem, hvmode, hthr, hfast, hcrm⟩ := crmNoted_facts hs hc m t
  have hvlive : crmWasLive (crmNoted s c m t) c (t / 8192000 * 8192000) = true := by
    rw [← hlive]
    simp only [crmWasLive, hvmode, hcrm]
  dsimp only
  unfold crmFrameEnd
  dsimp only
  rw [if_neg hmode]
  have hnoted : crmNoted s c m t = if m.overload = true then
    pulse (countEvent (s.setCrm c { s.crm c with ovl := true }) t 0x12 c) 456 t else s := rfl
  rw [← hnoted]
  generalize crmNoted s c m t = v at hchans hmem hvmode hthr hfast hcrm hvlive
  rw [if_neg (by rw [crmFrame, hvlive]; decide), crm_setCrm hchans hc]
  refine ⟨hthr, ?_, ?_, ?_, hmem⟩
  · rw [hfast, hcrm]
    simp
  · rw [hfast, hcrm]
    simp
  · rw [hcrm]
    exact Bool.or_eq_true _ _ ▸ Iff.rfl

end Sys2Proof.Machine

namespace Sys2Proof.Proofs

open Sys2Proof.Machine

/-- Settles O33: a Live frame's thresholds and counts, and the faults of sixteen in a row. -/
theorem cremaFrames : Obligations.CremaFrames := by
  unfold Obligations.CremaFrames
  intro s r t c hr hc hs
  have hrun (f : State → State) : (Host.Outcome.next (awake s t fun s => upTo 32 c s f) : Out) = .next (f r) :=
    congrArg Host.Outcome.next ((awake_runs hr _).trans (upTo_lt hc r f))
  refine ⟨fun m hoff => (hrun _).trans (congrArg Host.Outcome.next (if_pos hoff)), fun m hmode hlive => ?_, ?_⟩
  · exact ⟨_, hrun _, crmFrameEnd_facts hs.chans hc m t hmode hlive⟩
  · obtain ⟨hbits, hmem⟩ := fastFault_facts (s := r) hc t
    refine ⟨_, hrun _, ?_, ?_, fun b hb h5 h6 => ?_, hmem⟩
    · rw [hbits 5 (by decide)]
      simp
    · rw [hbits 6 (by decide)]
      simp
    · rw [hbits b hb]
      simp [h5, h6]

end Sys2Proof.Proofs
end

section
/-! PROOF. The state of a ring port: heartbeats, expiry, remote fault, wrap and return (R328, R329, R331; log entry 42). -/

namespace Sys2Proof.Machine

theorem regOff_zwrPstat (p : Nat) : regOff .zwrPstat p 0 = 0x50100 + 4 * p := by
  simp only [regOff, regRow]
  omega

theorem noisy_zwrPstat {p : Nat} (hp : p < 4) : noisy (regOff .zwrPstat p 0) = false := by
  rw [noisy, regOff_zwrPstat, decide_eq_false_iff_not]
  omega

theorem rport_setRport {s : State} {p : Nat} (hs : s.ring.ports.length = 4) (hp : p < 4) (x : RPort) : (s.setRport p x).rport p = x :=
  nth_setNth_same _ _ (hs.symm ▸ hp)

/-! ### A port takes a state (R331) -/

/-- The state, and the change bit; the rest of the status stays. -/
structure PortTaken (p st : Nat) (s u : State) : Prop where
  state : portState u p = st
  wrapped : portWrapped u p = portWrapped s p
  link : u.fld .zwrPstat 7 6 p = s.fld .zwrPstat 7 6 p
  beat : (u.rport p).lastBeat = (s.rport p).lastBeat
  mem : u.mem = s.mem

theorem setPortState_taken {s : State} (hs : s.ring.ports.length = 4) {p st : Nat} (hp : p < 4) (hst : st < 8) (t : Nat) :
    PortTaken p st s (setPortState s p st t) := by
  unfold setPortState
  split
  · next h => exact ⟨h, rfl, rfl, rfl, rfl⟩
  · generalize hx : (s.setFld .zwrPstat 5 3 st p).raise t .zwrPstat 2 p = x
    have hring : x.ring = s.ring := by rw [← hx]; rfl
    have hmem : x.mem = s.mem := by rw [← hx]; rfl
    have hfld {hi lo : Nat} (hhi : hi < 32) (hout : hi < 3 ∨ 5 < lo) (hz : bitsOf 2 lo (hi + 1 - lo) = 0) :
        x.fld .zwrPstat hi lo p = s.fld .zwrPstat hi lo p := by
      rw [← hx, fld_raise_same _ _ _ _ _ hhi hz, fld_setFld_ne _ _ _ _ _ (by decide) hhi hout]
    have hstate : x.fld .zwrPstat 5 3 p = st := by
      rw [← hx, fld_raise_same _ _ _ _ _ (by decide) (by decide), fld_setFld_same _ _ _ _ _ (by decide) (by decide)]
      omega
    have hwrap : x.bit .zwrPstat 2 p = s.bit .zwrPstat 2 p := by
      rw [← hx, bit_raise_same _ _ _ _ _ _ (by decide), State.bit, State.setFld, reg_setReg_same, bitOf,
        testBit_withField (by decide) (by decide), if_neg (by decide)]
      exact Bool.or_false _
    have hsig := pulse_signals (n := 256 + p) (x.setRport p { x.rport p with since := t }) t (by omega)
    generalize pulse (x.setRport p { x.rport p with since := t }) (256 + p) t = u at hsig
    have hport : u.rport p = { x.rport p with since := t } := by
      rw [State.rport, hsig.ring]
      exact rport_setRport (hring ▸ hs) hp _
    refine ⟨(hsig.fld _ _ _ _ _ (noisy_zwrPstat hp)).trans hstate, (hsig.bit _ _ _ _ (noisy_zwrPstat hp)).trans hwrap,
      (hsig.fld _ _ _ _ _ (noisy_zwrPstat hp)).trans (hfld (by decide) (.inr (by decide)) (by decide)), ?_, hsig.mem.trans hmem⟩
    rw [hport, State.rport, hring, State.rport]

/-- A port of the ring enters Lost. -/
theorem enterLost_taken {s : State} (hs : s.ring.ports.length = 4) {p : Nat} (hp : p < 4) (hon : portState s p ≠ 0) (hedge : portState s p ≠ 5)
    (t : Nat) : PortTaken p 2 s (enterLost s p t) := by
  rw [enterLost, if_neg (not_or.mpr ⟨hon, hedge⟩)]
  exact setPortState_taken hs hp (by decide) t

/-! ### What the link's status shows (R328) -/

/-- The link bits are written and the stamp taken; the state and the wrap stay. -/
theorem linkNoted_facts {s : State} (hs : s.ring.ports.length = 4) {p : Nat} (hp : p < 4) (v t : Nat) (hv : v < 4) :
    let u := (s.setRport p { s.rport p with lastBeat := t }).setFld .zwrPstat 7 6 v p
    u.ring.ports.length = 4 ∧ (u.rport p).lastBeat = t ∧ u.fld .zwrPstat 7 6 p = v ∧ portState u p = portState s p ∧
      portWrapped u p = portWrapped s p ∧ u.mem = s.mem := by
  generalize hx : s.setRport p { s.rport p with lastBeat := t } = x
  have hlen : x.ring.ports.length = 4 := by
    rw [← hx]
    exact (List.length_set ..).trans hs
  have hbeat : (x.rport p).lastBeat = t := by rw [← hx, rport_setRport hs hp]
  have hregs : x.regs = s.regs := by rw [← hx]; rfl
  have hmem : x.mem = s.mem := by rw [← hx]; rfl
  have hring : (x.setFld .zwrPstat 7 6 v p).ring = x.ring := by rw [State.setFld, setReg_ring]
  refine ⟨?_, ?_, ?_, ?_, ?_, ?_⟩
  · rw [hring, hlen]
  · rw [State.rport, hring]
    exact hbeat
  · rw [fld_setFld_same _ _ _ _ _ (by decide) (by decide)]
    omega
  · rw [portState, fld_setFld_ne _ _ _ _ _ (by decide) (by decide) (.inl (by decide)), fld_congr hregs, portState]
  · rw [portWrapped, State.bit, State.setFld, reg_setReg_same, bitOf, testBit_withField (by decide) (by decide), if_neg (by decide), portWrapped,
      State.bit, reg_congr hregs, bitOf]
  · rw [State.setFld, setReg_mem, hmem]

/-! ### Notices (R312, R329, R344) -/

/-- What a notice leaves: the receive ring's index and the error record apart, the registers of the ring and above. -/
abbrev RingNoted (s u : State) : Prop := RegsKept (fun off => off ≠ 0x50130 ∧ off ≠ 0x50140) s u

theorem setReg_noted (s : State) {n : RegName} (v : W32) (hn : regOff n 0 0 = 0x50130 ∨ regOff n 0 0 = 0x50140) : RingNoted s (s.setReg n v) :=
  fun off _ _ hoff => kget_setReg_ne s v (by omega)

theorem ringErr_noted (s : State) (t src port kind : Nat) : RingNoted s (ringErr s t src port kind) := by
  have hraise (u : State) (bits : Nat) : RingNoted u (u.raise t .zwrErr bits) := fun off _ _ hoff => kget_raise_ne u t bits hoff.1
  exact .ite (hraise _ _) ((setReg_noted _ _ (.inl rfl)).trans (hraise _ _))

theorem crossTo_noted (s : State) (t r port : Nat) (h : Hdr) (payload : List Byte) : RingNoted s (crossTo s t r port h payload) := by
  unfold crossTo
  split
  · exact (ringErr_noted _ _ _ _ _).trans (.of_pulse _ _ (by decide))
  · dsimp only
    split
    · exact .of_count _ _ _ _
    · exact .of_regs rfl

theorem sendLocal_noted (s : State) (t r : Nat) (ctx : Bool) (h : Hdr) (payload : List Byte) : RingNoted s (sendLocal s t r ctx h payload) := by
  have hheld (v : State) (f : Held) : RingNoted v (holdFrame v r f) := .of_regs rfl
  unfold sendLocal
  dsimp only
  refine .ite (.refl s) (.ite ((hheld _ _).trans (crossTo_noted _ _ _ _ _ _)) (.ite (hheld _ _) ?_))
  split
  · exact hheld _ _
  · exact .ite (crossTo_noted _ _ _ _ _ _) (.of_count _ _ _ _)
  · exact .of_count _ _ _ _

theorem crxWrite_noted (s : State) (t : Nat) (edge : Bool) (port : Nat) (frame : List Byte) : RingNoted s (crxWrite s t edge port frame) := by
  refine .ite (.of_count _ _ _ _) (.ite (.of_count _ _ _ _) ?_)
  exact ((writePhys_high _ _ _ _ _).trans (setReg_noted _ _ (.inr rfl))).trans (.of_pulse _ _ (by decide))

theorem notice_noted (s : State) (t r op : Nat) (vals : List Nat) : RingNoted s (notice s t r op vals) :=
  (crxWrite_noted s t false 0 _).trans (sendLocal_noted _ _ _ _ _ _)

/-- A wrap marks the port, whose state stays Lost. -/
theorem portWrap_facts {s : State} {p t : Nat} (hp : p < 4) (hdue : ¬ (portState s p ≠ 2 ∨ portWrapped s p = true ∨ t < (s.rport p).since + 96)) :
    portWrapped (portWrap s p t) p = true ∧ portState (portWrap s p t) p = 2 := by
  have hlost : portState s p = 2 := Classical.byContradiction fun h => hdue (.inl h)
  unfold portWrap
  rw [if_neg hdue]
  generalize hx : s.setBit .zwrPstat 2 true p = x
  have hwrap : x.bit .zwrPstat 2 p = true := by
    rw [← hx]
    exact bit_setBit_same _ _ _ _ _ _ (by decide)
  have hstate : x.fld .zwrPstat 5 3 p = 2 := by
    rw [← hx, State.setBit, fld_setFld_ne _ _ _ _ _ (by decide) (by decide) (.inr (by decide))]
    exact hlost
  have hkept : RingNoted x (pulse (notice x t (p / 2) 1 [staOf x (p / 2), p, ofBool (x.bit .zwrPstat 7 p)]) 260 t) :=
    (notice_noted _ _ _ _ _).trans (.of_pulse _ _ (by decide))
  have hreg := hkept.reg .zwrPstat p (by rw [regOff_zwrPstat]; omega) (by rw [regOff_zwrPstat]; omega) (by rw [regOff_zwrPstat]; omega)
  dsimp only
  generalize pulse (notice x t (p / 2) 1 [staOf x (p / 2), p, ofBool (x.bit .zwrPstat 7 p)]) 260 t = u at hreg
  rw [State.bit] at hwrap
  rw [State.fld] at hstate
  rw [portWrapped, State.bit, portState, State.fld, hreg]
  exact ⟨hwrap, hstate⟩

/-- Expiry clears the receive bit and makes the port Lost. -/
theorem supervisionExpiry_facts {s : State} (hs : s.ring.ports.length = 4) {p t : Nat} (hp : p < 4) (hon : portState s p ≠ 0)
    (hedge : portState s p ≠ 5) (hdue : ¬ t < (s.rport p).lastBeat + 384) :
    portState (supervisionExpiry s p t) p = 2 ∧ (supervisionExpiry s p t).bit .zwrPstat 6 p = false ∧ (supervisionExpiry s p t).mem = s.mem := by
  rw [supervisionExpiry, if_neg hdue]
  generalize hx : s.setBit .zwrPstat 6 false p = x
  have hring : x.ring.ports.length = 4 := by rw [← hx, State.setBit, State.setFld, setReg_ring, hs]
  have hmem : x.mem = s.mem := by rw [← hx, State.setBit, State.setFld, setReg_mem]
  have hstate : portState x p = portState s p := by
    rw [portState, ← hx, State.setBit, fld_setFld_ne _ _ _ _ _ (by decide) (by decide) (.inl (by decide)), portState]
  have hbit : x.bit .zwrPstat 6 p = false := by
    rw [← hx]
    exact bit_setBit_same _ _ _ _ _ _ (by decide)
  have htaken := enterLost_taken hring hp (hstate ▸ hon) (hstate ▸ hedge) t
  refine ⟨htaken.state, ?_, htaken.mem.trans hmem⟩
  have hbits : bitOf ((enterLost x p t).fld .zwrPstat 7 6 p) 0 = bitOf (x.fld .zwrPstat 7 6 p) 0 := by rw [htaken.link]
  have hlow (v : State) : bitOf (v.fld .zwrPstat 7 6 p) 0 = v.bit .zwrPstat 6 p := by
    rw [bitOf, State.fld, fieldOf, testBit_bitsOf]
    rfl
  rw [← hlow, hbits, hlow, hbit]

end Sys2Proof.Machine

namespace Sys2Proof.Proofs

open Sys2Proof.Machine

/-- Settles O25: what each event of supervision makes of a port. -/
theorem portStates : Obligations.PortStates := by
  unfold Obligations.PortStates
  refine ⟨fun s r t p hr hp hoff => ?_, fun s r t p hr hp hs hon hedge => ?_⟩
  all_goals
    have hrun (f : State → State) : (Host.Outcome.next (awake s t fun s => upTo 4 p s f) : Out) = .next (f r) :=
      congrArg Host.Outcome.next ((awake_runs hr _).trans (upTo_lt hp r f))
  · exact ⟨(hrun _).trans (congrArg Host.Outcome.next (if_pos hoff)), (hrun _).trans (congrArg Host.Outcome.next (if_pos hoff))⟩
  · have hring : ¬ (portState r p = 0 ∨ portState r p = 5) := not_or.mpr ⟨hon, hedge⟩
    refine ⟨?_, ?_, ?_, ?_, fun l hl => ?_, fun hnone => (hrun _).trans (congrArg Host.Outcome.next ?_)⟩
    · have hbeat : heartbeat r p t = _ := if_neg hring
      obtain ⟨hlen, hstamp, hlink, hstate, hwrap, hmem⟩ := linkNoted_facts hs.ports hp 1 t (by decide)
      dsimp only at hbeat
      generalize (r.setRport p { r.rport p with lastBeat := t }).setFld .zwrPstat 7 6 1 p = x at hbeat hlen hstamp hlink hstate hwrap hmem
      rw [hstate] at hbeat
      refine ⟨_, (hrun _).trans (congrArg Host.Outcome.next hbeat), ?_⟩
      by_cases hlost : portState r p = 2
      · have htaken := setPortState_taken hlen hp (by decide : 3 < 8) t
        rw [if_pos hlost, if_pos hlost]
        exact ⟨htaken.beat.trans hstamp, htaken.link.trans hlink, htaken.state, htaken.wrapped.trans hwrap, htaken.mem.trans hmem⟩
      · rw [if_neg hlost, if_neg hlost]
        exact ⟨hstamp, hlink, hstate, hwrap, hmem⟩
    · split
      · next hearly => exact (hrun _).trans (congrArg Host.Outcome.next (if_pos hearly))
      · next hdue => exact ⟨_, hrun _, supervisionExpiry_facts hs.ports hp hon hedge hdue⟩
    · have hfault : remoteFault r p t = _ := if_neg hring
      obtain ⟨hlen, hstamp, hlink, hstate, -, hmem⟩ := linkNoted_facts hs.ports hp 3 t (by decide)
      have htaken := enterLost_taken hlen hp (hstate ▸ hon) (hstate ▸ hedge) t
      exact ⟨_, (hrun _).trans (congrArg Host.Outcome.next hfault), htaken.state, htaken.link.trans hlink, htaken.beat.trans hstamp,
        htaken.mem.trans hmem⟩
    · split
      · next hearly => exact (hrun _).trans (congrArg Host.Outcome.next (if_pos hearly))
      · next hdue => exact ⟨_, hrun _, portWrap_facts hp hdue⟩
    · have hreturn : portReturned r p t = if portState r p = 3 ∧ (r.rport p).since + 1536000 ≤ l then setPortState r p 4 t else r := by
        rw [portReturned, hl]
      split
      · next hready =>
        have htaken := setPortState_taken hs.ports hp (by decide : 4 < 8) t
        exact ⟨_, (hrun _).trans (congrArg Host.Outcome.next (hreturn.trans (if_pos hready))), htaken.state, htaken.mem⟩
      · next hnot => exact (hrun _).trans (congrArg Host.Outcome.next (hreturn.trans (if_neg hnot)))
    · rw [portReturned, hnone]

end Sys2Proof.Proofs
end

section
/-! PROOF. Beacons, delay requests and epoch grants (R305, R314, R332, R455). -/

namespace Sys2Proof.Machine

/-- A frame is emitted where REFB is present. -/
theorem emitFrame_facts (s : State) (p t : Nat) (bytes : List Byte) :
    (s.emitFrame p t bytes).regs = s.regs ∧ (s.emitFrame p t bytes).mem = s.mem ∧ (s.emitFrame p t bytes).ring.ports = s.ring.ports ∧
    (s.bit .pwrStat 20 = false → (s.emitFrame p t bytes).ring.out = .ring p t (startOctets ++ bytes) :: s.ring.out) := by
  unfold State.emitFrame State.emit
  split
  · next h => exact ⟨rfl, rfl, rfl, fun hno => absurd (h.symm.trans hno) (by decide)⟩
  · exact ⟨rfl, rfl, rfl, fun _ => rfl⟩

/-- What the keep's key of a link frame is: that of the current epoch's generation. -/
def holdsLinkKey (s : State) (r : Nat) : Prop := ∃ e key, (s.rkeys r).cur = some e ∧ linkKey s r e.gen = some key

/-- A seal changes the counters of its pair alone, and gives bytes where the keep holds the link key. -/
theorem sealFrame_link (s : State) (r pour : Nat) {h : Hdr} (htyp : h.typ = 4) (payload : List Byte) :
    (sealFrame s r pour h payload).2.regs = s.regs ∧ (sealFrame s r pour h payload).2.mem = s.mem ∧
    (sealFrame s r pour h payload).2.ring.ports = s.ring.ports ∧ (sealFrame s r pour h payload).2.ring.out = s.ring.out ∧
    (holdsLinkKey s r → (sealFrame s r pour h payload).1.isSome) := by
  unfold sealFrame
  simp only [if_pos htyp]
  split
  · next hnone =>
    refine ⟨rfl, rfl, rfl, rfl, fun hkey => ?_⟩
    obtain ⟨e, key, he, -⟩ := hkey
    exact absurd (hnone.symm.trans he) (by simp)
  · next e he =>
    split
    · next hnone =>
      refine ⟨rfl, rfl, rfl, rfl, fun hkey => ?_⟩
      obtain ⟨e', key, he', hkey⟩ := hkey
      rw [he] at he'
      cases he'
      exact absurd (hnone.symm.trans hkey) (by simp)
    · exact ⟨rfl, rfl, rfl, rfl, fun _ => rfl⟩

/-- A sealed link frame leaves where the keep holds its key and REFB is present; registers, memory and ports stay. -/
theorem sealSend_link (s : State) (r p t pour : Nat) {h : Hdr} (htyp : h.typ = 4) (payload : List Byte) :
    (sealSend s r p t pour h payload).regs = s.regs ∧ (sealSend s r p t pour h payload).mem = s.mem ∧
    (sealSend s r p t pour h payload).ring.ports = s.ring.ports ∧
    (holdsLinkKey s r → s.bit .pwrStat 20 = false →
      ∃ bytes, (sealSend s r p t pour h payload).ring.out = .ring p t (startOctets ++ bytes) :: s.ring.out) := by
  obtain ⟨hregs, hmem, hports, hout, hsome⟩ := sealFrame_link s r pour htyp payload
  unfold sealSend
  generalize sealFrame s r pour h payload = x at hregs hmem hports hout hsome ⊢
  obtain ⟨bytes?, v⟩ := x
  cases bytes? with
  | none => exact ⟨hregs, hmem, hports, fun hkey => absurd (hsome hkey) (by simp)⟩
  | some bytes =>
    obtain ⟨heregs, hemem, heports, heout⟩ := emitFrame_facts v p t bytes
    refine ⟨heregs.trans hregs, hemem.trans hmem, heports.trans hports, fun _ hrefb => ⟨bytes, ?_⟩⟩
    have hv : v.bit .pwrStat 20 = s.bit .pwrStat 20 := bit_congr hregs _ _ _ _
    exact (heout (hv.trans hrefb)).trans (congrArg _ hout)

/-- The frame that a port's record goes with. -/
theorem sendLink_port {s : State} (hs : s.ring.ports.length = 4) {p : Nat} (hp : p < 4) (x : RPort) (sub t : Nat) (rest : List Nat) :
    let u := sendLink (s.setRport p x) p sub t rest
    u.rport p = x ∧ u.regs = s.regs ∧ u.mem = s.mem ∧
    ∀ e key, (s.rkeys (p / 2)).cur = some e → linkKey s (p / 2) e.gen = some key → s.bit .pwrStat 20 = false →
      ∃ bytes, u.ring.out = .ring p t (startOctets ++ bytes) :: s.ring.out := by
  obtain ⟨hregs, hmem, hports, hsent⟩ := sealSend_link (s.setRport p x) (p / 2) p t ((s.setRport p x).pourAt t)
    (h := { ownHdr (s.setRport p x) (p / 2) 4 (portWest p) with scope := 3 }) rfl (linkPayload (s.setRport p x) (p / 2) sub t rest)
  refine ⟨?_, hregs, hmem, fun e key he hkey hrefb => hsent ⟨e, key, he, hkey⟩ hrefb⟩
  exact (congrArg (nth · p RPort.zero) hports).trans (rport_setRport hs hp x)

end Sys2Proof.Machine

namespace Sys2Proof.Proofs

open Sys2Proof.Machine

/-- Settles O27: a link frame that is due on a live port is recorded and sent. -/
theorem linkFrames : Obligations.LinkFrames := by
  unfold Obligations.LinkFrames
  intro s r t p hr hp hs
  have hpair : p / 2 < 2 := by omega
  have hrun (f : State → State) : (Host.Outcome.next (awake s t fun s => upTo 4 p s f) : Out) = .next (f r) :=
    congrArg Host.Outcome.next ((awake_runs hr _).trans (upTo_lt hp r f))
  have hrun2 (f : State → State) : (Host.Outcome.next (awake s t fun s => upTo 2 (p / 2) s f) : Out) = .next (f r) :=
    congrArg Host.Outcome.next ((awake_runs hr _).trans (upTo_lt hpair r f))
  refine ⟨fun hdead => ⟨?_, ?_⟩, fun hearly => ?_, fun hnone => ?_, fun hlive => ⟨fun hdue => ?_, fun v hv hvp hdue => ?_, fun c hc hdue => ?_⟩⟩
  · exact (hrun _).trans (congrArg Host.Outcome.next (if_neg fun h => absurd (hdead.symm.trans h.1) (by decide)))
  · refine (hrun _).trans (congrArg Host.Outcome.next ?_)
    unfold grantSend
    dsimp only
    split
    · exact if_neg fun h => absurd (hdead.symm.trans h.1) (by decide)
    · rfl
  · obtain ⟨b, hb, hlate⟩ := hearly
    refine (hrun _).trans (congrArg Host.Outcome.next (if_neg fun h => ?_))
    simp only [hb, decide_eq_true_eq] at h
    omega
  · refine (hrun2 _).trans (congrArg Host.Outcome.next ?_)
    rw [delayRequestSend, hnone]
  · have hsend : beaconSend r p t = sendLink (r.setRport p { r.rport p with beaconSent := some t }) p 1 t [0, 0, 0, 0, 0] := by
      refine if_pos ⟨hlive, ?_⟩
      split
      · next b hb => exact decide_eq_true (hdue b hb)
      · rfl
    obtain ⟨hport, hregs, hmem, hsent⟩ := sendLink_port hs.ports hp { r.rport p with beaconSent := some t } 1 t [0, 0, 0, 0, 0]
    exact ⟨_, (hrun _).trans (congrArg Host.Outcome.next hsend), congrArg RPort.beaconSent hport, hregs, hmem, hsent⟩
  · have hp' : 2 * (p / 2) + v = p := by omega
    have hsend : delayRequestSend r (p / 2) t =
        sendLink (r.setRport p { r.rport p with reqSent := some t, req := some t }) p 2 t [0, 0, 0, 0, 0] := by
      unfold delayRequestSend
      simp only [hv, hp']
      refine if_pos ⟨hlive, ?_⟩
      split
      · next b hb => exact decide_eq_true (hdue b hb)
      · rfl
    obtain ⟨hport, hregs, hmem, hsent⟩ := sendLink_port hs.ports hp { r.rport p with reqSent := some t, req := some t } 2 t [0, 0, 0, 0, 0]
    exact ⟨_, (hrun2 _).trans (congrArg Host.Outcome.next hsend), congrArg RPort.reqSent hport, congrArg RPort.req hport, hregs, hmem, hsent⟩
  · have hsend : ∃ rest, grantSend r p t = sendLink (r.setRport p { r.rport p with grantSent := some t }) p 4 t rest := by
      unfold grantSend
      simp only [hc]
      refine ⟨_, if_pos ⟨hlive, ?_⟩⟩
      split
      · next b hb => rw [decide_eq_true (hdue b hb), Bool.true_or]
      · rfl
    obtain ⟨rest, hsend⟩ := hsend
    obtain ⟨hport, hregs, hmem, hsent⟩ := sendLink_port hs.ports hp { r.rport p with grantSent := some t } 4 t rest
    exact ⟨_, (hrun _).trans (congrArg Host.Outcome.next hsend), congrArg RPort.grantSent hport, hregs, hmem, hsent⟩

end Sys2Proof.Proofs
end

section
/-! SUPPORT. What an access to memory leaves of the state (R184, R203 to R211, R538 to R543). -/

namespace Sys2Proof.Machine

/-- From s to t only registers, events, the units in error and the rounds of the Carafe changed. -/
structure MemNoted (s t : State) : Prop where
  eq : t = { s with
    srcs := t.srcs, regs := t.regs, hwSet := t.hwSet, regWas := t.regWas, cores := t.cores, baristas := t.baristas
    privSpan := t.privSpan, msixPend := t.msixPend, msixOut := t.msixOut, chans := t.chans, capts := t.capts, tpExt := t.tpExt
    tpForce := t.tpForce, tpHist := t.tpHist, pinActs := t.pinActs, service := t.service, memErr := t.memErr, carLast := t.carLast }

namespace MemNoted

variable {s t u : State}

theorem refl (s : State) : MemNoted s s := ⟨rfl⟩

theorem trans (h : MemNoted s t) (k : MemNoted t u) : MemNoted s u where
  eq := by
    have hk := k.eq
    rw [h.eq] at hk
    exact hk

theorem ite {c : Prop} [Decidable c] (h : MemNoted s t) (k : MemNoted s u) : MemNoted s (if c then t else u) := by
  split <;> assumption

theorem foldl {α : Type} {f : State → α → State} (hf : ∀ u x, MemNoted u (f u x)) (l : List α) (s : State) : MemNoted s (l.foldl f s) :=
  List.foldlRecOn (motive := MemNoted s) l f (.refl s) fun u h x _ => h.trans (hf u x)

theorem of_signals (h : Signals s t) : MemNoted s t := ⟨by rw [h.eq]⟩

/-- A write of registers, of the units in error or of the rounds. -/
theorem of_regs (h : t = { s with regs := t.regs, hwSet := t.hwSet, regWas := t.regWas, memErr := t.memErr, carLast := t.carLast }) :
    MemNoted s t := ⟨by rw [h]⟩

theorem of_pulse (s : State) {n : Nat} (t : Nat) (hn : n < 1024) : MemNoted s (pulse s n t) := .of_signals (pulse_signals s t hn)

theorem of_count (s : State) (t code idx : Nat) : MemNoted s (countEvent s t code idx) := .of_signals (countEvent_signals s t code idx)

theorem of_setReg (s : State) (n : RegName) (v : W32) (i j : Nat) : MemNoted s (s.setReg n v i j) := .of_regs rfl

theorem of_raise (s : State) (t : Nat) (n : RegName) (bits i j : Nat) : MemNoted s (s.raise t n bits i j) := .of_regs rfl

theorem with_mem (h : MemNoted s t) (m : List Host.Cell) : MemNoted { s with mem := m } { t with mem := m } := ⟨by rw [h.eq]⟩

theorem mem (h : MemNoted s t) : t.mem = s.mem := (congrArg State.mem h.eq :)
theorem ring (h : MemNoted s t) : t.ring = s.ring := (congrArg State.ring h.eq :)
theorem crema (h : MemNoted s t) : t.crema = s.crema := (congrArg State.crema h.eq :)
theorem audio (h : MemNoted s t) : t.audio = s.audio := (congrArg State.audio h.eq :)
theorem keep (h : MemNoted s t) : t.keep = s.keep := (congrArg State.keep h.eq :)
theorem boot (h : MemNoted s t) : t.boot = s.boot := (congrArg State.boot h.eq :)
theorem pairs (h : MemNoted s t) : t.pairs = s.pairs := (congrArg State.pairs h.eq :)
theorem pcie (h : MemNoted s t) : t.pcie = s.pcie := (congrArg State.pcie h.eq :)
theorem power (h : MemNoted s t) : t.power = s.power := (congrArg State.power h.eq :)
theorem queues (h : MemNoted s t) : t.queues = s.queues := (congrArg State.queues h.eq :)

end MemNoted

/-! ### Accesses -/

theorem carRounds_noted (s : State) (t : Nat) (w : MemWho) (us : List Nat) : MemNoted s (carRounds s t w us) := by
  obtain ⟨l, hl⟩ := carRounds_eq s t w us
  rw [hl]
  exact .of_regs rfl

theorem corrected_noted (s : State) (t u : Nat) : MemNoted s (corrected s t u) := by
  have hdone : MemNoted s { s with memErr := kdel s.memErr u } := .of_regs rfl
  have hnote (v : State) (off : Nat) (x : W32) : MemNoted v (v.noteReg t off x) := .of_regs rfl
  unfold corrected
  dsimp only
  split
  · exact ((hdone.trans (hnote _ _ _)).trans (.of_setReg _ _ _ _ _)).trans (.of_count _ _ _ _)
  · exact ((hdone.trans (hnote _ _ _)).trans (.of_setReg _ _ _ _ _)).trans (.of_count _ _ _ _)
  · exact hdone.trans (.of_count _ _ _ _)
  · exact hdone

theorem dramUe_noted (s : State) (t : Nat) (w : MemWho) (u : Nat) : MemNoted s (dramUe s t w u) := by
  refine .trans (.ite (.of_setReg _ _ _ _ _) (.ite (.of_raise _ _ _ _ _ _) ?_)) (.of_pulse _ _ (by decide))
  exact ((MemNoted.of_setReg _ _ _ _ _).trans (.of_setReg _ _ _ _ _)).trans (.of_raise _ _ _ _ _ _)

theorem carafeUe_noted (s : State) (t : Nat) (w : MemWho) (u : Nat) (late : Bool) : MemNoted s (carafeUe s t w u late) := by
  refine .trans (.ite (.of_raise _ _ _ _ _ _) ?_) (.of_pulse _ _ (by decide))
  exact (((MemNoted.of_setReg _ _ _ _ _).trans (.of_setReg _ _ _ _ _)).trans (.of_setReg _ _ _ _ _)).trans (.of_raise _ _ _ _ _ _)

theorem uncorrectable_noted (s : State) (t : Nat) (w : MemWho) (u : Nat) : MemNoted s (uncorrectable s t w u) := by
  unfold uncorrectable
  split
  · exact dramUe_noted s t w u
  · exact carafeUe_noted s t w u false
  · exact (MemNoted.of_count _ _ _ _).trans (.of_pulse _ _ (by decide))
  · exact .refl s

theorem correctUnits_noted (s : State) (t : Nat) (us : List Nat) : MemNoted s (correctUnits s t us) :=
  .foldl (fun u _ => .ite (corrected_noted u t _) (.refl u)) us s

theorem repairUnits_noted (s : State) (t a n : Nat) (us : List Nat) : MemNoted s (repairUnits s t a n us) :=
  .foldl (fun v u => .ite (.of_regs (t := { v with memErr := kdel v.memErr u }) rfl) (.ite (corrected_noted v t u) (.refl v))) us s

theorem readPhys_noted (s : State) (t : Nat) (w : MemWho) (a n : Nat) : MemNoted s (readPhys s t w a n).2.2 :=
  ((carRounds_noted s t w _).trans (correctUnits_noted _ t _)).trans (.foldl (fun u x => uncorrectable_noted u t w x) _ _)

/-- A write leaves all but memory, and what an access notes. -/
theorem writePhys_noted (s : State) (t : Nat) (w : MemWho) (a : Nat) (bs : List Byte) :
    ∃ m, MemNoted { s with mem := m } (writePhys s t w a bs).2 := by
  have hbefore := (carRounds_noted s t w (unitsOf a bs.length)).trans (repairUnits_noted _ t a bs.length (unitsOf a bs.length))
  have hafter := MemNoted.foldl (fun u x => uncorrectable_noted u t w x)
    ((badUnits s (unitsOf a bs.length)).filter fun u => !coversUnit a bs.length u)
    { repairUnits (carRounds s t w (unitsOf a bs.length)) t a bs.length (unitsOf a bs.length) with
      mem := writeSkipping (repairUnits (carRounds s t w (unitsOf a bs.length)) t a bs.length (unitsOf a bs.length)).mem
        ((badUnits s (unitsOf a bs.length)).filter fun u => !coversUnit a bs.length u) a bs }
  exact ⟨_, (hbefore.with_mem _).trans hafter⟩

theorem runErr_noted (s : State) (t h kind : Nat) : MemNoted s (runErr s t h kind) := by
  rw [runErr_eq]
  refine .trans ?_ (.of_pulse _ _ (runErrSrc_lt kind))
  exact .ite (.of_raise _ _ _ _ _ _) ((MemNoted.of_setReg _ _ _ _ _).trans (.of_raise _ _ _ _ _ _))

end Sys2Proof.Machine
end

section
/-! PROOF. Ring time and trains: upstream timeout, election, origins and missing groups (R315, R317, R318, R322, R333, R335; log entry
47). -/

namespace Sys2Proof.Machine

/-! ### Frames made by the station (R312, R326) -/

/-- From s to u frames joined those waiting on the pairs, and what their refusal notes was noted. -/
structure FrameHeld (s u : State) : Prop where
  mem : u.mem = s.mem
  ring : u.ring = { s.ring with pairs := u.ring.pairs }
  regs : RingNoted s u
  pair : ∀ q, u.rpair q = { s.rpair q with held := (u.rpair q).held }

namespace FrameHeld

variable {s t u : State}

theorem refl (s : State) : FrameHeld s s := ⟨rfl, rfl, .refl s, fun _ => rfl⟩

theorem trans (h : FrameHeld s t) (k : FrameHeld t u) : FrameHeld s u where
  mem := k.mem.trans h.mem
  ring := by
    have hk := k.ring
    rw [h.ring] at hk
    exact hk
  regs := h.regs.trans k.regs
  pair q := by
    have hk := k.pair q
    rw [h.pair q] at hk
    exact hk

theorem ite {c : Prop} [Decidable c] (h : FrameHeld s t) (k : FrameHeld s u) : FrameHeld s (if c then t else u) := by
  split <;> assumption

theorem of_signals (h : Signals s u) : FrameHeld s u :=
  ⟨h.mem, by rw [h.ring], .of_signals h, fun q => by rw [State.rpair, h.ring]; rfl⟩

theorem of_pulse (s : State) {n : Nat} (t : Nat) (hn : n < 1024) : FrameHeld s (pulse s n t) := .of_signals (pulse_signals s t hn)

theorem of_count (s : State) (t code idx : Nat) : FrameHeld s (countEvent s t code idx) := .of_signals (countEvent_signals s t code idx)

/-- The record of an error. -/
theorem of_err (s : State) (t src port kind : Nat) : FrameHeld s (ringErr s t src port kind) := by
  have hring : (ringErr s t src port kind).ring = s.ring := by
    unfold ringErr State.record
    split <;> rfl
  exact ⟨record_mem _ _ _ _ _, by rw [hring], ringErr_noted s t src port kind, fun q => by rw [State.rpair, hring]; rfl⟩

end FrameHeld

theorem rpair_setRpair_ne (s : State) {r q : Nat} (x : RPair) (h : q ≠ r) : (s.setRpair r x).rpair q = s.rpair q := nth_setNth_ne _ _ h

theorem rpair_setRpair {s : State} {r : Nat} (hs : s.ring.pairs.length = 2) (hr : r < 2) (x : RPair) : (s.setRpair r x).rpair r = x :=
  nth_setNth_same _ _ (hs.symm ▸ hr)

/-- A pair that is replaced reads the new one, or there is none. -/
theorem rpair_setRpair_or (s : State) (r : Nat) (x : RPair) : (s.setRpair r x).rpair r = x ∨ (s.setRpair r x).rpair r = s.rpair r := by
  by_cases h : r < s.ring.pairs.length
  · exact .inl (nth_setNth_same _ _ h)
  · refine .inr ?_
    rw [State.rpair, State.setRpair, setNth, List.set_eq_of_length_le (Nat.le_of_not_lt h)]
    rfl

theorem holdFrame_held (s : State) (r : Nat) (f : Held) : FrameHeld s (holdFrame s r f) := by
  refine ⟨rfl, rfl, .of_regs rfl, fun q => ?_⟩
  by_cases hq : q = r
  · subst hq
    rcases rpair_setRpair_or s q { s.rpair q with held := (s.rpair q).held ++ [f] } with h | h
    · rw [holdFrame, h]
    · rw [holdFrame, h]
  · rw [holdFrame, rpair_setRpair_ne s _ hq]

theorem crossTo_held (s : State) (t r port : Nat) (h : Hdr) (payload : List Byte) : FrameHeld s (crossTo s t r port h payload) := by
  unfold crossTo
  split
  · exact (FrameHeld.of_err _ _ _ _ _).trans (.of_pulse _ _ (by decide))
  · dsimp only
    split
    · exact .of_count _ _ _ _
    · exact holdFrame_held _ _ _

theorem sendLocal_held (s : State) (t r : Nat) (ctx : Bool) (h : Hdr) (payload : List Byte) : FrameHeld s (sendLocal s t r ctx h payload) := by
  unfold sendLocal
  dsimp only
  refine .ite (.refl s) (.ite ((holdFrame_held _ _ _).trans (crossTo_held _ _ _ _ _ _)) (.ite (holdFrame_held _ _ _) ?_))
  split
  · exact holdFrame_held _ _ _
  · exact .ite (crossTo_held _ _ _ _ _ _) (.of_count _ _ _ _)
  · exact .of_count _ _ _ _

theorem announce_held (s : State) (t r op : Nat) (vals : List Nat) : FrameHeld s (announce s t r op vals) := sendLocal_held _ _ _ _ _ _

/-! ### The choice of an upstream (R333, R335) -/

/-- Ports and memory stay while an upstream is chosen. -/
def PortsKept (s u : State) : Prop := u.ring.ports = s.ring.ports ∧ u.mem = s.mem

theorem PortsKept.trans {s t u : State} (h : PortsKept s t) (k : PortsKept t u) : PortsKept s u := ⟨k.1.trans h.1, k.2.trans h.2⟩

theorem PortsKept.ite {s t u : State} {c : Prop} [Decidable c] (h : PortsKept s t) (k : PortsKept s u) : PortsKept s (if c then t else u) := by
  split <;> assumption

theorem FrameHeld.portsKept {s u : State} (h : FrameHeld s u) : PortsKept s u := ⟨(congrArg Ring.ports h.ring :), h.mem⟩

theorem ringTimeLost_portsKept (s : State) (t : Nat) : PortsKept s (ringTimeLost s t) := .ite ⟨rfl, rfl⟩ ⟨rfl, rfl⟩

theorem chooseUpstream_portsKept (s : State) (r t : Nat) : PortsKept s (chooseUpstream s r t) := by
  have hpulse (u : State) {n : Nat} (hn : n < 1024) : PortsKept u (pulse u n t) := (FrameHeld.of_pulse u t hn).portsKept
  have hself (u : State) : PortsKept u u := ⟨rfl, rfl⟩
  unfold chooseUpstream
  dsimp only
  refine .trans ?_ (.ite (hpulse _ (by decide)) (hself _))
  refine .trans ?_ (.ite (hpulse _ (by decide)) (hself _))
  refine .trans ?_ (.ite (announce_held _ _ _ _ _).portsKept (hself _))
  refine .ite ⟨rfl, rfl⟩ ?_
  split
  · exact ⟨rfl, rfl⟩
  · exact .ite (hself _) (.trans ⟨rfl, rfl⟩ (ringTimeLost_portsKept _ t))

/-- A beacon that is too old is dropped. -/
theorem upstreamTimeout_drops {s : State} (hs : s.ring.ports.length = 4) {p t : Nat} (hp : p < 4) {b : Beacon} (hb : (s.rport p).beacon = some b)
    (hold : b.at' + 384000 ≤ t) : ((upstreamTimeout s p t).rport p).beacon = none ∧ (upstreamTimeout s p t).mem = s.mem := by
  have hstep : upstreamTimeout s p t = chooseUpstream (s.setRport p { s.rport p with beacon := none }) (p / 2) t := by
    rw [upstreamTimeout, hb]
    exact if_pos hold
  obtain ⟨hports, hmem⟩ := chooseUpstream_portsKept (s.setRport p { s.rport p with beacon := none }) (p / 2) t
  rw [hstep]
  refine ⟨?_, hmem⟩
  have hport : (s.setRport p { s.rport p with beacon := none }).rport p = { s.rport p with beacon := none } := rport_setRport hs hp _
  rw [State.rport, hports]
  exact congrArg RPort.beacon hport

/-! ### The election of an island's leader (R335) -/

/-- Whether a live beacon of a pair names a lower station. -/
def lowerHeard (s : State) (q t : Nat) : Bool :=
  [2 * q, 2 * q + 1].any fun p => match liveBeacon s p t with | some b => decide (b.leader < staOf s q) | none => false

/-- The pair as its station leads an island. -/
def islandLed (s : State) (q : Nat) : State :=
  (s.setReg .zwrTstat (BitVec.ofNat 32 (staOf s q * 2 ^ 26 + 2 ^ 25)) q).setRpair q { s.rpair q with upstream := none }

/-- The leader's announcement goes round, and the tick's change is told. -/
def islandTold (s : State) (q t was : Nat) (vals : List Nat) : State :=
  if was ≠ staOf (announce s t q 3 vals) q then pulse (announce s t q 3 vals) 262 t else announce s t q 3 vals

theorem islandElection_eq (s : State) (q t : Nat) : ∃ vals, islandElection s q t =
    if (!(s.rpair q).island) = true ∨ lowerHeard s q t = true ∨ s.bit .zwrTstat 25 q = true then s
    else islandTold (islandLed s q) q t (s.fld .zwrTstat 31 26 q) vals := ⟨_, rfl⟩

theorem islandTold_held (s : State) (q t was : Nat) (vals : List Nat) : FrameHeld s (islandTold s q t was vals) :=
  .ite ((announce_held _ _ _ _ _).trans (.of_pulse _ _ (by decide))) (announce_held _ _ _ _ _)

theorem lowerHeard_iff {s : State} {q t : Nat} :
    lowerHeard s q t = true ↔ ∃ p b, p / 2 = q ∧ liveBeacon s p t = some b ∧ b.leader < staOf s q := by
  rw [lowerHeard, List.any_eq_true]
  constructor
  · rintro ⟨p, hmem, hp⟩
    have hq : p / 2 = q := by
      simp only [List.mem_cons, List.not_mem_nil, or_false] at hmem
      omega
    split at hp
    · next b hb => exact ⟨p, b, hq, hb, of_decide_eq_true hp⟩
    · cases hp
  · rintro ⟨p, b, hq, hb, hlt⟩
    refine ⟨p, ?_, ?_⟩
    · simp only [List.mem_cons, List.not_mem_nil, or_false]
      omega
    · simp only [hb]
      exact decide_eq_true hlt

theorem staOf_lt (s : State) (r : Nat) : staOf s r < 64 :=
  fieldOf_lt (s.reg .zwrSeg r) 19 14

theorem regOff_zwrTstat (q : Nat) : regOff .zwrTstat q 0 = 0x50120 + 4 * q := by
  simp only [regOff, regRow]
  omega

theorem islandLed_facts {s : State} (hs : s.ring.pairs.length = 2) {q : Nat} (hq : q < 2) :
    (islandLed s q).reg .zwrTstat q = BitVec.ofNat 32 (staOf s q * 2 ^ 26 + 2 ^ 25) ∧ ((islandLed s q).rpair q).upstream = none ∧
    (islandLed s q).mem = s.mem := by
  unfold islandLed
  generalize hx : s.setReg .zwrTstat (BitVec.ofNat 32 (staOf s q * 2 ^ 26 + 2 ^ 25)) q = x
  refine ⟨?_, ?_, ?_⟩
  · rw [← hx]
    exact reg_setReg_same s .zwrTstat _ q 0
  · have hlen : x.ring.pairs.length = 2 := by rw [← hx, setReg_ring, hs]
    exact congrArg RPair.upstream (rpair_setRpair hlen hq _)
  · have hmem : x.mem = s.mem := by rw [← hx, setReg_mem]
    exact hmem

/-- The leader of an island: the station itself, with no upstream. -/
theorem islandElection_leads {s : State} (hs : s.ring.pairs.length = 2) {q t : Nat} (hq : q < 2)
    (hlead : ¬ ((!(s.rpair q).island) = true ∨ lowerHeard s q t = true ∨ s.bit .zwrTstat 25 q = true)) :
    (islandElection s q t).fld .zwrTstat 31 26 q = staOf s q ∧ (islandElection s q t).bit .zwrTstat 25 q = true ∧
    ((islandElection s q t).rpair q).upstream = none ∧ (islandElection s q t).mem = s.mem := by
  obtain ⟨vals, heq⟩ := islandElection_eq s q t
  rw [heq, if_neg hlead]
  have hlt := staOf_lt s q
  obtain ⟨hreg, hpair, hmem⟩ := islandLed_facts hs hq
  have hheld := islandTold_held (islandLed s q) q t (s.fld .zwrTstat 31 26 q) vals
  generalize islandTold (islandLed s q) q t (s.fld .zwrTstat 31 26 q) vals = u at hheld
  have hkept := hheld.regs.reg .zwrTstat q (by rw [regOff_zwrTstat]; omega) (by rw [regOff_zwrTstat]; omega) (by rw [regOff_zwrTstat]; omega)
  have hnat : (u.reg .zwrTstat q).toNat = staOf s q * 2 ^ 26 + 2 ^ 25 := by
    rw [hkept, hreg, BitVec.toNat_ofNat, Nat.mod_eq_of_lt (by omega)]
  refine ⟨?_, ?_, ?_, hheld.mem.trans hmem⟩
  · rw [State.fld, fieldOf, bitsOf, hnat]
    omega
  · rw [State.bit, bitOf, Nat.testBit_eq_decide_div_mod_eq, hnat]
    exact decide_eq_true (by omega)
  · rw [hheld.pair q]
    exact hpair

/-! ### Trains (R317, R318) -/

/-- From s to u frames of a train joined the slots of one link, each whole and in the slot of a group. -/
structure TrainSent (q t : Nat) (west : Bool) (s u : State) : Prop where
  mem : u.mem = s.mem
  trains : (u.rpair q).trains = (s.rpair q).trains
  origins : (u.rpair q).origins = (s.rpair q).origins
  slots : ∀ x ∈ u.ring.slots, x ∈ s.ring.slots ∨ (x.port = portOf q west ∧ x.whole = true ∧ ∃ k, x.at' = slotEnd t k)

namespace TrainSent

variable {q t : Nat} {west : Bool} {s u v : State}

theorem refl (s : State) : TrainSent q t west s s := ⟨rfl, rfl, rfl, fun _ hx => .inl hx⟩

theorem trans (h : TrainSent q t west s u) (k : TrainSent q t west u v) : TrainSent q t west s v where
  mem := k.mem.trans h.mem
  trains := k.trains.trans h.trains
  origins := k.origins.trans h.origins
  slots x hx := (k.slots x hx).elim (h.slots x) .inr

theorem foldl {α : Type} {f : State → α → State} (hf : ∀ u x, TrainSent q t west u (f u x)) (l : List α) (s : State) :
    TrainSent q t west s (l.foldl f s) :=
  List.foldlRecOn l f (motive := fun u => TrainSent q t west s u) (refl s) fun u hu x _ => hu.trans (hf u x)

/-- A frame of the train takes the slot of group k. -/
theorem of_slot (s : State) (k : Nat) (bytes : List Byte) :
    TrainSent q t west s (s.slot { at' := slotEnd t k, port := portOf q west, bytes := bytes, whole := true }) := by
  refine ⟨rfl, rfl, rfl, fun x hx => ?_⟩
  rcases List.mem_append.mp hx with hx | hx
  · exact .inl hx
  · rw [List.mem_singleton.mp hx]
    exact .inr ⟨rfl, rfl, k, rfl⟩

/-- A pair whose trains and origins stay. -/
theorem of_setRpair (s : State) {x : RPair} (htrains : x.trains = (s.rpair q).trains) (horigins : x.origins = (s.rpair q).origins) :
    TrainSent q t west s (s.setRpair q x) := by
  refine ⟨rfl, ?_, ?_, fun _ hx => .inl hx⟩
  all_goals rcases rpair_setRpair_or s q x with h | h <;> rw [h]
  · exact htrains
  · exact horigins

theorem of_noted (h : MemNoted s u) : TrainSent q t west s u :=
  ⟨h.mem, by rw [State.rpair, h.ring]; rfl, by rw [State.rpair, h.ring]; rfl, fun x hx => .inl (by rw [← h.ring]; exact hx)⟩

end TrainSent

/-- A seal changes the counters of the pair alone. -/
theorem sealFrame_train (s : State) (q t : Nat) (west : Bool) (pour : Nat) (h : Hdr) (payload : List Byte) :
    TrainSent q t west s (sealFrame s q pour h payload).2 := by
  unfold sealFrame
  dsimp only
  split
  · exact .refl s
  · split
    · exact .refl s
    · exact .of_setRpair s rfl rfl

theorem sendGroup_train (s : State) (q m t : Nat) (west : Bool) (gi : Nat × Nat) : TrainSent q t west s (sendGroup s q m t west gi) := by
  unfold sendGroup
  dsimp only
  refine (TrainSent.of_noted (readPhys_noted s t .runner (txAddr s q gi.2 (m - 1)) 1024)).trans ?_
  generalize (readPhys s t .runner (txAddr s q gi.2 (m - 1)) 1024).2.2 = v
  split
  · next heq =>
    have hw := congrArg Prod.snd heq
    dsimp only at hw
    subst hw
    exact (sealFrame_train v q t west _ _ _).trans (.of_slot _ _ _)
  · next heq =>
    have hw := congrArg Prod.snd heq
    dsimp only at hw
    subst hw
    exact sealFrame_train v q t west _ _ _

theorem sendHead_train (s : State) (q m t : Nat) (west : Bool) : TrainSent q t west s (sendHead s q m t west) := by
  unfold sendHead
  dsimp only
  refine (TrainSent.of_setRpair (q := q) s ?_ ?_).trans (.foldl (fun v f => ?_) _ _)
  · rfl
  · rfl
  · exact .of_slot v f.2.1 f.2.2.2

/-- The train of a ring cycle is recorded, and what it brings takes slots. -/
theorem trainOrigin_facts {s : State} (hs : s.ring.pairs.length = 2) {q t : Nat} (hq : q < 2) (west arrived : Bool) {came : Bool}
    (hcame : (arrived && decide (staOf s q ≠ 0)) = came) {least : Nat}
    (hleast : (if came then leastOrigin s q west else originOf s q west) = least)
    (hdue : ¬ ((!pairOn s q) = true ∨ nth (s.rpair q).trains (ofBool west) none = some ((t - least) / s.pourLen) ∨ t < least)) :
    ((trainOrigin s q west arrived t).rpair q).trains = setNth (s.rpair q).trains (ofBool west) (some ((t - least) / s.pourLen)) ∧
    ((trainOrigin s q west arrived t).rpair q).origins =
      (if came then setNth (s.rpair q).origins (ofBool west) (some (t - (t - least) / s.pourLen * s.pourLen)) else (s.rpair q).origins) ∧
    (∀ x ∈ (trainOrigin s q west arrived t).ring.slots,
      x ∈ s.ring.slots ∨ (x.port = portOf q west ∧ x.whole = true ∧ ∃ k, x.at' = slotEnd t k)) ∧
    (trainOrigin s q west arrived t).mem = s.mem := by
  unfold trainOrigin
  dsimp only
  rw [hcame, hleast]
  generalize hm : (t - least) / s.pourLen = m at hdue ⊢
  rw [if_neg hdue]
  have hpair := rpair_setRpair hs hq { s.rpair q with
    origins := if came then setNth (s.rpair q).origins (ofBool west) (some (t - m * s.pourLen)) else (s.rpair q).origins
    trains := setNth (s.rpair q).trains (ofBool west) (some m) }
  have hother : ∀ v, v = s.setRpair q { s.rpair q with
      origins := if came then setNth (s.rpair q).origins (ofBool west) (some (t - m * s.pourLen)) else (s.rpair q).origins
      trains := setNth (s.rpair q).trains (ofBool west) (some m) } → v.mem = s.mem ∧ v.ring.slots = s.ring.slots := by
    rintro v rfl
    exact ⟨rfl, rfl⟩
  generalize s.setRpair q { s.rpair q with
    origins := if came then setNth (s.rpair q).origins (ofBool west) (some (t - m * s.pourLen)) else (s.rpair q).origins
    trains := setNth (s.rpair q).trains (ofBool west) (some m) } = v at hpair hother ⊢
  obtain ⟨hmem, hslots⟩ := hother v rfl
  have hhead : TrainSent q t west v (if staOf v q = 0 then sendHead v q m t west else v) := by
    split
    · exact sendHead_train _ _ _ _ _
    · exact .refl _
  generalize (if staOf v q = 0 then sendHead v q m t west else v) = w at hhead ⊢
  have hsent : TrainSent q t west v (if (s.rpair q).joined = true ∧ 0 < m then
      ((ownedGroups w q).zipIdx).foldl (fun s gi => sendGroup s q m t west gi) w else w) := by
    split
    · exact hhead.trans (.foldl (fun u gi => sendGroup_train u q m t west gi) _ _)
    · exact hhead
  rw [hsent.trains, hsent.origins, hsent.mem, hpair, hmem]
  refine ⟨rfl, rfl, fun x hx => ?_, rfl⟩
  rw [← hslots]
  exact hsent.slots x hx

/-! ### Groups that do not come (R322) -/

/-- The group is recorded as missing, and the error has its record. -/
theorem groupMissing_facts {s : State} (hs : s.ring.pairs.length = 2) {q g m t : Nat} (hq : q < 2)
    (hdue : ¬ (t + 4096 < m * s.pourLen ∨ groupsOf s q ≤ g ∨ (groupOwner s q g).isNone = true ∨ groupOwner s q g = some (staOf s q) ∨
      (s.rpair q).rx.contains (g, m) = true ∨ (!pairOn s q) = true)) :
    g ∈ ((groupMissing s q g m t).rpair q).missing ∧ (groupMissing s q g m t).bit .zwrErr 0 = true ∧ (groupMissing s q g m t).mem = s.mem := by
  unfold groupMissing
  dsimp only
  rw [if_neg hdue]
  have hpair := rpair_setRpair hs hq
    { s.rpair q with missing := if (s.rpair q).missing.contains g then (s.rpair q).missing else g :: (s.rpair q).missing }
  generalize hv : s.setRpair q { s.rpair q with missing := if (s.rpair q).missing.contains g then (s.rpair q).missing else g :: (s.rpair q).missing } = v at hpair ⊢
  have hmem : v.mem = s.mem := by rw [← hv]; rfl
  have herr := FrameHeld.of_err v t 0 (2 * q) 4
  have hvalid : (ringErr v t 0 (2 * q) 4).bit .zwrErr 0 = true := record_valid _ _ _ _ _
  have hsig : Signals (ringErr v t 0 (2 * q) 4) (pulse (countEvent (ringErr v t 0 (2 * q) 4) t 0x0D q) 265 t) :=
    (countEvent_signals _ _ _ _).trans (pulse_signals _ t (by decide))
  have hheld := herr.trans (.of_signals hsig)
  refine ⟨?_, (hsig.bit .zwrErr 0 0 0 (by decide)).trans hvalid, hheld.mem.trans hmem⟩
  rw [hheld.pair q, hpair]
  show g ∈ if (s.rpair q).missing.contains g then (s.rpair q).missing else g :: (s.rpair q).missing
  split
  · next h => exact List.contains_iff_mem.mp h
  · exact List.mem_cons_self

end Sys2Proof.Machine

namespace Sys2Proof.Proofs

open Sys2Proof.Machine

/-- Settles O28: beacons that age, the leader of an island, trains and groups that do not come. -/
theorem ringTiming : Obligations.RingTiming := by
  unfold Obligations.RingTiming
  refine ⟨fun s r t hr hs => ⟨fun p b hp hb => ?_, fun q hq => ?_⟩, fun s r t q hr hq hs hon => ⟨fun west arrived => ?_, fun g m hdue hg hown hother hnew => ?_⟩⟩
  · have hrun : exec (.upstreamTimeout t p) s = .next (upstreamTimeout r p t) :=
      congrArg Host.Outcome.next ((awake_runs hr _).trans (upTo_lt hp r _))
    split
    · next hold => exact ⟨_, hrun, upstreamTimeout_drops hs.ports hp hb hold⟩
    · next hyoung =>
      refine hrun.trans (congrArg Host.Outcome.next ?_)
      rw [upstreamTimeout, hb]
      exact if_neg hyoung
  · have hrun : exec (.islandLeaderElection t q) s = .next (islandElection r q t) :=
      congrArg Host.Outcome.next ((awake_runs hr _).trans (upTo_lt hq r _))
    refine ⟨fun hnot => hrun.trans (congrArg Host.Outcome.next (if_pos ?_)), fun hisland hunled hlow => ⟨_, hrun, islandElection_leads hs.pairs hq ?_⟩⟩
    · rcases hnot with h | h | h
      · exact .inl (by rw [h]; rfl)
      · exact .inr (.inr h)
      · exact .inr (.inl (lowerHeard_iff.mpr h))
    · rintro (h | h | h)
      · rw [hisland] at h
        cases h
      · exact hlow (lowerHeard_iff.mp h)
      · exact absurd (h.symm.trans hunled) (by decide)
  · have hrun : exec (.trainOrigin t q west arrived) s = .next (trainOrigin r q west arrived t) :=
      congrArg Host.Outcome.next ((awake_runs hr _).trans (upTo_lt hq r _))
    intro came least m
    by_cases hnot : t < least ∨ nth (r.rpair q).trains (ofBool west) none = some m
    · rw [if_pos hnot]
      exact hrun.trans (congrArg Host.Outcome.next (if_pos (.inr hnot.symm)))
    · rw [if_neg hnot]
      refine ⟨_, hrun, trainOrigin_facts hs.pairs hq west arrived rfl rfl ?_⟩
      rintro (h | h)
      · rw [hon] at h
        cases h
      · exact hnot h.symm
  · have hrun : exec (.groupMissing t q g m) s = .next (groupMissing r q g m t) :=
      congrArg Host.Outcome.next ((awake_runs hr _).trans (upTo_lt hq r _))
    refine ⟨_, hrun, groupMissing_facts hs.pairs hq ?_⟩
    rintro (h | h | h | h | h | h)
    · omega
    · omega
    · rw [← Option.not_isSome, hown] at h
      cases h
    · exact hother h
    · exact absurd (h.symm.trans hnew) (by decide)
    · rw [hon] at h
      cases h

end Sys2Proof.Proofs
end

section
/-! PROOF. The marks of an image and the recovery of one (R430, R432, R461). -/

namespace Sys2Proof.Machine

/-! ### Flash (R430) -/

theorem flashByte_flashPut {s : State} {d : Nat} (hd : d < s.boot.flash.length) (i : Nat) (b : Byte) : flashByte (flashPut s d i b) d i = b := by
  have hlong (l : List Byte) : i < (l ++ List.replicate (i + 1 - l.length) 0xFF).length := by
    rw [List.length_append, List.length_replicate]
    omega
  have hflash : nth (flashPut s d i b).boot.flash d [] =
      (nth s.boot.flash d [] ++ List.replicate (i + 1 - (nth s.boot.flash d []).length) 0xFF).set i b := nth_setNth_same _ _ hd
  rw [flashByte, hflash, List.getD_eq_getElem?_getD, List.getElem?_set_self (hlong _)]
  rfl

/-- A mark that is programmed reads as set. -/
theorem markDone_facts {s : State} {d k : Nat} (hd : d < s.boot.flash.length) (hm : s.boot.marking = some (d, k)) :
    markSet (markDone s) d k = true ∧ (markDone s).bit .barStat 8 = false ∧ (markDone s).boot.marking = none ∧ (markDone s).mem = s.mem := by
  rw [markDone, hm]
  have hbyte := flashByte_flashPut hd (0x10000 + k) 0
  have hmem : (flashPut s d (0x10000 + k) 0).mem = s.mem := rfl
  dsimp only
  generalize flashPut s d (0x10000 + k) 0 = v at hbyte hmem ⊢
  refine ⟨?_, bit_setBit_same v .barStat 8 false 0 0 (by decide), rfl, hmem⟩
  show (flashByte v d (0x10000 + k) != 0xFF) = true
  rw [hbyte]
  decide

/-! ### Commands of the active pair (R432) -/

theorem markWrite_idle {s : State} {ini : Ini} (h : ini ≠ .barista ∨ s.bit .barStat 8 = true ∨ s.pairWorks = false) (v : W32) :
    markWrite s ini v = s := by
  refine if_pos ?_
  rcases h with h | h | h
  · exact .inl h
  · exact .inr (.inr (.inl h))
  · exact .inr (.inr (.inr (by rw [h]; rfl)))

theorem markWrite_taken {s : State} (hidle : s.bit .barStat 8 = false) (hworks : s.pairWorks = true) {v : W32} (hkey : fieldOf v 31 16 = 0x7A3C) :
    (fieldOf v 1 0 = 1 → markWrite s .barista v = markStart s (s.fld .barStat 6 6) 3) ∧
    (fieldOf v 1 0 = 2 → markWrite s .barista v = markStart s (1 - s.fld .barStat 6 6) 4) := by
  have hgo : ¬ (Ini.barista ≠ .barista ∨ fieldOf v 31 16 ≠ 0x7A3C ∨ s.bit .barStat 8 = true ∨ (!s.pairWorks) = true) := by
    rw [hkey, hidle, hworks]
    decide
  unfold markWrite
  rw [if_neg hgo]
  exact ⟨fun h => by simp only [h], fun h => by simp only [h]⟩

theorem markStart_facts (s : State) (d k : Nat) :
    (markStart s d k).bit .barStat 8 = true ∧ (markStart s d k).boot = { s.boot with marking := some (d, k) } ∧ (markStart s d k).mem = s.mem :=
  ⟨bit_setBit_same s .barStat 8 true 0 0 (by decide), rfl, rfl⟩

/-! ### Recovery (R461) -/

theorem recoveryDevice_lt (s : State) : recoveryDevice s < 2 := by
  unfold recoveryDevice
  split <;> decide

/-- A verified image is written with its marks unset, and the module resets. -/
theorem recoveryWrite_taken {s : State} (hs : s.boot.flash.length = 2) {img : List Byte}
    (h : s.boot.stage = .recovery ∧ (soundImage s img).isSome = true) :
    (recoveryWrite s img).power.resetOn = true ∧ (recoveryWrite s img).fld .pwrStat 26 24 = 3 ∧
    nth (recoveryWrite s img).boot.flash (recoveryDevice s) [] =
      img.mapIdx fun i b => if 0x10000 ≤ i ∧ i < 0x10005 then (0xFF : Byte) else b := by
  have hgo : ¬ (s.boot.stage ≠ .recovery ∨ (soundImage s img).isNone = true) := by
    rintro (hstage | hnone)
    · exact hstage h.1
    · rw [← Option.not_isSome, h.2] at hnone
      cases hnone
  unfold recoveryWrite
  rw [if_neg hgo]
  exact ⟨rfl, moduleReset_cause _ (by decide), nth_setNth_same _ _ (hs.symm ▸ recoveryDevice_lt s)⟩

theorem recoveryWrite_idle {s : State} {img : List Byte} (h : ¬ (s.boot.stage = .recovery ∧ (soundImage s img).isSome = true)) :
    recoveryWrite s img = s := by
  refine if_pos ?_
  rw [← Option.not_isSome]
  by_cases hstage : s.boot.stage = .recovery
  · exact .inr (by simpa using fun hsome => h ⟨hstage, hsome⟩)
  · exact .inl hstage

end Sys2Proof.Machine

namespace Sys2Proof.Proofs

open Sys2Proof.Machine

/-- Settles O39: recovery writes, and the good and bad marks. -/
theorem marksAndRecovery : Obligations.MarksAndRecovery := by
  unfold Obligations.MarksAndRecovery
  intro s r t hr hs
  have hrun (f : State → State) : (Host.Outcome.next (awake s t f) : Out) = .next (f r) := congrArg Host.Outcome.next (awake_runs hr f)
  have hgood (ini : Ini) : exec (.setGoodMark t ini) s = .next (markWrite (noted r t .barBootCmd 0) ini 0x7A3C0001) :=
    (hrun _).trans (congrArg Host.Outcome.next (put_barBootCmd (by decide)))
  have hbad (ini : Ini) : exec (.setBadMark t ini) s = .next (markWrite (noted r t .barBootCmd 0) ini 0x7A3C0002) :=
    (hrun _).trans (congrArg Host.Outcome.next (put_barBootCmd (by decide)))
  refine ⟨fun img => ⟨_, hrun _, ?_⟩, fun hidle hworks => ⟨⟨_, hgood _, ?_⟩, _, hbad _, ?_⟩, fun ini h => ⟨?_, ?_⟩, fun hnone => ?_,
    fun d k hd hm => ⟨_, hrun _, markDone_facts (hs.flash.symm ▸ hd) hm⟩⟩
  · split
    · next h => exact recoveryWrite_taken hs.flash h
    · next h => exact recoveryWrite_idle h
  · rw [(markWrite_taken (s := noted r t .barBootCmd 0) (v := 0x7A3C0001) hidle hworks (by decide)).1 (by decide)]
    exact markStart_facts _ _ _
  · rw [(markWrite_taken (s := noted r t .barBootCmd 0) (v := 0x7A3C0002) hidle hworks (by decide)).2 (by decide)]
    exact markStart_facts _ _ _
  · exact (hgood ini).trans (congrArg Host.Outcome.next (markWrite_idle (s := noted r t .barBootCmd 0) h _))
  · exact (hbad ini).trans (congrArg Host.Outcome.next (markWrite_idle (s := noted r t .barBootCmd 0) h _))
  · refine (hrun _).trans (congrArg Host.Outcome.next ?_)
    rw [markDone, hnone]

end Sys2Proof.Proofs
end

section
/-! SUPPORT. Copies of memory: each byte of the destination is that of the source, and no other byte changes (R426, R473). -/

namespace Sys2Proof.Machine

theorem kget_filter {m : List Host.Cell} {lo : Nat} (h : wfFrom lo m = true) (p : Nat → Bool) (a : Nat) :
    kget (m.filter fun c => p c.1) a = if p a = true then kget m a else none := by
  induction m generalizing lo with
  | nil =>
    rw [List.filter_nil, kget_nil]
    split <;> rfl
  | cons c rest ih =>
    obtain ⟨k, v⟩ := c
    have hrest := (wfFrom_cons.1 h).2
    have hbelow (hak : a < k) : kget rest a = none := kget_below hrest (by omega)
    rw [List.filter_cons]
    by_cases hk : p k = true
    · rw [if_pos hk, kget, kget, ih hrest]
      split_ifs with hka hak hpa hpa
      · rfl
      · exact absurd (hka ▸ hk) ‹_›
      all_goals rfl
    · rw [if_neg hk, ih hrest, kget]
      by_cases hpa : p a = true
      · have hka : k ≠ a := fun e => hk (e ▸ hpa)
        rw [if_pos hpa, if_pos hpa, if_neg hka]
        split
        · next hak => exact hbelow hak
        · rfl
      · rw [if_neg hpa, if_neg hpa]

/-- The canonical form from the least key on. -/
theorem wfFrom_raised {m : List Host.Cell} {lo lo' : Nat} (h : wfFrom lo m = true) (hkeys : ∀ c ∈ m, lo' ≤ c.1) : wfFrom lo' m = true := by
  cases m with
  | nil => rfl
  | cons c rest =>
    obtain ⟨⟨-, hv⟩, hrest⟩ := wfFrom_cons.1 h
    exact wfFrom_cons.2 ⟨⟨hkeys c List.mem_cons_self, hv⟩, hrest⟩

/-- Writing the cells of a range elsewhere: a cell of the range lands, and what none lands on stays. -/
theorem memGet_foldl_moved {l : List Host.Cell} {lo src dst : Nat} (hl : wfFrom lo l = true) (hsrc : src ≤ lo) {m : List Host.Cell}
    (hm : Memory.wf m = true) (i : Nat) :
    memGet (l.foldl (fun m c => memSet m (dst + (c.1 - src)) c.2) m) (dst + i) = (kget l (src + i)).getD (memGet m (dst + i)) := by
  induction l generalizing lo m with
  | nil => rfl
  | cons c rest ih =>
    obtain ⟨k, v⟩ := c
    obtain ⟨⟨hlo, -⟩, hrest⟩ := wfFrom_cons.1 hl
    rw [List.foldl_cons, ih hrest (by omega) (memSet_wf hm), kget]
    by_cases hk : k = src + i
    · have hi : dst + (k - src) = dst + i := by omega
      rw [if_pos hk, kget_below hrest (by omega : src + i < k + 1), hi, memGet_memSet_same hm]
      rfl
    · rw [if_neg hk, memGet_memSet_ne hm (by omega : dst + i ≠ dst + (k - src))]
      split
      · next hlt => rw [kget_below hrest (by omega : src + i < k + 1)]
      · rfl

theorem memGet_foldl_outside {l : List Host.Cell} {src dst n : Nat} (hl : ∀ c ∈ l, src ≤ c.1 ∧ c.1 < src + n) {m : List Host.Cell}
    (hm : Memory.wf m = true) {a : Nat} (ha : ¬ (dst ≤ a ∧ a < dst + n)) :
    memGet (l.foldl (fun m c => memSet m (dst + (c.1 - src)) c.2) m) a = memGet m a := by
  induction l generalizing m with
  | nil => rfl
  | cons c rest ih =>
    have hc := hl c List.mem_cons_self
    rw [List.foldl_cons, ih (fun x hx => hl x (List.mem_cons_of_mem _ hx)) (memSet_wf hm), memGet_memSet_ne hm (by omega)]

/-- A copy in full. -/
theorem memGet_copyRange {s : State} (hm : Memory.wf s.mem = true) (src dst n a : Nat) :
    memGet (copyRange s src dst n).mem a = if dst ≤ a ∧ a < dst + n then memGet s.mem (src + (a - dst)) else memGet s.mem a := by
  have hout := kget_filter hm (fun k => !decide (dst ≤ k ∧ k < dst + n))
  have hin := kget_filter hm (fun k => decide (src ≤ k ∧ k < src + n))
  have hwf : Memory.wf (s.mem.filter fun c => !decide (dst ≤ c.1 ∧ c.1 < dst + n)) = true := filter_wfFrom hm
  rw [copyRange]
  dsimp only
  split
  · next hw =>
    obtain ⟨i, rfl⟩ : ∃ i, a = dst + i := ⟨a - dst, by omega⟩
    have hi : i < n := by omega
    have hgone : memGet (s.mem.filter fun c => !decide (dst ≤ c.1 ∧ c.1 < dst + n)) (dst + i) = memDefault := by
      rw [memGet, hout, decide_eq_true hw]
      rfl
    have hsub : src + (dst + i - dst) = src + i := by omega
    have hsrc : src ≤ src + i ∧ src + i < src + n := by omega
    have hkeys : ∀ c ∈ s.mem.filter fun c => decide (src ≤ c.1 ∧ c.1 < src + n), src ≤ c.1 := fun c hc =>
      (of_decide_eq_true (List.mem_filter.mp hc).2).1
    have hl : wfFrom src (s.mem.filter fun c => decide (src ≤ c.1 ∧ c.1 < src + n)) = true := wfFrom_raised (filter_wfFrom hm) hkeys
    rw [memGet_foldl_moved hl le_rfl hwf, hin, if_pos (decide_eq_true hsrc), hgone, hsub]
    rfl
  · next hw =>
    rw [memGet_foldl_outside (fun c hc => of_decide_eq_true (List.mem_filter.mp hc).2) hwf hw, memGet, hout, decide_eq_false hw]
    rfl

end Sys2Proof.Machine
end

section
/-! PROOF. The memory of the standby pair: repeats of writes and restores (R420, R426). -/

namespace Sys2Proof.Machine

/-! ### Repeats (R420) -/

/-- A repeat lands in the standby's memory. -/
theorem shadowRepeat_standby {s : State} (hm : Memory.wf s.mem = true) (hstandby : s.bit .barStat 1 = true) (e : Nat × Nat × List Byte × Nat) :
    let a0 := sramBase + 0x100000 * e.1 + e.2.1
    (shadowRepeat s e).shadowQ = s.shadowQ ∧ memRead (shadowRepeat s e).mem a0 e.2.2.1.length = e.2.2.1 ∧
    ∀ a, ¬ (a0 ≤ a ∧ a < a0 + e.2.2.1.length) → memGet (shadowRepeat s e).mem a = memGet s.mem a := by
  intro a0
  have hnoted : MemNoted s (repairUnits s e.2.2.2 a0 e.2.2.1.length (unitsOf a0 e.2.2.1.length)) := repairUnits_noted _ _ _ _ _
  have hrep : shadowRepeat s e = { repairUnits s e.2.2.2 a0 e.2.2.1.length (unitsOf a0 e.2.2.1.length) with
    mem := memWrite (repairUnits s e.2.2.2 a0 e.2.2.1.length (unitsOf a0 e.2.2.1.length)).mem a0 e.2.2.1 } := if_pos hstandby
  rw [hrep]
  generalize repairUnits s e.2.2.2 a0 e.2.2.1.length (unitsOf a0 e.2.2.1.length) = v at hnoted ⊢
  have hmem := hnoted.mem
  rw [hmem]
  exact ⟨(congrArg State.shadowQ hnoted.eq :), memRead_memWrite hm, fun a ha => memGet_memWrite_out hm (by omega)⟩

/-! ### Restores (R426) -/

theorem restoreWrite_eq (s : State) (ini : Ini) (t : Nat) : restoreWrite s ini 1 t =
    if ini = .barista ∧ s.pairWorks = true ∧ s.pairFailed (1 - s.activePair) = true ∧ s.bit .barStat 4 = false then
      ((s.setCore (.barista (1 - s.activePair)) Core.reset).setBit .barStat 4 true).setPairs { s.pairs with restoreAt := some t }
    else s := by
  have hbit : bitOf (1 : W32).toNat 0 = true := by decide
  have hcond : (ini = .barista ∧ bitOf (1 : W32).toNat 0 = true ∧ s.pairWorks = true ∧ s.pairFailed (1 - s.activePair) = true ∧
      (!s.bit .barStat 4) = true) ↔
      (ini = .barista ∧ s.pairWorks = true ∧ s.pairFailed (1 - s.activePair) = true ∧ s.bit .barStat 4 = false) := by
    rw [hbit, Bool.not_eq_true']
    tauto
  unfold restoreWrite
  dsimp only
  exact if_congr hcond rfl rfl

theorem activePair_lt (s : State) : s.activePair < 2 := fieldOf_lt (s.reg .barStat) 0 0

/-- The firmware starts on a pair: registers, memory and the pairs' state stay. -/
theorem startFirmware_rest (s : State) (q t : Nat) :
    (startFirmware s q t).mem = s.mem ∧ (startFirmware s q t).pairs = s.pairs ∧ (startFirmware s q t).boot = s.boot ∧
    ∀ n i j, noisy (regOff n i j) = false → (startFirmware s q t).reg n i j = s.reg n i j := by
  have hsig : Signals (s.setCore (.barista q) { Core.reset with
      phase := .running, pc := s.boot.entry, tsbr := s.reg .barTsbr, hold := false, readyAt := t }) (startFirmware s q t) :=
    .of_rail (presentCore_railOnly _ _ _)
  exact ⟨hsig.mem, hsig.pairs, hsig.boot, fun n i j hn => hsig.reg n i j hn⟩

/-- Pair q as the standby, its memory copied. -/
def restored (s : State) (q : Nat) : State :=
  { (((s.setBit .barStat 4 false).setPairs { s.pairs with restoreAt := none }).setBit .barStat (2 + q) false).setBit .barStat 1 true with
    shadowQ := [] }

theorem restored_facts (s : State) {q : Nat} (hq : q < 2) :
    (restored s q).mem = s.mem ∧ (restored s q).pairs.restoreAt = none ∧ (restored s q).bit .barStat 1 = true ∧
    (restored s q).bit .barStat 4 = false ∧ (restored s q).bit .barStat (2 + q) = false := by
  have hbit {c : Nat} (hc : c < 32) :
      (restored s q).bit .barStat c = if c = 1 then true else if c = 2 + q then false else if c = 4 then false else s.bit .barStat c := by
    refine (bit_setBit_same _ .barStat 1 true 0 0 hc).trans (if_congr Iff.rfl rfl ?_)
    refine (bit_setBit_same _ .barStat (2 + q) false 0 0 hc).trans (if_congr Iff.rfl rfl ?_)
    exact bit_setBit_same s .barStat 4 false 0 0 hc
  refine ⟨rfl, rfl, (hbit (by decide)).trans (if_pos rfl), ?_, ?_⟩
  · rw [hbit (by decide), if_neg (by decide), if_neg (by omega), if_pos rfl]
  · rw [hbit (by omega), if_neg (by omega), if_pos rfl]

/-- A restore that is over: the pair is the standby, with the active pair's memory. -/
theorem restoreComplete_done {s : State} (hm : Memory.wf s.mem = true) {t c : Nat} (hc : s.pairs.restoreAt = some c) (hdue : ¬ t < c + 6144000) :
    let a := s.activePair
    (restoreComplete s t).bit .barStat 1 = true ∧ (restoreComplete s t).bit .barStat 4 = false ∧
    (restoreComplete s t).pairFailed (1 - a) = false ∧ (restoreComplete s t).pairs.restoreAt = none ∧
    ∀ i, i < 0x100000 → memGet (restoreComplete s t).mem (sramBase + 0x100000 * (1 - a) + i) = memGet s.mem (sramBase + 0x100000 * a + i) := by
  have hstep : restoreComplete s t = startFirmware
      (restored (copyRange s (sramBase + 0x100000 * s.activePair) (sramBase + 0x100000 * (1 - s.activePair)) 0x100000) (1 - s.activePair))
      (1 - s.activePair) t := by
    rw [restoreComplete, hc]
    exact if_neg hdue
  have hcopy (i : Nat) (hi : i < 0x100000) :
      memGet (copyRange s (sramBase + 0x100000 * s.activePair) (sramBase + 0x100000 * (1 - s.activePair)) 0x100000).mem
        (sramBase + 0x100000 * (1 - s.activePair) + i) = memGet s.mem (sramBase + 0x100000 * s.activePair + i) := by
    rw [memGet_copyRange hm, if_pos (by omega)]
    congr 1
    omega
  have hq : 1 - s.activePair < 2 := by omega
  rw [hstep]
  generalize copyRange s (sramBase + 0x100000 * s.activePair) (sramBase + 0x100000 * (1 - s.activePair)) 0x100000 = v at hcopy ⊢
  obtain ⟨hmem, hpairs, hstandby, hbusy, hfailed⟩ := restored_facts v hq
  obtain ⟨hfmem, hfpairs, -, hfreg⟩ := startFirmware_rest (restored v (1 - s.activePair)) (1 - s.activePair) t
  have hbit (b : Nat) : (startFirmware (restored v (1 - s.activePair)) (1 - s.activePair) t).bit .barStat b =
      (restored v (1 - s.activePair)).bit .barStat b := by rw [State.bit, hfreg .barStat 0 0 (by decide), State.bit]
  refine ⟨(hbit 1).trans hstandby, (hbit 4).trans hbusy, (hbit _).trans hfailed, (congrArg Pairs.restoreAt hfpairs).trans hpairs, fun i hi => ?_⟩
  rw [hfmem, hmem, hcopy i hi]

end Sys2Proof.Machine

namespace Sys2Proof.Proofs

open Sys2Proof.Machine

/-- Settles O41: repeats of writes, and restores. -/
theorem pairMemory : Obligations.PairMemory := by
  unfold Obligations.PairMemory
  refine ⟨fun s r t hr hs => ?_, fun s r t hr hs => ?_⟩
  all_goals
    have hrun (f : State → State) : (Host.Outcome.next (awake s t f) : Out) = .next (f r) := congrArg Host.Outcome.next (awake_runs hr f)
  · refine ⟨fun hnone => (hrun _).trans (congrArg Host.Outcome.next ?_), fun e rest hq => ?_⟩
    · rw [shadowWrite, hnone]
    · have hstep : exec (.shadowWrite t) s = .next (shadowRepeat { r with shadowQ := rest } e) := by
        refine (hrun _).trans (congrArg Host.Outcome.next ?_)
        rw [shadowWrite, hq]
      dsimp only
      split
      · next hstandby => exact ⟨_, hstep, shadowRepeat_standby (s := { r with shadowQ := rest }) hs.mem hstandby e⟩
      · next hnone => exact hstep.trans (congrArg Host.Outcome.next (if_neg hnone))
  · refine ⟨fun ini => (hrun _).trans (congrArg Host.Outcome.next ?_), fun hnone => (hrun _).trans (congrArg Host.Outcome.next ?_), fun c hc => ?_⟩
    · exact (put_barCmd (by decide)).trans (restoreWrite_eq _ ini t)
    · rw [restoreComplete, hnone]
    · split
      · next hearly =>
        refine (hrun _).trans (congrArg Host.Outcome.next ?_)
        rw [restoreComplete, hc]
        exact if_pos hearly
      · next hdue => exact ⟨_, hrun _, restoreComplete_done hs.mem hc hdue⟩

end Sys2Proof.Proofs
end

section
/-! SUPPORT. What writes of BAR_STAT and SYS_TAMP leave of what is due (R419 to R423, R441). -/

namespace Sys2Proof.Machine

theorem filterMap_kput {α β : Type} {f : Nat × α → Option β} {a : Nat} (hf : ∀ x, f (a, x) = none) (l : List (Nat × α)) (x : α) :
    (kput l a x).filterMap f = l.filterMap f := by
  induction l with
  | nil => rw [kput, List.filterMap_cons, hf]
  | cons c rest ih =>
    obtain ⟨k, v⟩ := c
    rw [kput]
    split_ifs with hlt hk
    · rw [List.filterMap_cons, hf]
    · rw [List.filterMap_cons, List.filterMap_cons, ← hk]
      rw [hk, hf, hf]
    · rw [List.filterMap_cons, List.filterMap_cons, ih]

theorem writtenChans_lt {s : State} {n : Nat} (h : n ∈ writtenChans s) : n < 264 := by
  obtain ⟨e, -, he⟩ := List.mem_filterMap.mp h
  split_ifs at he
  all_goals
    cases he
    omega

/-- What the control words of channels show: which are written and what each holds. -/
structure ChannelsKept (s u : State) : Prop where
  written : writtenChans u = writtenChans s
  ctl : ∀ n, n < 264 → chanCtl u n = chanCtl s n

theorem ChannelsKept.trans {s t u : State} (h : ChannelsKept s t) (k : ChannelsKept t u) : ChannelsKept s u :=
  ⟨k.written.trans h.written, fun n hn => (k.ctl n hn).trans (h.ctl n hn)⟩

theorem channelsKept_of_regs {s u : State} (h : u.regs = s.regs) : ChannelsKept s u :=
  ⟨by rw [writtenChans, h]; rfl, fun n _ => by rw [chanCtl, reg_congr h, reg_congr h]; rfl⟩

/-- A register below the timers or above them shows no channel. -/
theorem setReg_channelsKept (s : State) {n : RegName} (v : W32) (hn : regOff n 0 0 < 0x21000 ∨ 0x23100 ≤ regOff n 0 0) :
    ChannelsKept s (s.setReg n v) := by
  refine ⟨filterMap_kput (fun x => ?_) _ _, fun c hc => ?_⟩
  · split_ifs
    · omega
    · omega
    · rfl
  · have hoff (m : RegName) (i : Nat) (hm : 0x21000 ≤ regOff m i 0 ∧ regOff m i 0 < 0x23100) : (s.setReg n v).reg m i = s.reg m i :=
      reg_setReg_ne _ _ (by omega)
    have hctl (i : Nat) : regOff .tmrCtl i 0 = 0x21000 + 0x20 * i := by
      simp only [regOff, regRow]
      omega
    have hpctl (i : Nat) : regOff .tmrPctl i 0 = 0x22000 + 0x20 * i := by
      simp only [regOff, regRow]
      omega
    rw [chanCtl, chanCtl]
    split
    · exact hoff .tmrCtl c (by rw [hctl]; omega)
    · exact hoff .tmrPctl (c - 128) (by rw [hpctl]; omega)

/-- Nothing of registers, queues, sources, channels, losses, slots and snapshots becomes due by a change of the pairs. -/
theorem otherItems_congr {s u : State} (hchans : ChannelsKept s u)
    (hrest : u = { s with
      ntc := u.ntc, regs := u.regs, pairs := u.pairs, boot := u.boot, baristas := u.baristas, shadowQ := u.shadowQ }) :
    otherItems u = otherItems s := by
  have hnext : ∀ n ∈ writtenChans s, chanNext u n = chanNext s n := fun n hn => by
    have hctl := hchans.ctl n (writtenChans_lt hn)
    have hchan : u.chan n = s.chan n := by rw [hrest]; rfl
    unfold chanNext chanArmed chanClk chanDiv
    rw [hctl, hchan]
  have hdue : (writtenChans u).filterMap (fun n => (chanNext u n).map fun c => ((4 * c + 1, fun s => settleChan s n c) : Due)) =
      (writtenChans s).filterMap fun n => (chanNext s n).map fun c => ((4 * c + 1, fun s => settleChan s n c) : Due) := by
    rw [hchans.written]
    exact List.filterMap_congr fun n hn => by rw [hnext n hn]
  unfold otherItems
  rw [hdue, hrest]

end Sys2Proof.Machine
end

section
/-! SUPPORT. A pair that is held in reset, a pair that fails, and the start of a warm reboot (R419, R422, R441). -/

namespace Sys2Proof.Machine

/-! ### Registers of the pairs (R414, R441) -/

/-- One bit of another field than the one that is set. -/
theorem bit_setFld_ne (s : State) (n : RegName) {hi lo : Nat} (v : Nat) (h : lo ≤ hi) {c : Nat} (hc : c < 32) (hout : c < lo ∨ hi < c) :
    (s.setFld n hi lo v).bit n c = s.bit n c :=
  (bit_setFld_same s n v 0 0 h hc).trans (if_neg (by omega))

/-- One bit of BAR_STAT after a write of SYS_TAMP. -/
theorem barStat_sysTamp (s : State) (b : Nat) (v : Bool) : (s.setBit .sysTamp b v).reg .barStat = s.reg .barStat :=
  reg_setReg_ne _ _ (by decide)

theorem sysTamp_barStat (s : State) (hi lo v : Nat) : (s.setFld .barStat hi lo v).reg .sysTamp = s.reg .sysTamp :=
  reg_setReg_ne _ _ (by decide)

/-- The bit of the active pair is the field of it. -/
theorem activePair_of_bit {s u : State} (h : u.bit .barStat 0 = s.bit .barStat 0) : u.activePair = s.activePair := by
  refine fieldOf_congr fun b hlo hhi => ?_
  obtain rfl : b = 0 := by omega
  exact h

/-! ### The start of a warm reboot (R441) -/

/-- BAR_STAT and SYS_TAMP as a warm reboot begins. -/
def warmRegs (s : State) : State :=
  ((s.setFld .barStat 31 24 (min (s.fld .barStat 31 24 + 1) 0xFF)).setBit .barStat 7 true).setBit .sysTamp 0 false

theorem warmRegs_facts (s : State) :
    (∀ c, c < 24 → (warmRegs s).bit .barStat c = if c = 7 then true else s.bit .barStat c) ∧
    (warmRegs s).fld .barStat 31 24 = min (s.fld .barStat 31 24 + 1) 255 ∧ (warmRegs s).tamped = false ∧ ChannelsKept s (warmRegs s) := by
  unfold warmRegs
  generalize hx : s.setFld .barStat 31 24 (min (s.fld .barStat 31 24 + 1) 0xFF) = x
  refine ⟨fun c hc => ?_, ?_, ?_, ?_⟩
  · rw [State.bit, barStat_sysTamp]
    refine (bit_setBit_same x .barStat 7 true 0 0 (by omega)).trans (if_congr Iff.rfl rfl ?_)
    rw [← hx]
    exact bit_setFld_ne s .barStat _ (by decide) (by omega) (.inl hc)
  · rw [State.fld, barStat_sysTamp]
    refine (fld_setFld_ne x .barStat _ 0 0 (by decide) (by decide) (.inr (by decide))).trans ?_
    rw [← hx, fld_setFld_same _ _ _ _ _ (by decide) (by decide)]
    omega
  · exact bit_setBit_same _ .sysTamp 0 false 0 0 (by decide)
  · have hk (v : State) (hi lo w : Nat) : ChannelsKept v (v.setFld .barStat hi lo w) := setReg_channelsKept v _ (.inr (by decide))
    have ht (v : State) (w : Bool) : ChannelsKept v (v.setBit .sysTamp 0 w) := setReg_channelsKept v _ (.inl (by decide))
    rw [← hx]
    exact ((hk _ _ _ _).trans (hk _ _ _ _)).trans (ht _ _)

theorem warmStart_eq (s : State) (staged : Bool) (t : Nat) : warmStart s staged t =
    (((warmRegs s).setCore (.barista (warmRegs s).activePair)
      { (warmRegs s).core (.barista (warmRegs s).activePair) with hold := true, phase := .inReset, entering := none, exit := none }).setPairs
        { s.pairs with wdogAt := none }).setBoot
      { s.boot with stage := .ready, warm := true, fromStaged := staged, attempts := 0, staged := [], warmAt := some t } := rfl

/-- A core that is held in reset, no entry or exit under way. -/
def HeldIn (c d : Core) : Prop := d = { c with hold := d.hold, phase := .inReset, entering := none, exit := none }

/-- The active pair in boot state, held in reset. -/
structure WarmStarted (staged : Bool) (t : Nat) (s u : State) : Prop where
  rest : u = { s with regs := u.regs, pairs := u.pairs, boot := u.boot, baristas := u.baristas }
  chans : ChannelsKept s u
  bits : ∀ c, c < 24 → u.bit .barStat c = if c = 7 then true else s.bit .barStat c
  count : u.fld .barStat 31 24 = min (s.fld .barStat 31 24 + 1) 255
  tamped : u.tamped = false
  boot : u.boot = { s.boot with stage := .ready, warm := true, fromStaged := staged, attempts := 0, staged := [], warmAt := some t }
  pairs : u.pairs = { s.pairs with wdogAt := none }
  core : ∀ w, u.core w = s.core w ∨ w = .barista s.activePair ∧ HeldIn (s.core w) (u.core w)
  held : s.activePair < s.baristas.length → HeldIn (s.core (.barista s.activePair)) (u.core (.barista s.activePair))

theorem warmStart_started (s : State) (staged : Bool) (t : Nat) : WarmStarted staged t s (warmStart s staged t) := by
  obtain ⟨hbits, hcount, htamped, hchans⟩ := warmRegs_facts s
  have hactive : (warmRegs s).activePair = s.activePair := activePair_of_bit ((hbits 0 (by decide)).trans (if_neg (by decide)))
  have hcore (w : CoreSel) : (warmRegs s).core w = s.core w := by cases w <;> rfl
  have hwas : warmRegs s = { s with regs := (warmRegs s).regs } := rfl
  rw [warmStart_eq, hactive]
  generalize warmRegs s = v at *
  have hset (w : CoreSel) := core_setCore_cases v (.barista s.activePair) w
    { v.core (.barista s.activePair) with hold := true, phase := .inReset, entering := none, exit := none }
  refine ⟨by rw [hwas]; rfl, hchans.trans (channelsKept_of_regs rfl), hbits, hcount, htamped, rfl, rfl, fun w => ?_, fun hlen => ?_⟩
  · rcases hset w with h | ⟨rfl, h⟩
    · exact .inl (h.trans (hcore w))
    · refine .inr ⟨rfl, ?_⟩
      rw [← hcore]
      exact (congrArg (HeldIn _) h).mpr rfl
  · rw [← hcore]
    exact (congrArg (HeldIn _) (core_setCore_pair v _ (by rw [hwas]; exact hlen))).mpr rfl

/-! ### Faults of a pair (R422) -/

theorem pairFailed_of {s : State} (h0 : s.pairFailed 0 = false) (h1 : s.pairFailed 1 = false) {q : Nat} (hq : q < 2) : s.pairFailed q = false := by
  obtain rfl | rfl : q = 0 ∨ q = 1 := by omega
  · exact h0
  · exact h1

/-- A fault of the active pair outside boot state begins a takeover. -/
theorem pairFault_active {s : State} (hboot : inBoot s = false) (hwarm : s.boot.warm = false) (hstandby : s.bit .barStat 1 = true)
    (hnone : s.pairs.faultAt = none) (h0 : s.pairFailed 0 = false) (h1 : s.pairFailed 1 = false) (t : Nat) :
    pairFault s s.activePair t = (holdPair (s.setPairs { s.pairs with wdogAt := none }) s.activePair).setPairs
      { s.pairs with wdogAt := none, faultAt := some (t, s.activePair), returned := false } := by
  have ha := activePair_lt s
  have hundo : undoWarm s t = s := if_neg fun h => absurd (h.1.symm.trans hwarm) (by decide)
  have hfailed : ¬ s.pairFailed s.activePair = true := by
    rw [pairFailed_of h0 h1 ha]
    decide
  have hother : s.pairFailed (1 - s.activePair) = false := pairFailed_of h0 h1 (by omega)
  have hnotboot : ¬ (inBoot s = true ∧ (!s.boot.warm) = true ∧ (!s.boot.saved) = true) := fun h => absurd (h.1.symm.trans hboot) (by decide)
  unfold pairFault
  dsimp only
  rw [if_pos rfl, hundo, if_neg hfailed, if_neg (not_not_intro rfl), hnone, if_neg (by decide), if_neg hnotboot]
  refine if_pos ⟨hstandby, ?_⟩
  rw [Bool.not_eq_true']
  exact hother

/-- A fault of the standby leaves no standby. -/
theorem pairFault_standby {s : State} (hnone : s.pairs.faultAt = none) (h0 : s.pairFailed 0 = false) (h1 : s.pairFailed 1 = false) (t : Nat) :
    pairFault s (1 - s.activePair) t =
      (holdPair (s.setBit .barStat (2 + (1 - s.activePair)) true) (1 - s.activePair)).setBit .barStat 1 false := by
  have ha := activePair_lt s
  have hne : 1 - s.activePair ≠ s.activePair := by omega
  have hfailed : ¬ s.pairFailed (1 - s.activePair) = true := by
    rw [pairFailed_of h0 h1 (by omega)]
    decide
  unfold pairFault
  dsimp only
  rw [if_neg hne, if_neg hfailed, if_pos hne, hnone]

/-- A pair held in reset. -/
theorem holdPair_phase {s : State} (hs : s.baristas.length = 2) {q : Nat} (hq : q < 2) : ((holdPair s q).core (.barista q)).phase = .inReset := by
  rw [holdPair, core_setCore_pair _ _ (by omega)]

end Sys2Proof.Machine
end

section
/-! PROOF. Faults of the pairs, the watchdog, and the takeover (R419, R422, R423, R427). -/

namespace Sys2Proof.Machine

/-! ### Faults (R419, R422) -/

/-- What a fault of the active pair begins. -/
theorem takeover_begins {s : State} (hs : s.baristas.length = 2) (hboot : inBoot s = false) (hwarm : s.boot.warm = false)
    (hstandby : s.bit .barStat 1 = true) (hnone : s.pairs.faultAt = none) (h0 : s.pairFailed 0 = false) (h1 : s.pairFailed 1 = false) (t : Nat) :
    ((pairFault s s.activePair t).core (.barista s.activePair)).phase = .inReset ∧
    (pairFault s s.activePair t).pairs.faultAt = some (t, s.activePair) ∧ (pairFault s s.activePair t).pairs.wdogAt = none ∧
    (pairFault s s.activePair t).activePair = s.activePair := by
  rw [pairFault_active hboot hwarm hstandby hnone h0 h1]
  exact ⟨holdPair_phase (s := s.setPairs { s.pairs with wdogAt := none }) hs (activePair_lt s), rfl, rfl, rfl⟩

/-- What a fault of the standby leaves. -/
theorem standby_fails {s : State} (hs : s.baristas.length = 2) (hnone : s.pairs.faultAt = none) (h0 : s.pairFailed 0 = false)
    (h1 : s.pairFailed 1 = false) (t : Nat) :
    ((pairFault s (1 - s.activePair) t).core (.barista (1 - s.activePair))).phase = .inReset ∧
    (pairFault s (1 - s.activePair) t).pairFailed (1 - s.activePair) = true ∧ (pairFault s (1 - s.activePair) t).bit .barStat 1 = false ∧
    (pairFault s (1 - s.activePair) t).pairs = s.pairs := by
  have ha := activePair_lt s
  rw [pairFault_standby hnone h0 h1]
  generalize hq : 1 - s.activePair = q
  have hq2 : q < 2 := by omega
  have hbit {c : Nat} (hc : c < 32) : ((holdPair (s.setBit .barStat (2 + q) true) q).setBit .barStat 1 false).bit .barStat c =
      if c = 1 then false else if c = 2 + q then true else s.bit .barStat c := by
    refine (bit_setBit_same _ .barStat 1 false 0 0 hc).trans (if_congr Iff.rfl rfl ?_)
    exact bit_setBit_same s .barStat (2 + q) true 0 0 hc
  refine ⟨holdPair_phase (s := s.setBit .barStat (2 + q) true) hs hq2, ?_, (hbit (by decide)).trans (if_pos rfl), rfl⟩
  exact (hbit (by omega)).trans ((if_neg (by omega)).trans (if_pos rfl))

/-- A mismatch of a pair that runs takes back what the pair wrote, and the pair faults. -/
theorem lockstepMismatch_taken {s : State} {q : Nat} (hq : q < 2) (h : (s.core (.barista q)).phase ≠ .inReset) (t : Nat) :
    ∃ m l, lockstepMismatch s q t = pairFault { s with mem := m, shadowQ := l } q t :=
  ⟨_, _, if_neg (not_or.mpr ⟨by omega, fun hin => h hin.1⟩)⟩

/-! ### The watchdog (R427) -/

theorem wdogService_eq {s : State} (hworks : s.pairWorks = true) {w : Nat} (hw : s.pairs.wdogAt = some w) (t : Nat) :
    wdogService s .barista 0x5A t = s.setPairs { s.pairs with wdogAt := some t } := by
  refine if_pos ⟨rfl, by decide, hworks, ?_⟩
  rw [hw]
  rfl

theorem wdogService_other {s : State} {ini : Ini} (h : ini ≠ .barista) (v : W32) (t : Nat) : wdogService s ini v t = s :=
  if_neg fun hall => h hall.1

/-! ### The takeover (R423) -/

/-- BAR_STAT at the takeover of pair n from pair q. -/
def takeRegs (s : State) (q n : Nat) : State := ((s.setBit .barStat (2 + q) true).setFld .barStat 0 0 n).setBit .barStat 1 false

theorem takeRegs_facts (s : State) {q n : Nat} (hq : q < 2) (hn : n < 2) :
    (takeRegs s q n).activePair = n ∧ (takeRegs s q n).bit .barStat (2 + q) = true ∧ (takeRegs s q n).bit .barStat 1 = false ∧
    ChannelsKept s (takeRegs s q n) := by
  unfold takeRegs
  generalize hx : s.setBit .barStat (2 + q) true = x
  refine ⟨?_, ?_, ?_, ?_⟩
  · refine (fld_setFld_ne _ .barStat _ 0 0 (by decide) (by decide) (.inl (by decide))).trans ?_
    rw [fld_setFld_same _ _ _ _ _ (by decide) (by decide)]
    omega
  · refine (bit_setBit_same _ .barStat 1 false 0 0 (by omega)).trans ((if_neg (by omega)).trans ?_)
    refine (bit_setFld_ne x .barStat _ (by decide) (by omega) (.inr (by omega))).trans ?_
    rw [← hx]
    exact (bit_setBit_same s .barStat (2 + q) true 0 0 (by omega)).trans (if_pos rfl)
  · exact bit_setBit_same _ .barStat 1 false 0 0 (by decide)
  · have hk (v : State) (hi lo w : Nat) : ChannelsKept v (v.setFld .barStat hi lo w) := setReg_channelsKept v _ (.inr (by decide))
    rw [← hx]
    exact ((hk _ _ _ _).trans (hk _ _ _ _)).trans (hk _ _ _ _)

/-- What a core owes once a takeover in cycle c touched it: nothing, but for an entry that begins in that cycle. -/
def Touched (c : Nat) (d e : Core) : Prop :=
  e.bmove = d.bmove ∧ e.exit = none ∧ (e.entering = none ∨ ∃ x, e.entering = some x ∧ x.stage = 0 ∧ x.cycle0 = c)

/-- The other pair is active; nothing but its entry falls due by it. -/
structure TakenOver (c q : Nat) (s u : State) : Prop where
  rest : u = { s with regs := u.regs, pairs := u.pairs, boot := u.boot, baristas := u.baristas, shadowQ := u.shadowQ }
  chans : ChannelsKept s u
  queue : u.shadowQ = []
  fault : u.pairs.faultAt = none
  active : u.activePair = 1 - q
  failed : u.pairFailed q = true
  standby : u.bit .barStat 1 = false
  core : ∀ w, u.core w = s.core w ∨ w = .barista (1 - q) ∧ Touched (c + 64) (s.core w) (u.core w)

/-- The registers show pair q as failed and the other as active; no repeat waits. -/
def takenRegs (s : State) (q : Nat) : State := takeRegs { s.setPairs { s.pairs with faultAt := none } with shadowQ := [] } q (1 - q)

theorem takenRegs_facts (s : State) {q : Nat} (hq : q < 2) :
    (takenRegs s q).activePair = 1 - q ∧ (takenRegs s q).pairFailed q = true ∧ (takenRegs s q).bit .barStat 1 = false ∧
    ChannelsKept s (takenRegs s q) := by
  obtain ⟨hactive, hfailed, hstandby, hchans⟩ :=
    takeRegs_facts { s.setPairs { s.pairs with faultAt := none } with shadowQ := [] } hq (n := 1 - q) (by omega)
  exact ⟨hactive, hfailed, hstandby, hchans.written, hchans.ctl⟩

theorem takeOver_eq (s : State) (c q : Nat) : ∃ d e, d.bmove = ((takenRegs s q).core (.barista (1 - q))).bmove ∧
    Touched (c + 64) ((takenRegs s q).core (.barista (1 - q))) e ∧ takeOver { s with shadowQ := [] } c q =
      if inBoot (takenRegs s q) = true then warmStart ((takenRegs s q).setCore (.barista (1 - q)) d) false (c + 64)
      else ((takenRegs s q).setCore (.barista (1 - q)) e).setPairs { (takenRegs s q).pairs with wdogAt := some (c + 96) } := by
  refine ⟨_, _, ?_, ?_, rfl⟩
  · rfl
  · exact ⟨rfl, rfl, .inr ⟨_, rfl, rfl, rfl⟩⟩

theorem takeOver_taken {s : State} (hqueue : s.shadowQ = []) {q : Nat} (hq : q < 2) (c : Nat) : TakenOver c q s (takeOver s c q) := by
  obtain ⟨hactive, hfailed, hstandby, hchans⟩ := takenRegs_facts s hq
  have hs : takeOver s c q = takeOver { s with shadowQ := [] } c q := by
    rw [← hqueue]
  obtain ⟨d, e, hd, he, hstep⟩ := takeOver_eq s c q
  have hcore (w : CoreSel) : (takenRegs s q).core w = s.core w := by cases w <;> rfl
  have hrest : takenRegs s q = { s with
      regs := (takenRegs s q).regs, pairs := { s.pairs with faultAt := none }, shadowQ := [] } := rfl
  rw [hs, hstep]
  generalize takenRegs s q = v at *
  have hset (x : Core) (w : CoreSel) := core_setCore_cases v (.barista (1 - q)) w x
  split
  · have hw := warmStart_started (v.setCore (.barista (1 - q)) d) false (c + 64)
    have hbits (b : Nat) (hb : b < 24) (hne : b ≠ 7) : (warmStart (v.setCore (.barista (1 - q)) d) false (c + 64)).bit .barStat b = v.bit .barStat b :=
      (hw.bits b hb).trans (if_neg hne)
    generalize warmStart (v.setCore (.barista (1 - q)) d) false (c + 64) = u at hw hbits
    have hmid : ChannelsKept v (v.setCore (.barista (1 - q)) d) := channelsKept_of_regs rfl
    have hactive' : (v.setCore (.barista (1 - q)) d).activePair = 1 - q := hactive
    have hupairs := hw.pairs
    have hurest := hw.rest
    refine ⟨?_, (hchans.trans hmid).trans hw.chans, ?_, ?_, ?_, ?_, ?_, fun w => ?_⟩
    · rw [hurest, hrest]
      rfl
    · rw [hurest, hrest]
      rfl
    · rw [hupairs, hrest]
      rfl
    · exact (activePair_of_bit (hbits 0 (by decide) (by decide))).trans hactive
    · exact (hbits _ (by omega) (by omega)).trans hfailed
    · exact (hbits 1 (by decide) (by decide)).trans hstandby
    · have htouched (h : HeldIn ((v.setCore (.barista (1 - q)) d).core (.barista (1 - q))) (u.core (.barista (1 - q)))) :
          Touched (c + 64) (s.core (.barista (1 - q))) (u.core (.barista (1 - q))) := by
        have hmoved : ((v.setCore (.barista (1 - q)) d).core (.barista (1 - q))).bmove = (s.core (.barista (1 - q))).bmove := by
          rcases hset d (.barista (1 - q)) with h | ⟨-, h⟩
          · rw [h, hcore]
          · rw [h, hd, hcore]
        rw [h]
        exact ⟨hmoved, rfl, .inl rfl⟩
      have hheld := hw.held
      have hucore := hw.core w
      rw [hactive'] at hheld hucore
      rcases hucore with h | ⟨rfl, h⟩
      · by_cases hin : 1 - q < v.baristas.length
        · by_cases hwn : w = .barista (1 - q)
          · subst hwn
            exact .inr ⟨rfl, htouched (hheld ((List.length_set ..).symm ▸ hin))⟩
          · exact .inl (h.trans ((core_setCore_ne v d hwn).trans (hcore w)))
        · have hsame : v.setCore (.barista (1 - q)) d = v := by
            rw [State.setCore, setNth, List.set_eq_of_length_le (Nat.le_of_not_lt hin)]
          rw [hsame] at h
          exact .inl (h.trans (hcore w))
      · exact .inr ⟨rfl, htouched h⟩
  · refine ⟨?_, hchans.trans (channelsKept_of_regs rfl), ?_, ?_, hactive, hfailed, hstandby, fun w => ?_⟩
    · rw [hrest]
      rfl
    · rw [hrest]
      rfl
    · rw [hrest]
      rfl
    · rcases hset e w with h | ⟨rfl, h⟩
      · exact .inl (h.trans (hcore w))
      · refine .inr ⟨rfl, ?_⟩
        rw [← hcore]
        exact (congrArg (Touched _ _) h).mpr he

/-! ### What cores owe (R228) -/

theorem coreItems_congr {s u : State} {w : CoreSel} (h : u.core w = s.core w) : coreItems u w = coreItems s w := by
  unfold coreItems
  rw [h]

/-- A core that holds something in progress. -/
def inProgress (c : Core) : Bool := c.entering.isSome || c.exit.isSome || c.bmove.isSome || (c.missed && decide (c.phase = .waiting))

theorem mem_busySels {s : State} {w : CoreSel} (h : inProgress (s.core w) = true) : w ∈ busySels s := by
  have hpick {l : List Core} {p : Nat} (hp : inProgress (nth l p Core.reset) = true) : (nth l p Core.reset, p) ∈ (l.zipIdx).filter fun c => inProgress c.1 := by
    have hin : p < l.length := Classical.byContradiction fun hout => by
      rw [nth, List.getD_eq_default _ _ (Nat.le_of_not_lt hout)] at hp
      exact absurd hp (by decide)
    refine List.mem_filter.mpr ⟨?_, hp⟩
    rw [List.mem_zipIdx_iff_getElem?, nth, List.getElem?_eq_getElem hin, List.getD_eq_getElem _ _ hin]
  cases w with
  | eduno p => exact List.mem_append_left _ (List.mem_map.mpr ⟨_, hpick h, rfl⟩)
  | barista r => exact List.mem_append_right _ (List.mem_map.mpr ⟨_, hpick h, rfl⟩)

/-- Where the busy cores owe nothing, none owes. -/
theorem coreItems_nil {s : State} (hcores : (busySels s).flatMap (coreItems s) = []) (w : CoreSel) : coreItems s w = [] := by
  by_cases h : inProgress (s.core w) = true
  · exact List.flatMap_eq_nil_iff.mp hcores w (mem_busySels h)
  · simp only [inProgress, Bool.or_eq_true, not_or, Bool.not_eq_true, Option.isSome_eq_false_iff, Option.isNone_iff_eq_none] at h
    obtain ⟨⟨⟨hentering, hexit⟩, hbmove⟩, hmissed⟩ := h
    have hwait : ¬ ((s.core w).missed = true ∧ (s.core w).phase = .waiting) := fun h => by
      rw [h.1, h.2] at hmissed
      exact absurd hmissed (by decide)
    have hmiss : missedItems w (s.core w) = [] := by
      cases w with
      | eduno p => exact if_neg fun h => hwait ⟨h.1, h.2.1⟩
      | barista r => rfl
    unfold coreItems
    dsimp only
    rw [hentering, hexit, hbmove, hmiss]
    rfl

/-- What a core owes that a takeover touched. -/
theorem coreItems_touched {s u : State} {c n : Nat} (hnone : coreItems s (.barista n) = [])
    (h : Touched c (s.core (.barista n)) (u.core (.barista n))) : ∀ x ∈ coreItems u (.barista n), 4 * c < x.1 := by
  obtain ⟨hbmove, hexit, hentering⟩ := h
  have hstill : (s.core (.barista n)).bmove = none := by
    cases hb : (s.core (.barista n)).bmove with
    | none => rfl
    | some b =>
      unfold coreItems at hnone
      dsimp only at hnone
      rw [hb] at hnone
      simp at hnone
  rcases hentering with hnone | ⟨e, he, hstage, hcycle⟩
  · have hitems : coreItems u (.barista n) = [] := by
      unfold coreItems
      dsimp only
      simp only [hexit, hbmove, hstill, hnone, missedItems, List.append_nil]
    rw [hitems]
    exact fun x hx => absurd hx List.not_mem_nil
  · have hspan : spanItems (.barista n) (u.core (.barista n)) e = [] := if_neg fun h => absurd h.1 (by omega)
    have hitems : coreItems u (.barista n) = entryItems (.barista n) e := by
      unfold coreItems
      dsimp only
      simp only [hexit, hbmove, hstill, he, hspan, missedItems, List.nil_append, List.append_nil]
    rw [hitems]
    intro x hx
    rw [entryItems, List.mem_singleton] at hx
    have hdue : entryDue e = (c, 3) := by
      simp only [entryDue, hstage, hcycle]
    rw [hx, hdue]
    dsimp only
    omega

/-- What follows a takeover comes after its cycle. -/
theorem dueItems_takenOver {c q : Nat} {s u : State} (hother : otherItems s = []) (hcores : (busySels s).flatMap (coreItems s) = [])
    (h : TakenOver c q s u) : ∀ x ∈ dueItems u, 4 * (c + 64) < x.1 := by
  have hrest := h.rest
  have hntc : u.ntc = s.ntc := (congrArg State.ntc hrest :)
  have hnothing : otherItems u = [] := (otherItems_congr h.chans (by rw [hntc]; exact hrest)).trans hother
  have hpairs : pairItems u = [] := by
    unfold pairItems
    rw [h.fault, h.queue]
    rfl
  intro x hx
  rw [dueItems, hpairs, hnothing, List.nil_append, List.nil_append] at hx
  obtain ⟨w, -, hx⟩ := List.mem_flatMap.mp hx
  rcases h.core w with hsame | ⟨rfl, htouched⟩
  · rw [coreItems_congr hsame, coreItems_nil hcores] at hx
    cases hx
  · exact coreItems_touched (coreItems_nil hcores _) htouched x hx

/-- With the takeover alone due, it is complete in its 64th cycle. -/
theorem reach_takeOver {s : State} {c q : Nat} (hq : q < 2) (hfault : s.pairs.faultAt = some (c, q)) (hreturned : s.pairs.returned = true)
    (hone : (dueItems s).length = 1) (hearly : s.ntc ≤ c + 64) (hawake : s.power.asleep = none) :
    (reach s (c + 64)).ntc = c + 64 ∧ TakenOver c q { s with ntc := c + 64 } (reach s (c + 64)) := by
  have hpair : pairItems s = (4 * (c + 64), fun s => takeOver s c q) :: (match s.shadowQ with
      | e :: _ => [(4 * (e.2.2.2 + 64), fun s => settleShadow s (e.2.2.2 + 64))]
      | [] => []) := by
    unfold pairItems
    rw [hfault, hreturned]
    rfl
  have hlen := hone
  rw [dueItems, hpair, List.cons_append, List.cons_append, List.length_cons, List.length_append, List.length_append] at hlen
  have hqueue : s.shadowQ = [] := by
    cases hsq : s.shadowQ with
    | nil => rfl
    | cons e rest =>
      rw [hsq] at hlen
      dsimp only [List.length_cons] at hlen
      omega
  have hother : otherItems s = [] := List.eq_nil_of_length_eq_zero (by omega)
  have hcores : (busySels s).flatMap (coreItems s) = [] := List.eq_nil_of_length_eq_zero (by omega)
  have hdue : dueItems s = [(4 * (c + 64), fun s => takeOver s c q)] := by
    rw [dueItems, hpair, hother, hcores, hqueue]
    rfl
  have hmax : max s.ntc (4 * (c + 64) / 4) = c + 64 := by omega
  have htaken : TakenOver c q { s with ntc := c + 64 } (takeOver { s with ntc := c + 64 } c q) :=
    takeOver_taken (s := { s with ntc := c + 64 }) hqueue hq c
  have hafter := dueItems_takenOver (s := { s with ntc := c + 64 }) hother hcores htaken
  have hsettle (n : Nat) : settle (n + 1) (c + 64) s = takeOver { s with ntc := c + 64 } c q := by
    rw [settle, hdue, earliest]
    dsimp only [earliest]
    rw [if_pos (Nat.le_refl _), hmax, settle_rest hafter]
  obtain ⟨n, hn⟩ : ∃ n, 2 ^ 17 * (c + 64 + 2 - s.ntc) = n + 1 := ⟨2 ^ 17 * (c + 64 + 2 - s.ntc) - 1, by omega⟩
  have hpower : (takeOver { s with ntc := c + 64 } c q).power = s.power := (congrArg State.power htaken.rest :)
  have hntc : (takeOver { s with ntc := c + 64 } c q).ntc = c + 64 := (congrArg State.ntc htaken.rest :)
  have hreach : reach s (c + 64) = takeOver { s with ntc := c + 64 } c q := by
    rw [reach, hawake, if_neg (by decide), hn, hsettle]
    dsimp only
    generalize takeOver { s with ntc := c + 64 } c q = u at hntc hpower
    refine (if_neg fun h => ?_).trans ?_
    · rw [hpower] at h
      exact absurd h.1 (by simpa using h.2)
    · rw [← hntc, Nat.max_self]
  rw [hreach]
  exact ⟨hntc, htaken⟩

end Sys2Proof.Machine

namespace Sys2Proof.Proofs

open Sys2Proof.Machine

/-- Settles O40: faults of the pairs, the watchdog, and the end of a takeover. -/
theorem pairFaults : Obligations.PairFaults := by
  unfold Obligations.PairFaults
  refine ⟨fun s r t hr hs hboot hwarm hstandby hnone h0 h1 => ?_, fun s c q hq hfault hreturned hone hearly hawake => ?_⟩
  · have ha := activePair_lt r
    have hworks : r.pairWorks = true := by rw [State.pairWorks, pairFailed_of h0 h1 ha]; rfl
    have hrun (f : State → State) : (Host.Outcome.next (awake s t f) : Out) = .next (f r) := congrArg Host.Outcome.next (awake_runs hr f)
    have hpair {q : Nat} (hq : q < 2) (f : State → State) : (Host.Outcome.next (awake s t fun s => upTo 2 q s f) : Out) = .next (f r) :=
      congrArg Host.Outcome.next ((awake_runs hr _).trans (upTo_lt hq r f))
    have hservice (ini : Ini) : exec (.watchdogService t ini) s = .next (wdogService (noted r t .barWdogSvc 0) ini 0x5A t) :=
      (hrun _).trans (congrArg Host.Outcome.next (put_barWdogSvc (by decide)))
    refine ⟨fun hphase => ⟨_, hpair ha _, ?_⟩, fun hphase => ⟨_, hpair (by omega) _, ?_⟩, fun w hw => ⟨?_, ?_, fun ini hini => ?_⟩⟩
    · obtain ⟨m, l, hstep⟩ := lockstepMismatch_taken ha hphase t
      rw [hstep]
      exact takeover_begins (s := { r with mem := m, shadowQ := l }) hs.baristas hboot hwarm hstandby hnone h0 h1 t
    · obtain ⟨m, l, hstep⟩ := lockstepMismatch_taken (by omega) hphase t
      rw [hstep]
      exact standby_fails (s := { r with mem := m, shadowQ := l }) hs.baristas hnone h0 h1 t
    · have hexpiry : wdogExpiry r t = if w + wdogCycles r ≤ t ∧ (!inBoot r) = true ∧ r.pairWorks = true ∧ r.power.asleep.isNone = true then
          pairFault r r.activePair t else r := by
        rw [wdogExpiry, hw]
      split
      · next hlate =>
        have hall : w + wdogCycles r ≤ t ∧ (!inBoot r) = true ∧ r.pairWorks = true ∧ r.power.asleep.isNone = true :=
          ⟨hlate, by rw [hboot]; rfl, hworks, by rw [hr.2]; rfl⟩
        exact ⟨_, (hrun _).trans (congrArg Host.Outcome.next (hexpiry.trans (if_pos hall))),
          takeover_begins hs.baristas hboot hwarm hstandby hnone h0 h1 t⟩
      · next hearly => exact (hrun _).trans (congrArg Host.Outcome.next (hexpiry.trans (if_neg fun h => hearly h.1)))
    · exact (hservice .barista).trans (congrArg Host.Outcome.next (wdogService_eq (s := noted r t .barWdogSvc 0) hworks hw t))
    · exact (hservice ini).trans (congrArg Host.Outcome.next (wdogService_other hini _ t))
  · obtain ⟨hntc, htaken⟩ := reach_takeOver hq hfault hreturned hone hearly hawake
    exact ⟨hntc, htaken.active, htaken.failed, htaken.fault, htaken.standby⟩

end Sys2Proof.Proofs
end

section
/-! PROOF. The tamp (R437 to R439, R441). -/

namespace Sys2Proof.Machine

/-! ### The firmware starts (R437) -/

theorem startFirmware_rail (s : State) (q t : Nat) : RailOnly (s.setCore (.barista q) { Core.reset with
    phase := .running, pc := s.boot.entry, tsbr := s.reg .barTsbr, hold := false, readyAt := t }) (startFirmware s q t) :=
  presentCore_railOnly _ _ _

theorem startFirmware_pair {s : State} {q : Nat} (hq : q < s.baristas.length) (t : Nat) :
    ((startFirmware s q t).core (.barista q)).phase = .running ∧ ((startFirmware s q t).core (.barista q)).pc = s.boot.entry := by
  have hsig := (startFirmware_rail s q t).core (.barista q)
  rw [core_setCore_pair s _ hq] at hsig
  exact ⟨(congrArg Core.phase hsig :), (congrArg Core.pc hsig :)⟩

theorem startFirmware_other (s : State) (q t : Nat) {w : CoreSel} (hw : w ≠ .barista q) : PresentOnly (s.core w) ((startFirmware s q t).core w) := by
  have hsig := (startFirmware_rail s q t).core w
  rwa [core_setCore_ne s _ hw] at hsig

/-! ### What the tamp makes ready (R437, R438) -/

/-- SYS_TAMP and BAR_STAT at the tamp. -/
def tampRegs (s : State) : State := (s.setBit .sysTamp 0 true).setBit .barStat 7 false

/-- The state as the firmware starts: registers, the release of the cores, and the loader's state. -/
def tampReady (s : State) (t : Nat) : State :=
  let v := if (tampRegs s).tickMin.isNone then releaseCores (tampRegs s) t else tampRegs s
  v.setBoot { v.boot with stage := .done, warm := false, warmAt := none, staged := [], due := v.boot.staged }

/-- The firmware starts on the active pair, and on a standby. -/
def tampStarted (s : State) (t : Nat) : State :=
  let v := startFirmware s s.activePair t
  if v.bit .barStat 1 then startFirmware v (1 - s.activePair) t else v

theorem tampNow_eq (s : State) (t : Nat) : tampNow s t =
    if s.boot.warm then (tampStarted (tampReady s t) t).setPairs { (tampStarted (tampReady s t) t).pairs with wdogAt := some t }
    else tampStarted (tampReady s t) t := rfl

theorem tampStarted_facts (s : State) (t : Nat) :
    (tampStarted s t).mem = s.mem ∧ (tampStarted s t).boot = s.boot ∧ (tampStarted s t).tickMin = s.tickMin ∧
    (∀ n i j, ¬ (0x10200 ≤ regOff n i j ∧ regOff n i j < 0x10280) → (tampStarted s t).reg n i j = s.reg n i j) ∧
    (∀ p, PresentOnly (s.core (.eduno p)) ((tampStarted s t).core (.eduno p))) ∧
    (s.activePair < s.baristas.length → ((tampStarted s t).core (.barista s.activePair)).phase = .running ∧
      ((tampStarted s t).core (.barista s.activePair)).pc = s.boot.entry) := by
  have hone (v : State) (q : Nat) : (startFirmware v q t).mem = v.mem ∧ (startFirmware v q t).boot = v.boot ∧
      (startFirmware v q t).tickMin = v.tickMin ∧
      (∀ n i j, ¬ (0x10200 ≤ regOff n i j ∧ regOff n i j < 0x10280) → (startFirmware v q t).reg n i j = v.reg n i j) ∧
      (∀ p, PresentOnly (v.core (.eduno p)) ((startFirmware v q t).core (.eduno p))) := by
    have hrail := startFirmware_rail v q t
    exact ⟨(congrArg State.mem hrail.eq :), (congrArg State.boot hrail.eq :), (congrArg State.tickMin hrail.eq :), fun n i j hn => by
      rw [State.reg, hrail.regs _ hn]
      rfl, fun p => startFirmware_other v q t (by simp)⟩
  have ha := activePair_lt s
  obtain ⟨hmem, hboot, htick, hreg, hcore⟩ := hone s s.activePair
  unfold tampStarted
  dsimp only
  split
  · obtain ⟨hmem', hboot', htick', hreg', hcore'⟩ := hone (startFirmware s s.activePair t) (1 - s.activePair)
    refine ⟨hmem'.trans hmem, hboot'.trans hboot, htick'.trans htick, fun n i j hn => (hreg' n i j hn).trans (hreg n i j hn),
      fun p => (hcore p).trans (hcore' p), fun hlen => ?_⟩
    obtain ⟨hphase, hpc⟩ := startFirmware_pair hlen t
    have hpresent : PresentOnly ((startFirmware s s.activePair t).core (.barista s.activePair))
        ((startFirmware (startFirmware s s.activePair t) (1 - s.activePair) t).core (.barista s.activePair)) :=
      startFirmware_other _ _ _ fun h => by
        have := CoreSel.barista.inj h
        omega
    exact ⟨(congrArg Core.phase hpresent :).trans hphase, (congrArg Core.pc hpresent :).trans hpc⟩
  · exact ⟨hmem, hboot, htick, hreg, hcore, fun hlen => startFirmware_pair hlen t⟩

theorem tampRegs_facts (s : State) : (tampRegs s).tamped = true ∧ inBoot (tampRegs s) = false ∧
    (tampRegs s).activePair = s.activePair ∧ (∀ off, off ≠ 0x50 → off ≠ 0x80000 → kget (tampRegs s).regs off = kget s.regs off) := by
  unfold tampRegs
  have hreg (v : State) : (v.setBit .barStat 7 false).reg .sysTamp = v.reg .sysTamp := reg_setReg_ne _ _ (by decide)
  have hreg' (v : State) : (v.setBit .sysTamp 0 true).reg .barStat = v.reg .barStat := reg_setReg_ne _ _ (by decide)
  refine ⟨?_, bit_setBit_same _ .barStat 7 false 0 0 (by decide), ?_, fun off h1 h2 => ?_⟩
  · rw [State.tamped, State.bit, hreg]
    exact bit_setBit_same s .sysTamp 0 true 0 0 (by decide)
  · refine activePair_of_bit ((bit_setBit_same _ .barStat 7 false 0 0 (by decide)).trans ((if_neg (by decide)).trans ?_))
    rw [State.bit, hreg', State.bit]
  · have hoff : regOff .barStat 0 0 = 0x80000 := by decide
    have hoff' : regOff .sysTamp 0 0 = 0x50 := by decide
    refine (kget_setReg_ne _ _ (by omega)).trans (kget_setReg_ne _ _ (by omega))

/-- The pour's length with what waits does not change by registers other than TMR_POUR_CFG. -/
theorem pourLen_withPourCfg {s u : State} (hreg : u.reg .tmrPourCfg = s.reg .tmrPourCfg) (htick : u.lastTick = s.lastTick)
    (hdef : u.deferred = s.deferred) : (withPourCfg u).pourLen = (withPourCfg s).pourLen := by
  have hlen {v w : State} (h : v.reg .tmrPourCfg = w.reg .tmrPourCfg) : v.pourLen = w.pourLen := by
    rw [State.pourLen, State.pourLen, State.fld, State.fld, State.fld, State.fld, h]
  refine hlen ?_
  unfold withPourCfg
  rw [htick, hdef]
  split
  · exact hreg
  · split
    · rw [reg_setReg_same, reg_setReg_same]
    · exact hreg

/-- Cores that leave reset wait for the tick, a pour later. -/
theorem releaseCores_facts (s : State) (t : Nat) :
    (releaseCores s t).tickMin = some (t + (withPourCfg s).pourLen) ∧ tickSource (releaseCores s t) = 0 ∧
    (∀ p, p < 64 → p < s.cores.length → ((releaseCores s t).core (.eduno p)).phase = .waiting ∧ ((releaseCores s t).core (.eduno p)).user = false) ∧
    (∀ off, off ≠ 0x20F04 → kget (releaseCores s t).regs off = kget s.regs off) := by
  refine ⟨rfl, ?_, fun p hp hlen => ?_, fun off hoff => ?_⟩
  · unfold releaseCores tickSource setTickSource
    rw [fld_setFld_same _ _ _ _ _ (by decide) (by decide)]
    rfl
  · have hcore : (releaseCores s t).core (.eduno p) = { s.core (.eduno p) with phase := .waiting, user := false } := by
      change nth (s.cores.mapIdx fun p c => if p < 64 then { c with phase := .waiting, user := false } else c) p Core.reset = _
      rw [nth, List.getD_eq_getElem _ _ (by rw [List.length_mapIdx]; exact hlen), List.getElem_mapIdx, if_pos hp, State.core, nth,
        List.getD_eq_getElem _ _ hlen]
    rw [hcore]
    exact ⟨rfl, rfl⟩
  · have htmr : regOff .tmrPourStat 0 0 = 0x20F04 := by decide
    exact kget_setReg_ne _ _ (by omega)

/-- The tamp, in full. -/
structure Tamped (t : Nat) (s u : State) : Prop where
  tamped : u.tamped = true
  inBoot : inBoot u = false
  boot : u.boot = { s.boot with stage := .done, warm := false, warmAt := none, staged := [], due := s.boot.staged }
  mem : u.mem = s.mem
  fresh : s.tickMin = none → u.tickMin = some (t + (withPourCfg s).pourLen) ∧ tickSource u = 0 ∧
    ∀ p, p < 64 → p < s.cores.length → (u.core (.eduno p)).phase = .waiting ∧ (u.core (.eduno p)).user = false
  pair : s.activePair < s.baristas.length →
    (u.core (.barista s.activePair)).phase = .running ∧ (u.core (.barista s.activePair)).pc = s.boot.entry

/-- What the firmware finds as it starts. -/
theorem tampReady_facts (s : State) (t : Nat) : (tampReady s t).tamped = true ∧ Machine.inBoot (tampReady s t) = false ∧
    (tampReady s t).activePair = s.activePair ∧
    (tampReady s t).boot = { s.boot with stage := .done, warm := false, warmAt := none, staged := [], due := s.boot.staged } ∧
    (tampReady s t).mem = s.mem ∧ (tampReady s t).baristas = s.baristas ∧
    (s.tickMin = none → (tampReady s t).tickMin = some (t + (withPourCfg s).pourLen) ∧ tickSource (tampReady s t) = 0 ∧
      ∀ p, p < 64 → p < s.cores.length →
        ((tampReady s t).core (.eduno p)).phase = .waiting ∧ ((tampReady s t).core (.eduno p)).user = false) := by
  obtain ⟨htamped, hboot, hactive, hregs⟩ := tampRegs_facts s
  have hwas : tampRegs s = { s with regs := (tampRegs s).regs } := rfl
  unfold tampReady
  generalize tampRegs s = v at htamped hboot hactive hregs hwas
  have hlen : (withPourCfg v).pourLen = (withPourCfg s).pourLen := by
    have hoff : regOff .tmrPourCfg 0 0 ≠ 0x50 ∧ regOff .tmrPourCfg 0 0 ≠ 0x80000 := by decide
    refine pourLen_withPourCfg ?_ ?_ ?_
    · rw [State.reg, State.reg, hregs _ hoff.1 hoff.2]
    · rw [hwas]
    · rw [hwas]
  have htick : v.tickMin = s.tickMin := by rw [hwas]
  have hcores : v.cores = s.cores := by rw [hwas]
  dsimp only
  split
  · next hnone =>
    obtain ⟨hmin, hsource, hwait, hrel⟩ := releaseCores_facts v t
    have hrest : releaseCores v t = { v with regs := (releaseCores v t).regs, cores := (releaseCores v t).cores, tickMin := (releaseCores v t).tickMin } := rfl
    generalize releaseCores v t = w at hmin hsource hwait hrel hrest
    have hreg (n : RegName) (hn : regOff n 0 0 ≠ 0x20F04) : w.reg n = v.reg n := by rw [State.reg, State.reg, hrel _ hn]
    have hstat : w.reg .barStat = v.reg .barStat := hreg _ (by decide)
    refine ⟨?_, ?_, ?_, ?_, ?_, ?_, fun _ => ⟨hmin.trans (by rw [hlen]), hsource, fun p hp hin => hwait p hp (hcores ▸ hin)⟩⟩
    · rw [← htamped, State.tamped, State.tamped, State.bit, State.bit, ← hreg .sysTamp (by decide)]
      rfl
    · rw [← hboot, Machine.inBoot, Machine.inBoot, State.bit, State.bit, ← hstat]
      rfl
    · rw [← hactive, State.activePair, State.activePair, State.fld, State.fld, ← hstat]
      rfl
    · rw [hrest, hwas]
      rfl
    · rw [hrest, hwas]
      rfl
    · rw [hrest, hwas]
      rfl
  · next hsome =>
    refine ⟨htamped, hboot, hactive, ?_, ?_, ?_, fun hnone => absurd ?_ hsome⟩
    · rw [hwas]
      rfl
    · rw [hwas]
      rfl
    · rw [hwas]
      rfl
    · rw [htick, hnone]
      rfl

theorem tampNow_tamped (s : State) (t : Nat) : Tamped t s (tampNow s t) := by
  obtain ⟨htamped, hboot, hactive, hloader, hmem, hbars, hfresh⟩ := tampReady_facts s t
  obtain ⟨hmem', hboot', htick', hreg', hcore', hpair'⟩ := tampStarted_facts (tampReady s t) t
  have hpcOf : (tampReady s t).boot.entry = s.boot.entry := by rw [hloader]
  have hdone : Tamped t s (tampStarted (tampReady s t) t) := by
    generalize tampReady s t = v at *
    refine ⟨?_, ?_, hboot'.trans hloader, hmem'.trans hmem, fun hnone => ?_, fun hlen => ?_⟩
    · rw [State.tamped, State.bit, hreg' _ _ _ (by decide)]
      exact htamped
    · rw [Machine.inBoot, State.bit, hreg' _ _ _ (by decide)]
      exact hboot
    · obtain ⟨hmin, hsource, hwait⟩ := hfresh hnone
      refine ⟨htick'.trans hmin, ?_, fun p hp hin => ?_⟩
      · rw [tickSource, State.fld, hreg' .tmrPourStat 0 0 (by decide)]
        exact hsource
      · obtain ⟨hphase, huser⟩ := hwait p hp hin
        exact ⟨(congrArg Core.phase (hcore' p) :).trans hphase, (congrArg Core.user (hcore' p) :).trans huser⟩
    · rw [hactive, hbars] at hpair'
      obtain ⟨hphase, hpc⟩ := hpair' hlen
      exact ⟨hphase, hpc.trans hpcOf⟩
  rw [tampNow_eq]
  split
  · exact ⟨hdone.tamped, hdone.inBoot, hdone.boot, hdone.mem, hdone.fresh, hdone.pair⟩
  · exact hdone

end Sys2Proof.Machine

namespace Sys2Proof.Proofs

open Sys2Proof.Machine

/-- Settles O38: the tamp at the end of a cold boot. -/
theorem tampRow : Obligations.TampRow := by
  unfold Obligations.TampRow
  intro s r t hr hs
  have hrun : exec (.tamp t) s = .next (Machine.tampRow r t) := congrArg Host.Outcome.next (awake_runs hr _)
  have hcond : (r.boot.stage = .ready ∧ (!r.boot.warm) = true) ↔ (r.boot.stage = .ready ∧ r.boot.warm = false) := by rw [Bool.not_eq_true']
  split
  · next h =>
    have htamped := tampNow_tamped r t
    refine ⟨_, hrun.trans (congrArg Host.Outcome.next (if_pos (hcond.mpr h))), htamped.tamped, htamped.inBoot, ?_, htamped.mem, fun hnone => ?_,
      htamped.pair (hs.baristas.symm ▸ activePair_lt r)⟩
    · rw [htamped.boot]
    · obtain ⟨hmin, hsource, hwait⟩ := htamped.fresh hnone
      exact ⟨hmin, hsource, fun p hp => hwait p hp (by rw [hs.cores]; omega)⟩
  · next h => exact hrun.trans (congrArg Host.Outcome.next (if_neg fun hc => h (hcond.mp hc)))

end Sys2Proof.Proofs
end

section
/-! PROOF. Warm reboots: their start, their end with the tamp, and a source that does not verify (R441, R442, R480). -/

namespace Sys2Proof.Machine

theorem warmWrite_not {s : State} {ini : Ini} (h : ini ≠ .barista ∨ s.pairWorks = false ∨ inBoot s = true ∨ s.tamped = false) (v : W32) (t : Nat) :
    warmWrite s ini v t = s := by
  refine if_neg fun hall => ?_
  obtain ⟨hini, -, hworks, hboot, htamped⟩ := hall
  rcases h with h | h | h | h
  · exact h hini
  · exact absurd (h.symm.trans hworks) (by decide)
  · rw [h] at hboot
    exact absurd hboot (by decide)
  · exact absurd (h.symm.trans htamped) (by decide)

theorem warmWrite_taken {s : State} (hworks : s.pairWorks = true) (hboot : inBoot s = false) (htamped : s.tamped = true) {v : W32}
    (hkey : fieldOf v 31 16 = 0x7A3C) (t : Nat) : warmWrite s .barista v t = warmStart s (bitOf v.toNat 0) t :=
  if_pos ⟨rfl, hkey, hworks, by rw [hboot]; rfl, htamped⟩

/-- A source that does not verify: the cause is recorded, and the boot copy is next. -/
theorem warmFail_first {s : State} (hfirst : s.boot.attempts = 0) {cause : Nat} (hcause : cause < 16) (t : Nat) :
    (warmFail s cause t).fld .barStat 19 16 = cause ∧ (warmFail s cause t).boot.attempts = 1 ∧
    (warmFail s cause t).boot.fromStaged = false ∧ inBoot (warmFail s cause t) = inBoot s := by
  have hstep : warmFail s cause t = (s.setFld .barStat 19 16 cause).setBoot
      { s.boot with fromStaged := false, attempts := 1, staged := [], warmAt := none } := if_pos hfirst
  rw [hstep]
  refine ⟨?_, rfl, rfl, ?_⟩
  · refine (fld_setFld_same s .barStat cause 0 0 (by decide) (by decide)).trans ?_
    omega
  · exact bit_setFld_ne s .barStat cause (by decide) (by decide) (.inl (by decide))

/-- The sections of a warm reboot, applied in order: whether the bus took them all. -/
def warmApplied (s : State) (secs : List (Section × List Byte)) (t : Nat) : Bool × State :=
  secs.foldl (fun q x => if x.1.type = 1 then q else
    let y := applySection q.2 x.1 x.2 t
    (q.1 && y.1, y.2)) (true, s.setBoot { s.boot with decls := [] })

/-- A source that verifies, sections that the bus takes and checks that pass: the tamp. -/
theorem warmTamp_passes {s : State} (hwarm : s.boot.warm = true) (hboot : inBoot s = true) {vers : Option (Nat × Nat)} {m : List Byte}
    {secs : List (Section × List Byte)} (hsource : warmSource s = some (vers, m, secs))
    (hdigest : secs.all (fun x => digestOk x.1 x.2) = true) {t : Nat} (htook : (warmApplied s secs t).1 = true)
    (hchecks : loaderChecks (withStaged (warmApplied s secs t).2) = true) : ∃ v, warmTamp s t = tampNow v t := by
  have hgo : ¬ ((!s.boot.warm) = true ∨ (!inBoot s) = true) := by
    rw [hwarm, hboot]
    decide
  have hdig : ¬ (!secs.all fun x => digestOk x.1 x.2) = true := by
    rw [hdigest]
    decide
  have htk : ¬ (!(warmApplied s secs t).1) = true := by
    rw [htook]
    decide
  have hck : ¬ (!loaderChecks (withStaged (warmApplied s secs t).2)) = true := by
    rw [hchecks]
    decide
  unfold warmTamp
  rw [if_neg hgo, hsource]
  exact ⟨_, (if_neg hdig).trans ((if_neg htk).trans (if_neg hck))⟩

end Sys2Proof.Machine

namespace Sys2Proof.Proofs

open Sys2Proof.Machine

/-- Settles O42: the start of a warm reboot, its failure, and its end. -/
theorem warmReboot : Obligations.WarmReboot := by
  unfold Obligations.WarmReboot
  intro s r t hr hs
  have hrun (f : State → State) : (Host.Outcome.next (awake s t f) : Out) = .next (f r) := congrArg Host.Outcome.next (awake_runs hr f)
  have hcopy (ini : Ini) : exec (.warmRebootBootCopy t ini) s = .next (warmWrite (noted r t .barWarm 0) ini 0x7A3C0000 t) :=
    (hrun _).trans (congrArg Host.Outcome.next (put_barWarm (by decide)))
  have hstaged (ini : Ini) : exec (.warmRebootStaged t ini) s = .next (warmWrite (noted r t .barWarm 0) ini 0x7A3C0001 t) :=
    (hrun _).trans (congrArg Host.Outcome.next (put_barWarm (by decide)))
  refine ⟨fun ini h => ⟨?_, ?_⟩, fun h => ?_, fun hworks hboot htamped => ?_, fun hwarm hboot => ⟨_, hrun _, fun hnone hfirst => ?_, ?_⟩⟩
  · exact (hcopy ini).trans (congrArg Host.Outcome.next (warmWrite_not (s := noted r t .barWarm 0) h _ t))
  · exact (hstaged ini).trans (congrArg Host.Outcome.next (warmWrite_not (s := noted r t .barWarm 0) h _ t))
  · refine (hrun _).trans (congrArg Host.Outcome.next (if_pos ?_))
    rw [Bool.not_eq_true', Bool.not_eq_true']
    exact h
  · have hbegun (staged : Bool) : let u := warmStart (noted r t .barWarm 0) staged t
        u.boot.warm = true ∧ u.boot.fromStaged = staged ∧ u.boot.attempts = 0 ∧ inBoot u = true ∧ u.tamped = false ∧
        (u.core (.barista r.activePair)).phase = .inReset ∧ u.fld .barStat 31 24 = min (r.fld .barStat 31 24 + 1) 255 ∧ u.mem = r.mem := by
      have hw := warmStart_started (noted r t .barWarm 0) staged t
      have hheld : HeldIn (r.core (.barista r.activePair)) ((warmStart (noted r t .barWarm 0) staged t).core (.barista r.activePair)) :=
        hw.held (hs.baristas.symm ▸ activePair_lt r)
      intro u
      refine ⟨?_, ?_, ?_, (hw.bits 7 (by decide)).trans (if_pos rfl), hw.tamped, (congrArg Core.phase hheld :), hw.count, (congrArg State.mem hw.rest :)⟩
      all_goals rw [hw.boot]
    have htook {v : W32} (hkey : fieldOf v 31 16 = 0x7A3C) := warmWrite_taken (s := noted r t .barWarm 0) hworks hboot htamped hkey t
    refine ⟨⟨_, (hcopy .barista).trans (congrArg Host.Outcome.next (htook (by decide))), hbegun _⟩,
      _, (hstaged .barista).trans (congrArg Host.Outcome.next (htook (by decide))), hbegun _⟩
  · have hgo : ¬ ((!r.boot.warm) = true ∨ (!inBoot r) = true) := by
      rw [hwarm, hboot]
      decide
    have hstep : warmTamp r t = warmFail r 5 t := by
      unfold warmTamp
      rw [if_neg hgo, hnone]
    obtain ⟨hcause, hattempts, hfrom, hin⟩ := warmFail_first hfirst (by decide : 5 < 16) t
    rw [hstep]
    exact ⟨hcause, hattempts, hfrom, hin.trans hboot⟩
  · intro vers m secs hsource hdigest q htook hchecks
    obtain ⟨v, hv⟩ := warmTamp_passes hwarm hboot hsource hdigest htook hchecks
    have htamped := tampNow_tamped v t
    rw [hv]
    exact ⟨htamped.tamped, htamped.inBoot, by rw [htamped.boot], by rw [htamped.boot]⟩

end Sys2Proof.Proofs
end

section
/-! PROOF. The stages of a cold boot: release, choice, sections and checks (R432 to R437, R515). -/

namespace Sys2Proof.Machine

/-! ### The release of module reset (R515) -/

theorem keyRebuild_facts (s : State) (puf : Option Nat) (t : Nat) :
    (keyRebuild s puf t).mem = s.mem ∧ (keyRebuild s puf t).power = s.power := by
  have hpulse (v : State) : (pulse v 647 t).mem = v.mem ∧ (pulse v 647 t).power = v.power :=
    ⟨(pulse_signals v t (by decide)).mem, (pulse_signals v t (by decide)).power⟩
  unfold keyRebuild
  split
  · exact hpulse _
  · dsimp only
    split
    · exact hpulse _
    · exact ⟨rfl, rfl⟩

theorem resetRelease_facts {s : State} (h : s.power.resetOn = true ∧ s.power.pg = true ∧ s.bit .pwrStat 19 = false) (puf : Option Nat)
    (rng : Bool) (t : Nat) : (resetRelease s puf rng t).power.resetOn = false ∧ (resetRelease s puf rng t).boot.stage = .choice ∧
    (resetRelease s puf rng t).bit .rkpStat 2 = rng ∧ (resetRelease s puf rng t).mem = s.mem := by
  have hgo : ¬ ((!s.power.resetOn) = true ∨ (!s.power.pg) = true ∨ s.bit .pwrStat 19 = true) := by
    rw [h.1, h.2.1, h.2.2]
    decide
  obtain ⟨hmem, hpower⟩ := keyRebuild_facts (s.setPower { s.power with resetOn := false }) puf t
  unfold resetRelease
  rw [if_neg hgo]
  dsimp only
  generalize keyRebuild (s.setPower { s.power with resetOn := false }) puf t = v at hmem hpower ⊢
  exact ⟨congrArg Power.resetOn hpower, rfl, (bit_setBit_same v .rkpStat 2 rng 0 0 (by decide)).trans (if_pos rfl), hmem⟩

theorem resetRelease_waits {s : State} (h : ¬ (s.power.resetOn = true ∧ s.power.pg = true ∧ s.bit .pwrStat 19 = false)) (puf : Option Nat)
    (rng : Bool) (t : Nat) : resetRelease s puf rng t = s := by
  refine if_pos ?_
  by_cases h1 : s.power.resetOn = true
  · by_cases h2 : s.power.pg = true
    · exact .inr (.inr (by simpa using fun h3 => h ⟨h1, h2, h3⟩))
    · exact .inr (.inl (by simpa using h2))
  · exact .inl (by simpa using h1)

/-! ### The choice of an image (R432, R433) -/

theorem higherImage_some {a b : Option Nat} {x : Nat} (h : higherImage a b = some x) : x = 0 ∧ a.isSome = true ∨ x = 1 ∧ b.isSome = true := by
  unfold higherImage at h
  split at h
  · split at h
    · cases h
      exact .inr ⟨rfl, rfl⟩
    · cases h
      exact .inl ⟨rfl, rfl⟩
  · cases h
    exact .inl ⟨rfl, rfl⟩
  · cases h
    exact .inr ⟨rfl, rfl⟩
  · cases h

theorem okImage_of_goodVer {s : State} {x : Nat} (h : (goodVer s x).isSome = true) : (okImage s x).isSome = true := by
  unfold goodVer at h
  split at h
  · rwa [Option.isSome_map] at h
  · cases h

theorem okImage_of_trialVer {s : State} {x : Nat} (h : (trialVer s x).isSome = true) : (okImage s x).isSome = true := by
  unfold trialVer at h
  split at h
  · rwa [Option.isSome_map] at h
  · cases h

/-- An image that is picked is one of the two, and sound. -/
theorem pickImage_ok {s : State} {x : Nat} {trial : Bool} (h : pickImage s = some (x, trial)) : x < 2 ∧ (okImage s x).isSome = true := by
  have hfilter {v : Option Nat} {p : Nat → Bool} (hv : (v.filter p).isSome = true) : v.isSome = true := by
    cases v with
    | none => cases hv
    | some n => rfl
  unfold pickImage at h
  dsimp only at h
  split at h
  · next y hy =>
    cases h
    rcases higherImage_some hy with ⟨rfl, ht⟩ | ⟨rfl, ht⟩
    · exact ⟨by decide, okImage_of_trialVer (hfilter ht)⟩
    · exact ⟨by decide, okImage_of_trialVer (hfilter ht)⟩
  · obtain ⟨y, hy, hx⟩ := Option.map_eq_some_iff.mp h
    cases hx
    rcases higherImage_some hy with ⟨rfl, hg⟩ | ⟨rfl, hg⟩
    · exact ⟨by decide, okImage_of_goodVer hg⟩
    · exact ⟨by decide, okImage_of_goodVer hg⟩

/-- An image that is picked is next, and BAR_STAT names it. -/
theorem imageChoice_picked {s : State} (hstage : s.boot.stage = .choice) (a b : Option (List Byte)) {x : Nat} {trial : Bool}
    (hpick : pickImage (findFlash (findFlash s 0 a) 1 b) = some (x, trial)) :
    (imageChoice s a b).mem = (findFlash (findFlash s 0 a) 1 b).mem ∧ (imageChoice s a b).boot.stage = .sections ∧
    (imageChoice s a b).fld .barStat 6 6 = x ∧ (imageChoice s a b).bit .barStat 5 = trial := by
  obtain ⟨hx, hok⟩ := pickImage_ok hpick
  obtain ⟨⟨ver, sec, m⟩, hok⟩ := Option.isSome_iff_exists.mp hok
  unfold imageChoice
  rw [if_neg (not_not_intro hstage)]
  dsimp only
  generalize findFlash (findFlash s 0 a) 1 b = v at *
  simp only [hpick, hok]
  have hmem : (if trial then flashPut v x (0x10000 + triedMarks v x) 0 else v).mem = v.mem := by
    split <;> rfl
  generalize (if trial then flashPut v x (0x10000 + triedMarks v x) 0 else v) = w at hmem ⊢
  have hstat {n : RegName} (y : State) (r : W32) (hn : regOff n 0 0 ≠ 0x80000) : (y.setReg n r).reg .barStat = y.reg .barStat :=
    reg_setReg_ne _ _ (fun e => hn (e.symm.trans (by decide)))
  have hlast (y : State) (r q : W32) : ((y.setReg .barBoot r).setReg .rkpOtp q).reg .barStat = y.reg .barStat :=
    (hstat _ _ (by decide)).trans (hstat _ _ (by decide))
  have hchosen : ((w.setFld .barStat 6 6 x).setBit .barStat 5 trial).fld .barStat 6 6 = x := by
    refine (fld_setFld_ne _ .barStat _ 0 0 (by decide) (by decide) (.inr (by decide))).trans ?_
    rw [fld_setFld_same _ _ _ _ _ (by decide) (by decide)]
    omega
  have htrial : ((w.setFld .barStat 6 6 x).setBit .barStat 5 trial).bit .barStat 5 = trial :=
    (bit_setBit_same _ .barStat 5 trial 0 0 (by decide)).trans (if_pos rfl)
  generalize hy : (w.setFld .barStat 6 6 x).setBit .barStat 5 trial = y at hchosen htrial
  have hymem : y.mem = w.mem := by rw [← hy, State.setBit, State.setFld, setReg_mem, State.setFld, setReg_mem]
  refine ⟨hymem.trans hmem, rfl, ?_, ?_⟩
  · rw [← hchosen, State.fld, State.fld]
    exact congrArg (fieldOf · 6 6) (hlast y _ _)
  · rw [← htrial, State.bit, State.bit]
    exact congrArg (fun r : W32 => bitOf r.toNat 5) (hlast y _ _)

theorem imageChoice_recovers {s : State} (hstage : s.boot.stage = .choice) (a b : Option (List Byte))
    (hpick : pickImage (findFlash (findFlash s 0 a) 1 b) = none) :
    (imageChoice s a b).mem = (findFlash (findFlash s 0 a) 1 b).mem ∧ (imageChoice s a b).boot.stage = .recovery := by
  unfold imageChoice
  rw [if_neg (not_not_intro hstage)]
  dsimp only
  rw [hpick]
  exact ⟨rfl, rfl⟩

theorem findFlash_mem (s : State) (d : Nat) (bs : Option (List Byte)) : (findFlash s d bs).mem = s.mem := by
  cases bs <;> rfl

/-! ### Failures, sections and checks (R434 to R437) -/

/-- A boot that fails: the cause, and module reset. -/
theorem bootFail_facts (s : State) {cause : Nat} (hcause : cause < 16) :
    (bootFail s cause).power.resetOn = true ∧ (bootFail s cause).fld .barStat 19 16 = cause ∧ (bootFail s cause).fld .pwrStat 26 24 = 3 := by
  unfold bootFail
  dsimp only
  generalize s.setKeep _ = v
  have hreset := moduleReset_cause v (by decide : 3 < 8)
  have hpower : (moduleReset v 3).power.resetOn = true := rfl
  generalize moduleReset v 3 = w at hreset hpower
  refine ⟨hpower, ?_, ?_⟩
  · refine (fld_setFld_same w .barStat cause 0 0 (by decide) (by decide)).trans ?_
    omega
  · refine Eq.trans ?_ hreset
    exact congrArg (fieldOf · 26 24) (reg_setReg_ne w _ (by decide))

end Sys2Proof.Machine

namespace Sys2Proof.Proofs

open Sys2Proof.Machine

/-- Settles O37: each stage of a cold boot. -/
theorem bootStages : Obligations.BootStages := by
  unfold Obligations.BootStages
  refine ⟨fun s r t hr => ⟨fun puf rng => ?_, fun a b => ?_⟩, fun s r t hr => ?_⟩
  · have hrun : exec (.moduleResetRelease t puf rng) s = .next (resetRelease r puf rng t) := congrArg Host.Outcome.next (now_runs hr _)
    split
    · next h => exact ⟨_, hrun, resetRelease_facts h puf rng t⟩
    · next h => exact hrun.trans (congrArg Host.Outcome.next (resetRelease_waits h puf rng t))
  · have hrun : exec (.imageChoice t a b) s = .next (imageChoice r a b) := congrArg Host.Outcome.next (awake_runs hr _)
    have hmem : (findFlash (findFlash r 0 a) 1 b).mem = r.mem := (findFlash_mem _ _ _).trans (findFlash_mem _ _ _)
    split
    · next hstage =>
      refine ⟨_, hrun, ?_⟩
      cases hpick : pickImage (findFlash (findFlash r 0 a) 1 b) with
      | none =>
        obtain ⟨hm, hrecovery⟩ := imageChoice_recovers hstage a b hpick
        exact ⟨hm.trans hmem, hrecovery⟩
      | some y =>
        obtain ⟨x, trial⟩ := y
        obtain ⟨hm, hsections, hchosen, htrial⟩ := imageChoice_picked hstage a b hpick
        exact ⟨hm.trans hmem, hsections, hchosen, htrial⟩
    · next hstage => exact hrun.trans (congrArg Host.Outcome.next (if_pos hstage))
  · have hrun (f : State → State) : (Host.Outcome.next (awake s t f) : Out) = .next (f r) := congrArg Host.Outcome.next (awake_runs hr f)
    refine ⟨fun hstage => (hrun _).trans (congrArg Host.Outcome.next (if_pos hstage)), fun hstage hnone => ?_, fun x rest hstage htodo => ?_,
      fun hstage => (hrun _).trans (congrArg Host.Outcome.next (if_pos hstage)), fun hstage => ⟨_, hrun _, ?_⟩⟩
    · refine (hrun _).trans (congrArg Host.Outcome.next ((if_neg (not_not_intro hstage)).trans ?_))
      rw [hnone]
      rfl
    · intro bs q
      have hstep : sectionApply r t = if (!q.1) = true then bootFail q.2 2 else if (!digestOk x bs) = true then bootFail q.2 1 else
          q.2.setBoot { q.2.boot with
            todo := rest, copy := if x.warm then q.2.boot.copy ++ bs else q.2.boot.copy
            stage := if rest.isEmpty then .checks else .sections } := by
        refine (if_neg (not_not_intro hstage)).trans ?_
        rw [htodo]
      refine ⟨_, (hrun _).trans (congrArg Host.Outcome.next hstep), ?_⟩
      simp only [Bool.not_eq_true']
      split
      · exact bootFail_facts _ (by decide)
      · split
        · exact bootFail_facts _ (by decide)
        · refine ⟨rfl, ?_, rfl, rfl⟩
          cases rest <;> rfl
    · have hstep : checksRun r t = if loaderChecks r = true then
          (saveCopy r r.boot.manifest r.boot.copy t).setBoot { (saveCopy r r.boot.manifest r.boot.copy t).boot with stage := .ready }
          else bootFail r 3 := if_neg (not_not_intro hstage)
      rw [hstep]
      split
      · exact ⟨rfl, rfl⟩
      · exact bootFail_facts _ (by decide)

end Sys2Proof.Proofs
end

section
/-! PROOF. Spare cores: commands to take over, retirement and the copy (R470 to R473; log entry 19). -/

namespace Sys2Proof.Machine

/-! ### SYS_SPARE_STAT (R471) -/

/-- From s to u registers changed, and none of the lower fields of SYS_SPARE_STAT. -/
structure SpareLow (s u : State) : Prop where
  rest : u = { s with regs := u.regs }
  low : ∀ b, b < 23 → u.bit .sysSpareStat b = s.bit .sysSpareStat b

namespace SpareLow

variable {s t u : State}

theorem refl (s : State) : SpareLow s s := ⟨rfl, fun _ _ => rfl⟩

theorem trans (h : SpareLow s t) (k : SpareLow t u) : SpareLow s u where
  rest := by
    have hk := k.rest
    rw [h.rest] at hk
    exact hk
  low b hb := (k.low b hb).trans (h.low b hb)

theorem of_setBit (s : State) {b : Nat} (hb : 23 ≤ b) (v : Bool) : SpareLow s (s.setBit .sysSpareStat b v) :=
  ⟨rfl, fun c hc => (bit_setBit_same s .sysSpareStat b v 0 0 (by omega)).trans (if_neg (by omega))⟩

theorem of_map (s : State) (hi lo v : Nat) : SpareLow s (s.setFld .sysSpareMap hi lo v) :=
  ⟨rfl, fun c _ => congrArg (fun w : W32 => bitOf w.toNat c) (reg_setReg_ne s _ (by decide))⟩

theorem foldl {α : Type} {f : State → α → State} (hf : ∀ u x, SpareLow u (f u x)) (l : List α) (s : State) : SpareLow s (l.foldl f s) :=
  List.foldlRecOn l f (motive := fun u => SpareLow s u) (refl s) fun u hu x _ => hu.trans (hf u x)

theorem fld (h : SpareLow s u) {hi lo : Nat} (hhi : hi < 23) : u.fld .sysSpareStat hi lo = s.fld .sysSpareStat hi lo :=
  fieldOf_congr fun b _ hb => h.low b (by omega)

end SpareLow

/-- What is shown of the queue, the copier and the spares. -/
theorem spareShow_low (s : State) : SpareLow (s.setFld .sysSpareStat 22 20 s.service.spareQ.length) (spareShow s) := by
  unfold spareShow
  dsimp only
  refine (SpareLow.of_setBit _ (by decide) _).trans (.foldl (fun u j => ?_) _ _)
  split
  · exact (SpareLow.of_setBit _ (by omega) _).trans (.of_map _ _ _ _)
  · exact (SpareLow.of_setBit _ (by omega) _).trans (.of_map _ _ _ _)

theorem spareShow_only (s : State) : spareShow s = { s with regs := (spareShow s).regs } := by
  have h := (spareShow_low s).rest
  obtain ⟨rs, hrs⟩ := setFld_only s .sysSpareStat 22 20 s.service.spareQ.length 0
  rw [hrs] at h
  exact h

theorem core_of_regs {s u : State} (h : u = { s with regs := u.regs }) (w : CoreSel) : u.core w = s.core w := by
  rw [h]
  cases w <;> rfl

/-! ### Commands (R470 to R472) -/

/-- Whether a core waits for a spare, or is being copied. -/
def spareWaits (s : State) (l : Nat) : Prop := s.service.spareQ.any (fun e => decide (e.1 = l)) = true ∨ ∃ k, s.takeover = some k ∧ k.l = l

theorem takeOverRequest_eq {s : State} (hworks : s.pairWorks = true) (l t : Nat) : ∃ c : Bool, (c = true ↔ spareWaits s l) ∧
    takeOverRequest s .barista l t = if c then spareResult s 0 else if 4 ≤ s.service.spareQ.length then spareResult s 1
      else spareShow (spareResult (s.setService { s.service with spareQ := s.service.spareQ ++ [(l, t)] }) 0) := by
  refine ⟨_, ?_, if_neg ?_⟩
  · rw [Bool.or_eq_true, spareWaits]
    refine or_congr_right ?_
    cases s.takeover with
    | none => simp
    | some k => simp
  · rw [hworks]
    simp

theorem spareResult_fld (s : State) {v : Nat} (hv : v < 8) : (spareResult s v).fld .sysSpareStat 19 17 = v := by
  refine (fld_setFld_same s .sysSpareStat v 0 0 (by decide) (by decide)).trans ?_
  omega

/-- A command of the active pair: waits already, is one too many, or joins. -/
theorem takeOverRequest_facts {s : State} (hworks : s.pairWorks = true) (l t : Nat) :
    let u := takeOverRequest s .barista l t
    u.mem = s.mem ∧ u.takeover = s.takeover ∧
    (spareWaits s l → u.service = s.service ∧ u.fld .sysSpareStat 19 17 = 0) ∧
    (¬ spareWaits s l → 4 ≤ s.service.spareQ.length → u.service = s.service ∧ u.fld .sysSpareStat 19 17 = 1) ∧
    (¬ spareWaits s l → s.service.spareQ.length < 4 → u.service = { s.service with spareQ := s.service.spareQ ++ [(l, t)] } ∧
      u.fld .sysSpareStat 19 17 = 0 ∧ u.fld .sysSpareStat 22 20 = s.service.spareQ.length + 1) := by
  obtain ⟨c, hc, hstep⟩ := takeOverRequest_eq hworks l t
  intro u
  have hu : u = _ := hstep
  clear_value u
  by_cases hwaits : spareWaits s l
  · rw [if_pos (hc.mpr hwaits)] at hu
    rw [hu]
    exact ⟨rfl, rfl, fun _ => ⟨rfl, spareResult_fld s (by decide)⟩, fun h => absurd hwaits h, fun h => absurd hwaits h⟩
  · rw [if_neg (fun h => hwaits (hc.mp h))] at hu
    by_cases hfull : 4 ≤ s.service.spareQ.length
    · rw [if_pos hfull] at hu
      rw [hu]
      exact ⟨rfl, rfl, fun h => absurd h hwaits, fun _ _ => ⟨rfl, spareResult_fld s (by decide)⟩, fun _ h => absurd h (by omega)⟩
    · rw [if_neg hfull] at hu
      have hlow := spareShow_low (spareResult (s.setService { s.service with spareQ := s.service.spareQ ++ [(l, t)] }) 0)
      have hlen : (spareResult (s.setService { s.service with spareQ := s.service.spareQ ++ [(l, t)] }) 0).service.spareQ.length =
          s.service.spareQ.length + 1 := List.length_append
      have hres := spareResult_fld (s.setService { s.service with spareQ := s.service.spareQ ++ [(l, t)] }) (by decide : 0 < 8)
      have hrest : spareResult (s.setService { s.service with spareQ := s.service.spareQ ++ [(l, t)] }) 0 = { s with
        service := { s.service with spareQ := s.service.spareQ ++ [(l, t)] }
        regs := (spareResult (s.setService { s.service with spareQ := s.service.spareQ ++ [(l, t)] }) 0).regs } := rfl
      generalize spareResult (s.setService { s.service with spareQ := s.service.spareQ ++ [(l, t)] }) 0 = v at *
      rw [← hu] at hlow
      rw [hlen] at hlow
      have hurest := hlow.rest
      refine ⟨?_, ?_, fun h => absurd h hwaits, fun _ h => absurd h hfull, fun _ _ => ⟨?_, ?_, ?_⟩⟩
      · rw [hurest, hrest]
        rfl
      · rw [hurest, hrest]
        rfl
      · rw [hurest, hrest]
        rfl
      · refine (hlow.fld (by decide)).trans ?_
        exact (fld_setFld_ne v .sysSpareStat _ 0 0 (by decide) (by decide) (.inl (by decide))).trans hres
      · refine (hlow.fld (by decide)).trans ?_
        refine (fld_setFld_same v .sysSpareStat _ 0 0 (by decide) (by decide)).trans ?_
        omega

/-- A spare that serves, or that the copier fills. -/
def spareUsed (s : State) (j : Nat) : Prop := (∃ k, s.takeover = some k ∧ k.s = 64 + j) ∨ ∃ l, s.lcoreOf (64 + j) = some l

theorem retireSpare_eq (s : State) (j : Nat) : ∃ c : Bool, (c = true ↔ spareUsed s j) ∧
    retireSpare s j = if c then s else spareResult (s.setBit .sysCfail j true 2) 0 := by
  refine ⟨_, ?_, rfl⟩
  rw [Bool.or_eq_true, spareUsed, Option.isSome_iff_exists]
  refine or_congr_left ?_
  cases s.takeover with
  | none => simp
  | some k => simp

theorem retired_facts (s : State) {j : Nat} (hj : j < 4) :
    let u := spareResult (s.setBit .sysCfail j true 2) 0
    u.bit .sysCfail j 2 = true ∧ u.fld .sysSpareStat 19 17 = 0 ∧ u.mem = s.mem := by
  refine ⟨?_, spareResult_fld _ (by decide), rfl⟩
  have hbit : (s.setBit .sysCfail j true 2).bit .sysCfail j 2 = true := (bit_setBit_same s .sysCfail j true 2 0 (by omega)).trans (if_pos rfl)
  refine Eq.trans ?_ hbit
  exact congrArg (fun w : W32 => bitOf w.toNat j) (reg_setReg_ne _ _ (by decide))

/-! ### The copy (R473) -/

/-- Memory, the copier and what the cores run stay: entries may be presented. -/
structure CopyKept (s u : State) : Prop where
  mem : u.mem = s.mem
  takeover : u.takeover = s.takeover
  core : ∀ w, PresentOnly (s.core w) (u.core w)

namespace CopyKept

variable {s t u : State}

theorem refl (s : State) : CopyKept s s := ⟨rfl, rfl, fun _ => rfl⟩

theorem trans (h : CopyKept s t) (k : CopyKept t u) : CopyKept s u :=
  ⟨k.mem.trans h.mem, k.takeover.trans h.takeover, fun w => (h.core w).trans (k.core w)⟩

theorem of_regs (h : u = { s with regs := u.regs, chans := u.chans }) : CopyKept s u := by
  rw [h]
  exact ⟨rfl, rfl, fun w => by cases w <;> rfl⟩

theorem foldl {α : Type} {f : State → α → State} (hf : ∀ u x, CopyKept u (f u x)) (l : List α) (s : State) : CopyKept s (l.foldl f s) :=
  List.foldlRecOn l f (motive := fun u => CopyKept s u) (refl s) fun u hu x _ => hu.trans (hf u x)

theorem of_setReg (s : State) (n : RegName) (v : W32) (i j : Nat) : CopyKept s (s.setReg n v i j) := of_regs rfl

theorem of_timers {l : List Nat} (h : TimersOnly l s u) : CopyKept s u :=
  ⟨(congrArg State.mem h.eq :), (congrArg State.takeover h.eq :), h.core⟩

end CopyKept

theorem copyChan_kept' (s : State) (t : Nat) {a : Nat} (ha : a < 264) (b : Nat) : CopyKept s (copyChan s t a b) := by
  unfold copyChan
  dsimp only
  refine (CopyKept.of_timers (settleChan_timersOnly s t ha)).trans (.trans ?_ (.of_regs rfl))
  exact .foldl (fun u n => .of_setReg u n _ _ _) _ _

/-- With no error in memory the copy of the memories is a plain one. -/
theorem copyErrors_clean {s : State} (hclean : s.memErr = []) (t p sp : Nat) :
    copyErrors s t p sp = copyRange s (coreBase + 0x100000 * p) (coreBase + 0x100000 * sp) 0xA0000 := by
  unfold copyErrors
  rw [hclean]
  rfl

/-- The spare with the state of the failing core. -/
def copied (s : State) (p sp : Nat) : State :=
  let c := s.core (.eduno p)
  let own := s.core (.eduno sp)
  s.setCore (.eduno sp) { c with
    phase := .inReset, sends := own.sends, stbuf := own.stbuf, stNext := own.stNext, carU := none, carS := none, rcvU := none
    rcvS := none, staged := [], old := [], entering := none, exit := none, ovrForce := true }

/-- The registers of the failing core and of its own timer channels, carried over. -/
def carried (s : State) (t p sp : Nat) : State :=
  let s := copiedRegs.foldl (fun s n => (List.range (regRow n).n2).foldl (fun s j => s.setReg n (s.reg n p j) sp j) s) s
  let s := privateRail.foldl (fun s n => s.setReg n (s.reg n p) sp) s
  copyChan (copyChan s t (128 + 2 * p) (128 + 2 * sp)) t (129 + 2 * p) (129 + 2 * sp)

theorem carried_kept (s : State) (t : Nat) {p : Nat} (hp : p < 68) (sp : Nat) : CopyKept s (carried s t p sp) := by
  unfold carried
  dsimp only
  refine (CopyKept.trans ?_ (copyChan_kept' _ t (by omega) _)).trans (copyChan_kept' _ t (by omega) _)
  refine .trans ?_ (.foldl (fun u n => .of_setReg u n _ _ _) _ _)
  exact .foldl (fun u n => .foldl (fun v j => .of_setReg v n _ _ _) _ _) _ _

theorem takeOverCopied_eq {s : State} {k : Takeover} (hk : s.takeover = some k) (hdue : ¬ (k.copied = true ∨ t < k.t0 * s.pourLen + 10923)) :
    takeOverCopied s t =
      spareShow { carried (copied (copyErrors s t k.p k.s) k.p k.s) t k.p k.s with takeover := some { k with copied := true } } := by
  rw [takeOverCopied, hk]
  exact if_neg hdue

theorem copyRange_core (s : State) (src dst n : Nat) (w : CoreSel) : (copyRange s src dst n).core w = s.core w := by
  cases w <;> rfl

theorem copyRange_cores (s : State) (src dst n : Nat) : (copyRange s src dst n).cores = s.cores := rfl

/-- The spare as the copy ends, memory apart. -/
theorem filled_facts {v : State} {k : Takeover} (hp : k.p < 68) (hs : k.s < v.cores.length) (t : Nat) :
    let u := spareShow { carried (copied v k.p k.s) t k.p k.s with takeover := some { k with copied := true } }
    u.mem = v.mem ∧ u.takeover = some { k with copied := true } ∧
    (u.core (.eduno k.s)).g = (v.core (.eduno k.p)).g ∧ (u.core (.eduno k.s)).a = (v.core (.eduno k.p)).a ∧
    (u.core (.eduno k.s)).acc = (v.core (.eduno k.p)).acc ∧ (u.core (.eduno k.s)).pc = (v.core (.eduno k.p)).pc := by
  have hcarried := carried_kept (copied v k.p k.s) t hp k.s
  generalize carried (copied v k.p k.s) t k.p k.s = w at hcarried ⊢
  have hshown := spareShow_only { w with takeover := some { k with copied := true } }
  have hucore : (spareShow { w with takeover := some { k with copied := true } }).core (.eduno k.s) = w.core (.eduno k.s) :=
    core_of_regs hshown _
  have hkept := hcarried.core (.eduno k.s)
  rw [copied, core_setCore_same v _ hs] at hkept
  have hcore := hucore.trans hkept
  exact ⟨(congrArg State.mem hshown :).trans hcarried.mem, (congrArg State.takeover hshown :), (congrArg Core.g hcore :),
    (congrArg Core.a hcore :), (congrArg Core.acc hcore :), (congrArg Core.pc hcore :)⟩

end Sys2Proof.Machine

namespace Sys2Proof.Proofs

open Sys2Proof.Machine

/-- Settles O46: spares are asked for, retired and filled. -/
theorem spares : Obligations.Spares := by
  unfold Obligations.Spares
  intro s r t hr
  have hrun {n i : Nat} (hi : i < n) (f : State → State) : (Host.Outcome.next (awake s t fun s => upTo n i s f) : Out) = .next (f r) :=
    congrArg Host.Outcome.next ((awake_runs hr _).trans (upTo_lt hi r f))
  have hcopy : exec (.takeoverCopyComplete t) s = .next (takeOverCopied r t) := congrArg Host.Outcome.next (awake_runs hr _)
  refine ⟨fun ini l hl => ?_, fun ini j hj => ?_, fun hnone => hcopy.trans (congrArg Host.Outcome.next ?_), fun k hk hp hsp hs hclean => ?_⟩
  · have hword : ∀ l < 64, reservedIn .sysSpareCmd 0 (BitVec.ofNat 32 (0x40 + l)).toNat = false ∧
        fieldOf (BitVec.ofNat 32 (0x40 + l)) 7 6 = 1 ∧ fieldOf (BitVec.ofNat 32 (0x40 + l)) 5 0 = l := by decide
    obtain ⟨hres, hop, hcore⟩ := hword l hl
    have hstep : exec (.takeOver t ini l) s = .next (takeOverRequest (noted r t .sysSpareCmd 0) ini l t) := by
      refine (hrun hl _).trans (congrArg Host.Outcome.next ((put_sysSpareCmd hres).trans ?_))
      unfold spareWrite
      simp only [hop, hcore]
    refine ⟨fun hother => hstep.trans (congrArg Host.Outcome.next (if_pos ?_)), fun hini hworks => ⟨_, hstep, ?_⟩⟩
    · rw [Bool.not_eq_true']
      exact hother
    · subst hini
      exact takeOverRequest_facts (s := noted r t .sysSpareCmd 0) hworks l t
  · have hword : ∀ j < 4, reservedIn .sysSpareCmd 0 (BitVec.ofNat 32 (0x80 + j)).toNat = false ∧
        fieldOf (BitVec.ofNat 32 (0x80 + j)) 7 6 = 2 ∧ fieldOf (BitVec.ofNat 32 (0x80 + j)) 1 0 = j := by decide
    obtain ⟨hres, hop, hspare⟩ := hword j hj
    obtain ⟨c, hc, hretire⟩ := retireSpare_eq (noted r t .sysSpareCmd 0) j
    have hstep : exec (.retireSpare t ini j) s = .next (retireSpare (noted r t .sysSpareCmd 0) j) := by
      refine (hrun hj _).trans (congrArg Host.Outcome.next ((put_sysSpareCmd hres).trans ?_))
      unfold spareWrite
      simp only [hop, hspare]
    rw [hretire] at hstep
    refine ⟨fun hused => hstep.trans (congrArg Host.Outcome.next (if_pos (hc.mpr hused))), fun hfree => ⟨_, hstep, ?_⟩⟩
    rw [if_neg fun h => hfree (hc.mp h)]
    exact retired_facts _ hj
  · rw [takeOverCopied, hnone]
  · split
    · next hnot =>
      refine hcopy.trans (congrArg Host.Outcome.next ?_)
      rw [takeOverCopied, hk]
      exact if_pos hnot
    · next hdue =>
      refine ⟨_, hcopy.trans (congrArg Host.Outcome.next (takeOverCopied_eq hk hdue)), ?_⟩
      have hmemory := memGet_copyRange hs.mem (coreBase + 0x100000 * k.p) (coreBase + 0x100000 * k.s) 0xA0000
      have hcores := copyRange_core r (coreBase + 0x100000 * k.p) (coreBase + 0x100000 * k.s) 0xA0000
      have hlen := congrArg List.length (copyRange_cores r (coreBase + 0x100000 * k.p) (coreBase + 0x100000 * k.s) 0xA0000)
      rw [copyErrors_clean hclean]
      generalize copyRange r (coreBase + 0x100000 * k.p) (coreBase + 0x100000 * k.s) 0xA0000 = v at hmemory hcores hlen ⊢
      obtain ⟨hmem, htaken, hcore⟩ := filled_facts hp (by rw [hlen, hs.cores]; exact hsp) t
      rw [hcores] at hcore
      refine ⟨htaken, fun i hi => ?_, fun a ha => ?_, hcore⟩
      · have hsub : coreBase + 0x100000 * k.p + (coreBase + 0x100000 * k.s + i - (coreBase + 0x100000 * k.s)) =
            coreBase + 0x100000 * k.p + i := by omega
        rw [hmem, hmemory, if_pos (by omega), hsub]
      · rw [hmem, hmemory, if_neg ha]

end Sys2Proof.Proofs
end

section
/-! SUPPORT. A DRAM line and one error in it: its units, the change of bits, the correction and the record (R205, R211, R543). -/

namespace Sys2Proof.Machine

/-! ### Bytes written as they are -/

theorem memSet_memGet {m : List Host.Cell} {lo : Nat} (h : wfFrom lo m = true) (a : Nat) : memSet m a (memGet m a) = m := by
  induction m generalizing lo with
  | nil => rfl
  | cons c rest ih =>
    obtain ⟨k, v⟩ := c
    obtain ⟨⟨-, hv⟩, hrest⟩ := wfFrom_cons.1 h
    by_cases hk : k = a
    · have hget : memGet ((k, v) :: rest) a = v := by rw [memGet, kget, if_pos hk]; rfl
      rw [hget, memSet, if_neg hv, kput, if_neg (by omega), if_pos hk, hk]
    · by_cases hlt : a < k
      · have hget : memGet ((k, v) :: rest) a = memDefault := by rw [memGet, kget, if_neg hk, if_pos hlt]; rfl
        rw [hget, memSet, if_pos rfl, kdel, if_neg hk, if_pos hlt]
      · have hget : memGet ((k, v) :: rest) a = memGet rest a := by rw [memGet, kget, if_neg hk, if_neg hlt, memGet]
        have hset := ih hrest
        rw [memSet] at hset
        rw [hget, memSet, kdel, kput, if_neg hk, if_neg hlt, if_neg hlt, if_neg hk]
        split
        · next hb => rw [if_pos hb] at hset; rw [hset]
        · next hb => rw [if_neg hb] at hset; rw [hset]

theorem memWrite_memRead {m : List Host.Cell} (h : Memory.wf m = true) (a n : Nat) : memWrite m a (memRead m a n) = m := by
  induction n generalizing a with
  | zero => rfl
  | succ n ih => rw [memRead, memWrite, memSet_memGet h, ih]

/-! ### The units of a line (R204) -/

theorem unitOf_dram {a : Nat} (ha : a < 0x200000000) : unitOf a = (a - a % 8, 8) := by
  unfold unitOf
  rw [regionOf, if_pos ha]

theorem unitsOf_same {u : Nat} {n : Nat} {rest : List Nat} (a : Nat) (ha : (unitOf a).1 = u) (h : unitsOf (a + 1) n = u :: rest) :
    unitsOf a (n + 1) = u :: rest := by
  rw [unitsOf, h, ha]
  exact if_pos rfl

/-- Whole units of DRAM, one by one. -/
theorem unitsOf_whole (n : Nat) : ∀ q, 8 * (q + n) ≤ 0x200000000 → unitsOf (8 * q) (8 * n) = (List.range n).map fun i => 8 * (q + i) := by
  induction n with
  | zero => exact fun _ _ => rfl
  | succ n ih =>
    intro q hq
    have hunit (i : Nat) (hi : i < 8) : (unitOf (8 * q + i)).1 = 8 * q := by
      rw [unitOf_dram (by omega)]
      dsimp only
      omega
    have hrest : unitsOf (8 * q + 7 + 1) (8 * n) = (List.range n).map fun i => 8 * (q + 1 + i) := ih (q + 1) (by omega)
    have hhead : (unitsOf (8 * q + 7 + 1) (8 * n)).head? ≠ some (8 * q) := by
      rw [hrest]
      cases n with
      | zero => exact fun h => by cases h
      | succ n =>
        rw [List.range_succ_eq_map, List.map_cons, List.head?_cons]
        exact fun h => by
          have := Option.some.inj h
          omega
    have hlast : unitsOf (8 * q + 7) (8 * n + 1) = 8 * q :: unitsOf (8 * q + 7 + 1) (8 * n) := by
      rw [unitsOf, hunit 7 (by decide)]
      exact if_neg hhead
    have hall : unitsOf (8 * q) (8 * n + 1 + 1 + 1 + 1 + 1 + 1 + 1 + 1) = 8 * q :: unitsOf (8 * q + 7 + 1) (8 * n) :=
      unitsOf_same _ (hunit 0 (by decide)) <| unitsOf_same _ (hunit 1 (by decide)) <| unitsOf_same _ (hunit 2 (by decide)) <|
      unitsOf_same _ (hunit 3 (by decide)) <| unitsOf_same _ (hunit 4 (by decide)) <| unitsOf_same _ (hunit 5 (by decide)) <|
      unitsOf_same _ (hunit 6 (by decide)) hlast
    rw [show 8 * (n + 1) = 8 * n + 1 + 1 + 1 + 1 + 1 + 1 + 1 + 1 from rfl, hall, hrest, List.range_succ_eq_map, List.map_cons, List.map_map]
    refine congrArg (8 * q :: ·) (List.map_congr_left fun i _ => ?_)
    show 8 * (q + 1 + i) = 8 * (q + (i + 1))
    omega

/-- The units of a line of DRAM: each once, and the one that holds an address of it among them. -/
theorem unitsOf_line {a : Nat} (ha : a < 0x200000000) :
    (unitsOf (64 * (a / 64)) 64).Nodup ∧ a - a % 8 ∈ unitsOf (64 * (a / 64)) 64 := by
  have h : unitsOf (64 * (a / 64)) 64 = (List.range 8).map fun i => 8 * (8 * (a / 64) + i) := by
    have := unitsOf_whole 8 (8 * (a / 64)) (by omega)
    rwa [show 8 * (8 * (a / 64)) = 64 * (a / 64) by omega] at this
  rw [h]
  constructor
  · refine List.nodup_range.map fun i j hij => ?_
    omega
  · refine List.mem_map.mpr ⟨a / 8 % 8, List.mem_range.mpr (Nat.mod_lt _ (by decide)), ?_⟩
    omega

/-! ### One error (R543) -/

/-- A unit found in error with its data as they were. -/
theorem upset_dram {s : State} (hm : Memory.wf s.mem = true) (hclean : s.memErr = []) {a : Nat} (ha : a < 0x200000000) :
    upset s ⟨a, .correctable, 0⟩ = { s with memErr := [(a - a % 8, false)] } ∧
    upset s ⟨a, .uncorrectable, 0⟩ = { s with memErr := [(a - a % 8, true)] } := by
  have hdata : memWrite s.mem (a - a % 8) (toBytesLE 8 (BitVec.ofNat (8 * 8) (memNat s.mem (a - a % 8) 8) ^^^ BitVec.ofNat (8 * 8) 0).toNat) = s.mem := by
    have hlt : memNat s.mem (a - a % 8) 8 < 2 ^ (8 * 8) := by
      have := ofBytesLE_lt (memRead s.mem (a - a % 8) 8)
      rw [length_memRead] at this
      exact this
    have hback := toBytesLE_ofBytesLE (memRead s.mem (a - a % 8) 8)
    rw [length_memRead] at hback
    rw [BitVec.xor_zero, BitVec.toNat_ofNat, Nat.mod_eq_of_lt hlt, memNat, hback, memWrite_memRead hm]
  unfold upset
  rw [unitOf_dram ha, hclean]
  dsimp only
  rw [hdata]
  exact ⟨rfl, rfl⟩

theorem kget_single (u x : Nat) (v : Bool) : kget [(u, v)] x = if u = x then some v else none := by
  rw [kget]
  split
  · rfl
  · rw [kget_nil, ite_self]

theorem correctUnits_one {s : State} {u : Nat} (herr : s.memErr = [(u, false)]) {us : List Nat} (hnodup : us.Nodup) (hmem : u ∈ us) (t : Nat)
    (hafter : (corrected s t u).memErr = []) : correctUnits s t us = corrected s t u := by
  induction us with
  | nil => cases hmem
  | cons x rest ih =>
    obtain ⟨hx, hrest⟩ := List.nodup_cons.mp hnodup
    have herrx : unitErr s x = if u = x then some false else none := by rw [unitErr, herr, kget_single]
    by_cases hux : u = x
    · subst hux
      rw [if_pos rfl] at herrx
      have hstep : correctUnits s t (u :: rest) = correctUnits (corrected s t u) t rest :=
        congrArg (fun v => rest.foldl _ v) (if_pos herrx)
      rw [hstep, correctUnits_clean hafter]
    · rw [if_neg hux] at herrx
      have hstep : correctUnits s t (x :: rest) = correctUnits s t rest :=
        congrArg (fun v => rest.foldl _ v) (if_neg (by rw [herrx]; simp))
      rw [hstep]
      exact ih hrest ((List.mem_cons.mp hmem).resolve_left hux)

/-- Nothing is corrected of a unit that cannot be. -/
theorem correctUnits_none {s : State} {u : Nat} (herr : s.memErr = [(u, true)]) (us : List Nat) (t : Nat) : correctUnits s t us = s := by
  have hnot (x : Nat) : ¬ unitErr s x = some false := by
    rw [unitErr, herr, kget_single]
    split <;> simp
  unfold correctUnits
  induction us with
  | nil => rfl
  | cons x rest ih => rw [List.foldl_cons, if_neg (hnot x), ih]

theorem badUnits_one {s : State} {u : Nat} (herr : s.memErr = [(u, true)]) {us : List Nat} (hnodup : us.Nodup) (hmem : u ∈ us) :
    badUnits s us = [u] := by
  have hbad (x : Nat) : decide (unitErr s x = some true) = (x == u) := by
    rw [unitErr, herr, kget_single]
    by_cases h : u = x
    · simp [h]
    · rw [if_neg h]
      simp only [reduceCtorEq, decide_false]
      exact (beq_false_of_ne (Ne.symm h)).symm
  rw [badUnits]
  simp only [hbad]
  rw [List.filter_beq, List.count_eq_one_of_mem hnodup hmem]
  rfl

/-! ### Counted events leave the scrubber's pass (R484) -/

theorem foldl_scrubbed {α : Type} {f : State → α → State} (hf : ∀ u x, (f u x).service.scrubbed = u.service.scrubbed) (l : List α) (s : State) :
    (l.foldl f s).service.scrubbed = s.service.scrubbed := by
  induction l generalizing s with
  | nil => rfl
  | cons x rest ih => rw [List.foldl_cons, ih, hf]

theorem countEvent_scrubbed (s : State) (t code idx : Nat) : (countEvent s t code idx).service.scrubbed = s.service.scrubbed := by
  have hpulse (u : State) : (pulse u 736 t).service = u.service := (congrArg State.service (pulse_railOnly u t (by decide : 736 < 1024)).eq :)
  have hone (u : State) (n : Nat) : (countOne u t code idx 1 n).service.scrubbed = u.service.scrubbed := by
    have hite {c : Prop} [Decidable c] {x y : State} (hx : x.service.scrubbed = u.service.scrubbed) (hy : y.service.scrubbed = u.service.scrubbed) :
        (if c then x else y).service.scrubbed = u.service.scrubbed := by split <;> assumption
    exact hite (hite ((congrArg Service.scrubbed (hpulse _)).trans rfl) rfl) rfl
  have hall : countEvent s t code idx = (List.range 32).foldl (fun u n => countOne u t code idx 1 n) s := by
    rw [countEvent, countEvents, if_neg (by decide)]
  rw [hall]
  exact foldl_scrubbed hone _ s

/-- A correctable error of DRAM is corrected and counted. -/
theorem corrected_dram {s : State} {u : Nat} (herr : s.memErr = [(u, false)]) (hu : u < 0x200000000) (t : Nat) :
    (corrected s t u).mem = s.mem ∧ (corrected s t u).service.scrubbed = s.service.scrubbed ∧ (corrected s t u).memErr = [] ∧
    (corrected s t u).fld .carDramErr 31 16 = min (s.fld .carDramErr 31 16 + 1) 0xFFFF := by
  have hregion : regionOf u = .dram := if_pos hu
  have hdel : kdel [(u, false)] u = [] := if_pos rfl
  have hstep : corrected s t u = countEvent ((({ s with memErr := [] } : State).noteReg t (regOff .carDramErr 0 0) (s.reg .carDramErr)).setFld
      .carDramErr 31 16 (min (s.fld .carDramErr 31 16 + 1) 0xFFFF)) t 0x05 (u / 256 % 8) := by
    unfold corrected
    rw [herr, hdel]
    dsimp only
    rw [hregion]
    rfl
  rw [hstep]
  generalize hx : ({ s with memErr := [] } : State).noteReg t (regOff .carDramErr 0 0) (s.reg .carDramErr) = x
  have hxmem : x.mem = s.mem := by rw [← hx]; rfl
  have hxerr : x.memErr = [] := by rw [← hx]; rfl
  have hxservice : x.service = s.service := by rw [← hx]; rfl
  have hsig := countEvent_signals (x.setFld .carDramErr 31 16 (min (s.fld .carDramErr 31 16 + 1) 0xFFFF)) t 0x05 (u / 256 % 8)
  refine ⟨hsig.mem.trans hxmem, (countEvent_scrubbed _ _ _ _).trans (congrArg Service.scrubbed hxservice), hsig.memErr.trans hxerr, ?_⟩
  rw [hsig.fld .carDramErr 31 16 0 0 (by decide)]
  refine (fld_setFld_same x .carDramErr _ 0 0 (by decide) (by decide)).trans ?_
  omega

/-- An uncorrectable error of DRAM that the scrubber meets is recorded. -/
theorem uncorrectable_dram {s : State} {u : Nat} (hu : u < 0x200000000) {t : Nat} (hfirst : bitOf (s.hwBits t (regOff .carDramErr 0 0)) 0 = false) :
    (uncorrectable s t .scrub u).mem = s.mem ∧ (uncorrectable s t .scrub u).service = s.service ∧
    (uncorrectable s t .scrub u).memErr = s.memErr ∧ (uncorrectable s t .scrub u).bit .carDramErr 0 = true ∧
    (s.bit .carDramErr 0 = false → (uncorrectable s t .scrub u).fld .carDramErr 7 4 = 0 ∧
      (uncorrectable s t .scrub u).reg .carDramErrAddr = BitVec.ofNat 32 (u / 64)) := by
  have hregion : regionOf u = .dram := if_pos hu
  have hstep : uncorrectable s t .scrub u = pulse (if s.bit .carDramErr 0 then s.raise t .carDramErr 3
      else ((s.setFld .carDramErr 7 4 0).setReg .carDramErrAddr (BitVec.ofNat 32 (u / 64))).raise t .carDramErr 1) 3 t := by
    unfold uncorrectable
    rw [hregion]
    dsimp only
    unfold dramUe
    rw [hfirst, Bool.and_false, Bool.false_and]
    rfl
  rw [hstep]
  generalize hx : (if s.bit .carDramErr 0 then s.raise t .carDramErr 3
      else ((s.setFld .carDramErr 7 4 0).setReg .carDramErrAddr (BitVec.ofNat 32 (u / 64))).raise t .carDramErr 1) = x
  have hrail := pulse_railOnly x t (by decide : 3 < 1024)
  have hkeep : x.mem = s.mem ∧ x.service = s.service ∧ x.memErr = s.memErr := by
    rw [← hx]
    split <;> exact ⟨rfl, rfl, rfl⟩
  have hvalid : x.bit .carDramErr 0 = true := by
    rw [← hx]
    split
    · rw [bit_raise_same _ _ _ _ _ _ (by decide)]
      exact Bool.or_true _
    · rw [bit_raise_same _ _ _ _ _ _ (by decide)]
      exact Bool.or_true _
  refine ⟨(congrArg State.mem hrail.eq :).trans hkeep.1, (congrArg State.service hrail.eq :).trans hkeep.2.1,
    (congrArg State.memErr hrail.eq :).trans hkeep.2.2, ?_, fun hclear => ?_⟩
  · rw [State.bit, hrail.reg .carDramErr 0 0 (by decide)]
    exact hvalid
  · rw [hclear, if_neg (by decide)] at hx
    rw [State.fld, hrail.reg .carDramErr 0 0 (by decide), hrail.reg .carDramErrAddr 0 0 (by decide), ← hx]
    constructor
    · refine (fld_raise_same _ t .carDramErr 0 0 (by decide) (by decide)).trans ?_
      have hother : ((s.setFld .carDramErr 7 4 0).setReg .carDramErrAddr (BitVec.ofNat 32 (u / 64))).fld .carDramErr 7 4 =
          (s.setFld .carDramErr 7 4 0).fld .carDramErr 7 4 := congrArg (fieldOf · 7 4) (reg_setReg_ne _ _ (by decide))
      exact hother.trans (fld_setFld_same s .carDramErr 0 0 0 (by decide) (by decide))
    · rw [reg_raise_ne _ _ _ (by decide), reg_setReg_same]

end Sys2Proof.Machine
end

section
/-! PROOF. Aging monitors, counter intervals and the scrubber (R54, R210, R211, R483, R485; log entries 13 and 91). -/

namespace Sys2Proof.Machine

/-! ### Aging monitors (R483) -/

theorem regOff_hltAge (i : Nat) : regOff .hltAge i 0 = 0xC0100 + 4 * i := by
  simp only [regOff, regRow]
  omega

/-- The status field of a monitor set, with a pulse: its slowdown and the thresholds stay. -/
theorem ageRaised (s : State) (i v t : Nat) {src : Nat} (hsrc : src < 1024) (hv : v < 4) :
    let u := pulse (s.setFld .hltAge 31 30 v i) src t
    u.fld .hltAge 31 30 i = v ∧ u.fld .hltAge 15 0 i = s.fld .hltAge 15 0 i ∧ u.reg .hltAgeCfg = s.reg .hltAgeCfg ∧ u.mem = s.mem := by
  have hrail := pulse_railOnly (s.setFld .hltAge 31 30 v i) t hsrc
  have hage := hrail.reg .hltAge i 0 (by rw [regOff_hltAge]; omega)
  have hcfg := hrail.reg .hltAgeCfg 0 0 (by decide)
  have hmem : (pulse (s.setFld .hltAge 31 30 v i) src t).mem = s.mem := (congrArg State.mem hrail.eq :)
  dsimp only
  generalize pulse (s.setFld .hltAge 31 30 v i) src t = u at hage hcfg hmem ⊢
  refine ⟨?_, ?_, hcfg.trans (reg_setReg_ne _ _ ?_), hmem⟩
  · rw [State.fld, hage]
    refine (fld_setFld_same s .hltAge v i 0 (by decide) (by decide)).trans ?_
    omega
  · rw [State.fld, hage]
    exact fld_setFld_ne s .hltAge v i 0 (by decide) (by decide) (.inl (by decide))
  · have hoff : regOff .hltAgeCfg 0 0 = 0xC0020 := by decide
    rw [hoff, regOff_hltAge]
    omega

/-- A threshold that is passed raises the monitor's state. -/
def ageStep (s : State) (i v src t : Nat) (c : Prop) [Decidable c] : State := if c then pulse (s.setFld .hltAge 31 30 v i) src t else s

theorem ageStep_facts (s : State) (i t : Nat) {v src : Nat} (hsrc : src < 1024) (hv : v < 4) (c : Prop) [Decidable c] :
    (ageStep s i v src t c).fld .hltAge 31 30 i = (if c then v else s.fld .hltAge 31 30 i) ∧
    (ageStep s i v src t c).fld .hltAge 15 0 i = s.fld .hltAge 15 0 i ∧
    (ageStep s i v src t c).reg .hltAgeCfg = s.reg .hltAgeCfg ∧ (ageStep s i v src t c).mem = s.mem := by
  unfold ageStep
  split
  · exact ageRaised s i v t hsrc hv
  · exact ⟨rfl, rfl, rfl, rfl⟩

theorem agingMeasure_due {s : State} {t i : Nat} (h : ¬ (t % 92160000000 ≠ 0 ∨ 32 ≤ i)) (hawake : s.power.asleep = none) (d : Nat) :
    let slow := slowOf d (Config.agingBase i + 1)
    let s1 := s.setFld .hltAge 15 0 (sfield 16 slow) i
    let s2 := ageStep s1 i 1 8 t (s1.fld .hltAge 31 30 i = 0 ∧ (s1.fld .hltAgeCfg 15 0 : Int) ≤ slow)
    agingMeasure s i d t = ageStep s2 i 2 9 t (s2.fld .hltAge 31 30 i < 2 ∧ (s2.fld .hltAgeCfg 31 16 : Int) ≤ slow) := by
  refine if_neg ?_
  rw [hawake]
  rintro (h' | h' | h')
  · exact h (.inl h')
  · exact h (.inr h')
  · cases h'

theorem sfield_lt (x : Int) : sfield 16 x < 2 ^ 16 := (BitVec.ofInt 16 x).isLt

/-- A measurement: the slowdown, and the state that the thresholds give. -/
theorem agingMeasure_facts {s : State} {t i : Nat} (h : ¬ (t % 92160000000 ≠ 0 ∨ 32 ≤ i)) (hawake : s.power.asleep = none) (d : Nat) :
    let u := agingMeasure s i d t
    let slow := slowOf d (Config.agingBase i + 1)
    let a := s.fld .hltAge 31 30 i
    let b := if a = 0 ∧ (s.fld .hltAgeCfg 15 0 : Int) ≤ slow then 1 else a
    u.fld .hltAge 15 0 i = sfield 16 slow ∧ u.mem = s.mem ∧
    u.fld .hltAge 31 30 i = if b < 2 ∧ (s.fld .hltAgeCfg 31 16 : Int) ≤ slow then 2 else b := by
  have hstep := agingMeasure_due h hawake d
  dsimp only at hstep ⊢
  rw [hstep]
  generalize hslow : slowOf d (Config.agingBase i + 1) = slow
  have hage : (s.setFld .hltAge 15 0 (sfield 16 slow) i).fld .hltAge 31 30 i = s.fld .hltAge 31 30 i :=
    fld_setFld_ne s .hltAge _ i 0 (by decide) (by decide) (.inr (by decide))
  have hshown : (s.setFld .hltAge 15 0 (sfield 16 slow) i).fld .hltAge 15 0 i = sfield 16 slow :=
    (fld_setFld_same s .hltAge _ i 0 (by decide) (by decide)).trans (Nat.mod_eq_of_lt (sfield_lt slow))
  have hcfg : (s.setFld .hltAge 15 0 (sfield 16 slow) i).reg .hltAgeCfg = s.reg .hltAgeCfg := by
    refine reg_setReg_ne _ _ ?_
    have hoff : regOff .hltAgeCfg 0 0 = 0xC0020 := by decide
    rw [hoff, regOff_hltAge]
    omega
  have hmem : (s.setFld .hltAge 15 0 (sfield 16 slow) i).mem = s.mem := by rw [State.setFld, setReg_mem]
  generalize s.setFld .hltAge 15 0 (sfield 16 slow) i = x at hage hshown hcfg hmem
  obtain ⟨hage1, hshown1, hcfg1, hmem1⟩ := ageStep_facts x i t (v := 1) (src := 8) (by decide) (by decide)
    (x.fld .hltAge 31 30 i = 0 ∧ (x.fld .hltAgeCfg 15 0 : Int) ≤ slow)
  generalize ageStep x i 1 8 t (x.fld .hltAge 31 30 i = 0 ∧ (x.fld .hltAgeCfg 15 0 : Int) ≤ slow) = y at hage1 hshown1 hcfg1 hmem1
  obtain ⟨hage2, hshown2, -, hmem2⟩ := ageStep_facts y i t (v := 2) (src := 9) (by decide) (by decide)
    (y.fld .hltAge 31 30 i < 2 ∧ (y.fld .hltAgeCfg 31 16 : Int) ≤ slow)
  have hxcfg (hi lo : Nat) : x.fld .hltAgeCfg hi lo = s.fld .hltAgeCfg hi lo := congrArg (fieldOf · hi lo) hcfg
  have hycfg (hi lo : Nat) : y.fld .hltAgeCfg hi lo = s.fld .hltAgeCfg hi lo := congrArg (fieldOf · hi lo) (hcfg1.trans hcfg)
  rw [hage, hxcfg] at hage1
  refine ⟨hshown2.trans (hshown1.trans hshown), hmem2.trans (hmem1.trans hmem), hage2.trans ?_⟩
  rw [hage1, hycfg]

/-! ### Counter intervals (R485) -/

/-- What a counter had counted before cycle t. -/
def countedBefore (s : State) (k t : Nat) : Nat :=
  match kget s.service.counted k with | some x => if x.1 = t then x.2 else (s.reg .hltCntVal k).toNat | none => (s.reg .hltCntVal k).toNat

/-- The registers and the intervals as counter k starts again. -/
def counterClosed (s : State) (k n t : Nat) : State :=
  let v := (s.setReg .hltCntLast (BitVec.ofNat 32 (countedBefore s k t)) k).setReg .hltCntVal
    (BitVec.ofNat 32 ((s.reg .hltCntVal k).toNat - (BitVec.ofNat 32 (countedBefore s k t)).toNat)) k
  v.setService { v.service with ivals := kput v.service.ivals k n, counted := kdel v.service.counted k }

/-- The alarm of a counter that reached its threshold. -/
def counterAlarm (s : State) (k t v : Nat) : State :=
  if (s.reg .hltCntThr k).toNat ≠ 0 ∧ (s.reg .hltCntThr k).toNat ≤ v then pulse (s.raise t .hltAlarm (2 ^ k)) 736 t else s

theorem counterClose_eq {s : State} {k a : Nat} (hk : kget s.service.ivals k = some a) (n t : Nat) : counterClose s k n t =
    if s.fld .hltCntCfg 11 0 k = 0 ∨ n < a + s.fld .hltCntCfg 11 0 k then s
    else counterAlarm (counterClosed s k n t) k t (BitVec.ofNat 32 (countedBefore s k t)).toNat := by
  rw [counterClose, hk]
  rfl

theorem regOff_hltCnt (k : Nat) : regOff .hltCntVal k 0 = 0xC1004 + 0x10 * k ∧ regOff .hltCntLast k 0 = 0xC1008 + 0x10 * k ∧
    regOff .hltCntThr k 0 = 0xC100C + 0x10 * k := by
  simp only [regOff, regRow]
  omega

theorem counterClosed_facts (s : State) (k n t : Nat) :
    (counterClosed s k n t).reg .hltCntLast k = BitVec.ofNat 32 (countedBefore s k t) ∧
    (counterClosed s k n t).reg .hltCntVal k = BitVec.ofNat 32 ((s.reg .hltCntVal k).toNat - countedBefore s k t % 2 ^ 32) ∧
    (counterClosed s k n t).reg .hltCntThr k = s.reg .hltCntThr k ∧
    kget (counterClosed s k n t).service.ivals k = some n ∧ (counterClosed s k n t).mem = s.mem := by
  obtain ⟨hval, hlast, hthr⟩ := regOff_hltCnt k
  have hreg (m : RegName) : (counterClosed s k n t).reg m k = ((s.setReg .hltCntLast (BitVec.ofNat 32 (countedBefore s k t)) k).setReg .hltCntVal
    (BitVec.ofNat 32 ((s.reg .hltCntVal k).toNat - (BitVec.ofNat 32 (countedBefore s k t)).toNat)) k).reg m k := rfl
  refine ⟨?_, ?_, ?_, kget_kput_same _ _ _, rfl⟩
  · rw [hreg, reg_setReg_ne _ _ (by omega), reg_setReg_same]
  · rw [hreg, reg_setReg_same, BitVec.toNat_ofNat]
  · rw [hreg, reg_setReg_ne _ _ (by omega), reg_setReg_ne _ _ (by omega)]

theorem counterAlarm_facts (s : State) {k : Nat} (hk : k < 32) (t v : Nat) :
    (∀ m, regOff m k 0 ≠ 0xC0010 → ¬ (0x10200 ≤ regOff m k 0 ∧ regOff m k 0 < 0x10280) → (counterAlarm s k t v).reg m k = s.reg m k) ∧
    (counterAlarm s k t v).service = s.service ∧ (counterAlarm s k t v).mem = s.mem ∧
    ((s.reg .hltCntThr k).toNat ≠ 0 → (s.reg .hltCntThr k).toNat ≤ v → (counterAlarm s k t v).bit .hltAlarm k = true) := by
  have hrail := pulse_railOnly (s.raise t .hltAlarm (2 ^ k)) t (by decide : 736 < 1024)
  have halarm : regOff .hltAlarm 0 0 = 0xC0010 := by decide
  have hraised : (pulse (s.raise t .hltAlarm (2 ^ k)) 736 t).bit .hltAlarm k = true := by
    rw [State.bit, hrail.reg .hltAlarm 0 0 (by decide)]
    refine (bit_raise_same s t .hltAlarm (2 ^ k) 0 0 hk).trans ?_
    rw [bitOf, Nat.testBit_two_pow_self, Bool.or_true]
  unfold counterAlarm
  split
  · refine ⟨fun m hm hn => ?_, (congrArg State.service hrail.eq :), (congrArg State.mem hrail.eq :), fun _ _ => hraised⟩
    rw [hrail.reg m k 0 hn]
    exact reg_raise_ne s t _ (by rw [halarm]; exact hm)
  · next hnot => exact ⟨fun _ _ _ => rfl, rfl, rfl, fun h0 hle => absurd ⟨h0, hle⟩ hnot⟩

/-! ### The scrubber (R210, R211) -/

/-- What the scrubber keeps as its pass goes on or the next one begins. -/
def passOf (v : Service) (period t : Nat) : Service :=
  if t < v.scrubStart + scrubCycles v.scrubPeriod then v
  else { v with scrubStart := v.scrubStart + scrubCycles v.scrubPeriod, scrubPeriod := period, scrubbed := [] }

theorem scrubPass_eq (s : State) (t : Nat) : scrubPass s t = { s with service := passOf s.service (s.fld .carDramScrub 2 0) t } := by
  unfold scrubPass passOf
  dsimp only
  generalize scrubCycles s.service.scrubPeriod = len
  split <;> rfl

theorem scrubPass_errors (s : State) (e : List (Nat × Bool)) (t : Nat) : ∃ x, scrubPass s t = { s with service := x } ∧
    scrubPass { s with memErr := e } t = { s with memErr := e, service := x } := by
  have hperiod : State.fld { s with memErr := e } .carDramScrub 2 0 = s.fld .carDramScrub 2 0 := rfl
  refine ⟨_, scrubPass_eq s t, ?_⟩
  rw [scrubPass_eq, hperiod]

/-- A line not yet read in the pass. -/
def scrubRead (s : State) (l : Nat) : State := { s with service := { s.service with scrubbed := l :: s.service.scrubbed } }

theorem scrubLine_eq {s : State} {a : Nat} (ha : a < 0x200000000) (t : Nat) : scrubLine s a t =
    if (scrubPass s t).service.scrubbed.contains (a / 64) then scrubPass s t
    else (badUnits (scrubRead (scrubPass s t) (a / 64)) (unitsOf (64 * (a / 64)) 64)).foldl (fun s u => uncorrectable s t .scrub u)
      (correctUnits (scrubRead (scrubPass s t) (a / 64)) t (unitsOf (64 * (a / 64)) 64)) := by
  unfold scrubLine
  dsimp only
  rw [Nat.mod_eq_of_lt ha]
  rfl

/-- The line of a correctable error. -/
theorem scrubLine_corrected {s : State} (hm : Memory.wf s.mem = true) (hclean : s.memErr = []) {a : Nat} (ha : a < 0x200000000) {t : Nat}
    (hnew : (scrubPass s t).service.scrubbed.contains (a / 64) = false) :
    let u := scrubLine (upset s ⟨a, .correctable, 0⟩) a t
    u.mem = s.mem ∧ (a / 64) ∈ u.service.scrubbed ∧ u.memErr = [] ∧ u.fld .carDramErr 31 16 = min (s.fld .carDramErr 31 16 + 1) 0xFFFF := by
  obtain ⟨hnodup, hin⟩ := unitsOf_line ha
  obtain ⟨x, hpass, hpassed⟩ := scrubPass_errors s [(a - a % 8, false)] t
  intro u
  have hu : u = scrubLine { s with memErr := [(a - a % 8, false)] } a t := by rw [← (upset_dram hm hclean ha).1]
  clear_value u
  rw [hpass] at hnew
  have hnew' : ¬ x.scrubbed.contains (a / 64) = true := by
    rw [hnew]
    decide
  rw [scrubLine_eq ha, hpassed, if_neg hnew', scrubRead] at hu
  dsimp only at hu
  have hlisted : (a / 64) ∈ ({ x with scrubbed := a / 64 :: x.scrubbed } : Service).scrubbed := List.mem_cons_self
  generalize ({ x with scrubbed := a / 64 :: x.scrubbed } : Service) = x at hu hlisted
  have hcorr := corrected_dram (s := { s with memErr := [(a - a % 8, false)], service := x }) rfl (by omega : a - a % 8 < 0x200000000) t
  have hbad : badUnits { s with memErr := [(a - a % 8, false)], service := x } (unitsOf (64 * (a / 64)) 64) = [] := by
    refine List.filter_eq_nil_iff.mpr fun y _ => ?_
    rw [unitErr, kget_single]
    split <;> simp
  rw [correctUnits_one rfl hnodup hin t hcorr.2.2.1, hbad, List.foldl_nil] at hu
  rw [hu]
  obtain ⟨hmem, hscrub, herr, hcount⟩ := hcorr
  exact ⟨hmem, hscrub ▸ hlisted, herr, hcount⟩

/-- The line of an uncorrectable error. -/
theorem scrubLine_recorded {s : State} (hm : Memory.wf s.mem = true) (hclean : s.memErr = []) {a : Nat} (ha : a < 0x200000000) {t : Nat}
    (hnew : (scrubPass s t).service.scrubbed.contains (a / 64) = false) (hfirst : bitOf (s.hwBits t (regOff .carDramErr 0 0)) 0 = false) :
    let u := scrubLine (upset s ⟨a, .uncorrectable, 0⟩) a t
    u.mem = s.mem ∧ (a / 64) ∈ u.service.scrubbed ∧ u.memErr = [(a - a % 8, true)] ∧ u.bit .carDramErr 0 = true ∧
    (s.bit .carDramErr 0 = false → u.fld .carDramErr 7 4 = 0 ∧ u.reg .carDramErrAddr = BitVec.ofNat 32 (a / 64)) := by
  obtain ⟨hnodup, hin⟩ := unitsOf_line ha
  obtain ⟨x, hpass, hpassed⟩ := scrubPass_errors s [(a - a % 8, true)] t
  intro u
  have hu : u = scrubLine { s with memErr := [(a - a % 8, true)] } a t := by rw [← (upset_dram hm hclean ha).2]
  clear_value u
  rw [hpass] at hnew
  have hnew' : ¬ x.scrubbed.contains (a / 64) = true := by
    rw [hnew]
    decide
  rw [scrubLine_eq ha, hpassed, if_neg hnew', scrubRead] at hu
  dsimp only at hu
  have hlisted : (a / 64) ∈ ({ x with scrubbed := a / 64 :: x.scrubbed } : Service).scrubbed := List.mem_cons_self
  generalize ({ x with scrubbed := a / 64 :: x.scrubbed } : Service) = x at hu hlisted
  rw [correctUnits_none rfl, badUnits_one rfl hnodup hin, List.foldl_cons, List.foldl_nil] at hu
  obtain ⟨hmem, hservice, herr, hvalid, hword⟩ := uncorrectable_dram (s := { s with memErr := [(a - a % 8, true)], service := x })
    (by omega : a - a % 8 < 0x200000000) hfirst
  have hline : (a - a % 8) / 64 = a / 64 := by omega
  rw [hline] at hword
  rw [hu]
  exact ⟨hmem, (congrArg Service.scrubbed hservice).symm ▸ hlisted, herr, hvalid, hword⟩

theorem exec_scrubLine {s r : State} {t : Nat} (hr : runsAt s t r) (a : Nat) (l : List Upset) :
    exec (.scrubLine t a l) s = .next (scrubLine (l.foldl upset r) a t) := congrArg Host.Outcome.next (awake_runs hr _)

end Sys2Proof.Machine

namespace Sys2Proof.Proofs

open Sys2Proof.Machine

/-- Settles O47: monitors, counters and the scrubber. -/
theorem healthAndScrub : Obligations.HealthAndScrub := by
  unfold Obligations.HealthAndScrub
  refine ⟨fun s r t hr => ⟨fun i d => ?_, fun k a hk hival => ?_, fun k hk => ?_⟩, fun s r t a hr hs ha hclean => ?_⟩
  · have hrun : exec (.agingMeasurement t i d) s = .next (agingMeasure r i d t) := congrArg Host.Outcome.next (awake_runs hr _)
    split
    · next hnot =>
      refine hrun.trans (congrArg Host.Outcome.next (if_pos ?_))
      exact hnot.imp_right .inl
    · next hdue => exact ⟨_, hrun, agingMeasure_facts hdue hr.2 d⟩
  · have hrun : exec (.counterIntervalClose t k) s = .next (counterClose r k (r.pourAt t) t) :=
      congrArg Host.Outcome.next ((awake_runs hr _).trans (upTo_lt hk r _))
    rw [counterClose_eq hival] at hrun
    intro n
    by_cases hnot : n = 0 ∨ r.pourAt t < a + n
    · rw [if_pos hnot]
      exact hrun.trans (congrArg Host.Outcome.next (if_pos hnot))
    · rw [if_neg hnot]
      obtain ⟨hlast, hval, hthr, hivals, hmem⟩ := counterClosed_facts r k (r.pourAt t) t
      obtain ⟨hregs, hservice, hamem, halarm⟩ := counterAlarm_facts (counterClosed r k (r.pourAt t) t) hk t
        (BitVec.ofNat 32 (countedBefore r k t)).toNat
      obtain ⟨hvalOff, hlastOff, -⟩ := regOff_hltCnt k
      refine ⟨_, hrun.trans (congrArg Host.Outcome.next (if_neg hnot)), (hregs _ (by omega) (by omega)).trans hlast,
        (hregs _ (by omega) (by omega)).trans hval, ?_, hamem.trans hmem, fun hne hle => ?_⟩
      · rw [hservice]
        exact hivals
      · rw [hthr] at halarm
        refine halarm (fun h0 => hne (BitVec.eq_of_toNat_eq h0)) ?_
        rw [BitVec.toNat_ofNat]
        exact hle
  · rcases hk with hk | hk
    · exact congrArg Host.Outcome.next ((awake_runs hr _).trans (if_neg (by omega)))
    · refine congrArg Host.Outcome.next ((awake_runs hr _).trans ?_)
      have hsame : counterClose r k (r.pourAt t) t = r := by rw [counterClose, hk]
      unfold upTo
      beta_reduce
      rw [hsame, ite_self]
  · intro p
    have hp : p = scrubPass r t := rfl
    clear_value p
    subst hp
    intro scrubbed
    refine ⟨fun hread => ?_, fun hnew => ⟨⟨_, exec_scrubLine hr a _, ?_⟩, fun hfirst => ⟨_, exec_scrubLine hr a _, ?_⟩⟩⟩
    · exact (exec_scrubLine hr a []).trans (congrArg Host.Outcome.next ((scrubLine_eq ha t).trans (if_pos hread)))
    · obtain ⟨hmem, hlisted, herr, hcount⟩ := scrubLine_corrected hs.mem hclean ha hnew
      exact ⟨⟨hmem, hlisted⟩, herr, hcount⟩
    · obtain ⟨hmem, hlisted, herr, hvalid, hword⟩ := scrubLine_recorded hs.mem hclean ha hnew hfirst
      exact ⟨⟨hmem, hlisted⟩, herr, hvalid, hword⟩

end Sys2Proof.Proofs
end

section
/-! PROOF. The Ethernet edge: frames, streams and silence (R339, R342 to R345; log entry 43). -/

namespace Sys2Proof.Machine

/-! ### The control receive ring (R344) -/

/-- Two runs of bytes written one after the other are both there. -/
theorem memRead_memWrite_append {m : List Host.Cell} (hwf : Memory.wf m = true) (a : Nat) (xs ys : List Byte) :
    memRead (memWrite m a (xs ++ ys)) a xs.length = xs ∧ memRead (memWrite m a (xs ++ ys)) (a + xs.length) ys.length = ys := by
  rw [memWrite_append]
  refine ⟨(memRead_congr fun i hi => ?_).trans (memRead_memWrite hwf), memRead_memWrite (memWrite_wf hwf)⟩
  exact memGet_memWrite_out (memWrite_wf hwf) (.inl (by omega))

/-- The first word of an edge frame's entry (R344). -/
def edgeWord (p n : Nat) : Nat := 2 ^ 31 + (if p = 3 then 2 ^ 16 else 0) + n

theorem edgeWord_lt {n : Nat} (p : Nat) (hn : n ≤ 1532) : edgeWord p n < 256 ^ 4 := by
  unfold edgeWord
  split <;> omega

theorem crxWord_edge (p n : Nat) : ofBool true * 2 ^ 31 + ofBool (true && decide (p = 3)) * 2 ^ 16 + n = edgeWord p n := by
  by_cases hp : p = 3
  · rw [edgeWord, if_pos hp, decide_eq_true hp]
    rfl
  · rw [edgeWord, if_neg hp, decide_eq_false hp]
    rfl

/-- A frame of an edge port enters the receive ring. -/
theorem crxWrite_edge {s : State} (hclean : s.memErr = []) (hwf : Memory.wf s.mem = true) (t p : Nat) {frame : List Byte}
    (hlen : frame.length ≤ 1532) (hroom : (s.fld .zwrCrx 11 6 + 1) % 64 ≠ s.fld .zwrCrx 5 0) :
    let u := crxWrite s t true p frame
    let a := crxBase s + 1536 * s.fld .zwrCrx 11 6
    memRead u.mem (a + 4) frame.length = frame ∧ memNat u.mem a 4 = edgeWord p frame.length ∧
    u.fld .zwrCrx 11 6 = (s.fld .zwrCrx 11 6 + 1) % 64 := by
  have hlt := edgeWord_lt p hlen
  have hnext : (s.fld .zwrCrx 11 6 + 1) % 64 % 2 ^ (11 + 1 - 6) = (s.fld .zwrCrx 11 6 + 1) % 64 := Nat.mod_mod _ _
  unfold crxWrite
  dsimp only
  rw [if_neg (fun h => absurd h.2 (Nat.not_lt.mpr hlen)), if_neg hroom, crxWord_edge]
  generalize edgeWord p frame.length = d at hlt ⊢
  generalize crxBase s + 1536 * s.fld .zwrCrx 11 6 = a
  generalize (s.fld .zwrCrx 11 6 + 1) % 64 = w at hnext ⊢
  obtain ⟨l, hl⟩ := writePhys_clean hclean t .barista a (toBytesLE 4 d ++ frame)
  rw [hl]
  dsimp only
  generalize hv : ({ s with mem := memWrite s.mem a (toBytesLE 4 d ++ frame), carLast := l } : State) = v
  have hmem : v.mem = memWrite s.mem a (toBytesLE 4 d ++ frame) := by rw [← hv]
  have hsig := pulse_signals (n := 270) (v.setFld .zwrCrx 11 6 w) t (by decide)
  generalize pulse (v.setFld .zwrCrx 11 6 w) 270 t = u at hsig
  have humem : u.mem = memWrite s.mem a (toBytesLE 4 d ++ frame) := hsig.mem.trans hmem
  obtain ⟨hword, hframe⟩ := memRead_memWrite_append hwf a (toBytesLE 4 d) frame
  rw [length_toBytesLE] at hword hframe
  refine ⟨?_, ?_, ?_⟩
  · rw [humem, hframe]
  · rw [humem, memNat, hword, ofBytesLE_toBytesLE hlt]
  · exact ((hsig.fld .zwrCrx 11 6 0 0 (by decide)).trans (fld_setFld_same v .zwrCrx w 0 0 (by decide) (by decide))).trans hnext

/-! ### Frames of an edge port (R342, R343) -/

section
variable {s : State} {p : Nat} (hon : edgeOn s p = true)
include hon

/-- A frame that is no media packet and no PTP message is for the pair. -/
theorem edgeReceived_pair {bytes : List Byte}
    (hother : ∀ x, parseUdp bytes = some x → x.isPtp = false ∧ (List.range 1024).find? (strMatches s p x) = none) (t : Nat) :
    edgeReceived s p bytes t = crxWrite s t true p bytes := by
  rw [edgeReceived, hon, if_neg (by decide)]
  cases hudp : parseUdp bytes with
  | none => rfl
  | some x =>
    obtain ⟨hptp, hnone⟩ := hother x hudp
    simp only [hnone, hptp]
    rfl

theorem edgeReceived_ptp {bytes : List Byte} {x : UdpFrame} (hudp : parseUdp bytes = some x) (hptp : x.isPtp = true)
    (hnone : (List.range 1024).find? (strMatches s p x) = none) (t : Nat) : edgeReceived s p bytes t = ptpMessage s p t false x := by
  rw [edgeReceived, hon, if_neg (by decide)]
  simp only [hudp, hnone, hptp]
  rfl

end

/-- An offset that is judged leaves the ring and memory. -/
theorem judgeOffset_keeps (s : State) (off : Int) : (judgeOffset s off).ring = s.ring ∧ (judgeOffset s off).mem = s.mem := by
  unfold judgeOffset
  split
  · exact ⟨rfl, rfl⟩
  · split
    · split <;> exact ⟨rfl, rfl⟩
    · split
      · exact ⟨rfl, rfl⟩
      · split <;> exact ⟨rfl, rfl⟩

/-- A PTP message joins those of its port, and the port takes the state that the firmware gives. -/
theorem ptpMessage_facts {s : State} {p : Nat} (hp : p = 2 ∨ p = 3) {y : PtpPort} (hy : s.ring.ptp[p - 2]? = some y) (t : Nat) (sent : Bool)
    (x : UdpFrame) :
    let log := (if x.dport = 319 then some t else none, sent, x.data) :: y.log
    (ptpMessage s p t sent x).ring = { s.ring with ptp := setNth s.ring.ptp (p - 2) ⟨Config.ptpState (p - 2) log, log⟩ } ∧
    (ptpMessage s p t sent x).mem = s.mem := by
  unfold ptpMessage
  simp only [hy]
  generalize (if x.dport = 319 then some t else none, sent, x.data) :: y.log = log
  generalize hv : ({ s with ring := { s.ring with ptp := setNth s.ring.ptp (p - 2) { state := Config.ptpState (p - 2) log, log := log } } } : State) = v
  have hvkept : v.ring = { s.ring with ptp := setNth s.ring.ptp (p - 2) ⟨Config.ptpState (p - 2) log, log⟩ } ∧ v.mem = s.mem := by
    rw [← hv]
    exact ⟨rfl, rfl⟩
  have hsig : Signals v (if Config.ptpState (p - 2) log = y.state then v else pulse v (272 + (p - 2)) t) :=
    .ite (.refl v) (pulse_signals v t (by omega))
  generalize (if Config.ptpState (p - 2) log = y.state then v else pulse v (272 + (p - 2)) t) = w at hsig ⊢
  have hw : w.ring = { s.ring with ptp := setNth s.ring.ptp (p - 2) ⟨Config.ptpState (p - 2) log, log⟩ } ∧ w.mem = s.mem :=
    ⟨hsig.ring.trans hvkept.1, hsig.mem.trans hvkept.2⟩
  split
  · split
    · obtain ⟨hring, hmem⟩ := judgeOffset_keeps w ‹Int›
      exact ⟨hring.trans hw.1, hmem.trans hw.2⟩
    · exact hw
  · exact hw

/-! ### Streams (R339, R342, R345) -/

theorem edgeTransmit_none {s : State} {i : Nat} (h : strEn s i = false ∨ strSend s i = false ∨ edgeOn s (strPort s i) = false) (t : Nat) :
    edgeTransmit s i t = s := by
  refine if_pos ?_
  rcases h with h | h | h
  · exact .inl (by rw [h]; rfl)
  · exact .inr (.inl (by rw [h]; rfl))
  · exact .inr (.inr (by rw [h]; rfl))

theorem length_samples (f : Nat → Nat → BitVec 24) (n k : Nat) :
    ((List.range n).flatMap fun j => (List.range k).map fun c => f j c).length = n * k := by
  simp [List.length_flatMap]

/-- The state as stream i's media index becomes q. -/
def streamMoved (s : State) (i q : Nat) : State := { s with ring := { s.ring with streamNext := kput s.ring.streamNext i q } }

theorem edgeTransmit_eq {s : State} {i : Nat} (hen : strEn s i = true) (hsend : strSend s i = true) (hon : edgeOn s (strPort s i) = true)
    (t : Nat) :
    let q := (kget s.ring.streamNext i).getD (mediaAt s t / strSamples s i * strSamples s i)
    ∃ samples, samples.length = strSamples s i * strChans s i ∧
      edgeTransmit s i t = (streamMoved s i (q + strSamples s i)).emit (.rtp i t ((q + strWord s i 6) % 2 ^ 32) samples) := by
  refine ⟨_, length_samples _ _ _, if_neg ?_⟩
  rw [hen, hsend, hon]
  decide

/-- What leaves while REFB is present. -/
theorem emit_present {s : State} (hrefb : s.bit .pwrStat 20 = false) (o : WireOut) :
    s.emit o = { s with ring := { s.ring with out := o :: s.ring.out } } := by
  rw [State.emit, hrefb]
  rfl

/-- A send stream gives its next packet, and its media index moves on by the packet's samples. -/
theorem edgeTransmit_sends {s : State} {i : Nat} (hen : strEn s i = true) (hsend : strSend s i = true) (hon : edgeOn s (strPort s i) = true)
    (hrefb : s.bit .pwrStat 20 = false) (t : Nat) :
    let u := edgeTransmit s i t
    let q := (kget s.ring.streamNext i).getD (mediaAt s t / strSamples s i * strSamples s i)
    kget u.ring.streamNext i = some (q + strSamples s i) ∧
    (∃ samples, samples.length = strSamples s i * strChans s i ∧
      u.ring.out = .rtp i t ((q + strWord s i 6) % 2 ^ 32) samples :: s.ring.out) ∧ u.mem = s.mem := by
  obtain ⟨samples, hlen, hstep⟩ := edgeTransmit_eq hen hsend hon t
  have hsent := hstep.trans (emit_present (s := streamMoved s i _) hrefb _)
  dsimp only
  rw [hsent]
  exact ⟨kget_kput_same _ _ _, ⟨samples, hlen, rfl⟩, rfl⟩

section
variable {s : State} {i a : Nat} (hlast : kget s.ring.streams i = some (a, false))
include hlast

theorem streamSilent_early {t : Nat} (h : t < a + 16 * strCycles s i) : streamSilent s i t = s := by
  rw [streamSilent, hlast]
  exact if_neg fun hdue => Nat.not_lt.mpr hdue.2.2 h

/-- A receive stream with no packet for 16 packet times is told once. -/
theorem streamSilent_told {t : Nat} (hen : strEn s i = true) (hsend : strSend s i = false) (h : a + 16 * strCycles s i ≤ t) :
    kget (streamSilent s i t).ring.streams i = some (a, true) ∧ (streamSilent s i t).mem = s.mem := by
  have hstep : streamSilent s i t = pulse { s with ring := { s.ring with streams := kput s.ring.streams i (a, true) } } 274 t := by
    rw [streamSilent, hlast]
    exact if_pos ⟨hen, by rw [hsend]; rfl, h⟩
  have hsig := pulse_signals (n := 274) { s with ring := { s.ring with streams := kput s.ring.streams i (a, true) } } t (by decide)
  rw [hstep, hsig.ring, hsig.mem]
  exact ⟨kget_kput_same _ _ _, rfl⟩

end

end Sys2Proof.Machine

namespace Sys2Proof.Proofs

open Sys2Proof.Machine

/-- Settles O30: frames of an edge port, the packets of a send stream and the silence of a receive stream. -/
theorem edge : Obligations.Edge := by
  unfold Obligations.Edge
  intro s r t hr hs hclean
  have hframe {p : Nat} (hp : p = 2 ∨ p = 3) (bytes : List Byte) :
      exec (.edgeFrameReceived t p bytes) s = .next (edgeReceived r p bytes t) :=
    congrArg Host.Outcome.next (((awake_runs hr fun s => upTo 4 p s fun s => if p < 2 then s else edgeReceived s p bytes t).trans
      (upTo_lt (by omega) r _)).trans (if_neg (by omega)))
  have hrun {i : Nat} (hi : i < 1024) (f : State → State) : (Host.Outcome.next (awake s t fun s => upTo 1024 i s f) : Out) = .next (f r) :=
    congrArg Host.Outcome.next ((awake_runs hr _).trans (upTo_lt hi r f))
  refine ⟨fun p bytes hp hoff => ?_, fun p bytes hp hon hother hlen hroom => ?_, fun p bytes x y hp hon hudp hptp hnone hy => ?_,
    fun i hi hnot => ?_, fun i hi hen hsend hon hrefb => ?_, fun i a hi hlast hen hsend => ?_⟩
  · refine (hframe hp bytes).trans (congrArg Host.Outcome.next ?_)
    rw [edgeReceived, hoff]
    rfl
  · exact ⟨_, (hframe hp bytes).trans (congrArg Host.Outcome.next (edgeReceived_pair hon hother t)),
      crxWrite_edge hclean hs.mem t p hlen hroom⟩
  · obtain ⟨hring, hmem⟩ := ptpMessage_facts hp hy t false x
    refine ⟨_, (hframe hp bytes).trans (congrArg Host.Outcome.next (edgeReceived_ptp hon hudp hptp hnone t)), ?_, hmem⟩
    rw [hring]
    have hlt : p - 2 < r.ring.ptp.length := (List.getElem?_eq_some_iff.mp hy).1
    exact List.getElem?_set_self hlt
  · exact (hrun hi _).trans (congrArg Host.Outcome.next (edgeTransmit_none hnot t))
  · exact ⟨_, hrun hi _, edgeTransmit_sends hen hsend hon hrefb t⟩
  · split
    · next h => exact (hrun hi _).trans (congrArg Host.Outcome.next (streamSilent_early hlast h))
    · next h => exact ⟨_, hrun hi _, streamSilent_told hlast hen hsend (Nat.le_of_not_lt h)⟩

end Sys2Proof.Proofs
end

section
/-! PROOF. What leaves unreserved: waiting frames, mailboxes and the transmit entry (R305, R315, R323, R327, R344). -/

namespace Sys2Proof.Machine

/-! ### Unreserved frames (R323) -/

/-- From s to u the frames that wait and memory stay, as at a seal or a frame that leaves. -/
structure WaitKept (s u : State) : Prop where
  mem : u.mem = s.mem
  held : ∀ q, (u.rpair q).held = (s.rpair q).held

theorem emitFrame_wait (s : State) (p t : Nat) (bytes : List Byte) : WaitKept s (s.emitFrame p t bytes) := by
  unfold State.emitFrame State.emit
  split <;> exact ⟨rfl, fun _ => rfl⟩

theorem sealFrame_wait (s : State) (q pour : Nat) (h : Hdr) (payload : List Byte) : WaitKept s (sealFrame s q pour h payload).2 := by
  unfold sealFrame
  dsimp only
  split
  · exact ⟨rfl, fun _ => rfl⟩
  · split
    · exact ⟨rfl, fun _ => rfl⟩
    · next key _ =>
      generalize hx : ({ s.rpair q with ctrs := _ } : RPair) = x
      refine ⟨rfl, fun q' => ?_⟩
      have hheld : x.held = (s.rpair q).held := by rw [← hx]
      by_cases hq : q' = q
      · subst hq
        rcases rpair_setRpair_or s q' x with h | h <;> rw [h]
        exact hheld
      · rw [rpair_setRpair_ne s x hq]

theorem sealSend_wait (s : State) (q p t pour : Nat) (h : Hdr) (payload : List Byte) : WaitKept s (sealSend s q p t pour h payload) := by
  have hseal := sealFrame_wait s q pour h payload
  unfold sealSend
  generalize sealFrame s q pour h payload = x at hseal ⊢
  obtain ⟨bytes?, v⟩ := x
  cases bytes? with
  | none => exact hseal
  | some bytes =>
    have hemit := emitFrame_wait v p t bytes
    exact ⟨hemit.mem.trans hseal.mem, fun q => (hemit.held q).trans (hseal.held q)⟩

theorem takeTokens_held (x : RPair) (f : Held) : (takeTokens x f).held = x.held := by
  unfold takeTokens
  split <;> rfl

/-- The state as frame f of the waiting ones takes the line of port p. -/
def frameTaken (s : State) (p t : Nat) (f : Held) : State :=
  let v := (s.setRpair (p / 2) (takeTokens { s.rpair (p / 2) with held := (s.rpair (p / 2)).held.erase f } f)).setRport p
    { s.rport p with free := t + ceilDiv (wireLen f.payload.length * byteParts) 1000000 }
  { v with ring := { v.ring with ctxBusy := v.ring.ctxBusy && !f.ctx } }

theorem frameTaken_facts {s : State} (hs : s.ring.pairs.length = 2) {p : Nat} (hp : p < 4) (t : Nat) (f : Held) :
    ((frameTaken s p t f).rpair (p / 2)).held = (s.rpair (p / 2)).held.erase f ∧ (frameTaken s p t f).mem = s.mem ∧
    (frameTaken s p t f).ring.out = s.ring.out ∧ (frameTaken s p t f).regs = s.regs := by
  refine ⟨?_, rfl, rfl, rfl⟩
  have hpair := rpair_setRpair (r := p / 2) hs (by omega) (takeTokens { s.rpair (p / 2) with held := (s.rpair (p / 2)).held.erase f } f)
  exact (congrArg RPair.held hpair).trans (takeTokens_held _ f)

section
variable {s : State} {p t : Nat} (hup : portUp s p = true) (hjoin : (s.rpair (p / 2)).joined = true) (hfree : (s.rport p).free ≤ t)
  {f : Held} (hnext : nextHeld s p = some f)
include hup hjoin hfree hnext

theorem unreservedSend_eq : ∃ wrap, unreservedSend s p t =
    if fitsWindow s p t (wireLen f.payload.length) = false then s
    else if f.cls % 2 = 0 then (frameTaken s p t f).emitFrame p t (hdrBytes { f.hdr with wrap := wrap } ++ f.payload ++ f.tag)
    else sealSend (frameTaken s p t f) (p / 2) p t ((frameTaken s p t f).pourAt t) { f.hdr with wrap := wrap } f.payload := by
  have hgo : ¬ ((!portUp s p) = true ∨ (!(s.rpair (p / 2)).joined) = true ∨ t < (s.rport p).free) := by
    rw [hup, hjoin]
    simp only [Bool.not_true, Bool.false_eq_true, false_or]
    omega
  unfold unreservedSend
  dsimp only
  rw [if_neg hgo, hnext]
  exact ⟨_, rfl⟩

end

theorem unreservedSend_none {s : State} {p t : Nat}
    (h : portUp s p = false ∨ (s.rpair (p / 2)).joined = false ∨ t < (s.rport p).free ∨ nextHeld s p = none) : unreservedSend s p t = s := by
  unfold unreservedSend
  dsimp only
  split
  · rfl
  · next hgo =>
    rcases h with h | h | h | h
    · exact absurd (.inl (by rw [h]; rfl)) hgo
    · exact absurd (.inr (.inl (by rw [h]; rfl))) hgo
    · exact absurd (.inr (.inr h)) hgo
    · rw [h]

/-! ### Mailboxes (R327) -/

/-- At most n of the oldest items leave a queue. -/
theorem qCount_takeItems (t h n : Nat) {s : State} (hs : Shaped s) (hclean : s.memErr = []) :
    qCount (takeItems t h n s).2 h = qCount s h - min n (qCount s h) := by
  induction n generalizing s with
  | zero => rw [Nat.zero_min]; rfl
  | succ n ih =>
    rw [takeItems]
    split
    · next hzero => rw [hzero, Nat.zero_sub]
    · next hsome =>
      have hdrop := dropItem_readSlot hs hclean t h (qHead s h)
      refine (ih hdrop.shaped hdrop.clean).trans ?_
      rw [hdrop.count]
      omega

section
variable {s : State} {m h : Nat} (hqueue : (queueHandles s).find? (fun h => decide (qConsumer s h = 0x5000 + m)) = some h)
include hqueue

theorem mailboxSend_idle {t : Nat} (hno : s.bit .zwrMbox 31 m = false ∨ kget s.ring.mailed m = some (s.pourAt t) ∨ qCount s h = 0) :
    mailboxSend s m t = s := by
  rw [mailboxSend, hqueue]
  refine if_pos ?_
  rcases hno with hno | hno
  · exact .inl (by rw [hno]; rfl)
  · exact .inr hno

/-- The items of a mailbox leave its queue, and the pour is noted. -/
def mailTaken (s : State) (m h t : Nat) : State :=
  let x := (takeItems t h 84 s).2
  { x with ring := { x.ring with mailed := kput x.ring.mailed m (s.pourAt t) } }

theorem mailboxSend_eq {t : Nat} (hyes : ¬ (s.bit .zwrMbox 31 m = false ∨ kget s.ring.mailed m = some (s.pourAt t) ∨ qCount s h = 0)) :
    ∃ r hdr payload, mailboxSend s m t = sendLocal (mailTaken s m h t) t r false hdr payload := by
  rw [mailboxSend, hqueue]
  refine ⟨_, _, _, if_neg fun hno => hyes ?_⟩
  rwa [Bool.not_eq_true'] at hno

/-- A mailbox takes at most 84 items from its queue, once a pour. -/
theorem mailboxSend_sends (hs : Shaped s) (hclean : s.memErr = []) {t : Nat}
    (hyes : ¬ (s.bit .zwrMbox 31 m = false ∨ kget s.ring.mailed m = some (s.pourAt t) ∨ qCount s h = 0)) :
    kget (mailboxSend s m t).ring.mailed m = some (s.pourAt t) ∧ qCount (mailboxSend s m t) h = qCount s h - min 84 (qCount s h) := by
  obtain ⟨r, hdr, payload, hstep⟩ := mailboxSend_eq hqueue hyes
  have hheld := sendLocal_held (mailTaken s m h t) t r false hdr payload
  rw [hstep]
  constructor
  · rw [hheld.ring]
    exact kget_kput_same _ _ _
  · rw [qCount_of_mem hheld.mem]
    exact qCount_takeItems t h 84 hs hclean

end

/-! ### The transmit entry (R344) -/

theorem ptpMessage_keeps (s : State) {p : Nat} (hp : p = 2 ∨ p = 3) (t : Nat) (sent : Bool) (x : UdpFrame) :
    (ptpMessage s p t sent x).mem = s.mem ∧ (ptpMessage s p t sent x).ring.out = s.ring.out := by
  cases hy : s.ring.ptp[p - 2]? with
  | none =>
    rw [ptpMessage]
    simp only [hy, and_self]
  | some y =>
    obtain ⟨hring, hmem⟩ := ptpMessage_facts hp hy t sent x
    exact ⟨hmem, (congrArg Ring.out hring :)⟩

/-- The descriptor and the frame of the transmit entry (R344). -/
def ctxWord (s : State) : Nat := memNat s.mem (crxBase s + 0x18000) 4
def ctxFrame (s : State) : List Byte := memRead s.mem (crxBase s + 0x18000 + 4) (ctxWord s % 2 ^ 11)

/-- An Ethernet frame leaves an edge port; a PTP message of it joins those of the port. -/
def ctxEdge (s : State) (p t : Nat) (frame : List Byte) : State :=
  match (parseUdp frame).filter UdpFrame.isPtp with
  | some u => ptpMessage (s.emit (.eth p t frame)) p t true u
  | none => s.emit (.eth p t frame)

/-- A control frame of the entry joins those that wait on pair q. -/
def ctxRing (s : State) (q t : Nat) (frame : List Byte) : State :=
  let s := sendLocal s t q true (parseHdr frame) (frame.drop 24)
  { s with ring := { s.ring with ctxBusy := (s.rpair q).held.any fun f => f.ctx } }

/-- What becomes of a transmit entry with descriptor d. -/
def ctxSent (s : State) (q t d : Nat) (frame : List Byte) : State :=
  if bitOf d 31 = true then
    if (!edgeOn s (if bitOf d 16 then 3 else 2)) = true then s else ctxEdge s (if bitOf d 16 then 3 else 2) t frame
  else if (!pairOn s q) = true then s else ctxRing s q t frame

theorem controlTransmit_eq {s : State} {v : W32} (hsend : v.toNat % 2 = 1) (hv : v.toNat < 4) (hidle : s.ring.ctxBusy = false) (t : Nat) :
    controlTransmit s v t = ctxSent s (v.toNat / 2) t (ctxWord s) (ctxFrame s) := by
  have hbit : bitOf v.toNat 0 = true := by
    rw [bitOf, Nat.testBit_zero]
    exact decide_eq_true hsend
  have hpair : (if bitOf v.toNat 1 then 1 else 0) = v.toNat / 2 := by
    rw [bitOf, Nat.testBit_eq_decide_div_mod_eq]
    simp only [decide_eq_true_eq]
    split <;> omega
  have hgo : ¬ ((!bitOf v.toNat 0) = true ∨ s.ring.ctxBusy = true) := by
    rw [hbit, hidle]
    decide
  unfold controlTransmit
  rw [if_neg hgo, hpair]
  extract_lets a d frame
  have hword : ctxWord s = d := rfl
  have hframe : ctxFrame s = frame := rfl
  rw [hword, hframe]
  clear_value frame d
  rfl

theorem ctxEdge_facts (s : State) {p : Nat} (hp : p = 2 ∨ p = 3) (t : Nat) (frame : List Byte) :
    (ctxEdge s p t frame).mem = s.mem ∧
    (ctxEdge s p t frame).ring.out = if s.bit .pwrStat 20 = false then .eth p t frame :: s.ring.out else s.ring.out := by
  have hemit : (s.emit (.eth p t frame)).mem = s.mem ∧
      (s.emit (.eth p t frame)).ring.out = if s.bit .pwrStat 20 = false then .eth p t frame :: s.ring.out else s.ring.out := by
    unfold State.emit
    cases s.bit .pwrStat 20 <;> exact ⟨rfl, rfl⟩
  unfold ctxEdge
  split
  · obtain ⟨hmem, hout⟩ := ptpMessage_keeps (s.emit (.eth p t frame)) hp t true ‹UdpFrame›
    exact ⟨hmem.trans hemit.1, hout.trans hemit.2⟩
  · exact hemit

/-- A control frame round the segment waits for the ring. -/
theorem ctxRing_facts {s : State} (hs : s.ring.pairs.length = 2) {q : Nat} (hq : q < 2) (t : Nat) {frame : List Byte}
    (hscope : (parseHdr frame).scope = 1) (htyp : (parseHdr frame).typ = 2) (hlen : frame.length ≤ 536) :
    (ctxRing s q t frame).mem = s.mem ∧ (ctxRing s q t frame).ring.ctxBusy = true ∧
    ((ctxRing s q t frame).rpair q).held = (s.rpair q).held ++ [{
      cls := 1, west := false, cross := false, hdr := { parseHdr frame with src := ownAddr s q, west := false, hops := 0, wrap := false }
      payload := frame.drop 24, tag := [], ctx := true }] := by
  have hshort : ¬ ((parseHdr frame).typ = 2 ∧ 512 < (frame.drop 24).length) := by
    rw [List.length_drop]
    omega
  have hsend : sendLocal s t q true (parseHdr frame) (frame.drop 24) = holdFrame s q {
      cls := 1, west := false, cross := false, hdr := { parseHdr frame with src := ownAddr s q, west := false, hops := 0, wrap := false }
      payload := frame.drop 24, tag := [], ctx := true } := by
    unfold sendLocal
    dsimp only
    rw [if_neg hshort, if_neg (by omega), if_pos (by omega), if_neg (by omega)]
  unfold ctxRing
  rw [hsend]
  generalize hf : ({
      cls := 1, west := false, cross := false, hdr := { parseHdr frame with src := ownAddr s q, west := false, hops := 0, wrap := false }
      payload := frame.drop 24, tag := [], ctx := true } : Held) = f
  have hctx : f.ctx = true := by rw [← hf]
  have hheld : ((holdFrame s q f).rpair q).held = (s.rpair q).held ++ [f] := congrArg RPair.held (rpair_setRpair hs hq _)
  refine ⟨rfl, ?_, hheld⟩
  show ((holdFrame s q f).rpair q).held.any (fun f => f.ctx) = true
  rw [hheld, List.any_append, List.any_cons, hctx, Bool.true_or, Bool.or_true]

theorem reservedIn_zwrCtxCmd {n : Nat} (h : n < 4) : reservedIn .zwrCtxCmd 0 n = false := by
  interval_cases n <;> decide

end Sys2Proof.Machine

namespace Sys2Proof.Proofs

open Sys2Proof.Machine

/-- Settles O29: waiting frames, the items of a mailbox and the transmit entry leave as the rules say. -/
theorem ringSends : Obligations.RingSends := by
  unfold Obligations.RingSends
  intro s r t hr hs hclean
  have hport {p : Nat} (hp : p < 4) : exec (.unreservedFrameSend t p) s = .next (unreservedSend r p t) :=
    congrArg Host.Outcome.next ((awake_runs hr _).trans (upTo_lt hp r _))
  have hmail {m : Nat} (hm : m < 4096) : exec (.mailboxSend t m) s = .next (mailboxSend r m t) :=
    congrArg Host.Outcome.next ((awake_runs hr _).trans (upTo_lt hm r _))
  refine ⟨fun p hp hno => (hport hp).trans (congrArg Host.Outcome.next (unreservedSend_none hno)), fun p f hp hup hjoin hfree hnext => ?_,
    fun m h hm hqueue => ?_, fun ini v hsend hv hidle => ?_⟩
  · obtain ⟨wrap, hstep⟩ := unreservedSend_eq hup hjoin hfree hnext
    split
    · next hlate =>
      rw [if_pos hlate] at hstep
      exact (hport hp).trans (congrArg Host.Outcome.next hstep)
    · next hfits =>
      rw [if_neg hfits] at hstep
      obtain ⟨hheld, hmem, hout, hregs⟩ := frameTaken_facts hs.pairs hp t f
      refine ⟨_, (hport hp).trans (congrArg Host.Outcome.next hstep), ?_⟩
      split
      · have hkept := emitFrame_wait (frameTaken r p t f) p t (hdrBytes { f.hdr with wrap := wrap } ++ f.payload ++ f.tag)
        obtain ⟨-, -, -, hsent⟩ := emitFrame_facts (frameTaken r p t f) p t (hdrBytes { f.hdr with wrap := wrap } ++ f.payload ++ f.tag)
        refine ⟨(hkept.held _).trans hheld, hkept.mem.trans hmem, fun _ hrefb => ⟨wrap, ?_⟩⟩
        exact (hsent ((bit_congr hregs _ _ _ _).trans hrefb)).trans (congrArg _ hout)
      · next hsealed =>
        have hkept := sealSend_wait (frameTaken r p t f) (p / 2) p t ((frameTaken r p t f).pourAt t) { f.hdr with wrap := wrap } f.payload
        exact ⟨(hkept.held _).trans hheld, hkept.mem.trans hmem, fun htransit => absurd htransit hsealed⟩
  · split
    · next hno => exact (hmail hm).trans (congrArg Host.Outcome.next (mailboxSend_idle hqueue hno))
    · next hyes => exact ⟨_, hmail hm, mailboxSend_sends hqueue hs hclean hyes⟩
  · have hput : exec (.controlTransmit t ini v) s = .next (controlTransmit (noted r t .zwrCtxCmd 0) v t) :=
      congrArg Host.Outcome.next ((awake_runs hr _).trans (put_zwrCtxCmd (reservedIn_zwrCtxCmd hv)))
    have hq : v.toNat / 2 < 2 := by omega
    have hstep := controlTransmit_eq (s := noted r t .zwrCtxCmd 0) hsend hv hidle t
    generalize hw : noted r t .zwrCtxCmd 0 = w at hput hstep
    have hregs : w.regs = r.regs := by rw [← hw]; rfl
    have hring : w.ring = r.ring := by rw [← hw]; rfl
    have hmem : w.mem = r.mem := by rw [← hw]; rfl
    have hbase : crxBase w = crxBase r := by rw [crxBase, State.activePair, fld_congr hregs, fld_congr hregs, crxBase, State.activePair]
    have hword : ctxWord w = ctxWord r := by rw [ctxWord, hbase, hmem, ctxWord]
    have hframe : ctxFrame w = ctxFrame r := by rw [ctxFrame, hword, hbase, hmem, ctxFrame]
    have hpairOn (q : Nat) : pairOn w q = pairOn r q := by rw [pairOn, bit_congr hregs, fld_congr hregs, pairOn]
    have hedgeOn (p : Nat) : edgeOn w p = edgeOn r p := by rw [edgeOn, bit_congr hregs, edgeOn]
    rw [hword, hframe] at hstep
    intro d frame p q h
    have hd : ctxWord r = d := rfl
    have hf : ctxFrame r = frame := rfl
    have hp : p = 2 ∨ p = 3 := by
      show (if bitOf d 16 then 3 else 2) = 2 ∨ (if bitOf d 16 then 3 else 2) = 3
      split
      · exact .inr rfl
      · exact .inl rfl
    rw [hd, hf, ctxSent] at hstep
    clear_value frame d
    refine ⟨fun hedge => ?_, fun hcontrol hoff => ?_, fun hcontrol hon hscope htyp hlen => ?_⟩
    · rw [if_pos hedge] at hstep
      change controlTransmit w v t = if (!edgeOn w p) = true then w else ctxEdge w p t frame at hstep
      rw [hedgeOn] at hstep
      refine ⟨_, hput.trans (congrArg Host.Outcome.next hstep), ?_⟩
      clear_value p
      cases edgeOn r p with
      | false => exact ⟨hmem, (congrArg Ring.out hring :)⟩
      | true =>
        obtain ⟨hemem, heout⟩ := ctxEdge_facts w hp t frame
        refine ⟨hemem.trans hmem, heout.trans ?_⟩
        rw [bit_congr hregs, hring]
        simp only [true_and]
    · rw [if_neg (by rw [hcontrol]; decide), hpairOn, hoff] at hstep
      exact ⟨_, hput.trans (congrArg Host.Outcome.next hstep), hmem, hring⟩
    · rw [if_neg (by rw [hcontrol]; decide), hpairOn, hon] at hstep
      have hpairs : w.ring.pairs.length = 2 := by rw [hring, hs.pairs]
      have hown : ownAddr w (v.toNat / 2) = ownAddr r (v.toNat / 2) := by
        rw [ownAddr, segOf, staOf, fld_congr hregs, fld_congr hregs, ownAddr, segOf, staOf]
      obtain ⟨hcmem, hbusy, hheld⟩ := ctxRing_facts hpairs hq t hscope htyp hlen
      refine ⟨_, hput.trans (congrArg Host.Outcome.next hstep), hcmem.trans hmem, hbusy, hheld.trans ?_⟩
      rw [hown, State.rpair, hring]
      rfl

end Sys2Proof.Proofs
end

section
/-! PROOF. A ring frame that is received: refused, recorded or stored (R305, R308, R310, R320 to R322). -/

namespace Sys2Proof.Machine

/-! ### The checks (R310) -/

theorem checkFrame_error {s : State} {p t : Nat} {framed : Bool} {bs : List Byte} {c k : Nat}
    (h : checkFrame s p t framed bs = .error (c, k)) : k < 16 := by
  unfold checkFrame at h
  dsimp only at h
  split at h
  · cases h; decide
  split at h
  · cases h; decide
  split at h
  · cases h; decide
  split at h
  · cases h; decide
  split at h
  · cases h; decide
  · cases h

/-- A frame that passes is of version 1 and longer than a header. -/
theorem checkFrame_ok {s : State} {p t : Nat} {framed : Bool} {bs pl : List Byte} (h : checkFrame s p t framed bs = .ok pl) :
    (parseHdr bs).ver = 1 ∧ 24 ≤ bs.length := by
  unfold checkFrame at h
  dsimp only at h
  split at h
  · cases h
  next hlen =>
  split at h
  · cases h
  next hver =>
  have hok : lenOk (parseHdr bs) bs.length = true := by
    cases hok : lenOk (parseHdr bs) bs.length with
    | false => exact absurd (.inr hok) hlen
    | true => rfl
  rw [lenOk, Bool.and_eq_true, decide_eq_true_eq] at hok
  exact ⟨Decidable.not_not.mp fun h => hver (.inl h), by omega⟩

/-! ### Discarding and forwarding (R308, R310) -/

/-- A discarded frame is recorded, with its kind where no record is valid. -/
theorem discardFrame_facts (s : State) (p t src check : Nat) {kind : Nat} (hkind : kind < 16) :
    (discardFrame s p t src check kind).mem = s.mem ∧ (discardFrame s p t src check kind).bit .zwrErr 0 = true ∧
    (s.bit .zwrErr 0 = false → (discardFrame s p t src check kind).fld .zwrErr 11 8 = kind) := by
  have hquiet : noisy (regOff .zwrErr 0 0) = false := by decide
  have hsig : Signals (ringErr s t src p kind) (discardFrame s p t src check kind) :=
    (countEvent_signals _ _ _ _).trans (.ite (pulse_signals _ t (by decide)) (.ite (pulse_signals _ t (by decide)) (.refl _)))
  refine ⟨hsig.mem.trans (record_mem _ _ _ _ _), (hsig.bit _ _ _ _ hquiet).trans (record_valid _ _ _ _ _), fun hnone => ?_⟩
  refine (hsig.fld _ _ _ _ _ hquiet).trans ((fld_record_first hnone t _ (by decide) (by decide)).trans ?_)
  rw [fieldOf, bitsOf, BitVec.toNat_ofNat, Nat.shiftRight_eq_div_pow]
  omega

/-- From s to u a frame took a slot or joined those that the head holds; what pair q has accepted stays. -/
structure Forwarded (q : Nat) (s u : State) : Prop where
  eq : u = { s with ring := u.ring }
  rx : (u.rpair q).rx = (s.rpair q).rx
  pairs : u.ring.pairs.length = s.ring.pairs.length

theorem forwardScheduled_forwarded (s : State) (p t n : Nat) (h : Hdr) (whole : Bool) (rest : List Byte) :
    Forwarded (p / 2) s (forwardScheduled s p t n h whole rest) := by
  have hself : Forwarded (p / 2) s s := ⟨rfl, rfl, rfl⟩
  unfold forwardScheduled
  dsimp only
  split
  · exact hself
  split
  · split
    · generalize hx : ({ s.rpair (p / 2) with head := _ } : RPair) = x
      have hrx : x.rx = (s.rpair (p / 2)).rx := by rw [← hx]
      refine ⟨rfl, ?_, setNth_length _ _ _⟩
      rcases rpair_setRpair_or s (p / 2) x with h | h <;> rw [h]
      exact hrx
    · exact hself
  · exact ⟨rfl, rfl, rfl⟩

/-- What is begun to be forwarded, before the checks that need a key. -/
def begunForward (s : State) (p t : Nat) (bs : List Byte) (whole : Bool) : State :=
  if (parseHdr bs).typ = 1 ∧ (parseHdr bs).ver = 1 ∧ 24 ≤ bs.length then
    forwardScheduled s p t (stampPour s t (parseHdr bs).stamp) (parseHdr bs) whole (bs.drop 24) else s

theorem begunForward_forwarded (s : State) (p t : Nat) (bs : List Byte) (whole : Bool) :
    Forwarded (p / 2) s (begunForward s p t bs whole) := by
  unfold begunForward
  split
  · exact forwardScheduled_forwarded _ _ _ _ _ _ _
  · exact ⟨rfl, rfl, rfl⟩

/-! ### Receipt (R310) -/

theorem frameReceived_closed {s : State} {p : Nat} (h : pairOn s (p / 2) = false ∨ portState s p = 2) (coded : Bool) (wire : List Byte) (t : Nat) :
    frameReceived s p coded wire t = s := by
  refine if_pos ?_
  rcases h with h | h
  · exact .inl (by rw [h]; rfl)
  · refine .inr ?_
    rw [h]
    rfl

/-- Whether a frame is for this station and came from another within the hops (R304, R318). -/
def frameMine (s : State) (q : Nat) (h : Hdr) : Bool := forMe s q h && decide (h.src ≠ ownAddr s q) && !hopsSpent s q h

section
variable {s : State} {p : Nat} (hon : pairOn s (p / 2) = true) (hup : portState s p = 1) {t : Nat} {coded : Bool} {wire : List Byte}
include hon hup

theorem open_of_up : ¬ ((!pairOn s (p / 2)) = true ∨
    (decide (portState s p = 1) || decide (portState s p = 3 ∨ portState s p = 4) && decide ((parseHdr (wire.drop 7)).typ = 4)) = false) := by
  rw [hon, hup]
  simp

/-- A frame that fails a check is discarded where the check comes before the header's or the frame is for this station. -/
theorem frameReceived_error {c k : Nat} (hchk : checkFrame s p t (coded && decide (wire.take 7 = startOctets)) (wire.drop 7) = .error (c, k)) :
    ∃ v, (frameReceived s p coded wire t = if frameMine s (p / 2) (parseHdr (wire.drop 7)) = true ∨ c ≤ 2 then
        discardFrame v p t (parseHdr (wire.drop 7)).src c k else v) ∧ (c ≤ 2 → v = begunForward s p t (wire.drop 7) false) := by
  unfold frameReceived
  dsimp only
  rw [hchk, if_neg (open_of_up hon hup)]
  dsimp only
  rw [if_neg (fun h : decide (2 < c) = true ∧ (none : Option (List Byte)).isSome = true => absurd h.2 (by decide))]
  refine ⟨_, rfl, fun hc => ?_⟩
  simp only [decide_eq_false (Nat.not_lt.mpr hc), decide_eq_true_eq, Bool.false_eq_true, false_and, if_false, begunForward]

/-- A scheduled frame of another station that passes the checks is forwarded, and its copy is taken. -/
theorem frameReceived_group {pl : List Byte} (hchk : checkFrame s p t (coded && decide (wire.take 7 = startOctets)) (wire.drop 7) = .ok pl)
    (htyp : (parseHdr (wire.drop 7)).typ = 1) (hsrc : (parseHdr (wire.drop 7)).src ≠ ownAddr s (p / 2))
    (hhops : hopsSpent s (p / 2) (parseHdr (wire.drop 7)) = false) :
    frameReceived s p coded wire t = groupReceived (begunForward s p t (wire.drop 7) true) p t (parseHdr (wire.drop 7))
      (stampPour (begunForward s p t (wire.drop 7) true) t (parseHdr (wire.drop 7)).stamp) pl := by
  obtain ⟨hver, hlen⟩ := checkFrame_ok hchk
  have hdup : duplicateCheck s p t (parseHdr (wire.drop 7)) = s := if_neg fun h => hsrc h.1
  have hbegun : decide ((parseHdr (wire.drop 7)).typ = 1 ∧ (parseHdr (wire.drop 7)).ver = 1 ∧ 24 ≤ (wire.drop 7).length) = true :=
    decide_eq_true ⟨htyp, hver, hlen⟩
  have hme : forMe s (p / 2) (parseHdr (wire.drop 7)) = true := by
    simp only [forMe, htyp]
  unfold frameReceived
  dsimp only
  rw [hchk, if_neg (open_of_up hon hup)]
  dsimp only
  rw [hdup, ite_self, hme, decide_eq_true hsrc, hhops, if_pos hbegun, if_neg (by decide), if_pos htyp, begunForward,
    if_pos (of_decide_eq_true hbegun)]

end

/-! ### Copies of a group (R320 to R322) -/

section
variable {s : State} {p t m : Nat} {h : Hdr} (hgroup : h.aux < groupsOf s (p / 2)) (hnew : (s.rpair (p / 2)).rx.contains (h.aux, m) = false)
include hgroup hnew

theorem groupReceived_late (hlate : m * s.pourLen < t + 4096) (pl : List Byte) : groupReceived s p t h m pl = s := by
  unfold groupReceived
  dsimp only
  rw [if_neg (Nat.not_le.mpr hgroup), hnew, if_neg (by decide), if_pos hlate]

/-- The first copy is written to the receive store, and the group is taken. -/
theorem groupReceived_first (hs : s.ring.pairs.length = 2) (hp : p < 4) (hclean : s.memErr = []) (htime : ¬ m * s.pourLen < t + 4096)
    (pl : List Byte) :
    (groupReceived s p t h m pl).mem = memWrite s.mem (rxAddr s (p / 2) h.aux m) pl ∧
    ((groupReceived s p t h m pl).rpair (p / 2)).rx = (h.aux, m) :: (s.rpair (p / 2)).rx := by
  obtain ⟨l, hl⟩ := writePhys_clean hclean t .runner (rxAddr s (p / 2) h.aux m) pl
  have hwrite : writeGroup s t (p / 2) h.aux m pl = { s with mem := memWrite s.mem (rxAddr s (p / 2) h.aux m) pl, carLast := l } := by
    rw [writeGroup, hl]
    rfl
  unfold groupReceived
  dsimp only
  rw [if_neg (Nat.not_le.mpr hgroup), hnew, if_neg (by decide), if_neg htime, hwrite]
  generalize hv : ({ s with mem := memWrite s.mem (rxAddr s (p / 2) h.aux m) pl, carLast := l } : State) = v
  have hmem : v.mem = memWrite s.mem (rxAddr s (p / 2) h.aux m) pl := by rw [← hv]
  have hpairs : v.ring.pairs.length = 2 := by rw [← hv]; exact hs
  generalize hx : ({ s.rpair (p / 2) with rx := (h.aux, m) :: (s.rpair (p / 2)).rx, missing := _, fresh := _ } : RPair) = x
  have hrx : x.rx = (h.aux, m) :: (s.rpair (p / 2)).rx := by rw [← hx]
  have hpair : (v.setRpair (p / 2) x).rpair (p / 2) = x := rpair_setRpair hpairs (by omega) x
  obtain ⟨n0, n1, n2, n3⟩ := tagCounts 256 pl
  have hsig := (((countEvents_signals (v.setRpair (p / 2) x) t 0x0E 0 n0).trans (countEvents_signals _ t 0x0E 1 n1)).trans
    (countEvents_signals _ t 0x0E 2 n2)).trans (countEvents_signals _ t 0x0E 3 n3)
  refine ⟨hsig.mem.trans hmem, ?_⟩
  rw [State.rpair, hsig.ring]
  exact (congrArg RPair.rx hpair).trans hrx

end

namespace Forwarded

variable {q : Nat} {s u : State} (h : Forwarded q s u)
include h

theorem regs : u.regs = s.regs := by rw [h.eq]
theorem mem : u.mem = s.mem := by rw [h.eq]
theorem memErr : u.memErr = s.memErr := by rw [h.eq]

theorem pourLen : u.pourLen = s.pourLen := by
  rw [State.pourLen, fld_congr h.regs, fld_congr h.regs, State.pourLen]

theorem groups : groupsOf u q = groupsOf s q := fld_congr h.regs _ _ _ _ _

theorem rxAddr (g m : Nat) : rxAddr u q g m = rxAddr s q g m := by
  rw [Machine.rxAddr, ringDelay, fld_congr h.regs, fld_congr h.regs, h.groups, Machine.rxAddr, ringDelay]

theorem stampPour (t stamp : Nat) : stampPour u t stamp = stampPour s t stamp := by
  have hpour : u.pourAt t = s.pourAt t := pourAt_congr (reg_congr h.regs _ _ _) (by rw [h.eq]) (by rw [h.eq]) t
  rw [Machine.stampPour, hpour, Machine.stampPour]

end Forwarded

end Sys2Proof.Machine

namespace Sys2Proof.Proofs

open Sys2Proof.Machine

/-- Settles O26: a ring frame that is received is refused, recorded, or stored as the first copy of its group. -/
theorem ringFrameReceived : Obligations.RingFrameReceived := by
  unfold Obligations.RingFrameReceived
  intro s r t p coded wire hr hp hclean hs bytes h m a0
  have hrun : exec (.ringFrameReceived t p coded wire) s = .next (frameReceived r p coded wire t) :=
    congrArg Host.Outcome.next ((awake_runs hr _).trans (upTo_lt hp r _))
  refine ⟨fun hclosed => hrun.trans (congrArg Host.Outcome.next (frameReceived_closed hclosed coded wire t)), fun hon hup => ⟨_, hrun, ?_⟩⟩
  cases hchk : checkFrame r p t (coded && decide (wire.take 7 = startOctets)) bytes with
  | error e =>
    obtain ⟨c, k⟩ := e
    obtain ⟨v, hstep, hv⟩ := frameReceived_error hon hup hchk
    obtain ⟨hmem, hvalid, hkind⟩ := discardFrame_facts v p t h.src c (checkFrame_error hchk)
    refine ⟨fun hc => ?_, fun hme hsrc hhops => ?_⟩
    · have hfwd := begunForward_forwarded r p t bytes false
      rw [← hv hc] at hfwd
      rw [hstep, if_pos (.inr hc)]
      exact ⟨hmem.trans hfwd.mem, hvalid, fun hnone => hkind ((bit_congr hfwd.regs _ _ _ _).trans hnone)⟩
    · have hmine : frameMine r (p / 2) h = true := by
        rw [frameMine, hme, decide_eq_true hsrc, hhops]
        rfl
      rw [hstep, if_pos (.inl hmine)]
      exact hvalid
  | ok pl =>
    intro htyp hsrc hhops hgroup hnew
    have hfwd := begunForward_forwarded r p t bytes true
    have hstep := frameReceived_group hon hup hchk htyp hsrc hhops
    generalize begunForward r p t (wire.drop 7) true = v at hfwd hstep
    rw [hfwd.stampPour] at hstep
    have hvgroup : h.aux < groupsOf v (p / 2) := hfwd.groups ▸ hgroup
    have hvnew : (v.rpair (p / 2)).rx.contains (h.aux, m) = false := hfwd.rx ▸ hnew
    split
    · next hlate =>
      rw [hstep, groupReceived_late hvgroup hvnew (hfwd.pourLen ▸ hlate)]
      exact ⟨hfwd.mem, hfwd.rx⟩
    · next htime =>
      obtain ⟨hmem, hrx⟩ := groupReceived_first hvgroup hvnew (hfwd.pairs.trans hs.pairs) hp (hfwd.memErr.trans hclean)
        (hfwd.pourLen ▸ htime) pl
      rw [hfwd.rxAddr, hfwd.mem] at hmem
      obtain ⟨hread, hout⟩ := memWrite_window (a := a0) hs.mem (rfl : pl.length = pl.length)
      rw [hstep]
      refine ⟨(congrArg (memRead · a0 pl.length) hmem).trans hread, ?_, fun a ha => (congrArg (memGet · a) hmem).trans (hout a ha)⟩
      rw [hrx]
      exact List.contains_iff_mem.mpr List.mem_cons_self

end Sys2Proof.Proofs
end

section
/-! PROOF. A channel record with more bytes than a record has reaches the table of the queue descriptors (R277, R378, R380). -/

namespace Sys2Proof.Machine

/-! ### Bytes in the middle of what is written -/

theorem memRead_memWrite_middle {m : List Host.Cell} (hwf : Memory.wf m = true) (a : Nat) (xs ys zs : List Byte) :
    memRead (memWrite m a (xs ++ (ys ++ zs))) (a + xs.length) ys.length = ys := by
  have hread := (memRead_memWrite_append hwf a xs (ys ++ zs)).2
  have htake := congrArg (List.take ys.length) hread
  rwa [take_memRead _ _ (by simp), List.take_left] at htake

/-! ### Nothing on its way to a store (R281) -/

theorem sends_present {c d : Core} (h : PresentOnly c d) : d.sends = c.sends := (congrArg Core.sends h :)

theorem inTransit_none {s : State} (hcores : ∀ c ∈ s.cores, c.sends = []) (hiops : s.iops = []) (h : Nat) : inTransit s h = 0 := by
  have hsum (l : List Core) (hl : ∀ c ∈ l, c.sends = []) (a : Nat) :
      l.foldl (fun a c => a + (c.sends.filter fun e => e.q = h).length) a = a := by
    induction l generalizing a with
    | nil => rfl
    | cons c l ih =>
      rw [List.foldl_cons, hl c List.mem_cons_self]
      exact ih (fun d hd => hl d (List.mem_cons_of_mem _ hd)) a
  rw [inTransit, hsum _ hcores, hiops]
  rfl

/-- Events begin no send. -/
theorem sends_signals {s u : State} (h : Signals s u) (hcores : ∀ c ∈ s.cores, c.sends = []) : ∀ c ∈ u.cores, c.sends = [] := by
  intro c hc
  obtain ⟨i, hi, rfl⟩ := List.getElem_of_mem hc
  have hcore : u.core (.eduno i) = u.cores[i] := by
    rw [State.core, nth, List.getD_eq_getElem?_getD, List.getElem?_eq_getElem hi]
    rfl
  have hsends : u.cores[i].sends = (s.core (.eduno i)).sends := hcore ▸ sends_present (h.core (.eduno i))
  rw [hsends, State.core, nth, List.getD_eq_getElem?_getD]
  cases hs : s.cores[i]? with
  | none => rfl
  | some d => exact hcores d (List.mem_of_getElem? hs)

/-! ### A queue in the bytes of a record (R277) -/

/-- The descriptor of a message queue of Crema, enabled, whose next slot is the 24th of 25 from the start of DRAM on. -/
def recordDesc : List Byte := [0x71000000, 0x80000000, 0x10000000, 25 * 2 ^ 16, 0, 1, 0, 24].flatMap (toBytesLE 4)

section
variable {s : State} (hdesc : memRead s.mem qdBase 32 = recordDesc)
include hdesc

theorem qdWord_record {off : Nat} (hoff : off + 4 ≤ 32) : s.qdWord 0 off = BitVec.ofNat 32 (ofBytesLE ((recordDesc.drop off).take 4)) := by
  rw [← hdesc, word_memRead _ _ hoff]
  rfl

/-- The descriptor's fields: an empty queue with room, whose next slot lies 192 bytes into DRAM. -/
theorem recordQueue_fields : qProducer s 0 = 0x7100 ∧ qKind s 0 = 0 ∧ qStore s 0 = carBase ∧ qCapacity s 0 = 25 ∧ qCredLeft s 0 = 1 ∧
    qCount s 0 = 0 ∧ qHead s 0 = 24 := by
  simp only [qProducer, qKind, qStore, qCapacity, qCredLeft, qCount, qHead, State.qdFld, qdWord_record hdesc (off := 0) (by decide),
    qdWord_record hdesc (off := 4) (by decide), qdWord_record hdesc (off := 8) (by decide), qdWord_record hdesc (off := 0xC) (by decide),
    qdWord_record hdesc (off := 0x14) (by decide), qdWord_record hdesc (off := 0x1C) (by decide)]
  decide +kernel

theorem recordQueue_enabled (hq : s.queues = [(0, QueueSt.empty)]) : qEn s 0 = true := by
  have hsound : (s.queue 0).bad = false := by
    rw [State.queue, hq]
    rfl
  rw [qEn, hsound, qdWord_record hdesc (off := 4) (by decide)]
  decide +kernel

theorem recordQueue_found (hq : s.queues = [(0, QueueSt.empty)]) :
    (queueHandles s).find? (fun h => decide (qProducer s h = 0x7100 ∧ qKind s h = 0)) = some 0 := by
  have hen := recordQueue_enabled hdesc hq
  obtain ⟨hproducer, hkind, -⟩ := recordQueue_fields hdesc
  have hhandles : queueHandles s = [0] := by
    rw [queueHandles, hq]
    simp [hen]
  rw [hhandles]
  simp [hproducer, hkind]

/-- An item that Crema announces lands in that slot. -/
theorem crmAnnounce_slot (hq : s.queues = [(0, QueueSt.empty)]) (hclean : s.memErr = []) (hwf : Memory.wf s.mem = true)
    (hcores : ∀ c ∈ s.cores, c.sends = []) (hiops : s.iops = []) (c item t : Nat) :
    memRead (crmAnnounce s c item t).mem (carBase + 192) 8 = toBytesLE 8 (BitVec.ofNat 48 item).toNat := by
  obtain ⟨hproducer, hkind, hstore, hcap, hcred, hcount, hhead⟩ := recordQueue_fields hdesc
  have htakes : portTakes s 0 0x7100 = true := by
    rw [portTakes, recordQueue_enabled hdesc hq, hproducer, hkind, hcred, hcount, hcap, inTransit_none hcores hiops]
    rfl
  have hsend : crmAnnounce s c item t = storeItem (s.setQdFld 0 0x14 15 0 (qCredLeft s 0 - 1)) t 0 (toBytesLE 8 (BitVec.ofNat 48 item).toNat) := by
    rw [crmAnnounce, recordQueue_found hdesc hq]
    exact if_pos htakes
  have hother {off : Nat} (hoff : off + 4 ≤ 0x14 ∨ 0x18 ≤ off) (hi lo : Nat) :
      (s.setQdFld 0 0x14 15 0 (qCredLeft s 0 - 1)).qdFld 0 off hi lo = s.qdFld 0 off hi lo :=
    qdFld_setQdFld_word hwf 0 15 0 _ hi lo hoff
  have hword : (s.setQdFld 0 0x14 15 0 (qCredLeft s 0 - 1)).qdWord 0 8 = s.qdWord 0 8 :=
    qdWord_setQdFld_ne hwf 0 15 0 _ (.inl (by decide))
  have hwf' : Memory.wf (s.setQdFld 0 0x14 15 0 (qCredLeft s 0 - 1)).mem = true := memWrite_wf hwf
  have hclean' : (s.setQdFld 0 0x14 15 0 (qCredLeft s 0 - 1)).memErr = [] := hclean
  rw [hsend]
  generalize s.setQdFld 0 0x14 15 0 (qCredLeft s 0 - 1) = v at hother hword hwf' hclean' ⊢
  have hvkind : qKind v 0 = 0 := (hother (.inl (by decide)) _ _).trans hkind
  have hvcap : qCapacity v 0 = 25 := (hother (.inl (by decide)) _ _).trans hcap
  have hvcount : qCount v 0 = 0 := (hother (.inr (by decide)) _ _).trans hcount
  have hvhead : qHead v 0 = 24 := (hother (.inr (by decide)) _ _).trans hhead
  have hvstore : qStore v 0 = carBase := by rw [qStore, hword, ← hstore, qStore]
  have hslot : slotBytes v 0 = 8 := slotBytes_message hvkind
  have htail : tailAddr v 0 = carBase + 192 := by
    rw [tailAddr, tailSlot, hvstore, hslot, hvcap, hvcount, hvhead]
    decide
  have hstored := storeItem_stored hclean' t 0 (toBytesLE 8 (BitVec.ofNat 48 item).toNat) hwf' (by rw [hslot, length_toBytesLE])
    (by rw [hvstore, hslot, hvcap]; decide) (by rw [hvcount]; decide)
  have hitem := hstored.item
  rwa [htail, length_toBytesLE] at hitem

end

/-! ### The record (R378) -/

/-- The state as a channel's record stands in memory, before its item is sent. -/
def recordPut (s : State) (c sq t : Nat) (bs : List Byte) : State :=
  let s := (writePhys s t .runner (crmBase s + 192 * (2 * c + sq % 2)) bs).2
  let s := s.setCrm c { s.crm c with ovl := false }
  pulse ((s.setFld .crmChStat 17 2 sq c).raise t .crmChStat 2 c) (384 + c) t

/-- The first 20 bytes of a record. -/
def recordHead (c mode sq stop n probed fl : Nat) : List Byte :=
  toBytesLE 4 (0x01000000 + c * 2 ^ 19 + mode * 2 ^ 17 + sq) ++ toBytesLE 8 stop ++ toBytesLE 4 (n * 2 ^ 16 + probed) ++ toBytesLE 4 fl

theorem length_recordHead (c mode sq stop n probed fl : Nat) : (recordHead c mode sq stop n probed fl).length = 20 := by
  simp [recordHead]

/-- The sequence number and the flags of the next record. -/
def recordSeq (s : State) (c : Nat) : Nat := (s.fld .crmChStat 17 2 c + 1) % 2 ^ 16
def recordFlags (s : State) (c flags : Nat) : Nat := crmFaults s c + flags + (if (s.crm c).ovl then 0x100 else 0)

theorem crmRecord_eq (s : State) (c mode stop n probed flags : Nat) (body : List Byte) (t : Nat) :
    crmRecord s c mode stop n probed flags body t =
      crmAnnounce (recordPut s c (recordSeq s c) t (recordHead c mode (recordSeq s c) stop n probed (recordFlags s c flags) ++
          (body ++ List.replicate 12 0))) c
        (c + mode * 2 ^ 5 + recordSeq s c * 2 ^ 7 + recordFlags s c flags * 2 ^ 23) t := by
  rw [← List.append_assoc]
  rfl

theorem recordPut_signals {s : State} (hclean : s.memErr = []) {c : Nat} (hc : c < 32) (sq t : Nat) (bs : List Byte) :
    ∃ v, Signals v (recordPut s c sq t bs) ∧ v.mem = memWrite s.mem (crmBase s + 192 * (2 * c + sq % 2)) bs ∧ v.memErr = s.memErr ∧
      v.queues = s.queues ∧ v.cores = s.cores ∧ v.iops = s.iops := by
  obtain ⟨l, hl⟩ := writePhys_clean hclean t .runner (crmBase s + 192 * (2 * c + sq % 2)) bs
  unfold recordPut
  dsimp only
  rw [hl]
  exact ⟨_, pulse_signals _ t (by omega), rfl, rfl, rfl, rfl, rfl⟩

/-- The item of the first record of channel 0 takes the place of the record's first bytes. -/
theorem crmRecord_overwritten {s : State} (hclean : s.memErr = []) (hwf : Memory.wf s.mem = true) (hq : s.queues = [(0, QueueSt.empty)])
    (hcores : ∀ c ∈ s.cores, c.sends = []) (hiops : s.iops = []) (hbase : crmBase s = carBase) (hseq : recordSeq s 0 = 1) {k : Nat}
    (hk : carBase + 192 + (20 + k) = qdBase) (stop n probed flags : Nat) (tones : List Byte) (t : Nat) :
    memGet (crmRecord s 0 2 stop n probed flags (List.replicate k 0 ++ recordDesc ++ tones) t).mem (carBase + 192) = 0xC0 := by
  rw [crmRecord_eq, hseq]
  generalize hh : recordHead 0 2 1 stop n probed (recordFlags s 0 flags) = head
  have hhead : head.length = 20 := by rw [← hh, length_recordHead]
  have hbytes : head ++ (List.replicate k 0 ++ recordDesc ++ tones ++ List.replicate 12 0) =
      (head ++ List.replicate k 0) ++ (recordDesc ++ (tones ++ List.replicate 12 0)) := by simp only [List.append_assoc]
  rw [hbytes]
  obtain ⟨v, hsig, hvmem, hverr, hvq, hvcores, hviops⟩ := recordPut_signals hclean (c := 0) (by decide) 1 t
    ((head ++ List.replicate k 0) ++ (recordDesc ++ (tones ++ List.replicate 12 0)))
  have hmiddle := memRead_memWrite_middle hwf (carBase + 192) (head ++ List.replicate k 0) recordDesc (tones ++ List.replicate 12 0)
  rw [List.length_append, hhead, List.length_replicate, hk] at hmiddle
  rw [hbase] at hvmem
  have hmem := hsig.mem.trans hvmem
  generalize recordPut s 0 1 t ((head ++ List.replicate k 0) ++ (recordDesc ++ (tones ++ List.replicate 12 0))) = w at hsig hmem
  have hdesc : memRead w.mem qdBase 32 = recordDesc := by
    rw [hmem]
    exact hmiddle
  have hiw : w.iops = [] := (congrArg State.iops hsig.eq :).trans (hviops.trans hiops)
  have hslot := crmAnnounce_slot hdesc (hsig.queues.trans (hvq.trans hq)) (hsig.memErr.trans (hverr.trans hclean))
    (by rw [hmem]; exact memWrite_wf hwf) (sends_signals hsig (hvcores ▸ hcores)) hiw 0
    (0 + 2 * 2 ^ 5 + 1 * 2 ^ 7 + recordFlags s 0 flags * 2 ^ 23) t
  have hfirst := congrArg (List.headD · 0) hslot
  rw [memRead, toBytesLE] at hfirst
  refine hfirst.trans (BitVec.eq_of_toNat_eq ?_)
  have hbyte : (0xC0 : Byte).toNat = 192 := rfl
  simp only [List.headD_cons, BitVec.toNat_ofNat, hbyte]
  omega

/-! ### A stage B with a record too long (R364) -/

/-- The state after reset with a queue whose descriptor is zero, and stage B of channel 0 ended in cycle 0: the body that stage A left
is n zeros and a descriptor. -/
def resting : State := { State.reset with queues := [(0, QueueSt.empty)] }

def longSweep (n : Nat) : State :=
  { resting with crema := { resting.crema with
      chans := setNth resting.crema.chans 0 { CrmChan.zero with done := some (⟨2, 0, 0, 0⟩, 0), body := List.replicate n 0 ++ recordDesc } } }

theorem longSweep_runs (n : Nat) : runsAt (longSweep n) 0 (longSweep n) := by
  refine runs_rest ?_ rfl (Nat.le_refl _)
  have hdue : dueItems (longSweep n) = dueItems resting := rfl
  rw [hdue]
  decide +kernel

theorem longSweep_shaped (n : Nat) : Shaped (longSweep n) := ⟨rfl, rfl, rfl, rfl, rfl, setNth_length _ _ _, rfl, rfl, rfl, rfl⟩

theorem longSweep_quiet (n : Nat) : queueHandles (longSweep n) = [] := by
  have hsame : queueHandles (longSweep n) = queueHandles resting := rfl
  rw [hsame]
  decide +kernel

theorem longSweep_done (n : Nat) : ((longSweep n).crm 0).done = some (⟨2, 0, 0, 0⟩, 0) := rfl

theorem longSweep_seq (n : Nat) : (longSweep n).fld .crmChStat 17 2 0 = 0 ∧ crmBase (longSweep n) = carBase := by
  have hsame : (longSweep n).fld .crmChStat 17 2 0 = resting.fld .crmChStat 17 2 0 ∧ crmBase (longSweep n) = crmBase resting := ⟨rfl, rfl⟩
  rw [hsame.1, hsame.2]
  decide +kernel

/-- The record of a sweep has the bytes that stage A left, and some of the tones. -/
theorem crmSweepRecord_mem (s : State) (c stop n probed : Nat) (tones : List Byte) (omitted : Bool) (t : Nat) :
    ∃ flags, (crmSweepRecord s c stop n probed tones omitted t).mem = (crmRecord s c 2 stop n probed flags ((s.crm c).body ++ tones) t).mem := by
  refine ⟨ofBool (s.crm c).noProbe * 0x80 + ofBool omitted * 0x800, ?_⟩
  unfold crmSweepRecord
  exact setCrm_mem _ _ _

theorem nightStageBEnd_eq {s : State} {c stop : Nat} {w : CrmWin} (hdone : (s.crm c).done = some (w, stop)) (hstage : w.stage = 2)
    (m : CrmMeas) (t : Nat) : ∃ n tones, nightStageBEnd s c m t =
      crmSweepRecord (s.setCrm c { s.crm c with done := none }) c stop n w.probed tones false t := by
  unfold nightStageBEnd
  rw [hdone]
  dsimp only
  exact ⟨_, _, if_neg (not_not_intro hstage)⟩

theorem exec_nightStageBEnd {s r : State} {t c : Nat} (hr : runsAt s t r) (hc : c < 32) (m : CrmMeas) :
    exec (.nightStageBEnd t c m) s = .next (nightStageBEnd r c m t) :=
  congrArg Host.Outcome.next ((awake_runs hr _).trans (upTo_lt hc r _))

/-- The first byte of the sweep's record is the item's. -/
theorem longSweep_overwritten {k : Nat} (hk : carBase + 192 + (20 + k) = qdBase) (m : CrmMeas) :
    memGet (nightStageBEnd (longSweep k) 0 m 0).mem (carBase + 192) = 0xC0 := by
  obtain ⟨hseq, hbase⟩ := longSweep_seq k
  have hcores : ∀ c ∈ resting.cores, c.sends = [] := by
    intro c hc
    rw [List.eq_of_mem_replicate (show c ∈ List.replicate 68 Core.reset from hc)]
    rfl
  generalize hs : longSweep k = s at hseq hbase
  generalize hv : s.setCrm 0 { s.crm 0 with done := none } = v
  have hbody : (v.crm 0).body = List.replicate k 0 ++ recordDesc := by
    rw [← hv, ← hs]
    rfl
  have hdone : (s.crm 0).done = some (⟨2, 0, 0, 0⟩, 0) := hs ▸ longSweep_done k
  obtain ⟨n, tones, hstep⟩ := nightStageBEnd_eq hdone rfl m 0
  rw [hv] at hstep
  obtain ⟨flags, hmem⟩ := crmSweepRecord_mem v 0 0 n 0 tones false 0
  rw [hstep]
  rw [hmem, hbody]
  have hvs : v.memErr = [] ∧ Memory.wf v.mem = true ∧ v.queues = [(0, QueueSt.empty)] ∧ v.cores = resting.cores ∧ v.iops = [] := by
    rw [← hv, ← hs]
    exact ⟨rfl, rfl, rfl, rfl, rfl⟩
  obtain ⟨hclean, hwf, hq, hvcores, hiops⟩ := hvs
  have hregs : v.regs = s.regs := by
    rw [← hv]
    rfl
  have hvbase : crmBase v = carBase := by rw [crmBase, fld_congr hregs, ← crmBase, hbase]
  have hvseq : recordSeq v 0 = 1 := by
    rw [recordSeq, fld_congr hregs, hseq]
    decide
  exact crmRecord_overwritten hclean hwf hq (hvcores ▸ hcores) hiops hvbase hvseq hk 0 n 0 flags tones 0

end Sys2Proof.Machine

namespace Sys2Proof.Proofs

open Sys2Proof.Machine

/-- Refutes O34: nothing in its hypotheses bounds the bytes that stage A left of a channel's record. In a state that no run reaches, with
so many of them that the record of stage B covers the first queue descriptor and gives it the bytes of an enabled queue of Crema, the
item that announces the record lands on the record's first bytes. -/
theorem not_cremaWindows : ¬ Obligations.CremaWindows := by
  unfold Obligations.CremaWindows
  rintro ⟨hwindows, -, -⟩
  obtain ⟨k, hk⟩ : ∃ k, carBase + 192 + (20 + k) = qdBase := ⟨qdBase - carBase - 212, by norm_num [qdBase, carBase]⟩
  have hrun := longSweep_runs k
  have hexec := exec_nightStageBEnd hrun (c := 0) (by decide) ⟨[], false⟩
  obtain ⟨-, -, hstageB⟩ := hwindows (longSweep k) (longSweep k) 0 0 ⟨2, 0, 0, 0⟩ 0 ⟨[], false⟩ hrun (by decide) (longSweep_shaped k)
    (longSweep_quiet k) rfl (longSweep_done k)
  obtain ⟨u, hu, -, ⟨-, hread⟩, -⟩ := hstageB rfl
  obtain rfl := Host.Outcome.next.inj (hexec.symm.trans hu)
  have hover := longSweep_overwritten hk ⟨[], false⟩
  obtain ⟨hseq, hbase⟩ := longSweep_seq k
  have hplace : carBase + 192 * (2 * 0 + (0 + 1) % 2 ^ 16 % 2) = carBase + 192 := rfl
  rw [hseq, hbase, hplace] at hread
  have hfirst := congrArg (List.headD · 0) hread
  rw [memRead, List.headD_cons, hover] at hfirst
  exact absurd hfirst (by decide)

end Sys2Proof.Proofs
end
